-- ==== Sys2Proof/Word.lean ====
section
/-!
DEFINITION. The words of the part: a register word (32 bits, R8), a byte, and a bit field of a register word.
-/
namespace Sys2Proof

/-- A register word. -/
abbrev Word := BitVec 32

/-- A byte of a frame, a packet or a memory. -/
abbrev Byte := BitVec 8

/-- A bit field [hi:lo] of a register. -/
structure Fld where
  hi : Nat
  lo : Nat
  deriving DecidableEq, Repr

end Sys2Proof
end

