-- ==== Sys2Proof/Machine/Bits.lean ====
section
/-!
DEFINITION. Bit fields and fixed-width numbers (R7: a bit range is written [msb:lsb], bit 0 the least significant bit).
-/
namespace Sys2Proof

/-- The number of bits of a field. -/
def Fld.width (f : Fld) : Nat := f.hi + 1 - f.lo

/-- The value of bits [hi:lo] of `n`. -/
def bitsOf (n hi lo : Nat) : Nat := n / 2 ^ lo % 2 ^ (hi + 1 - lo)

/-- Bit `i` of `n`, as 0 or 1. -/
def bitOf (n i : Nat) : Nat := n / 2 ^ i % 2

/-- `n` with bits [hi:lo] replaced by the low bits of `v`. -/
def setBits (n hi lo v : Nat) : Nat :=
  n - bitsOf n hi lo * 2 ^ lo + v % 2 ^ (hi + 1 - lo) * 2 ^ lo

/-- The signed value of the low `w` bits of `n` (two's complement). -/
def signed (w n : Nat) : Int :=
  let m := n % 2 ^ w
  if m < 2 ^ (w - 1) then (m : Int) else (m : Int) - (2 ^ w : Nat)

/-- The low `w` bits of an integer, as a natural number (two's complement). -/
def unsigned (w : Nat) (i : Int) : Nat := (i % ((2 ^ w : Nat) : Int)).toNat

/-- `i` clamped to the range of a signed `w`-bit number. -/
def satS (w : Nat) (i : Int) : Int :=
  let m : Int := ((2 ^ (w - 1) : Nat) : Int)
  if i < -m then -m else if i > m - 1 then m - 1 else i

/-- Ceiling of a / b, 0 for b = 0. -/
def ceilDiv (a b : Nat) : Nat := if b = 0 then 0 else (a + b - 1) / b

/-- Floor division by a power of two, for integers (an arithmetic right shift). -/
def asr (i : Int) (n : Nat) : Int := i.fdiv ((2 ^ n : Nat) : Int)

end Sys2Proof
end

