-- ==== Sys2Proof/Machine/Types.lean ====
section
/-!
DEFINITION. The data that commands carry and that queues hold: messages, frames, packets, blocks of samples, and what
the part hands to the outside. Plain data only.
-/
namespace Sys2Proof.Machine

/-- A membership query (R220) by its protocol version: IGMPv1 or IGMPv2, IGMPv3, MLDv1, MLDv2. -/
inductive QueryKind where
  | igmpOld | igmp3 | mld1 | mld2
  deriving DecidableEq, Repr

/-- MLD, for the IPv6 groups. -/
def QueryKind.v6 : QueryKind → Bool
  | .mld1 | .mld2 => true
  | _ => false

/-- A version before IGMPv3 and MLDv2. -/
def QueryKind.old : QueryKind → Bool
  | .igmpOld | .mld1 => true
  | _ => false

/-- Message types of IEEE 1588-2019 that reach an instance (R71, R72). -/
inductive PtpKind where
  | sync | followUp | delayReq | delayResp
  | pdelayReq | pdelayResp | pdelayRespFollowUp
  | announce | management | signaling
  deriving DecidableEq, Repr

/-- A PTP message as one instance receives or sends it. Times and corrections are in units of 2^−16 ns. `capture` is
the timestamp R77 captures at the PCS/MII boundary. -/
structure PtpMsg where
  kind      : PtpKind
  sdo       : Nat
  domain    : Nat
  transport : Nat
  source    : Nat
  seq       : Nat
  corr      : Int
  ts        : Int
  twoStep   : Bool
  capture   : Int
  prio1     : Nat
  cls       : Nat
  accuracy  : Nat
  variance  : Nat
  prio2     : Nat
  gmId      : Nat
  steps     : Nat
  ptpTimescale : Bool
  utcOffset : Int
  timeSource : Nat
  requester : Nat                      -- requestingPortIdentity of a response
  deriving DecidableEq, Repr

/-- The pulse pins of the part. -/
inductive Pin where
  | ppsOut (n : Nat) | tickOut | trigOut (n : Nat)
  deriving DecidableEq, Repr

/-- What a transmitted frame is for. -/
inductive FrameKind where
  | ptpEvent | ptpGeneral | arp | neighbour | icmp | membership
  | brood | announce | honey | waggle | event | trigger | reply | health | workerRecord | verify | respond
  deriving DecidableEq, Repr

/-- A frame or a send on a transmit queue: its queue, its length in bytes as the queue accounts it, the tick in which its
producer handed it on, at whose end the wait is given up, and its payload. `sid` numbers the bulk send it belongs to, 0 for none; `ptp` is set for PTP messages only. -/
structure TxFrame where
  kind  : FrameKind
  src   : Nat
  sid   : Nat
  queue : Nat
  len   : Nat
  age   : Nat
  dst   : Nat
  bytes : List Byte
  ptp   : Option PtpMsg
  deriving DecidableEq, Repr

/-- What leaves the part: MSI-X messages, frames on a port, the cut of a pre-empted frame after that many of its bytes (R211), pulses on a pin,
the active level a pin shows over a span that a keeper gap stretched or delayed (R556), writes to host memory, characters on the
monitor UART, and what reads of the part return. -/
inductive Out where
  | msix (vec : Nat)
  | frame (port : Nat) (f : TxFrame)
  | cut (port bytes : Nat)
  | held (pin : Pin) (start till : Int)
  | pulse (pin : Pin) (start : Int) (widthNs : Nat) (activeLow : Bool)
  | hostWrite (addr : Nat) (bytes : List Byte)
  | uart (bytes : List Byte)
  | readData (addr : Nat) (bytes : List Byte) (uncorr : Bool)
  deriving DecidableEq, Repr

/-- A stretch of the line stream of a nectar lane, first bit first, with the run of equal bits it continues (R126): its length, 0 at the start
of the lane, and its bits' value. -/
structure LaneBits where
  run  : Nat
  last : Bool
  bits : List Bool
  deriving DecidableEq, Repr

/-- One payload word of a port stream as it reaches the deskew stage: the line bits that carry payload word q of each lane of the bundle,
D0 to D15 and PAR, for the q the word lies at. Lanes the receiver does not use have none. -/
structure NecWord where
  lanes : List LaneBits
  deriving DecidableEq, Repr

/-- Why an input has no native samples for a tick (Table 5-5), with `none` for an accepted block. -/
inductive NecCause where
  | none | hdrErr | laneLost | crcErr | mismatch | stepped | early | late | dup | noneReceived
  deriving DecidableEq, Repr

/-- The native samples of one input for one tick as they reach the filter slots (R144), or their absence with its
cause (R143). -/
structure NativeTick where
  input   : Nat
  tick    : Nat
  phase   : Nat
  bits    : Nat
  samples : List Int
  cause   : NecCause
  deriving DecidableEq, Repr

/-- A sample on its way through a filter slot, with the absence mark it carries, `none` for no mark: `gap` tells an
absent sample (R167) from one of a TAINTED slot, which keeps its value (R168). -/
structure Smp where
  v   : Int
  c   : NecCause
  gap : Bool
  deriving DecidableEq, Repr

/-- The canonical samples of one input for one grid tick, as the slot delivers them, with their hit bits (R166, R169). -/
structure CanonTick where
  input   : Nat
  tick    : Nat
  replay  : Bool
  samples : List Smp
  hits    : List Bool
  deriving DecidableEq, Repr

/-- What an mPacket of the MAC merge sublayer carries (R211): a whole express frame, the start of a pre-emptable frame
with its frame count, or a continuation with its frame and fragment counts; verify and respond mPackets. -/
inductive MPkt where
  | express | start (frame : Nat) | cont (frame frag : Nat) | verify | respond
  deriving DecidableEq, Repr

/-- A frame or mPacket as a port receives it: its bytes from the destination address to the FCS, what the RS-FEC decoder
and the check sequence say, whether it is the last fragment, and its receive timestamp in 2^−16 ns. -/
structure RxFrame where
  mpkt   : MPkt
  last   : Bool
  checkOk : Bool
  fecBad : Bool
  bytes  : List Byte
  stamp  : Int
  deriving DecidableEq, Repr

/-- The fixed handlers of Table 8-3 and the classifier actions of Table 8-4 that take a frame on. -/
inductive RxKind where
  | esmc | arp | neighbour | icmp | membership | ptp | command | announce | trigger
  | brood (session : Nat) | host (channel : Nat)
  deriving DecidableEq, Repr

/-- A received message on its way to its handler: its port, the address it came from, the UDP port and the MAC address it
came from (0 where it is no UDP datagram), and its bytes, the UDP payload for a UDP frame and the whole frame otherwise. -/
structure RxItem where
  kind  : RxKind
  port  : Nat
  src   : Nat
  bytes : List Byte
  stamp : Int
  sport : Nat
  smac  : Nat
  deriving DecidableEq, Repr

/-- A bulk send a producer hands a port (R213): the header template, the hive header with the places of FRAME_OFFSET and
FRAME_LAST in it, the record granule and the records. `age` is the tick in which it was handed on. -/
structure Send where
  kind    : FrameKind
  src     : Nat
  sid     : Nat
  port    : Nat
  queue   : Nat
  age     : Nat
  tmpl    : List Byte
  hdr     : List Byte
  offAt   : Nat
  lastAt  : Nat
  lastBit : Nat
  gran    : Nat
  data    : List Byte
  deriving DecidableEq, Repr

/-- An error of a dwell-store entry, as the store's check meets it: corrected, uncorrectable, or a wrong value that no check
sees, which only the witness can find (R269, R272). -/
structure DstoreErr where
  comb : Nat
  slot : Nat
  bank : Nat
  cell : Nat
  kind : Nat                           -- 0 corrected, 1 uncorrectable, 2 wrong value
  dre  : Int
  dim  : Int
  deriving DecidableEq, Repr

/-- An error of a memory word as its check meets it on a read: the word's address in its store, corrected or not. -/
structure WordErr where
  addr   : Nat
  uncorr : Bool
  deriving DecidableEq, Repr

/-- An ECC error of a DDR line as a read meets it: the line's byte address, corrected or not, and for a corrected one the
device (R457). -/
structure DdrErr where
  addr   : Nat
  uncorr : Bool
  dev    : Nat
  deriving DecidableEq, Repr

/-- The sweeps of one strobe lane (R440): for each of the 16 Vref levels the passing steps of the read delay, as 128 bits; the
passing steps of the write delay; and whether step 7 found no error. -/
structure LaneSweep where
  rd : List Nat
  wr : Nat
  ok : Bool
  deriving DecidableEq, Repr

/-- A request of a DDR client (R448 to R454). -/
structure DdrReq where
  client : Nat
  write  : Bool
  addr   : Nat
  data   : List Byte
  len    : Nat
  tick   : Nat
  prom   : Bool                        -- promoted by aging (R451)
  deriving DecidableEq, Repr

/-- What a read of host memory returns: bytes, or a bus error with its source (0 UR or CA, 1 timeout, 2 poisoned, R473). -/
inductive HostRead where
  | data (b : List Byte)
  | bad (src : Nat)
  deriving DecidableEq, Repr

/-- Where a command packet entered (R480): slot `slot` of ring r; a UDP datagram on a port with its source address, UDP port and MAC
address; the monitor; the boot image. -/
inductive Via where
  | ring (r slot : Nat)
  | udp (port ip sport mac : Nat)
  | monitor
  | boot
  deriving DecidableEq, Repr

/-- Where the packet that arrives comes from: the next slot of a ring, whose first 8,192 bytes a read of host memory returns, or the
next datagram of the command port. -/
inductive PktSrc where
  | ring (r : Nat) (d : HostRead)
  | udp
  deriving DecidableEq, Repr

/-- An agent of register writes (R497, R522): the host through BAR0, or a scatter of an installer or a maker command. -/
inductive Agent where
  | host | installer | maker
  deriving DecidableEq, Repr

end Sys2Proof.Machine
end

