-- ==== Sys2Proof/Syntax.lean ====
section
/-!
DEFINITION. The commands of the part: one constructor per row of the table of operations and events. The operands are
what the outside supplies with the command: which object it names and the data it carries.
-/
namespace Sys2Proof

open Sys2Proof.Machine

inductive Instr where
  /-- TICK_STROBE (R88). Hive time reaches the next tick boundary and the strobe stamped with tick k is issued to every domain. -/
  | tickStrobe
  /-- BLOCK_DEADLINE (R43). At the end of tick k + L_block a block abandons the unfinished work of tick k, flags and counts it, and starts clean. -/
  | blockDeadline (b : Nat) (k : Nat)
  /-- WAIT_ABANDON (R31). A wait for buffer space or acceptance that has not ended at a tick boundary is abandoned and the work is flagged. -/
  | waitAbandon
  /-- TIM_NOW_FRAC_READ (R67). A read of TIM_NOW_FRAC latches the time, seconds and tick registers of one instant. -/
  | timNowFracRead (cycles : Nat)
  /-- TIME_SET (R68). The installer's TIME_SET command supplies a SECONDS value to be loaded at the next 1PPS edge or second boundary, or is refused. -/
  | timeSet
  /-- TIME_OF_DAY_LOAD (R68). The pending SECONDS value is loaded into hive time at the selected edge and TIME_VALID becomes 1. -/
  | timeOfDayLoad
  /-- PTP_MESSAGE_RECEIVE (R77). A PTP message is received, timestamped at the PCS/MII boundary and processed by its instance. -/
  | ptpMessageReceive (n : Nat) (m : PtpMsg)
  /-- PTP_MESSAGE_SEND (R79). At its configured interval a PTP instance sends an event or general message, inserting the timestamp in one-step mode. -/
  | ptpMessageSend (n : Nat) (kind : PtpKind) (predicted capture : Int)
  /-- ANNOUNCE_RECEIPT_TIMEOUT (R92). The announceReceiptTimeout of the time-source instance expires and the PTP candidate loses qualification. -/
  | announceReceiptTimeout (n : Nat)
  /-- TIME_ACCEPT_STEP (R83). The installer's command schedules a time step of Δ at apply second S, or is refused. -/
  | timeAcceptStep
  /-- STEP_APPLY (R84). When hive time would reach S seconds it becomes S plus Δ, and the step flags are updated. -/
  | stepApply
  /-- TIM_STEP_THR_WRITE (R82). A write of the step threshold is applied or, out of range, ignored with RANGE_ERR. -/
  | timStepThrWrite (v : Nat)
  /-- PTP_CFG_WRITE (R73). A write of PTPn_CFG restarts the instance in INITIALIZING, a duplicate domain on one port putting the higher instance in FAULTY. -/
  | ptpCfgWrite (n : Nat) (v : Nat)
  /-- PPS_REF_EDGE (R91). A rising edge on a 1PPS reference input is measured against hive time for qualification and phase. -/
  | ppsRefEdge (c : Nat) (edge : Int) (fofs : Int)
  /-- CANDIDATE_QUALIFY (R92). A candidate's conditions have held for QUAL_TIME and it becomes QUALIFIED, possibly entering wait-to-restore. -/
  | candidateQualify (c : Nat) (fofs : Int)
  /-- CANDIDATE_LOSS (R92). A candidate's edge or condition fails within its detection time and it loses QUALIFIED. -/
  | candidateLoss (c : Nat) (phaseFar : Bool)
  /-- WAIT_TO_RESTORE_EXPIRE (R99). A candidate's wait-to-restore of CLK_WTR seconds ends and it becomes selectable. -/
  | waitToRestoreExpire (c : Nat)
  /-- DPLL_LOCK (R101). The lock condition has held for LOCK_TIME and the DPLL enters LOCKED. -/
  | dpllLock
  /-- ESMC_PDU_RECEIVE (R94). An ESMC PDU on ETH0 to ETH3 sets the QL of its SE candidate through the SSM mapping. -/
  | esmcPduReceive (port : Nat) (ssm : Nat)
  /-- ESMC_TIMEOUT (R94). No ESMC PDU for 5 s sets the SE candidate's QL to 15. -/
  | esmcTimeout (port : Nat)
  /-- PULL_DONE (R107). A phase pull removes the remaining difference and PULL_DONE is set. -/
  | pullDone
  /-- REF_MODE (R100). The REF_MODE command writes CLK_CTRL MODE, FORCE_SEL and REVERTIVE at its effective tick, or is refused. -/
  | refMode
  /-- CLK_CTRL_WRITE (R100). A register write of CLK_CTRL is applied or, with an out-of-range MODE or FORCE_SEL, ignored with RANGE_ERR. -/
  | clkCtrlWrite (v : Nat)
  /-- CLK_OUT_CFG_WRITE (R110). A write of a clock output's frequency or delay is range-checked and a frequency change restarts the output without a runt. -/
  | clkOutCfgWrite (n : Nat) (delay : Bool) (v : Nat)
  /-- PPS_OUT_PULSE (R112). Each second a PPS output emits its pulse at the alignment instant plus offset, or falls back to the hive second. -/
  | ppsOutPulse (n : Nat) (sec : Nat)
  /-- TICK_OUT_PULSE (R113). On each tick that is a multiple of DIV, TICK_OUT emits its pulse at the tick start plus offset. -/
  | tickOutPulse (k : Nat)
  /-- LANE_MARKER_CHECK (R127). At a marker position a nectar lane finds a good marker or a miss and moves through its lane states. -/
  | laneMarkerCheck (b : Nat) (u : Nat) (line : LaneBits) (arrival : Int) (ctle : Nat)
  /-- DFE_ADAPT (R131). Every 256 UI the receiver adapts the DFE taps by sign-sign LMS with clamping. -/
  | dfeAdapt (b : Nat) (u : Nat) (sgns : List Int)
  /-- NECTAR_BLOCK_RECEIVE (R142). A nectar block is assembled from the port stream, checked and either accepted and delivered to its inputs or discarded with a cause. -/
  | nectarBlockReceive (n : Nat) (w0 : Nat) (words : List NecWord)
  /-- NECTAR_PORT_ABSENT (R143). A port with no accepted block for tick k by the end of tick k + 1 makes its inputs absent with the last cause. -/
  | nectarPortAbsent (n : Nat) (k : Nat)
  /-- RATE_MEASUREMENT_LATCH (R147). At each second boundary CKOFS, SPS and MISSING are latched for every bundle and port. -/
  | rateMeasurementLatch (ckofs : List Int)
  /-- NEC_PORT_CFG_WRITE (R118). A write of NEC_PORTn_CFG is applied or, overlapping inputs or past input 255, refused with CFG_ERR. -/
  | necPortCfgWrite (n : Nat) (v : Nat)
  /-- SLOT_BLOCK_INTAKE (R157). A filter slot takes a nectar or replayed block, advances its ordinals and runs the DC blocker and FIR stages. -/
  | slotBlockIntake (i0 : Nat)
  /-- RESAMPLE_GRID_TICK (R162). Once its native data are present the slot computes the canonical samples of a grid tick and delivers them. -/
  | resampleGridTick (i0 : Nat) (k : Nat)
  /-- DLY_MODEL_COMMIT (R161). A write of ING_Ii_DLY_REF_HI commits the pending delay model for tick k_r, or is ignored with DLY_LATE. -/
  | dlyModelCommit (i0 : Nat) (v : Nat)
  /-- DLY_MODEL_APPLY (R161). At grid tick k_r the committed delay model comes into force. -/
  | dlyModelApply (i0 : Nat)
  /-- SLOT_START (R157). An armed slot starts at the k_r of its pending model with ordinal 0. -/
  | slotStart (i0 : Nat)
  /-- ING_CFG_WRITE (R171). A write of a slot's configuration is checked under R164 and R171 and applied, refused or ignored. -/
  | ingCfgWrite (i0 : Nat) (r : Nat) (v : Nat)
  /-- SLOT_STOP (R171). A slot whose EN was written 0 stops at the next tick boundary. -/
  | slotStop (i0 : Nat)
  /-- COEF_DATA_WRITE (R156). A write of ING_FEe_COEF_DATA stores a coefficient or is ignored with COEF_BUSY, and ADDR advances. -/
  | coefDataWrite (e : Nat) (v : Nat)
  /-- SPECTRUM_COMPUTE (R181). The channeliser folds, transforms and splits one window of an input into spectrum n. -/
  | spectrumCompute (i0 : Nat) (n : Nat)
  /-- CHN_PROFILE_CFG_WRITE (R173). A write of a profile's configuration is checked and applied, refused or ignored. -/
  | chnProfileCfgWrite (p : Nat) (r : Nat) (v : Nat)
  /-- CHN_INPUT_CFG_WRITE (R174). A write of an input's channeliser configuration is checked and applied, refused or ignored. -/
  | chnInputCfgWrite (i0 : Nat) (r : Nat) (v : Nat)
  /-- CHN_INPUT_STOP (R179). An input whose EN was written 0 stops producing spectra at the next tick boundary. -/
  | chnInputStop (i0 : Nat)
  /-- WIN_DATA_WRITE (R180). A write of CHN_WIN_DATA stores a window coefficient or is ignored with WIN_BUSY. -/
  | winDataWrite (v : Nat)
  /-- GAIN_DATA_WRITE (R187). A write of CHN_GAIN_DATA stores a gain entry or is ignored with GAIN_BUSY or CFG_ERR. -/
  | gainDataWrite (v : Nat)
  /-- GAIN_EFF_COMMIT (R188). A write of CHN_GAIN_EFF_HI commits a gain bank switch at k_eff, or is ignored. -/
  | gainEffCommit (v : Nat)
  /-- GAIN_COMMIT (R188). The GAIN_COMMIT command commits a gain bank switch at its effective tick. -/
  | gainCommit
  /-- GAIN_BANK_SWITCH (R188). At tick k_eff the other gain bank becomes active for spectra with h(n) at or after k_eff. -/
  | gainBankSwitch
  /-- GAIN_SWITCH_DONE (R188). At the end of tick k_eff + 1 the pending switch completes and PENDING clears. -/
  | gainSwitchDone
  /-- LINK_UP (R197). A port reaches LINK_UP, restarting verification and sending gratuitous ARP and duplicate address detection. -/
  | linkUp (n : Nat)
  /-- LINK_DOWN (R197). A port leaves LINK_UP and every queued frame is discarded. -/
  | linkDown (n : Nat)
  /-- FRAME_RECEIVE (R201). A received frame passes the receive checks and goes to a fixed handler or the classifier, or is discarded. -/
  | frameReceive (n : Nat) (f : RxFrame)
  /-- MM_VERIFY_SEND (R210). Every VERIFY_MS a verify mPacket is sent, and after 3 unanswered attempts MM_STATE becomes FAILED. -/
  | mmVerifySend (n : Nat)
  /-- FRAME_ENQUEUE (R205). A producer places a frame on its transmit queue, waiting for space if needed. -/
  | frameEnqueue (n : Nat) (q : Nat)
  /-- BULK_SEND (R213). A producer hands a port a bulk send that the port cuts into frames with updated headers. -/
  | bulkSend (n : Nat)
  /-- TX_FRAME_START (R206). At each frame start the transmitter chooses the next frame from the queues. -/
  | txFrameStart (n : Nat)
  /-- QUEUE_AGE_PROMOTE (R207). A head frame waiting AGE_US is promoted for one grant. -/
  | queueAgePromote (n : Nat) (q : Nat)
  /-- ARP_REQUEST (R216). The hive answers an ARP request for the port's address and detects conflicts. -/
  | arpRequest (n : Nat) (request : Bool) (senderIp : Nat) (senderMac : Nat) (targetIp : Nat)
  /-- NEIGHBOUR_SOLICITATION (R217). The hive answers a neighbour solicitation for its IPv6 addresses. -/
  | neighbourSolicitation (n : Nat) (target : Nat) (probe : Bool)
  /-- DAD_COMPLETE (R217). The 1 s wait of duplicate address detection ends and the address is used or marked conflicting. -/
  | dadComplete (n : Nat) (conflict : Bool)
  /-- NEIGHBOUR_REFRESH (R218). Every REACH_S seconds a neighbour cache entry is re-resolved. -/
  | neighbourRefresh (e : Nat) (mac : Option Nat)
  /-- ICMP_ECHO_REQUEST (R219). An echo request to a unicast address is answered within the rate limit or counted. -/
  | icmpEchoRequest (n : Nat) (v6 : Bool) (dst : Nat) (payload : List Byte)
  /-- MULTICAST_QUERY (R220). A received IGMP or MLD query schedules a current-state report. -/
  | multicastQuery (n : Nat) (kind : QueryKind) (groups : List Nat) (maxMs : Nat)
  /-- MULTICAST_REPORT_SEND (R220). At n/32 of the maximum response time the port sends its current-state report. -/
  | multicastReportSend (n : Nat)
  /-- GROUP_STATE_CHANGE (R220). A change of a group's VALID or PORTS sends a state-change report. -/
  | groupStateChange
  /-- STATE_CHANGE_REPORT_REPEAT (R220). One second after a state-change report it is sent a second time. -/
  | stateChangeReportRepeat
  /-- ETH_ADDRESS_WRITE (R216). A change of a port's IP address triggers gratuitous ARP or duplicate address detection. -/
  | ethAddressWrite (n : Nat) (r : Nat) (v : Nat)
  /-- BROOD_SEND (R230). For each tick a producing hive forms one send per session and slice-map entry and hands it to a port or the internal path. -/
  | broodSend (x : Nat) (e : Nat) (k : Nat)
  /-- BROOD_FRAME_RECEIVE (R240). A brood frame is checked and its records are written to brood memory or discarded. -/
  | broodFrameReceive
  /-- PRESENCE_FINALISE (R242). At the end of tick h(n) + W of a dwell's last spectrum the presence codes become final. -/
  | presenceFinalise (x : Nat) (d : Nat)
  /-- BROOD_WINDOW_RELEASE (R238). At tick h(n) + W + 4 a dwell's window is released and its arrival bits cleared. -/
  | broodWindowRelease (x : Nat) (d : Nat)
  /-- CTN_SESSION_ENABLE (R608). A write of CTN_SESx_CFG.EN to 1 checks the maps and grid and enables the session's brood, or is refused. -/
  | ctnSessionEnable (x : Nat) (v : Nat)
  /-- CTN_SESSION_DISABLE (R238). A session's brood disable takes effect at the next dwell boundary. -/
  | ctnSessionDisable (x : Nat)
  /-- MAP_COMMIT_WRITE (R229). A write of CTN_SESx_NEXT_EFF_HI commits a map switch, or is ignored. -/
  | mapCommitWrite (x : Nat) (v : Nat)
  /-- MAP_COMMIT (R229). The MAP_COMMIT command commits a slice-map switch at its effective tick, or is refused. -/
  | mapCommit
  /-- MAP_SWITCH (R229). At the first dwell boundary at or after the effective tick the new maps and version take effect. -/
  | mapSwitch (x : Nat)
  /-- HIVE_ANNOUNCE_SEND (R244). Every PERIOD_MS a hive announce is sent on each announcing port that is LINK_UP. -/
  | hiveAnnounceSend (n : Nat)
  /-- HIVE_ANNOUNCE_RECEIVE (R245). A received announce is checked and kept for learning, or discarded. -/
  | hiveAnnounceReceive
  /-- PEER_AGE (R247). A member port silent for MISS × PERIOD_MS or down is removed from a peer's set. -/
  | peerAge (h : Nat)
  /-- COMB_TICK_WORK (R263). Each comb takes and accumulates the block-spectra of a reference tick from its start cycle. -/
  | combTickWork (c : Nat) (k : Nat) (errs : List DstoreErr)
  /-- COMB_DUMP (R266). At the end of tick h(n_last) + W + 2 every comb reads and clears the dwell's bank. -/
  | combDump (x : Nat) (d : Nat) (errs : List DstoreErr)
  /-- WITNESS_COMPARE (R272). The witnessed dump is compared with CW's entries, giving AGREE, MISMATCH, INCONCLUSIVE or SKIPPED. -/
  | witnessCompare
  /-- RETIRE_COMB (R281). The installer's RETIRE of a working comb makes it RETIRED. -/
  | retireComb (c : Nat)
  /-- RESTORE_COMB (R281). The installer's RESTORE returns a retired comb to ACTIVE or CW from FAULT. -/
  | restoreComb (c : Nat)
  /-- COMB_RETIRE (R281). The COMB_RETIRE command applies a CMB_RETIRE_CMD image. -/
  | combRetire
  /-- WITNESS_ENABLE_WRITE (R273). A write of CMB_CTRL.WIT_EN takes CW to OFF or back to WITNESS or STANDIN from each session's next dwell. -/
  | witnessEnableWrite (on : Bool)
  /-- CMB_SESSION_ENABLE (R259). A write of CMB_SESx_CFG.EN to 1 checks the list and slots and enables comb work, or is refused. -/
  | cmbSessionEnable (x : Nat) (v : Nat)
  /-- CMB_LIST_DATA_WRITE (R255). A write of CMB_LIST_DATA stores a list entry or is ignored for an enabled session. -/
  | cmbListDataWrite (v : Nat)
  /-- SUPER_DUMP_APPLY (R293). The filling super adds a comb dump into its words under the dump marks. -/
  | superDumpApply (x : Nat) (errs : List WordErr)
  /-- HONEY_DRAIN_START (R296). At tick h(n_L) + W + 5 the drain of an integration begins. -/
  | honeyDrainStart (x : Nat) (j : Nat)
  /-- HONEY_SEND (R305). At its paced time the drain hands on the next send of the integration, or counts it lost. -/
  | honeySend (x : Nat) (errs : List WordErr)
  /-- DRAIN_OVERRUN (R306). The drain is stopped when the first dump of integration j + 2 begins. -/
  | drainOverrun (x : Nat)
  /-- SUP_SESSION_ENABLE (R282). A write of SUP_SESx_CFG.EN to 1 checks the range and enables the session's super work, or is refused. -/
  | supSessionEnable (x : Nat) (v : Nat)
  /-- WAGGLE_TICK_WORK (R317). The waggle engine forms the beam samples of a reference tick. -/
  | waggleTickWork (k : Nat) (errs : List WordErr)
  /-- PHASE_ENGINE_RELEASE (R323). At tick r_(e−1) + 2 the weight computation of epoch e is released. -/
  | phaseEngineRelease (x : Nat) (e : Nat) (errs : List WordErr)
  /-- EPOCH_MISS (R324). An epoch's weight computation incomplete at tick r_e is not used and its samples are zeroed and flagged. -/
  | epochMiss (x : Nat) (e : Nat)
  /-- WEIGHT_COMMIT_WRITE (R325). A write of WAG_SESx_COMMIT_HI commits geometry or weights for e_eff, or is ignored. -/
  | weightCommitWrite (x : Nat) (v : Nat)
  /-- WEIGHT_COMMIT (R325). The WEIGHT_COMMIT command commits geometry or weights for e_eff. -/
  | weightCommit
  /-- WEIGHT_BANK_SWITCH (R326). At reference tick r_(e_eff) an explicit-mode session switches weight bank. -/
  | weightBankSwitch (x : Nat)
  /-- WAG_SESSION_ENABLE (R312). A write of WAG_SESx_CFG.EN to 1 checks the session and enables waggle work, or is refused. -/
  | wagSessionEnable (x : Nat) (v : Nat)
  /-- WEIGHT_DATA_WRITE (R325). A write of WAG_WT_DATA stores a weight or is ignored with BUSY. -/
  | weightDataWrite (v : Nat)
  /-- GEOMETRY_DATA_WRITE (R325). A write of WAG_GEO_DATA stores a geometry word or is ignored with BUSY. -/
  | geometryDataWrite (v : Nat)
  /-- WORKER_RUN_START (R357). At cycle 0 of tick k + 1 a granted worker starts its run at ENTRY. -/
  | workerRunStart (n : Nat)
  /-- WORKER_TIMER_INTERRUPT (R351). CYC reaches the TIMER value and the interrupt is taken at the next interruptible boundary. -/
  | workerTimerInterrupt (n : Nat)
  /-- WORKER_WARN_INTERRUPT (R351). CYC reaches BUDGET − WARN and the interrupt is taken at the next interruptible boundary. -/
  | workerWarnInterrupt (n : Nat)
  /-- WORKER_OVERRUN (R358). The budget is spent without TEND and the run is stopped and flagged. -/
  | workerOverrun (n : Nat)
  /-- WORKER_SWITCH_INTERVAL (R357). In cycles 990 to 999 the hive writes the next run's context and performs core copying. -/
  | workerSwitchInterval
  /-- RESULT_COLLECT (R361). In tick k + 2 the collector takes the worker result sets in ascending logical index. -/
  | resultCollect (k : Nat)
  /-- RETIRE_CORE (R334). A physical core is retired and its logical worker begins moving to a spare. -/
  | retireCore (p : Nat)
  /-- RESTORE_CORE (R334). The installer's RESTORE returns a retired physical core to use. -/
  | restoreCore (p : Nat)
  /-- CORE_MIGRATE_COMPLETE (R334). The memory copy ends and the logical worker's registers move to the spare at the next switch. -/
  | coreMigrateComplete (n : Nat)
  /-- WORKER_ENABLE (R365). A write of WRK_Wn_CFG.EN arms the worker from its start tick or stops it. -/
  | workerEnable (n : Nat) (v : Nat)
  /-- WORKER_START (R365). The WORKER_START command arms workers from its effective tick. -/
  | workerStart
  /-- WRK_MEM_DATA_ACCESS (R365). An access of WRK_MEM_DATA_LO writes or fetches a worker memory word and advances the address. -/
  | wrkMemDataAccess (v : Option Nat)
  /-- NOP (R373). The instruction does nothing but its moves. -/
  | nop (n : Nat) (errs : List WordErr)
  /-- MPY (R373). D receives the product of S1 and S2. -/
  | mpy (n : Nat) (errs : List WordErr)
  /-- MPYN (R373). D receives the negated product of S1 and S2. -/
  | mpyn (n : Nat) (errs : List WordErr)
  /-- MAC (R373). D accumulates the product of S1 and S2. -/
  | mac (n : Nat) (errs : List WordErr)
  /-- MACN (R373). D subtracts the product of S1 and S2. -/
  | macn (n : Nat) (errs : List WordErr)
  /-- PWR (R373). D accumulates S1 squared plus S2 squared. -/
  | pwr (n : Nat) (errs : List WordErr)
  /-- ADD (R373). D adds S1 aligned to the main word. -/
  | add (n : Nat) (errs : List WordErr)
  /-- SUB (R373). D subtracts S1 aligned to the main word. -/
  | sub (n : Nat) (errs : List WordErr)
  /-- ADDA (R373). D adds another accumulator. -/
  | adda (n : Nat) (errs : List WordErr)
  /-- SUBA (R373). D subtracts another accumulator. -/
  | suba (n : Nat) (errs : List WordErr)
  /-- CMP (R374). Flags are set from D minus S1 without changing D. -/
  | cmp (n : Nat) (errs : List WordErr)
  /-- CMPA (R374). Flags are set from D minus another accumulator. -/
  | cmpa (n : Nat) (errs : List WordErr)
  /-- ABS (R373). D receives its magnitude. -/
  | abs (n : Nat) (errs : List WordErr)
  /-- NEG (R373). D is negated. -/
  | neg (n : Nat) (errs : List WordErr)
  /-- CLR (R374). D is cleared and Z set. -/
  | clr (n : Nat) (errs : List WordErr)
  /-- MOVA (R373). D receives another accumulator. -/
  | mova (n : Nat) (errs : List WordErr)
  /-- LDA (R373). D receives S1 aligned to the main word. -/
  | lda (n : Nat) (errs : List WordErr)
  /-- LDL (R373). D receives S1 sign-extended. -/
  | ldl (n : Nat) (errs : List WordErr)
  /-- ASR (R373). D is shifted right arithmetically by c. -/
  | asr (n : Nat) (errs : List WordErr)
  /-- ASL (R373). D is shifted left by c. -/
  | asl (n : Nat) (errs : List WordErr)
  /-- MAX (R373). D receives the larger of D and another accumulator. -/
  | max (n : Nat) (errs : List WordErr)
  /-- MIN (R373). D receives the smaller of D and another accumulator. -/
  | min (n : Nat) (errs : List WordErr)
  /-- DIVS (R382). One step of restoring division is performed. -/
  | divs (n : Nat) (errs : List WordErr)
  /-- LDX (R377). A register is loaded from XM at an absolute address. -/
  | ldx (n : Nat) (errs : List WordErr)
  /-- LDY (R377). A register is loaded from YM at an absolute address. -/
  | ldy (n : Nat) (errs : List WordErr)
  /-- STX (R377). A register is stored to XM at an absolute address. -/
  | stx (n : Nat) (errs : List WordErr)
  /-- STY (R377). A register is stored to YM at an absolute address. -/
  | sty (n : Nat) (errs : List WordErr)
  /-- LDI (R377). A register receives an immediate value. -/
  | ldi (n : Nat) (errs : List WordErr)
  /-- LDXP (R377). A register is loaded from XM through a pointer, which is then post-modified. -/
  | ldxp (n : Nat) (errs : List WordErr)
  /-- LDYP (R377). A register is loaded from YM through a pointer, which is then post-modified. -/
  | ldyp (n : Nat) (errs : List WordErr)
  /-- STXP (R377). A register is stored to XM through a pointer, which is then post-modified. -/
  | stxp (n : Nat) (errs : List WordErr)
  /-- STYP (R377). A register is stored to YM through a pointer, which is then post-modified. -/
  | styp (n : Nat) (errs : List WordErr)
  /-- MOV (R378). RD receives RS. -/
  | mov (n : Nat) (errs : List WordErr)
  /-- AND (R378). RD receives the bitwise AND of RS and RT. -/
  | and (n : Nat) (errs : List WordErr)
  /-- OR (R378). RD receives the bitwise OR of RS and RT. -/
  | or (n : Nat) (errs : List WordErr)
  /-- XOR (R378). RD receives the bitwise XOR of RS and RT. -/
  | xor (n : Nat) (errs : List WordErr)
  /-- NOT (R378). RD receives the complement of RS. -/
  | not (n : Nat) (errs : List WordErr)
  /-- ADDR (R378). RD receives RS plus RT on 24 bits. -/
  | addr (n : Nat) (errs : List WordErr)
  /-- SUBR (R378). RD receives RS minus RT on 24 bits. -/
  | subr (n : Nat) (errs : List WordErr)
  /-- CMPR (R378). Flags are set from RS minus RT. -/
  | cmpr (n : Nat) (errs : List WordErr)
  /-- LSL (R378). RD receives RS shifted left by SH. -/
  | lsl (n : Nat) (errs : List WordErr)
  /-- LSR (R378). RD receives RS shifted right logically by SH. -/
  | lsr (n : Nat) (errs : List WordErr)
  /-- ASRR (R378). RD receives RS shifted right arithmetically by SH. -/
  | asrr (n : Nat) (errs : List WordErr)
  /-- MVR (R378). RD receives an accumulator read with optional rounding and saturation. -/
  | mvr (n : Nat) (errs : List WordErr)
  /-- BR (R379). Control branches to TARGET when COND holds, after two delay slots. -/
  | br (n : Nat) (errs : List WordErr)
  /-- BRX (R379). Control branches to the address in REG when COND holds, after two delay slots. -/
  | brx (n : Nat) (errs : List WordErr)
  /-- RTE (R353). After two delay slots the handler returns, restoring banks and MR. -/
  | rte (n : Nat) (errs : List WordErr)
  /-- TEND (R380). The run ends at the end of the cycle. -/
  | tend (n : Nat) (errs : List WordErr)
  /-- TRAP (R380). The instruction raises exception TRAP. -/
  | trap (n : Nat) (errs : List WordErr)
  /-- REP_IMMEDIATE (R381). A hardware loop is pushed with an immediate count. -/
  | repImmediate (n : Nat) (errs : List WordErr)
  /-- REP_REGISTER (R381). A hardware loop is pushed with a count from a register. -/
  | repRegister (n : Nat) (errs : List WordErr)
  /-- REPX (R350). The top repeat stack entry is popped without branching. -/
  | repx (n : Nat) (errs : List WordErr)
  /-- STING_REPORT (R388). For a grid tick each sting beam computes its boxcar power and delivers a report with its candidates. -/
  | stingReport (b : Nat) (j : Nat)
  /-- TRIG_IN_EDGE (R394). An edge on a TRIG_IN pin becomes a contribution with its event time. -/
  | trigInEdge (n : Nat) (t : Nat)
  /-- CONDITION_EVALUATE (R396). At 100 ns into each tick each enabled condition evaluates event tick T − E − 1. -/
  | conditionEvaluate
  /-- DIGEST_RECEIVE (R403). A digest message is checked for duplicates and stored for collector evaluation. -/
  | digestReceive
  /-- COLLECTOR_EVALUATE (R405). The collector and standby evaluate swarm coincidence for event tick T − ES − 1. -/
  | collectorEvaluate
  /-- TRIGGER_MESSAGE_RECEIVE (R406). A member accepts at most one TRIGGER per event tick and produces a GLOBAL record. -/
  | triggerMessageReceive
  /-- HEARTBEAT_SEND (R407). Every HB_PERIOD ticks the active hive sends a HEARTBEAT. -/
  | heartbeatSend (g : Nat)
  /-- HEARTBEAT_RECEIVE (R407). A member recovers missed global triggers from a heartbeat and a passive collector notes the active one. -/
  | heartbeatReceive
  /-- COLLECTOR_TAKEOVER (R408). A passive collector missing heartbeats for HB_MISS × HB_PERIOD ticks becomes active. -/
  | collectorTakeover (g : Nat)
  /-- TRIG_OUT_PULSE (R410). A scheduled leading edge of a TRIG_OUT pulse is produced or merged. -/
  | trigOutPulse (n : Nat)
  /-- STING_BEAM_ENABLE (R385). A write of STG_Bb_CFG.EN to 1 checks the beam and enables it, or is refused. -/
  | stingBeamEnable (b : Nat) (v : Nat)
  /-- CONDITION_ENABLE (R395). A write of TRG_TCc_CFG.EN to 1 checks the condition and enables it, or is refused. -/
  | conditionEnable (c : Nat) (v : Nat)
  /-- TRIG_SLOT_SET (R401). The TRIG_SLOT_SET command writes a trigger slot's registers and enables it. -/
  | trigSlotSet
  /-- CAPTURE_RING_WRITE (R418). The data of tick k and its index entries are written to the live segment. -/
  | captureRingWrite (c : Nat) (k : Nat)
  /-- DECISION_TAKE (R421). A capture group takes a decision record and opens, joins or misses a capture. -/
  | decisionTake (c : Nat)
  /-- SEGMENT_SWITCH (R422). After tick e the next free segment becomes live, or the group becomes DEAD. -/
  | segmentSwitch (c : Nat)
  /-- CAPTURE_SEAL (R423). At the end of tick e + Δ the capture's segment is sealed. -/
  | captureSeal (c : Nat)
  /-- EVENT_RECORD_EMIT (R430). The event records of a tick are sent to the stream, DDR ring and host. -/
  | eventRecordEmit (t : Nat)
  /-- SEGMENT_RELEASE_COMMIT (R424). A write of ACQ_CGc_REL_EFF_HI commits a segment release at tick r, or is ignored. -/
  | segmentReleaseCommit (c : Nat) (v : Nat)
  /-- SEG_RELEASE (R424). The SEG_RELEASE command releases a sealed capture segment at its effective tick. -/
  | segRelease
  /-- SEGMENT_FREE (R424). At tick r the released segment becomes free and a DEAD group becomes ARMED. -/
  | segmentFree (c : Nat)
  /-- HIT_CHANGE_RECORD (R431). The change records of a tick's hit-bit changes are written to the change ring. -/
  | hitChangeRecord (k : Nat)
  /-- POWER_HISTORY_FRAME (R432). For each kept tick a power history frame is written to the history ring. -/
  | powerHistoryFrame (k : Nat)
  /-- CAPTURE_GROUP_ENABLE (R416). A write of ACQ_CGc_CFG.EN to 1 checks the group and arms it, or is refused. -/
  | captureGroupEnable (c : Nat) (v : Nat)
  /-- REPLAY_SUPPLY (R433). A replay session's captured ticks are read from DDR and supplied to the slot, channeliser or workers. -/
  | replaySupply (x : Nat) (c : Nat) (ev : Nat) (k : Nat)
  /-- DDR_ENABLE (R438). A write of DDR_CTRL.EN to 1 applies DDR_CFG and starts training. -/
  | ddrEnable
  /-- DDR_TRAINING_COMPLETE (R441). Training ends and READY becomes 1 or the failed channels are reported. -/
  | ddrTrainingComplete (res : List (List LaneSweep)) (spd : Nat)
  /-- DDR_REQUEST (R450). A client request is accepted and granted under the share and class order. -/
  | ddrRequest (rs : List DdrReq) (errs : List DdrErr)
  /-- DDR_AGE_PROMOTE (R451). A request waiting AGE_NS is promoted for one grant. -/
  | ddrAgePromote (i0 : Nat)
  /-- DDR_REFRESH (R455). Every tREFI / 4 a same-bank refresh is issued for each bank index. -/
  | ddrRefresh (c : Nat) (r : Nat) (temp : Nat)
  /-- DQS_INTERVAL_CHECK (R442). Every 128 ms the DQS oscillator is run and drifting lanes are adjusted. -/
  | dqsIntervalCheck (c : Nat) (drifts : List (Nat × Int))
  /-- PATROL_SCRUB (R456). The scrubber reads the next line and writes back a corrected line. -/
  | patrolScrub (errs : List DdrErr)
  /-- DDR_PARTITION_WRITE (R445). A write of a partition's base or size is applied or ignored with CFG_ERR. -/
  | ddrPartitionWrite (p : Nat) (size : Bool) (v : Nat)
  /-- BAR2_ACCESS (R447). A host access through BAR2 reads DDR or writes inside the HOST partition. -/
  | bar2Access (off : Nat) (data : Option (List Byte)) (len : Nat) (errs : List DdrErr)
  /-- COMMAND_RING_DOORBELL (R480). A producer index written to a command ring doorbell makes the hive take slots up to it. -/
  | commandRingDoorbell (r : Nat) (v : Nat)
  /-- FORAGER_DOORBELL (R466). A TAIL written to a forager doorbell hands descriptors to the channel. -/
  | foragerDoorbell (n : Nat) (v : Nat)
  /-- DESCRIPTOR_FETCH (R467). The channel fetches and checks a descriptor, halting with NOT_OWNED when OWN is 0. -/
  | descriptorFetch (n : Nat) (d : HostRead) (g : HostRead)
  /-- DESCRIPTOR_COMPLETE (R463). A descriptor's transfer ends and status, OWN and MSI-X are written in order. -/
  | descriptorComplete (n : Nat) (data : List (List Byte)) (errs : List DdrErr)
  /-- STREAM_UNIT_DELIVER (R470). A producer's unit is placed into the buffers of prefetched descriptors of a STREAM channel. -/
  | streamUnitDeliver (n : Nat)
  /-- BUS_ERROR (R473). A bus error halts the channel with its status written back. -/
  | busError (n : Nat) (data : List (List Byte)) (part : List Byte) (src : Nat) (addr : Nat)
  /-- FORAGER_START (R475). START leaves STOPPED and resumes fetching at HEAD. -/
  | foragerStart (n : Nat)
  /-- FORAGER_STOP (R475). STOP stops the channel at the next descriptor boundary. -/
  | foragerStop (n : Nat)
  /-- FORAGER_RESUME (R474). RESUME repeats the failing element and continues. -/
  | foragerResume (n : Nat)
  /-- FORAGER_SKIP (R474). SKIP completes the halted descriptor as SKIPPED and continues. -/
  | foragerSkip (n : Nat)
  /-- FORAGER_ABORT (R474). ABORT completes the halted descriptor as ABORTED and stops. -/
  | foragerAbort (n : Nat)
  /-- FORAGER_CHANNEL_DISABLE (R476). Writing a channel's EN to 0 stops and disables it. -/
  | foragerChannelDisable (n : Nat)
  /-- FORAGER_AGE_PROMOTE (R472). A channel ungranted for AGE_US is promoted for one grant. -/
  | foragerAgePromote (n : Nat) (us : Nat)
  /-- MSIX_VECTOR_UNMASK (R464). Unmasking a vector with its pending bit set sends the message. -/
  | msixVectorUnmask (v : Nat)
  /-- PERST_L_ASSERT (R568). PERST_L low stops every forager channel and resets the endpoint. -/
  | perstLAssert
  /-- COMMAND_PACKET_ARRIVE (R483). A Plyngo packet enters the ordinary or urgent command queue, or is discarded when full. -/
  | commandPacketArrive (src : PktSrc)
  /-- REG_GATHER (R490). The command reads a list of registers, stopping at a failed element. -/
  | regGather (n : Nat)
  /-- REG_SCATTER (R490). The command writes a list of registers, stopping at a failed element. -/
  | regScatter (n : Nat)
  /-- IDENTIFY (R489). The command returns the GLB identification registers. -/
  | identify
  /-- HEALTH_READ (R563). The command returns the latest health report. -/
  | healthRead
  /-- SESSION_SET (R515). The command adds or changes a session at its effective tick after every admission check. -/
  | sessionSet
  /-- SESSION_REMOVE (R515). The command removes a session at its effective tick. -/
  | sessionRemove
  /-- STREAM_SET (R491). The command installs a stream's header template and resolves its destination. -/
  | streamSet
  /-- KEY_LOAD (R519). The command loads an unwrapped key into a slot and resets its replay window. -/
  | keyLoad
  /-- KEY_REVOKE (R520). The command revokes a key slot. -/
  | keyRevoke
  /-- AUDIT_READ (R531). The command returns audit entries from START. -/
  | auditRead
  /-- AUDIT_CLEAR (R532). The command empties the audit log and writes its CLEAR entry. -/
  | auditClear
  /-- SEAL_COMMIT (R510). The command sets COMMIT_PENDING so the next good pass becomes the seal reference. -/
  | sealCommit
  /-- KEEPER_SWITCH (R557). The command passes control to the standby keeper at the next tick boundary. -/
  | keeperSwitch
  /-- BUDGET_SET (R533). The command sets the package budget at its effective tick. -/
  | budgetSet
  /-- DELAY_MODEL (R161). The command writes delay model parameters of listed inputs with k_r as effective tick. -/
  | delayModel
  /-- HOST_REGISTER_WRITE (R496). A register write with no row of its own is applied under its access type, guard mode and write protection. -/
  | hostRegisterWrite (off : Nat) (v : Option Nat) (dw : Bool)
  /-- DOMAIN_ACCESS_TIMEOUT (R503). An access not completed within 2 µs is treated as meeting a stopped domain. -/
  | domainAccessTimeout (a : Nat) (read : Bool)
  /-- BLOCK_DISABLE (R607). At the first tick boundary after EN is written 0 the block abandons its work and stops. -/
  | blockDisable (b : Nat)
  /-- SEAL_PASS (R508). A seal pass completes its CRC and is voided, adopted or compared with the reference. -/
  | sealPass
  /-- SESSION_ACTIVATE (R515). At the effective tick a SESSION_SET makes the entry ACTIVE with its new fields. -/
  | sessionActivate (x : Nat)
  /-- SESSION_REMOVE_APPLY (R515). At the effective tick the session becomes REMOVING and its objects are disabled. -/
  | sessionRemoveApply (x : Nat)
  /-- SESSION_FREE (R515). After the last object has stopped the session entry becomes FREE. -/
  | sessionFree (x : Nat)
  /-- THERMAL_SAMPLE (R543). Every 10 µs the sensors are sampled and the thermal state updated. -/
  | thermalSample (t : Int) (sensor : Nat)
  /-- THERMAL_STEP (R543). Each millisecond in SHED_B the thermal reduction R_th rises, falls or holds. -/
  | thermalStep
  /-- RAIL_READ (R540). Each millisecond the rails are read and R_meas is set. -/
  | railRead (rails : List (Option (Nat × Nat)))
  /-- MIRROR_RECORD (R551). The active keeper sends a mirror record and waits for its acknowledgement. -/
  | mirrorRecord (acked : Bool)
  /-- MIRROR_ACK_TIMEOUT (R553). A mirror record unacknowledged for 10 µs faults the standby keeper. -/
  | mirrorAckTimeout
  /-- KEEPER_FAULT (R553). A keeper detects a lockstep, memory, heartbeat or digest fault and enters FAULT or RETIRED. -/
  | keeperFault (k : Nat) (cause : Nat)
  /-- KEEPER_SWITCHOVER (R555). At the boundary of tick t + 2 the standby keeper takes control and the gap ends. -/
  | keeperSwitchover
  /-- KEEPER_LOGIC_RESET_DONE (R549). A faulted keeper finishes resetting its logic and enters SYNC. -/
  | keeperLogicResetDone (k : Nat)
  /-- KEEPER_SYNC_COMPLETE (R549). A keeper finishes copying the mirrored state and enters STANDBY. -/
  | keeperSyncComplete (k : Nat)
  /-- KEEPER_REVERT (R558). After 10 clean seconds a keeper takes control back by planned switchover. -/
  | keeperRevert
  /-- KEEPER_MEMORY_PATROL (R552). Each second a keeper reads every memory word for errors. -/
  | keeperMemoryPatrol (k : Nat) (corr : Nat) (uncorr : Nat)
  /-- RETIRE_KEEPER (R560). The installer's RETIRE takes the non-active keeper out of service. -/
  | retireKeeper (k : Nat)
  /-- RESTORE_KEEPER (R560). The installer's RESTORE returns a retired keeper to SYNC. -/
  | restoreKeeper (k : Nat)
  /-- HEALTH_REPORT (R563). At each second boundary the active keeper composes the health report. -/
  | healthReport
  /-- POR_L_LOW (R564). POR_L low starts a power-on reset. -/
  | porLLow
  /-- PWRGOOD_FALL (R565). PWRGOOD low starts a power-on reset held until it rises again. -/
  | pwrgoodFall
  /-- RESET_END (R565). The power-on reset ends, BOOT_MODE is sampled and start-up begins. -/
  | resetEnd (mode : Nat)
  /-- AUTO_WARM_RESET (R567). After AUTO_S seconds of ORPHAN the hive performs a warm reset. -/
  | autoWarmReset
  /-- BOOT_IMAGE_SELECT (R572). Both image copies are read and checked and the valid copy of higher GEN is chosen. -/
  | bootImageSelect (c0 : List Byte) (c1 : List Byte)
  /-- BOOT_PACKET (R573). A PACKET entry enters the command queue and the image waits for its reply. -/
  | bootPacket
  /-- BOOT_WAIT (R573). A WAIT entry holds the image until its MON_STATE bits are set. -/
  | bootWait
  /-- BOOT_WAIT_TIMEOUT (R574). A WAIT passing TIMEOUT_MS fails the image. -/
  | bootWaitTimeout
  /-- BOOT_END (R573). The END entry ends the image and sets IMAGE. -/
  | bootEnd
  /-- MON_HELP (R577). The monitor lists its commands. -/
  | monHelp
  /-- MON_ID (R577). The monitor prints the identification. -/
  | monId
  /-- MON_STATUS (R577). The monitor prints the start-up, boot, reset and keeper state. -/
  | monStatus
  /-- MON_LOGIN (R578). The monitor answers a login with a challenge. -/
  | monLogin (role : Nat) (slot : Nat)
  /-- MON_LOGIN_RESPONSE (R578). A challenge response is verified, logging in or counting a failure and locking after three. -/
  | monLoginResponse (b : List Byte)
  /-- MON_LOGOUT (R578). The monitor ends the login. -/
  | monLogout
  /-- LOGIN_LOCK_EXPIRE (R578). The 60 s login lock ends. -/
  | loginLockExpire
  /-- LOGIN_IDLE_TIMEOUT (R578). A login ends after 600 s without input. -/
  | loginIdleTimeout
  /-- MON_HEALTH (R577). The monitor prints the latest health report in hex. -/
  | monHealth
  /-- MON_PKT (R579). The monitor submits a Plyngo packet and prints its reply. -/
  | monPkt (b : List Byte)
  /-- MON_BAUD (R576). The monitor sets DIV16 after its OK line. -/
  | monBaud (n : Nat)
  /-- MON_RESET_WARM (R566). The monitor command starts a warm reset after its OK line. -/
  | monResetWarm
  /-- UART_FRAMING_ERROR (R576). A UART framing error or overrun is counted and flagged. -/
  | uartFramingError
  /-- PERST_L_DEASSERT (R568). PERST_L going high releases the PCIe endpoint, which begins link training within 20 ms or at the end of keeper self-test. -/
  | perstLDeassert (speed : Nat) (width : Nat) (bar2 : Nat) (bme : Bool)
  /-- UNDEFINED_ENCODING (R366). A worker fetches a PM word of a reserved class, reserved operation code or non-zero reserved field and raises ILLEGAL without effect. -/
  | undefinedEncoding (n : Nat) (errs : List WordErr)
  /-- UNKNOWN_OPCODE (R489). A command with a reserved or unknown opcode comes up for execution and is refused with BAD_OPCODE, with its SEQ handling and audit entry. -/
  | unknownOpcode
  /-- MON_SYNTAX_ERROR (R577). A monitor line that names no command or carries an unrecognised argument is answered with ERR SYNTAX. -/
  | monSyntaxError
  deriving DecidableEq, Repr

end Sys2Proof
end

