-- ==== Sys2Proof/Decode.lean ====
section
/-!
DEFINITION. The part has no encoding of its commands: no row of the table of operations gives bits, so no word spells a
command. What the part decodes from bits of its own (worker instructions, frames, Plyngo packets) is in Machine.
-/
namespace Sys2Proof

/-- The command a word spells by the table's bits: none, since the table gives no bits. -/
def decodeTableWord (_nbits _w : Nat) : Option Instr := none

end Sys2Proof
end

