-- ==== Sys2Proof/Machine/Operands.lean ====
section
/-!
DEFINITION. The number formats and rounding functions the data path shares: shifts with truncation and with rounding
half to even (R154), saturation, complex components of bits, and the timelines that say which value of a setting is in
force at a tick (R55).
-/
namespace Sys2Proof.Machine

/-- R154: `shr_trunc`, a shift toward minus infinity. -/
def shrTrunc (v : Int) (sh : Nat) : Int := asr v sh

/-- R154: `shr_conv`, a shift with rounding half to even. -/
def shrConv (v : Int) (sh : Nat) : Int :=
  if sh = 0 then v
  else
    let q := asr v sh
    let r := v - q * (2 ^ sh : Nat)
    let half : Int := ((2 ^ (sh - 1) : Nat) : Int)
    if half < r || (r == half && q % 2 == 1) then q + 1 else q

/-- a / b rounded to the nearest integer, halves to even; 0 for b = 0. -/
def divHalfEven (a : Int) (b : Nat) : Int :=
  if b = 0 then 0
  else
    let q := a.fdiv b
    let r := a - q * b
    if (b : Int) < 2 * r || (2 * r == (b : Int) && q % 2 == 1) then q + 1 else q

/-- Was `i` outside the range of a signed `w`-bit number? -/
def satHit (w : Nat) (i : Int) : Bool := satS w i != i

/-- Exponent of a code of the form 0: 1; 1: 2; 2: 4; 3: 8. -/
def pow2Code (c : Nat) : Nat := 2 ^ c

/-- The value a timeline, newest entry first, gives at tick k: that of the newest entry whose tick is at most k. -/
def tlAt {α : Type} (d : α) : List (Nat × α) → Nat → α
  | [], _ => d
  | (t, v) :: r, k => if t ≤ k then v else tlAt d r k

/-- A timeline with `v` in force from tick k; entries for later ticks go. -/
def tlPut {α : Type} (l : List (Nat × α)) (k : Nat) (v : α) : List (Nat × α) :=
  (k, v) :: l.filter (fun e => e.1 < k)

/-- The bits of `n` that are 1, below `w`, ascending. -/
def bitList (w n : Nat) : List Nat := (List.range w).filter (fun i => bitOf n i == 1)

/-- The maximum of a list; 0 for the empty list. -/
def maxL (l : List Nat) : Nat := l.foldl max 0

/-- The sum of a list. -/
def sumL (l : List Nat) : Nat := l.foldl (· + ·) 0

/-- The sum of a list of integers. -/
def sumI (l : List Int) : Int := l.foldl (· + ·) 0

/-- Adds `x` to a list that holds no repeats. -/
def addNew {α : Type} [BEq α] (l : List α) (x : α) : List α := if l.contains x then l else l ++ [x]

/-- The lists cut into pieces of `n`, the last shorter; `fuel` bounds the pieces. -/
def chunks {α : Type} : Nat → Nat → List α → List (List α)
  | 0, _, _ => []
  | _, _, [] => []
  | fuel + 1, n, l => l.take n :: chunks fuel n (l.drop n)

/-! ### Sines and cosines -/

/-- 2π × 2^128, to the nearest integer. -/
def twoPi128 : Nat := 2138057168129933495719360746323741566601

/-- Σ of a Taylor series whose terms alternate: term n + 1 is term n × −x² / ((2n + a)(2n + a + 1)), at scale 2^128. -/
def taylor (x2 a : Int) : Nat → Nat → Int → Int
  | 0, _, _ => 0
  | fuel + 1, n, term =>
    term + taylor x2 a fuel (n + 1) (-(term * x2 / (2 ^ 128 : Nat)) / ((2 * (n : Int) + a) * (2 * (n : Int) + a + 1)))

/-- The angle 2π × j / l at scale 2^128. -/
def angle128 (j l : Nat) : Int := if l = 0 then 0 else ((twoPi128 * (j % l) / l : Nat) : Int)

/-- cos(2πj/l) and sin(2πj/l) at scale 2^128. -/
def cos128 (j l : Nat) : Int :=
  let x := angle128 j l
  taylor (x * x / (2 ^ 128 : Nat)) 1 64 0 (2 ^ 128 : Nat)
def sin128 (j l : Nat) : Int :=
  let x := angle128 j l
  taylor (x * x / (2 ^ 128 : Nat)) 2 64 0 x

/-- round(2^sh × v / 2^128), to the nearest. -/
def roundAt (v : Int) (sh : Nat) : Int := (v + (2 ^ (127 - sh) : Nat)) / (2 ^ (128 - sh) : Nat)

/-! ### Complex components -/

/-- A complex value of bits. -/
structure Cx where
  re : Int
  im : Int
  deriving DecidableEq, Repr

end Sys2Proof.Machine
end

