-- ==== Sys2Proof/Config.lean ====
section
/-!
DEFINITION. What an implementation of the part fixes and the manual leaves open: the values the maker programs in OTP,
and the free values. Every constant here is opaque, so no proof can see a value of it.
-/
namespace Sys2Proof

/-- The 64-bit die identifier the maker programs in OTP (GLB_UID). Free: log entry 5. -/
opaque Config.uid : Nat

/-- Base load in mW, programmed in OTP (PWR_BASE). Free: log entry 5. -/
opaque Config.pwrBase : Nat

/-- pJ per comb cycle, programmed in OTP (PWR_E_COMB). Free: log entry 5. -/
opaque Config.pwrEComb : Nat

/-- pJ per phase-engine cycle, programmed in OTP (PWR_E_PHASE). Free: log entry 5. -/
opaque Config.pwrEPhase : Nat

/-- pJ per 1,024 CMAC-cycles, programmed in OTP (PWR_E_WAG). Free: log entry 5. -/
opaque Config.pwrEWag : Nat

/-- pJ per worker cycle, programmed in OTP (PWR_E_WRK). Free: log entry 5. -/
opaque Config.pwrEWrk : Nat

/-- Base MAC address programmed in OTP (ETHn_MAC). Free: log entry 5. -/
opaque Config.macBase : Nat

/-- State of maker key slot 68 + i as OTP gives it: 0 EMPTY, 1 ACTIVE, 2 REVOKED (Table 21-8). Free: log entry 5. -/
opaque Config.makerKeyState (i : Nat) : Nat

/-- Key held in maker key slot 68 + i, 32 bytes, programmed in OTP. Free: log entry 5. -/
opaque Config.makerKey (i : Nat) : List Byte

/-- The clockIdentity of the part's PTP instances, which the manual gives no value for. Free: log entry 8. -/
opaque Config.clockIdentity : Nat

/-- clockAccuracy and offsetScaledLogVariance the part's PTP instances announce, which the manual gives no value for. Free: log
entry 8. -/
opaque Config.clockAccuracy : Nat
opaque Config.clockVariance : Nat

/-- What the loop filter of R104 gives as y: a function of the bandwidth in mHz and of the draw, which stands for the errors the loop
has seen. Free: log entry 3. -/
opaque Config.loopFilter (bandwidth draw : Nat) : Int

/-- Time to live of the hive's own IP messages, which the manual gives no value for. Free: log entry 11. -/
opaque Config.ipTtl : Nat

/-- What RCNT (58), RTOP (59) and RBOT (60) of a worker read while its repeat stack is empty, after the pop of the entry with that count, first and
last address: the manual does not state it. It depends on nothing else, so that runs stay alike (R4, log entry 107). -/
opaque Config.poppedTop (code count first last : Nat) : Nat

/-- A fresh free value: the value the part shows where the manual states none. The step applies it to a counter of the
state and advances the counter (`State.freeCtr`), so nothing can be proved of it. Log entry 2. -/
opaque Config.freeValue : Nat → Nat

end Sys2Proof
end

