-- ==== Sys2Proof/Machine/Regs.lean ====
section
/-!
DEFINITION. The register map of the part: the BAR0 offset of every register, and one row per register array with its
access type, its reset value, the bits a write may reach and whether it is LIVE in every guard mode.  The rows follow
the register header lines and register tables of the chapters (R9, R493); the defining chapter stands above each group.
-/
namespace Sys2Proof.Machine

/-- The access types of R9 and R496, at the level of a whole register. -/
inductive Access where
  | ro | rw | wo | w1c | mw
  deriving DecidableEq, Repr

/-- One register array of a chapter: `n1` registers `s1` bytes apart, each of them `n2` registers `s2` bytes apart. -/
structure RegRow where
  name  : String
  off   : Nat
  n1    : Nat
  s1    : Nat
  n2    : Nat
  s2    : Nat
  acc   : Access
  reset : Nat
  mask  : Nat
  live  : Bool
  deriving DecidableEq, Repr


/-! ### 20_register_interface -/

abbrev GLB_ID : Nat := 0x0
abbrev GLB_ID_PART : Fld := ⟨31, 16⟩
abbrev GLB_ID_STEP_LETTER : Fld := ⟨15, 12⟩
abbrev GLB_ID_STEP_NUM : Fld := ⟨11, 8⟩
abbrev GLB_ID_REG_REV : Fld := ⟨7, 0⟩
abbrev GLB_UID_LO : Nat := 0x4
abbrev GLB_UID_HI : Nat := 0x8
abbrev GLB_SCRATCH : Nat := 0xC
abbrev GLB_ERR : Nat := 0x10
abbrev GLB_ERR_SEAL_MISMATCH : Fld := ⟨6, 6⟩
abbrev GLB_ERR_SEAL_STARVED : Fld := ⟨5, 5⟩
abbrev GLB_ERR_BAR0_WP : Fld := ⟨4, 4⟩
abbrev GLB_ERR_GUARD : Fld := ⟨3, 3⟩
abbrev GLB_ERR_XD : Fld := ⟨2, 2⟩
abbrev GLB_ERR_ACCESS : Fld := ⟨1, 1⟩
abbrev GLB_ERR_UNMAPPED : Fld := ⟨0, 0⟩
abbrev GLB_INT_EN : Nat := 0x14
abbrev GLB_INT_STATUS : Nat := 0x18
abbrev GLB_ALARM : Nat := 0x1C
abbrev GLB_GUARD_LO : Nat := 0x20
abbrev GLB_GUARD_HI : Nat := 0x24
abbrev GLB_GUARD_HIT : Nat := 0x28
abbrev GLB_GUARD_ADDR : Nat := 0x2C
abbrev GLB_XD_ERR : Nat := 0x30
abbrev GLB_XD_ADDR : Nat := 0x34
abbrev GLB_DOMAINS : Nat := 0x38
abbrev GLB_ADDR_LOG : Nat := 0x3C
abbrev GLB_BAR0_WE_LO : Nat := 0x40
abbrev GLB_BAR0_WE_HI : Nat := 0x44
abbrev GLB_FAULT : Nat := 0x48
abbrev GLB_SEAL_CFG : Nat := 0x50
abbrev GLB_SEAL_STATUS : Nat := 0x54
abbrev GLB_SEAL_REF : Nat := 0x58
abbrev GLB_SEAL_LAST : Nat := 0x5C
abbrev GLB_SEAL_PASSES : Nat := 0x60
abbrev GLB_SEAL_MISMATCH : Nat := 0x64
abbrev GLB_SEAL_VOID : Nat := 0x68
abbrev GLB_UNMAPPED_CNT : Nat := 0x70
abbrev GLB_XD_CNT : Nat := 0x74
abbrev GLB_GUARD_CNT : Nat := 0x78
abbrev GLB_INT_MAPb (b : Nat) : Nat := 0x100 + b * 0x4
abbrev GLB_INT_MAPb_ALARM : Fld := ⟨31, 31⟩
abbrev GLB_INT_MAPb_VEC : Fld := ⟨10, 0⟩

/-! ### 23_availability -/

abbrev KPR_CTRL : Nat := 0x100000
abbrev KPR_CTRL_REVERT : Fld := ⟨1, 1⟩
abbrev KPR_CTRL_EN : Fld := ⟨0, 0⟩
abbrev KPR_STATUS : Nat := 0x100004
abbrev KPR_STATUS_ACTIVE : Fld := ⟨31, 31⟩
abbrev KPR_STATUS_CLEAN : Fld := ⟨11, 8⟩
abbrev KPR_STATUS_STATE_A : Fld := ⟨5, 3⟩
abbrev KPR_STATUS_STATE_B : Fld := ⟨2, 0⟩
abbrev KPR_ERR : Nat := 0x100008
abbrev KPR_ERR_RETIRED : Fld := ⟨5, 5⟩
abbrev KPR_ERR_REVERT : Fld := ⟨4, 4⟩
abbrev KPR_ERR_MIRROR : Fld := ⟨3, 3⟩
abbrev KPR_ERR_STANDBY_FAULT : Fld := ⟨2, 2⟩
abbrev KPR_ERR_SWITCH : Fld := ⟨1, 1⟩
abbrev KPR_ERR_CFG_ERR : Fld := ⟨0, 0⟩
abbrev KPR_CMD : Nat := 0x10000C
abbrev KPR_CMD_ACTION : Fld := ⟨8, 8⟩
abbrev KPR_CMD_KEEPER : Fld := ⟨0, 0⟩
abbrev KPR_INT_EN : Nat := 0x100010
abbrev KPR_FAULT_LIMIT : Nat := 0x100014
abbrev KPR_SWITCH_CNT : Nat := 0x100018
abbrev KPR_PLANNED_CNT : Nat := 0x10001C
abbrev KPR_REVERT_CNT : Nat := 0x100020
abbrev KPR_GAP_TICKS : Nat := 0x100024
abbrev KPR_LAST_SW : Nat := 0x100028
abbrev KPR_LAST_SW_TICK : Nat := 0x10002C
abbrev KPR_FAULTS_A : Nat := 0x100030
abbrev KPR_FAULTS_B : Nat := 0x100034
abbrev KPR_LOCKSTEP : Nat := 0x100038
abbrev KPR_MEM_CORR : Nat := 0x10003C
abbrev KPR_MEM_UNCORR : Nat := 0x100040
abbrev KPR_OP_TICKS_LO : Nat := 0x100048
abbrev KPR_OP_TICKS_HI : Nat := 0x10004C
abbrev KPR_UNAVAIL_LO : Nat := 0x100050
abbrev KPR_UNAVAIL_HI : Nat := 0x100054
abbrev KPR_HEALTH_SEQ : Nat := 0x100058
abbrev KPR_HEALTHw (w : Nat) : Nat := 0x101000 + w * 0x4

/-! ### 22_power_arbiter -/

abbrev PWR_CTRL : Nat := 0x200000
abbrev PWR_CTRL_CORR_EN : Fld := ⟨1, 1⟩
abbrev PWR_CTRL_EN : Fld := ⟨0, 0⟩
abbrev PWR_ERR : Nat := 0x200004
abbrev PWR_ERR_WITHHELD : Fld := ⟨5, 5⟩
abbrev PWR_ERR_SHED_B : Fld := ⟨4, 4⟩
abbrev PWR_ERR_SHED_C : Fld := ⟨3, 3⟩
abbrev PWR_ERR_OVER : Fld := ⟨2, 2⟩
abbrev PWR_ERR_RAIL_FAIL : Fld := ⟨1, 1⟩
abbrev PWR_ERR_CFG_ERR : Fld := ⟨0, 0⟩
abbrev PWR_INT_EN : Nat := 0x200008
abbrev PWR_STATUS : Nat := 0x20000C
abbrev PWR_TEMP : Nat := 0x200010
abbrev PWR_BUDGET : Nat := 0x200014
abbrev PWR_BASE : Nat := 0x200018
abbrev PWR_EST : Nat := 0x20001C
abbrev PWR_E_COMB : Nat := 0x200020
abbrev PWR_E_PHASE : Nat := 0x200024
abbrev PWR_E_WAG : Nat := 0x200028
abbrev PWR_E_WRK : Nat := 0x20002C
abbrev PWR_AGE : Nat := 0x200030
abbrev PWR_STEP : Nat := 0x200034
abbrev PWR_THERM : Nat := 0x200038
abbrev PWR_GRANT : Nat := 0x20003C
abbrev PWR_MEAS : Nat := 0x200040
abbrev PWR_WITHHELD_CNT : Nat := 0x200050
abbrev PWR_PROMOTE_CNT : Nat := 0x200054
abbrev PWR_SHED_CNT : Nat := 0x200058
abbrev PWR_RAIL_FAIL_CNT : Nat := 0x20005C
abbrev PWR_RAILr_CFG (r : Nat) : Nat := 0x200100 + r * 0x10
abbrev PWR_RAILr_MEAS (r : Nat) : Nat := 0x200104 + r * 0x10

/-! ### 04_reference_clocks -/

abbrev CLK_CTRL : Nat := 0x300000
abbrev CLK_CTRL_FORCE_SEL : Fld := ⟨11, 8⟩
abbrev CLK_CTRL_REVERTIVE : Fld := ⟨4, 4⟩
abbrev CLK_CTRL_MODE : Fld := ⟨3, 2⟩
abbrev CLK_CTRL_EN : Fld := ⟨0, 0⟩
abbrev CLK_STATUS : Nat := 0x300004
abbrev CLK_STATUS_ACTIVE_QL : Fld := ⟨19, 16⟩
abbrev CLK_STATUS_ACTIVE : Fld := ⟨11, 8⟩
abbrev CLK_STATUS_PHASE_FREE : Fld := ⟨3, 3⟩
abbrev CLK_STATUS_PULLING : Fld := ⟨2, 2⟩
abbrev CLK_STATUS_STATE : Fld := ⟨1, 0⟩
abbrev CLK_HIST : Nat := 0x300008
abbrev CLK_HIST_RANGE_ERR : Fld := ⟨7, 7⟩
abbrev CLK_HIST_PHASE_FAR : Fld := ⟨6, 6⟩
abbrev CLK_HIST_PULL_DONE : Fld := ⟨5, 5⟩
abbrev CLK_HIST_PULL_START : Fld := ⟨4, 4⟩
abbrev CLK_HIST_LOCK : Fld := ⟨3, 3⟩
abbrev CLK_HIST_HOLDOVER_ENTRY : Fld := ⟨2, 2⟩
abbrev CLK_HIST_SWITCH : Fld := ⟨1, 1⟩
abbrev CLK_HIST_LOSS : Fld := ⟨0, 0⟩
abbrev CLK_INT_EN : Nat := 0x30000C
abbrev CLK_WTR : Nat := 0x300010
abbrev CLK_WTR_WTR : Fld := ⟨11, 0⟩
abbrev CLK_PULL : Nat := 0x300014
abbrev CLK_PULL_SLOPE : Fld := ⟨9, 0⟩
abbrev CLK_LBW_PPS : Nat := 0x300018
abbrev CLK_LBW_PPS_LBW : Fld := ⟨16, 0⟩
abbrev CLK_LBW_CW : Nat := 0x30001C
abbrev CLK_LBW_CW_LBW : Fld := ⟨16, 0⟩
abbrev CLK_LBW_SE : Nat := 0x300020
abbrev CLK_LBW_SE_LBW : Fld := ⟨16, 0⟩
abbrev CLK_LBW_PTP : Nat := 0x300024
abbrev CLK_LBW_PTP_LBW : Fld := ⟨16, 0⟩
abbrev CLK_LOCK : Nat := 0x300028
abbrev CLK_LOCK_LOCK_TIME : Fld := ⟨23, 16⟩
abbrev CLK_LOCK_LOCK_THR : Fld := ⟨13, 0⟩
abbrev CLK_HOLD : Nat := 0x30002C
abbrev CLK_HOLD_AVG : Fld := ⟨9, 0⟩
abbrev CLK_SSM_MAP_LO : Nat := 0x300030
abbrev CLK_SSM_MAP_LO_MAP : Fld := ⟨31, 0⟩
abbrev CLK_SSM_MAP_HI : Nat := 0x300034
abbrev CLK_SSM_MAP_HI_MAP : Fld := ⟨31, 0⟩
abbrev CLK_QUALIFIED : Nat := 0x300040
abbrev CLK_IN_WTR : Nat := 0x300044
abbrev CANDc_CFG (c : Nat) : Nat := 0x300100 + c * 0x20
abbrev CANDc_CFG_LOCKOUT : Fld := ⟨12, 12⟩
abbrev CANDc_CFG_PRIO : Fld := ⟨11, 8⟩
abbrev CANDc_CFG_STATIC_QL : Fld := ⟨7, 4⟩
abbrev CANDc_CFG_TYPE : Fld := ⟨1, 1⟩
abbrev CANDc_CFG_EN : Fld := ⟨0, 0⟩
abbrev CANDc_FREQ (c : Nat) : Nat := 0x300104 + c * 0x20
abbrev CANDc_DLY (c : Nat) : Nat := 0x300108 + c * 0x20
abbrev CANDc_QTOL (c : Nat) : Nat := 0x30010C + c * 0x20
abbrev CANDc_STATUS (c : Nat) : Nat := 0x300110 + c * 0x20
abbrev CANDc_FOFS (c : Nat) : Nat := 0x300114 + c * 0x20
abbrev CLK_OUTn_CFG (n : Nat) : Nat := 0x300400 + n * 0x10
abbrev CLK_OUTn_CFG_FREQ_KHZ : Fld := ⟨31, 10⟩
abbrev CLK_OUTn_CFG_EN : Fld := ⟨0, 0⟩
abbrev CLK_OUTn_DLY (n : Nat) : Nat := 0x300404 + n * 0x10
abbrev PPS_OUTn_CFG (n : Nat) : Nat := 0x300440 + n * 0x10
abbrev PPS_OUTn_CFG_POL : Fld := ⟨3, 3⟩
abbrev PPS_OUTn_CFG_SQUELCH : Fld := ⟨2, 2⟩
abbrev PPS_OUTn_CFG_SRC : Fld := ⟨1, 1⟩
abbrev PPS_OUTn_CFG_EN : Fld := ⟨0, 0⟩
abbrev PPS_OUTn_OFS (n : Nat) : Nat := 0x300444 + n * 0x10
abbrev PPS_OUTn_WIDTH (n : Nat) : Nat := 0x300448 + n * 0x10
abbrev PPS_OUTn_STATUS (n : Nat) : Nat := 0x30044C + n * 0x10
abbrev TICK_OUT_CFG : Nat := 0x300480
abbrev TICK_OUT_CFG_DIV : Fld := ⟨31, 12⟩
abbrev TICK_OUT_CFG_POL : Fld := ⟨3, 3⟩
abbrev TICK_OUT_CFG_SQUELCH : Fld := ⟨2, 2⟩
abbrev TICK_OUT_CFG_EN : Fld := ⟨0, 0⟩
abbrev TICK_OUT_OFS : Nat := 0x300484
abbrev TICK_OUT_WIDTH : Nat := 0x300488

/-! ### 03_hive_time_and_ptp -/

abbrev TIM_CTRL : Nat := 0x400000
abbrev TIM_CTRL_TOD_SRC : Fld := ⟨8, 8⟩
abbrev TIM_CTRL_PTP_SRC : Fld := ⟨6, 4⟩
abbrev TIM_CTRL_EN : Fld := ⟨0, 0⟩
abbrev TIM_STATUS : Nat := 0x400004
abbrev TIM_STATUS_TIMESCALE_ARB : Fld := ⟨3, 3⟩
abbrev TIM_STATUS_STEP_SCHEDULED : Fld := ⟨2, 2⟩
abbrev TIM_STATUS_STEP_PENDING : Fld := ⟨1, 1⟩
abbrev TIM_STATUS_TIME_VALID : Fld := ⟨0, 0⟩
abbrev TIM_HIST : Nat := 0x400008
abbrev TIM_HIST_RANGE_ERR : Fld := ⟨4, 4⟩
abbrev TIM_HIST_STEP_CANCELLED : Fld := ⟨3, 3⟩
abbrev TIM_HIST_STEP_APPLIED : Fld := ⟨2, 2⟩
abbrev TIM_HIST_STEP_REFUSED : Fld := ⟨1, 1⟩
abbrev TIM_HIST_TIMESCALE_CHANGE : Fld := ⟨0, 0⟩
abbrev TIM_INCR : Nat := 0x40000C
abbrev TIM_INCR_Y : Fld := ⟨31, 0⟩
abbrev TIM_NOW_FRAC : Nat := 0x400010
abbrev TIM_NOW_FRAC_FRACTION : Fld := ⟨15, 0⟩
abbrev TIM_NOW_NS : Nat := 0x400014
abbrev TIM_NOW_NS_NANOSECONDS : Fld := ⟨29, 0⟩
abbrev TIM_NOW_SEC_LO : Nat := 0x400018
abbrev TIM_NOW_SEC_HI : Nat := 0x40001C
abbrev TIM_TICK_LO : Nat := 0x400020
abbrev TIM_TICK_HI : Nat := 0x400024
abbrev TIM_STEP_THR : Nat := 0x400028
abbrev TIM_STEP_THR_THR : Fld := ⟨29, 0⟩
abbrev TIM_STEP_OFS_LO : Nat := 0x400030
abbrev TIM_STEP_OFS_HI : Nat := 0x400034
abbrev TIM_OUTLIER_CNT : Nat := 0x400038
abbrev TIM_OUTLIER_CNT_COUNT : Fld := ⟨31, 0⟩
abbrev PTPn_CFG (n : Nat) : Nat := 0x400100 + n * 0x40
abbrev PTPn_CFG_MAJOR_SDO : Fld := ⟨27, 24⟩
abbrev PTPn_CFG_DOMAIN : Fld := ⟨23, 16⟩
abbrev PTPn_CFG_HA : Fld := ⟨12, 12⟩
abbrev PTPn_CFG_MASTER_ONLY : Fld := ⟨11, 11⟩
abbrev PTPn_CFG_SLAVE_ONLY : Fld := ⟨10, 10⟩
abbrev PTPn_CFG_TWO_STEP : Fld := ⟨9, 9⟩
abbrev PTPn_CFG_P2P : Fld := ⟨8, 8⟩
abbrev PTPn_CFG_TRANSPORT : Fld := ⟨7, 6⟩
abbrev PTPn_CFG_PORT : Fld := ⟨5, 1⟩
abbrev PTPn_CFG_EN : Fld := ⟨0, 0⟩
abbrev PTPn_INTV (n : Nat) : Nat := 0x400104 + n * 0x40
abbrev PTPn_INTV_ANN_TIMEOUT : Fld := ⟨27, 24⟩
abbrev PTPn_INTV_LOG_ANN : Fld := ⟨23, 16⟩
abbrev PTPn_INTV_LOG_DREQ : Fld := ⟨15, 8⟩
abbrev PTPn_INTV_LOG_SYNC : Fld := ⟨7, 0⟩
abbrev PTPn_TXLAT (n : Nat) : Nat := 0x400108 + n * 0x40
abbrev PTPn_TXLAT_LAT : Fld := ⟨31, 0⟩
abbrev PTPn_RXLAT (n : Nat) : Nat := 0x40010C + n * 0x40
abbrev PTPn_ASYM (n : Nat) : Nat := 0x400110 + n * 0x40
abbrev PTPn_ASYM_ASYM : Fld := ⟨31, 0⟩
abbrev PTPn_STATE (n : Nat) : Nat := 0x400114 + n * 0x40
abbrev PTPn_STATE_PARENT_CLASS : Fld := ⟨15, 8⟩
abbrev PTPn_STATE_PORT_STATE : Fld := ⟨3, 0⟩
abbrev PTPn_OFFSET_LO (n : Nat) : Nat := 0x400118 + n * 0x40
abbrev PTPn_OFFSET_HI (n : Nat) : Nat := 0x40011C + n * 0x40
abbrev PTPn_MPD (n : Nat) : Nat := 0x400120 + n * 0x40
abbrev PTPn_CLASS (n : Nat) : Nat := 0x400124 + n * 0x40
abbrev PTPn_CLASS_FREERUN : Fld := ⟨23, 16⟩
abbrev PTPn_CLASS_HOLDOVER : Fld := ⟨15, 8⟩
abbrev PTPn_CLASS_LOCKED : Fld := ⟨7, 0⟩
abbrev PTPn_PRIO (n : Nat) : Nat := 0x400128 + n * 0x40
abbrev PTPn_PRIO_PRIORITY2 : Fld := ⟨15, 8⟩
abbrev PTPn_PRIO_PRIORITY1 : Fld := ⟨7, 0⟩
abbrev PTPn_DISCARD (n : Nat) : Nat := 0x40012C + n * 0x40
abbrev PTPn_DISCARD_COUNT : Fld := ⟨31, 0⟩

/-! ### 05_nectar_links -/

abbrev NEC_CTRL : Nat := 0x500000
abbrev NEC_CTRL_EN : Fld := ⟨0, 0⟩
abbrev NEC_INT_EN : Nat := 0x500004
abbrev NEC_INT_EN_ERR_EN : Fld := ⟨16, 16⟩
abbrev NEC_INT_EN_EN : Fld := ⟨7, 0⟩
abbrev NEC_HIST_SUM : Nat := 0x500008
abbrev NEC_HIST_SUM_BUNDLE : Fld := ⟨15, 0⟩
abbrev NEC_ERR : Nat := 0x50000C
abbrev NEC_ERR_CFG_ERR : Fld := ⟨0, 0⟩
abbrev NEC_BUNDLEb_CFG (b : Nat) : Nat := 0x500100 + b * 0x40
abbrev NEC_BUNDLEb_CFG_FORCE_EN : Fld := ⟨20, 20⟩
abbrev NEC_BUNDLEb_CFG_FORCE_LANE : Fld := ⟨19, 16⟩
abbrev NEC_BUNDLEb_CFG_CTLE_FIX : Fld := ⟨12, 12⟩
abbrev NEC_BUNDLEb_CFG_CTLE_DB : Fld := ⟨11, 8⟩
abbrev NEC_BUNDLEb_CFG_PAR_EN : Fld := ⟨1, 1⟩
abbrev NEC_BUNDLEb_CFG_EN : Fld := ⟨0, 0⟩
abbrev NEC_BUNDLEb_STATUS (b : Nat) : Nat := 0x500104 + b * 0x40
abbrev NEC_BUNDLEb_STATUS_ALIGNED : Fld := ⟨31, 31⟩
abbrev NEC_BUNDLEb_STATUS_REBUILD_ACTIVE : Fld := ⟨30, 30⟩
abbrev NEC_BUNDLEb_STATUS_REBUILD_LANE : Fld := ⟨28, 24⟩
abbrev NEC_BUNDLEb_STATUS_LOCKED : Fld := ⟨16, 0⟩
abbrev NEC_BUNDLEb_HIST (b : Nat) : Nat := 0x500108 + b * 0x40
abbrev NEC_BUNDLEb_HIST_PAR_LOST : Fld := ⟨7, 7⟩
abbrev NEC_BUNDLEb_HIST_UNRECOVERABLE : Fld := ⟨6, 6⟩
abbrev NEC_BUNDLEb_HIST_REBUILD_START : Fld := ⟨5, 5⟩
abbrev NEC_BUNDLEb_HIST_SKEW_ERR : Fld := ⟨4, 4⟩
abbrev NEC_BUNDLEb_HIST_ID_ERR : Fld := ⟨3, 3⟩
abbrev NEC_BUNDLEb_HIST_MARKER_MISS : Fld := ⟨2, 2⟩
abbrev NEC_BUNDLEb_HIST_STUFF_ERR : Fld := ⟨1, 1⟩
abbrev NEC_BUNDLEb_HIST_LOCK_LOSS : Fld := ⟨0, 0⟩
abbrev NEC_BUNDLEb_CKOFS (b : Nat) : Nat := 0x50010C + b * 0x40
abbrev NEC_BUNDLEb_SKEW (b : Nat) : Nat := 0x500110 + b * 0x40
abbrev NEC_LANE_STATUS (b : Nat) (u : Nat) : Nat := 0x500800 + b * 0x200 + u * 0x10
abbrev NEC_LANE_STATUS_MISSES : Fld := ⟨9, 8⟩
abbrev NEC_LANE_STATUS_CTLE_DB : Fld := ⟨7, 4⟩
abbrev NEC_LANE_STATUS_EXCLUDED : Fld := ⟨3, 3⟩
abbrev NEC_LANE_STATUS_STATE : Fld := ⟨2, 0⟩
abbrev NEC_LANE_DFE (b : Nat) (u : Nat) : Nat := 0x500804 + b * 0x200 + u * 0x10
abbrev NEC_LANE_DFE_H5 : Fld := ⟨29, 24⟩
abbrev NEC_LANE_DFE_H4 : Fld := ⟨23, 18⟩
abbrev NEC_LANE_DFE_H3 : Fld := ⟨17, 12⟩
abbrev NEC_LANE_DFE_H2 : Fld := ⟨11, 6⟩
abbrev NEC_LANE_DFE_H1 : Fld := ⟨5, 0⟩
abbrev NEC_LANE_STUFF_CNT (b : Nat) (u : Nat) : Nat := 0x500808 + b * 0x200 + u * 0x10
abbrev NEC_LANE_MISS_CNT (b : Nat) (u : Nat) : Nat := 0x50080C + b * 0x200 + u * 0x10
abbrev NEC_PORTn_CFG (n : Nat) : Nat := 0x503000 + n * 0x40
abbrev NEC_PORTn_CFG_INPUT_BASE : Fld := ⟨15, 8⟩
abbrev NEC_PORTn_CFG_INPUTS_M1 : Fld := ⟨7, 4⟩
abbrev NEC_PORTn_CFG_FORMAT : Fld := ⟨3, 1⟩
abbrev NEC_PORTn_CFG_EN : Fld := ⟨0, 0⟩
abbrev NEC_PORTn_SPS_LO (n : Nat) : Nat := 0x503004 + n * 0x40
abbrev NEC_PORTn_SPS_HI (n : Nat) : Nat := 0x503008 + n * 0x40
abbrev NEC_PORTn_MISSING (n : Nat) : Nat := 0x50300C + n * 0x40
abbrev NEC_PORTn_ACCEPTED (n : Nat) : Nat := 0x503010 + n * 0x40
abbrev NEC_PORTn_HDR_ERR (n : Nat) : Nat := 0x503014 + n * 0x40
abbrev NEC_PORTn_LOST (n : Nat) : Nat := 0x503018 + n * 0x40
abbrev NEC_PORTn_CRC_ERR (n : Nat) : Nat := 0x50301C + n * 0x40
abbrev NEC_PORTn_MISMATCH (n : Nat) : Nat := 0x503020 + n * 0x40
abbrev NEC_PORTn_EARLY (n : Nat) : Nat := 0x503024 + n * 0x40
abbrev NEC_PORTn_LATE (n : Nat) : Nat := 0x503028 + n * 0x40
abbrev NEC_PORTn_DUP (n : Nat) : Nat := 0x50302C + n * 0x40
abbrev NEC_PORTn_STRAY (n : Nat) : Nat := 0x503030 + n * 0x40
abbrev NEC_PORTn_NONE (n : Nat) : Nat := 0x503034 + n * 0x40
abbrev NEC_PORTn_STEPPED (n : Nat) : Nat := 0x503038 + n * 0x40

/-! ### 06_ingest_conditioning -/

abbrev ING_CTRL : Nat := 0x600000
abbrev ING_CTRL_EN : Fld := ⟨0, 0⟩
abbrev ING_ERR : Nat := 0x600004
abbrev ING_ERR_TAINT : Fld := ⟨4, 4⟩
abbrev ING_ERR_GRID_LOST : Fld := ⟨3, 3⟩
abbrev ING_ERR_DLY_LATE : Fld := ⟨2, 2⟩
abbrev ING_ERR_COEF_BUSY : Fld := ⟨1, 1⟩
abbrev ING_ERR_CFG_ERR : Fld := ⟨0, 0⟩
abbrev ING_INT_EN : Nat := 0x600008
abbrev ING_INT_EN_EN : Fld := ⟨4, 0⟩
abbrev ING_ROYAL : Nat := 0x60000C
abbrev ING_ROYAL_COUNT : Fld := ⟨3, 0⟩
abbrev ING_Ii_CFG (i : Nat) : Nat := 0x601000 + i * 0x40
abbrev ING_Ii_CFG_CANON : Fld := ⟨26, 24⟩
abbrev ING_Ii_CFG_RBANK : Fld := ⟨21, 20⟩
abbrev ING_Ii_CFG_COEF_SET : Fld := ⟨18, 16⟩
abbrev ING_Ii_CFG_DCB_K : Fld := ⟨12, 8⟩
abbrev ING_Ii_CFG_REPLAY : Fld := ⟨5, 5⟩
abbrev ING_Ii_CFG_HIT_EN : Fld := ⟨4, 4⟩
abbrev ING_Ii_CFG_DCB_FREEZE : Fld := ⟨3, 3⟩
abbrev ING_Ii_CFG_DCB_EN : Fld := ⟨2, 2⟩
abbrev ING_Ii_CFG_ROYAL : Fld := ⟨1, 1⟩
abbrev ING_Ii_CFG_EN : Fld := ⟨0, 0⟩
abbrev ING_Ii_RATE (i : Nat) : Nat := 0x601004 + i * 0x40
abbrev ING_Ii_RATE_RATE_KSPS : Fld := ⟨22, 0⟩
abbrev ING_Ii_FIR (i : Nat) : Nat := 0x601008 + i * 0x40
abbrev ING_Ii_FIR_STAGES : Fld := ⟨28, 27⟩
abbrev ING_Ii_FIR_M3 : Fld := ⟨26, 25⟩
abbrev ING_Ii_FIR_N3_M1 : Fld := ⟨24, 18⟩
abbrev ING_Ii_FIR_M2 : Fld := ⟨17, 16⟩
abbrev ING_Ii_FIR_N2_M1 : Fld := ⟨15, 9⟩
abbrev ING_Ii_FIR_M1 : Fld := ⟨8, 7⟩
abbrev ING_Ii_FIR_N1_M1 : Fld := ⟨6, 0⟩
abbrev ING_Ii_SHIFT (i : Nat) : Nat := 0x60100C + i * 0x40
abbrev ING_Ii_SHIFT_RSH : Fld := ⟨28, 24⟩
abbrev ING_Ii_SHIFT_SH3 : Fld := ⟨20, 16⟩
abbrev ING_Ii_SHIFT_SH2 : Fld := ⟨12, 8⟩
abbrev ING_Ii_SHIFT_SH1 : Fld := ⟨4, 0⟩
abbrev ING_Ii_DLY_D0_LO (i : Nat) : Nat := 0x601010 + i * 0x40
abbrev ING_Ii_DLY_D0_HI (i : Nat) : Nat := 0x601014 + i * 0x40
abbrev ING_Ii_DLY_D1 (i : Nat) : Nat := 0x601018 + i * 0x40
abbrev ING_Ii_DLY_D2 (i : Nat) : Nat := 0x60101C + i * 0x40
abbrev ING_Ii_DLY_REF_LO (i : Nat) : Nat := 0x601020 + i * 0x40
abbrev ING_Ii_DLY_REF_HI (i : Nat) : Nat := 0x601024 + i * 0x40
abbrev ING_Ii_HIT (i : Nat) : Nat := 0x601028 + i * 0x40
abbrev ING_Ii_HIT_THR_OFF : Fld := ⟨31, 16⟩
abbrev ING_Ii_HIT_THR_ON : Fld := ⟨15, 0⟩
abbrev ING_Ii_STATUS (i : Nat) : Nat := 0x60102C + i * 0x40
abbrev ING_Ii_STATUS_RUNNING : Fld := ⟨31, 31⟩
abbrev ING_Ii_STATUS_HALTED : Fld := ⟨30, 30⟩
abbrev ING_Ii_STATUS_TAINTED : Fld := ⟨29, 29⟩
abbrev ING_Ii_STATUS_MODEL_STALE : Fld := ⟨28, 28⟩
abbrev ING_Ii_STATUS_DLY_CLAMP : Fld := ⟨27, 27⟩
abbrev ING_Ii_STATUS_PENDING : Fld := ⟨26, 26⟩
abbrev ING_Ii_STATUS_RATIO_INT : Fld := ⟨1, 0⟩
abbrev ING_Ii_RATIO (i : Nat) : Nat := 0x601030 + i * 0x40
abbrev ING_Ii_GDELAY (i : Nat) : Nat := 0x601034 + i * 0x40
abbrev ING_Ii_SAT_CNT (i : Nat) : Nat := 0x601038 + i * 0x40
abbrev ING_Ii_ABSENT_CNT (i : Nat) : Nat := 0x60103C + i * 0x40
abbrev ING_FEe_COEF_ADDR (e : Nat) : Nat := 0x608000 + e * 0x10
abbrev ING_FEe_COEF_ADDR_ADDR : Fld := ⟨14, 0⟩
abbrev ING_FEe_COEF_DATA (e : Nat) : Nat := 0x608004 + e * 0x10
abbrev ING_FEe_COEF_DATA_COEF : Fld := ⟨17, 0⟩

/-! ### 07_channeliser -/

abbrev CHN_CTRL : Nat := 0x700000
abbrev CHN_CTRL_EN : Fld := ⟨0, 0⟩
abbrev CHN_ERR : Nat := 0x700004
abbrev CHN_ERR_OVF : Fld := ⟨4, 4⟩
abbrev CHN_ERR_GAIN_LATE : Fld := ⟨3, 3⟩
abbrev CHN_ERR_GAIN_BUSY : Fld := ⟨2, 2⟩
abbrev CHN_ERR_WIN_BUSY : Fld := ⟨1, 1⟩
abbrev CHN_ERR_CFG_ERR : Fld := ⟨0, 0⟩
abbrev CHN_INT_EN : Nat := 0x700008
abbrev CHN_GAIN_STATUS : Nat := 0x70000C
abbrev CHN_GAIN_STATUS_PENDING : Fld := ⟨1, 1⟩
abbrev CHN_GAIN_STATUS_ACTIVE : Fld := ⟨0, 0⟩
abbrev CHN_GAIN_EFF_LO : Nat := 0x700010
abbrev CHN_GAIN_EFF_HI : Nat := 0x700014
abbrev CHN_WIN_ADDR : Nat := 0x700020
abbrev CHN_WIN_DATA : Nat := 0x700024
abbrev CHN_GAIN_ADDR : Nat := 0x700028
abbrev CHN_GAIN_DATA : Nat := 0x70002C
abbrev CHN_CPp_CFG (p : Nat) : Nat := 0x700100 + p * 0x40
abbrev CHN_CPp_CFG_QSH : Fld := ⟨31, 26⟩
abbrev CHN_CPp_CFG_FSH : Fld := ⟨25, 24⟩
abbrev CHN_CPp_CFG_PSH : Fld := ⟨23, 19⟩
abbrev CHN_CPp_CFG_CANON : Fld := ⟨18, 16⟩
abbrev CHN_CPp_CFG_LOG2L : Fld := ⟨15, 11⟩
abbrev CHN_CPp_CFG_TAPS : Fld := ⟨10, 9⟩
abbrev CHN_CPp_CFG_OVS : Fld := ⟨8, 8⟩
abbrev CHN_CPp_CFG_WIDTH : Fld := ⟨7, 7⟩
abbrev CHN_CPp_CFG_EN : Fld := ⟨0, 0⟩
abbrev CHN_CPp_WBASE (p : Nat) : Nat := 0x700104 + p * 0x40
abbrev CHN_CPp_SHIFT (p : Nat) : Nat := 0x700108 + p * 0x40
abbrev CHN_CPp_RANGE (p : Nat) : Nat := 0x70010C + p * 0x40
abbrev CHN_CPp_EPOCH_LO (p : Nat) : Nat := 0x700110 + p * 0x40
abbrev CHN_CPp_EPOCH_HI (p : Nat) : Nat := 0x700114 + p * 0x40
abbrev CHN_CPp_PFB_SAT (p : Nat) : Nat := 0x700118 + p * 0x40
abbrev CHN_CPp_OVF_CNT (p : Nat) : Nat := 0x70011C + p * 0x40
abbrev CHN_CPp_OVF_STG (p : Nat) : Nat := 0x700120 + p * 0x40
abbrev CHN_CPp_LAST_LO (p : Nat) : Nat := 0x700124 + p * 0x40
abbrev CHN_CPp_LAST_HI (p : Nat) : Nat := 0x700128 + p * 0x40
abbrev CHN_Ii_CFG (i : Nat) : Nat := 0x701000 + i * 0x10
abbrev CHN_Ii_CFG_GBASE : Fld := ⟨30, 10⟩
abbrev CHN_Ii_CFG_PROFILE : Fld := ⟨5, 4⟩
abbrev CHN_Ii_CFG_REPLAY : Fld := ⟨1, 1⟩
abbrev CHN_Ii_CFG_EN : Fld := ⟨0, 0⟩
abbrev CHN_Ii_START_LO (i : Nat) : Nat := 0x701004 + i * 0x10
abbrev CHN_Ii_START_HI (i : Nat) : Nat := 0x701008 + i * 0x10
abbrev CHN_Ii_CLIP (i : Nat) : Nat := 0x70100C + i * 0x10

/-! ### 09_corner_turn -/

abbrev CTN_CTRL : Nat := 0x800000
abbrev CTN_CTRL_EN : Fld := ⟨0, 0⟩
abbrev CTN_ERR : Nat := 0x800004
abbrev CTN_ERR_MAP_LATE : Fld := ⟨5, 5⟩
abbrev CTN_ERR_NO_PATH : Fld := ⟨4, 4⟩
abbrev CTN_ERR_MAP_MISMATCH : Fld := ⟨3, 3⟩
abbrev CTN_ERR_PEER_LOST : Fld := ⟨2, 2⟩
abbrev CTN_ERR_DUPLICATE_PATH : Fld := ⟨1, 1⟩
abbrev CTN_ERR_CFG_ERR : Fld := ⟨0, 0⟩
abbrev CTN_INT_EN : Nat := 0x800008
abbrev CTN_ID : Nat := 0x80000C
abbrev CTN_SWARM_ID : Nat := 0x800010
abbrev CTN_ANN_CFG : Nat := 0x800014
abbrev CTN_ANN_PORTS : Nat := 0x800018
abbrev CTN_RX_HDR_ERR : Nat := 0x800040
abbrev CTN_RX_SWARM : Nat := 0x800044
abbrev CTN_RX_MAP_ERR : Nat := 0x800048
abbrev CTN_RX_INPUT_ERR : Nat := 0x80004C
abbrev CTN_RX_LATE : Nat := 0x800050
abbrev CTN_RX_EARLY : Nat := 0x800054
abbrev CTN_RX_DUP : Nat := 0x800058
abbrev CTN_TX_SENDS : Nat := 0x80005C
abbrev CTN_TX_LOCAL : Nat := 0x800060
abbrev CTN_TX_NO_PATH : Nat := 0x800064
abbrev CTN_TX_ABANDON : Nat := 0x800068
abbrev CTN_ANN_RX : Nat := 0x80006C
abbrev CTN_ANN_DROP : Nat := 0x800070
abbrev CTN_RX_OFF : Nat := 0x800074
abbrev CTN_SESx_CFG (x : Nat) : Nat := 0x810000 + x * 0x40
abbrev CTN_SESx_CFG_DWELL : Fld := ⟨24, 8⟩
abbrev CTN_SESx_CFG_BEAM_ONLY : Fld := ⟨4, 4⟩
abbrev CTN_SESx_CFG_WIDTH : Fld := ⟨3, 3⟩
abbrev CTN_SESx_CFG_OWN : Fld := ⟨2, 2⟩
abbrev CTN_SESx_CFG_PRODUCE : Fld := ⟨1, 1⟩
abbrev CTN_SESx_CFG_EN : Fld := ⟨0, 0⟩
abbrev CTN_SESx_MAP (x : Nat) : Nat := 0x810004 + x * 0x40
abbrev CTN_SESx_INMAP (x : Nat) : Nat := 0x810008 + x * 0x40
abbrev CTN_SESx_VERSION (x : Nat) : Nat := 0x81000C + x * 0x40
abbrev CTN_SESx_NEXT_MAP (x : Nat) : Nat := 0x810010 + x * 0x40
abbrev CTN_SESx_NEXT_INMAP (x : Nat) : Nat := 0x810014 + x * 0x40
abbrev CTN_SESx_NEXT_VERSION (x : Nat) : Nat := 0x810018 + x * 0x40
abbrev CTN_SESx_NEXT_EFF_LO (x : Nat) : Nat := 0x81001C + x * 0x40
abbrev CTN_SESx_NEXT_EFF_HI (x : Nat) : Nat := 0x810020 + x * 0x40
abbrev CTN_SESx_CFG2 (x : Nat) : Nat := 0x810024 + x * 0x40
abbrev CTN_SESx_SIBASE (x : Nat) : Nat := 0x810028 + x * 0x40
abbrev CTN_SESx_BROOD (x : Nat) : Nat := 0x81002C + x * 0x40
abbrev CTN_SESx_UDP (x : Nat) : Nat := 0x810030 + x * 0x40
abbrev CTN_SESx_LATE (x : Nat) : Nat := 0x810034 + x * 0x40
abbrev CTN_SESx_ABSENT (x : Nat) : Nat := 0x810038 + x * 0x40
abbrev CTN_SESx_DUP (x : Nat) : Nat := 0x81003C + x * 0x40
abbrev CTN_SLICEe_LO (e : Nat) : Nat := 0x820000 + e * 0x8
abbrev CTN_SLICEe_HI (e : Nat) : Nat := 0x820004 + e * 0x8
abbrev CTN_INMAPe_LO (e : Nat) : Nat := 0x840000 + e * 0x8
abbrev CTN_INMAPe_HI (e : Nat) : Nat := 0x840004 + e * 0x8
abbrev CTN_PEERh_CFG (h : Nat) : Nat := 0x860000 + h * 0x10
abbrev CTN_PEERh_MASK (h : Nat) : Nat := 0x860004 + h * 0x10
abbrev CTN_PEERh_STATUS (h : Nat) : Nat := 0x860008 + h * 0x10
abbrev CTN_PEERh_HIST (h : Nat) : Nat := 0x86000C + h * 0x10
abbrev CTN_SESx_EPOCH_LO (x : Nat) : Nat := 0x880000 + x * 0x10
abbrev CTN_SESx_EPOCH_HI (x : Nat) : Nat := 0x880004 + x * 0x10
abbrev CTN_SESx_GRID (x : Nat) : Nat := 0x880008 + x * 0x10

/-! ### 08_ethernet_ports -/

abbrev ETH_CTRL : Nat := 0x900000
abbrev ETH_CTRL_EN : Fld := ⟨0, 0⟩
abbrev ETH_ERR : Nat := 0x900004
abbrev ETH_ERR_NEIGH_FULL : Fld := ⟨1, 1⟩
abbrev ETH_ERR_CFG_ERR : Fld := ⟨0, 0⟩
abbrev ETH_INT_EN : Nat := 0x900008
abbrev ETH_HIST_SUM : Nat := 0x90000C
abbrev ETH_UDP_FIX0 : Nat := 0x900010
abbrev ETH_UDP_FIX1 : Nat := 0x900014
abbrev ETH_CLS_MULTI : Nat := 0x900018
abbrev ETH_CLS_NOMATCH : Nat := 0x90001C
abbrev ETH_AGE : Nat := 0x900020
abbrev ETH_ICMP_RATE : Nat := 0x900024
abbrev ETH_NEIGH_CFG : Nat := 0x900028
abbrev ETHn_CFG (n : Nat) : Nat := 0x901000 + n * 0x100
abbrev ETHn_CFG_EMPH : Fld := ⟨26, 24⟩
abbrev ETHn_CFG_RX_POL : Fld := ⟨23, 20⟩
abbrev ETHn_CFG_TX_POL : Fld := ⟨19, 16⟩
abbrev ETHn_CFG_VERIFY_MS : Fld := ⟨15, 9⟩
abbrev ETHn_CFG_VERIFY_DIS : Fld := ⟨8, 8⟩
abbrev ETHn_CFG_ADD_FRAG : Fld := ⟨7, 6⟩
abbrev ETHn_CFG_PREEMPT_EN : Fld := ⟨5, 5⟩
abbrev ETHn_CFG_AN_EN : Fld := ⟨4, 4⟩
abbrev ETHn_CFG_PHY : Fld := ⟨3, 1⟩
abbrev ETHn_CFG_EN : Fld := ⟨0, 0⟩
abbrev ETHn_STATUS (n : Nat) : Nat := 0x901004 + n * 0x100
abbrev ETHn_STATUS_MM_STATE : Fld := ⟨10, 8⟩
abbrev ETHn_STATUS_PREEMPT_ACTIVE : Fld := ⟨7, 7⟩
abbrev ETHn_STATUS_FEC_LOCK : Fld := ⟨6, 6⟩
abbrev ETHn_STATUS_LANE_LOCK : Fld := ⟨5, 2⟩
abbrev ETHn_STATUS_AN_DONE : Fld := ⟨1, 1⟩
abbrev ETHn_STATUS_LINK_UP : Fld := ⟨0, 0⟩
abbrev ETHn_HIST (n : Nat) : Nat := 0x901008 + n * 0x100
abbrev ETHn_HIST_ADDR_CONFLICT : Fld := ⟨6, 6⟩
abbrev ETHn_HIST_TX_DROP : Fld := ⟨5, 5⟩
abbrev ETHn_HIST_RX_DROP : Fld := ⟨4, 4⟩
abbrev ETHn_HIST_FEC_UNCORR : Fld := ⟨3, 3⟩
abbrev ETHn_HIST_VERIFY_FAIL : Fld := ⟨2, 2⟩
abbrev ETHn_HIST_LINK_UP : Fld := ⟨1, 1⟩
abbrev ETHn_HIST_LINK_DOWN : Fld := ⟨0, 0⟩
abbrev ETHn_MAC_LO (n : Nat) : Nat := 0x90100C + n * 0x100
abbrev ETHn_MAC_HI (n : Nat) : Nat := 0x901010 + n * 0x100
abbrev ETHn_IP4 (n : Nat) : Nat := 0x901014 + n * 0x100
abbrev ETHn_IP4_CFG (n : Nat) : Nat := 0x901018 + n * 0x100
abbrev ETHn_IP4_GW (n : Nat) : Nat := 0x90101C + n * 0x100
abbrev ETHn_IP6 (n : Nat) (j : Nat) : Nat := 0x901020 + n * 0x100 + j * 0x4
abbrev ETHn_IP6_CFG (n : Nat) : Nat := 0x901030 + n * 0x100
abbrev ETHn_IP6_GW (n : Nat) (j : Nat) : Nat := 0x901034 + n * 0x100 + j * 0x4
abbrev ETHn_CFG2 (n : Nat) : Nat := 0x901044 + n * 0x100
abbrev ETHn_RX_FRAMES (n : Nat) : Nat := 0x901080 + n * 0x100
abbrev ETHn_RX_FCS_ERR (n : Nat) : Nat := 0x901084 + n * 0x100
abbrev ETHn_FEC_UNCORR (n : Nat) : Nat := 0x901088 + n * 0x100
abbrev ETHn_FEC_CORR (n : Nat) : Nat := 0x90108C + n * 0x100
abbrev ETHn_RX_OVERSIZE (n : Nat) : Nat := 0x901090 + n * 0x100
abbrev ETHn_RX_MM_ERR (n : Nat) : Nat := 0x901094 + n * 0x100
abbrev ETHn_RX_VLAN_DROP (n : Nat) : Nat := 0x901098 + n * 0x100
abbrev ETHn_RX_ADDR_DROP (n : Nat) : Nat := 0x90109C + n * 0x100
abbrev ETHn_RX_IP_ERR (n : Nat) : Nat := 0x9010A0 + n * 0x100
abbrev ETHn_RX_NON_UDP (n : Nat) : Nat := 0x9010A4 + n * 0x100
abbrev ETHn_RX_PAUSE (n : Nat) : Nat := 0x9010A8 + n * 0x100
abbrev ETHn_RX_OLD_QUERY (n : Nat) : Nat := 0x9010AC + n * 0x100
abbrev ETHn_TX_FRAMES (n : Nat) : Nat := 0x9010B0 + n * 0x100
abbrev ETHn_TX_EXPRESS (n : Nat) : Nat := 0x9010B4 + n * 0x100
abbrev ETHn_TX_PREEMPT (n : Nat) : Nat := 0x9010B8 + n * 0x100
abbrev ETHn_TX_DROP (n : Nat) : Nat := 0x9010BC + n * 0x100
abbrev ETHn_TX_NO_NEIGH (n : Nat) : Nat := 0x9010C0 + n * 0x100
abbrev ETHn_ICMP_LIMITED (n : Nat) : Nat := 0x9010C4 + n * 0x100
abbrev ETH_CLSe_PORTS (e : Nat) : Nat := 0x904000 + e * 0x20
abbrev ETH_CLSe_MATCH (e : Nat) : Nat := 0x904004 + e * 0x20
abbrev ETH_CLSe_MATCH_VALID : Fld := ⟨31, 31⟩
abbrev ETH_CLSe_MATCH_IPVER : Fld := ⟨30, 29⟩
abbrev ETH_CLSe_MATCH_VLAN_EN : Fld := ⟨28, 28⟩
abbrev ETH_CLSe_MATCH_VID : Fld := ⟨27, 16⟩
abbrev ETH_CLSe_MATCH_DST : Fld := ⟨15, 14⟩
abbrev ETH_CLSe_MATCH_GRP : Fld := ⟨5, 0⟩
abbrev ETH_CLSe_UDP (e : Nat) : Nat := 0x904008 + e * 0x20
abbrev ETH_CLSe_ACTION (e : Nat) : Nat := 0x90400C + e * 0x20
abbrev ETH_CLSe_HITS (e : Nat) : Nat := 0x904010 + e * 0x20
abbrev ETH_GRPg_CFG (g : Nat) : Nat := 0x906000 + g * 0x40
abbrev ETH_GRPg_PORTS (g : Nat) : Nat := 0x906004 + g * 0x40
abbrev ETH_GRPg_ADDR (g : Nat) (j : Nat) : Nat := 0x906008 + g * 0x40 + j * 0x4
abbrev ETH_GRPg_SRC (g : Nat) (j : Nat) : Nat := 0x906018 + g * 0x40 + j * 0x4

/-! ### 10_comb_correlator -/

abbrev CMB_CTRL : Nat := 0xA00000
abbrev CMB_CTRL_WIT_EN : Fld := ⟨1, 1⟩
abbrev CMB_CTRL_EN : Fld := ⟨0, 0⟩
abbrev CMB_ERR : Nat := 0xA00004
abbrev CMB_ERR_CW_FAULT : Fld := ⟨5, 5⟩
abbrev CMB_ERR_RETIRED : Fld := ⟨4, 4⟩
abbrev CMB_ERR_MISMATCH : Fld := ⟨3, 3⟩
abbrev CMB_ERR_DSTORE_UNCORR : Fld := ⟨2, 2⟩
abbrev CMB_ERR_ABANDON : Fld := ⟨1, 1⟩
abbrev CMB_ERR_CFG_ERR : Fld := ⟨0, 0⟩
abbrev CMB_INT_EN : Nat := 0xA00008
abbrev CMB_STATUS : Nat := 0xA0000C
abbrev CMB_STATUS_STANDIN_FOR : Fld := ⟨28, 24⟩
abbrev CMB_STATUS_CW_STATE : Fld := ⟨21, 20⟩
abbrev CMB_STATUS_RETIRED : Fld := ⟨15, 0⟩
abbrev CMB_RETIRE_CMD : Nat := 0xA00010
abbrev CMB_RETIRE_CMD_ACTION : Fld := ⟨8, 8⟩
abbrev CMB_RETIRE_CMD_COMB : Fld := ⟨4, 0⟩
abbrev CMB_LOAD : Nat := 0xA00014
abbrev CMB_PEAK : Nat := 0xA00018
abbrev CMB_LIST_ADDR : Nat := 0xA00020
abbrev CMB_LIST_DATA : Nat := 0xA00024
abbrev CMB_WIT_LAST0 : Nat := 0xA00030
abbrev CMB_WIT_LAST1 : Nat := 0xA00034
abbrev CMB_WIT_LAST2 : Nat := 0xA00038
abbrev CMB_WIT_LAST3 : Nat := 0xA0003C
abbrev CMB_WIT_AGREE : Nat := 0xA00040
abbrev CMB_WIT_MISMATCH : Nat := 0xA00044
abbrev CMB_WIT_INCONC : Nat := 0xA00048
abbrev CMB_WIT_SKIPPED : Nat := 0xA0004C
abbrev CMB_DSTORE_CORR : Nat := 0xA00050
abbrev CMB_DSTORE_UNCORR : Nat := 0xA00054
abbrev CMB_Cc_STATE (c : Nat) : Nat := 0xA00100 + c * 0x10
abbrev CMB_Cc_STATE_PENDING_SES : Fld := ⟨25, 16⟩
abbrev CMB_Cc_STATE_STATE : Fld := ⟨1, 0⟩
abbrev CMB_Cc_MISMATCH (c : Nat) : Nat := 0xA00104 + c * 0x10
abbrev CMB_Cc_TRANSIENT (c : Nat) : Nat := 0xA00108 + c * 0x10
abbrev CMB_Cc_WITNESSED (c : Nat) : Nat := 0xA0010C + c * 0x10
abbrev CMB_SESx_CFG (x : Nat) : Nat := 0xA10000 + x * 0x20
abbrev CMB_SESx_CFG_SLOT_BASE : Fld := ⟨24, 16⟩
abbrev CMB_SESx_CFG_EN : Fld := ⟨0, 0⟩
abbrev CMB_SESx_LIST (x : Nat) : Nat := 0xA10004 + x * 0x20
abbrev CMB_SESx_START_LO (x : Nat) : Nat := 0xA10008 + x * 0x20
abbrev CMB_SESx_START_HI (x : Nat) : Nat := 0xA1000C + x * 0x20
abbrev CMB_SESx_STATUS (x : Nat) : Nat := 0xA10010 + x * 0x20
abbrev CMB_SESx_DWELL_LO (x : Nat) : Nat := 0xA10014 + x * 0x20
abbrev CMB_SESx_ABANDON (x : Nat) : Nat := 0xA10018 + x * 0x20
abbrev CMB_SESx_SUSPECT (x : Nat) : Nat := 0xA1001C + x * 0x20

/-! ### 11_supers_and_honey -/

abbrev SUP_CTRL : Nat := 0xB00000
abbrev SUP_CTRL_EN : Fld := ⟨0, 0⟩
abbrev SUP_ERR : Nat := 0xB00004
abbrev SUP_ERR_SAT : Fld := ⟨5, 5⟩
abbrev SUP_ERR_SEND_LOST : Fld := ⟨4, 4⟩
abbrev SUP_ERR_DRAIN_OVERRUN : Fld := ⟨3, 3⟩
abbrev SUP_ERR_LOSS_FULL : Fld := ⟨2, 2⟩
abbrev SUP_ERR_UNCORR : Fld := ⟨1, 1⟩
abbrev SUP_ERR_CFG_ERR : Fld := ⟨0, 0⟩
abbrev SUP_INT_EN : Nat := 0xB00008
abbrev SUP_USE : Nat := 0xB0000C
abbrev SUP_ECC_CORR : Nat := 0xB00010
abbrev SUP_ECC_UNCORR : Nat := 0xB00014
abbrev SUP_SAT_CNT : Nat := 0xB00018
abbrev SUP_LOSS_DROP : Nat := 0xB0001C
abbrev SUP_SESx_CFG (x : Nat) : Nat := 0xB10000 + x * 0x40
abbrev SUP_SESx_CFG_I_M1 : Fld := ⟨31, 16⟩
abbrev SUP_SESx_CFG_DEST : Fld := ⟨13, 12⟩
abbrev SUP_SESx_CFG_TARGET : Fld := ⟨8, 4⟩
abbrev SUP_SESx_CFG_EXACT : Fld := ⟨1, 1⟩
abbrev SUP_SESx_CFG_EN : Fld := ⟨0, 0⟩
abbrev SUP_SESx_BASE (x : Nat) : Nat := 0xB10004 + x * 0x40
abbrev SUP_SESx_SEED (x : Nat) : Nat := 0xB10008 + x * 0x40
abbrev SUP_SESx_RATE (x : Nat) : Nat := 0xB1000C + x * 0x40
abbrev SUP_SESx_UDP (x : Nat) : Nat := 0xB10010 + x * 0x40
abbrev SUP_SESx_RING_BASE (x : Nat) : Nat := 0xB10014 + x * 0x40
abbrev SUP_SESx_RING_SIZE (x : Nat) : Nat := 0xB10018 + x * 0x40
abbrev SUP_SESx_RING_WR (x : Nat) : Nat := 0xB1001C + x * 0x40
abbrev SUP_SESx_RING_RD (x : Nat) : Nat := 0xB10020 + x * 0x40
abbrev SUP_SESx_STATUS (x : Nat) : Nat := 0xB10024 + x * 0x40
abbrev SUP_SESx_INTEG_LO (x : Nat) : Nat := 0xB10028 + x * 0x40
abbrev SUP_SESx_OVERRUN (x : Nat) : Nat := 0xB1002C + x * 0x40
abbrev SUP_SESx_LOST (x : Nat) : Nat := 0xB10030 + x * 0x40
abbrev SUP_SESx_POISON (x : Nat) : Nat := 0xB10034 + x * 0x40
abbrev SUP_SESx_LOSS (x : Nat) : Nat := 0xB10038 + x * 0x40

/-! ### 12_waggle_beamformer -/

abbrev WAG_CTRL : Nat := 0xC00000
abbrev WAG_CTRL_EN : Fld := ⟨0, 0⟩
abbrev WAG_ERR : Nat := 0xC00004
abbrev WAG_ERR_SEND_LOST : Fld := ⟨6, 6⟩
abbrev WAG_ERR_EPOCH_MISS : Fld := ⟨5, 5⟩
abbrev WAG_ERR_UNCORR : Fld := ⟨4, 4⟩
abbrev WAG_ERR_ABANDON : Fld := ⟨3, 3⟩
abbrev WAG_ERR_BUSY : Fld := ⟨2, 2⟩
abbrev WAG_ERR_LATE : Fld := ⟨1, 1⟩
abbrev WAG_ERR_CFG_ERR : Fld := ⟨0, 0⟩
abbrev WAG_INT_EN : Nat := 0xC00008
abbrev WAG_LOAD : Nat := 0xC0000C
abbrev WAG_WUSE : Nat := 0xC00010
abbrev WAG_GUSE : Nat := 0xC00014
abbrev WAG_ECC_CORR : Nat := 0xC00018
abbrev WAG_ECC_UNCORR : Nat := 0xC0001C
abbrev WAG_WT_ADDR : Nat := 0xC00020
abbrev WAG_WT_DATA : Nat := 0xC00024
abbrev WAG_GEO_ADDR : Nat := 0xC00028
abbrev WAG_GEO_DATA : Nat := 0xC0002C
abbrev WAG_SESx_CFG (x : Nat) : Nat := 0xC10000 + x * 0x80
abbrev WAG_SESx_CFG_E_M1 : Fld := ⟨31, 16⟩
abbrev WAG_SESx_CFG_INV : Fld := ⟨3, 3⟩
abbrev WAG_SESx_CFG_MODE : Fld := ⟨2, 2⟩
abbrev WAG_SESx_CFG_EN : Fld := ⟨0, 0⟩
abbrev WAG_SESx_BEAMS (x : Nat) : Nat := 0xC10004 + x * 0x80
abbrev WAG_SESx_IN_FIRST (x : Nat) : Nat := 0xC10008 + x * 0x80
abbrev WAG_SESx_IN_COUNT (x : Nat) : Nat := 0xC1000C + x * 0x80
abbrev WAG_SESx_WBASE (x : Nat) : Nat := 0xC10010 + x * 0x80
abbrev WAG_SESx_GBASE (x : Nat) : Nat := 0xC10014 + x * 0x80
abbrev WAG_SESx_EPOCH_LO (x : Nat) : Nat := 0xC10018 + x * 0x80
abbrev WAG_SESx_EPOCH_HI (x : Nat) : Nat := 0xC1001C + x * 0x80
abbrev WAG_SESx_F0_LO (x : Nat) : Nat := 0xC10020 + x * 0x80
abbrev WAG_SESx_F0_HI (x : Nat) : Nat := 0xC10024 + x * 0x80
abbrev WAG_SESx_DF_LO (x : Nat) : Nat := 0xC10028 + x * 0x80
abbrev WAG_SESx_DF_HI (x : Nat) : Nat := 0xC1002C + x * 0x80
abbrev WAG_SESx_COMMIT_LO (x : Nat) : Nat := 0xC10030 + x * 0x80
abbrev WAG_SESx_COMMIT_HI (x : Nat) : Nat := 0xC10034 + x * 0x80
abbrev WAG_SESx_OUT (x : Nat) : Nat := 0xC10038 + x * 0x80
abbrev WAG_SESx_OUT_OSH : Fld := ⟨20, 16⟩
abbrev WAG_SESx_OUT_FMT : Fld := ⟨8, 8⟩
abbrev WAG_SESx_OUT_WORKER : Fld := ⟨2, 2⟩
abbrev WAG_SESx_OUT_DDR : Fld := ⟨1, 1⟩
abbrev WAG_SESx_OUT_STREAM : Fld := ⟨0, 0⟩
abbrev WAG_SESx_PORTS (x : Nat) : Nat := 0xC1003C + x * 0x80
abbrev WAG_SESx_UDP (x : Nat) : Nat := 0xC10040 + x * 0x80
abbrev WAG_SESx_RING_BASE (x : Nat) : Nat := 0xC10044 + x * 0x80
abbrev WAG_SESx_RING_SIZE (x : Nat) : Nat := 0xC10048 + x * 0x80
abbrev WAG_SESx_RING_WR (x : Nat) : Nat := 0xC1004C + x * 0x80
abbrev WAG_SESx_RING_RD (x : Nat) : Nat := 0xC10050 + x * 0x80
abbrev WAG_SESx_WRK (x : Nat) : Nat := 0xC10054 + x * 0x80
abbrev WAG_SESx_STATUS (x : Nat) : Nat := 0xC10058 + x * 0x80
abbrev WAG_SESx_EPOCH_MISS (x : Nat) : Nat := 0xC1005C + x * 0x80
abbrev WAG_SESx_ABANDON (x : Nat) : Nat := 0xC10060 + x * 0x80
abbrev WAG_SESx_OCLIP (x : Nat) : Nat := 0xC10064 + x * 0x80
abbrev WAG_SESx_WCLIP (x : Nat) : Nat := 0xC10068 + x * 0x80
abbrev WAG_SESx_LOST (x : Nat) : Nat := 0xC1006C + x * 0x80
abbrev WAG_SESx_ABSENT (x : Nat) : Nat := 0xC10070 + x * 0x80

/-! ### 13_worker_cores -/

abbrev WRK_CTRL : Nat := 0xD00000
abbrev WRK_CTRL_EN : Fld := ⟨0, 0⟩
abbrev WRK_ERR : Nat := 0xD00004
abbrev WRK_ERR_RES_LOST : Fld := ⟨6, 6⟩
abbrev WRK_ERR_WIN_OVF : Fld := ⟨5, 5⟩
abbrev WRK_ERR_SPARE_NONE : Fld := ⟨4, 4⟩
abbrev WRK_ERR_RETIRED : Fld := ⟨3, 3⟩
abbrev WRK_ERR_MEMERR : Fld := ⟨2, 2⟩
abbrev WRK_ERR_OVERRUN : Fld := ⟨1, 1⟩
abbrev WRK_ERR_CFG_ERR : Fld := ⟨0, 0⟩
abbrev WRK_INT_EN : Nat := 0xD00008
abbrev WRK_RETIRE_CMD : Nat := 0xD0000C
abbrev WRK_RETIRE_THR : Nat := 0xD00010
abbrev WRK_PRETIRED (j : Nat) : Nat := 0xD00014 + j * 0x4
abbrev WRK_MEM_ADDR : Nat := 0xD00020
abbrev WRK_MEM_DATA_LO : Nat := 0xD00024
abbrev WRK_MEM_DATA_HI : Nat := 0xD00028
abbrev WRK_RES_CFG : Nat := 0xD00030
abbrev WRK_RING_BASE : Nat := 0xD00034
abbrev WRK_RING_SIZE : Nat := 0xD00038
abbrev WRK_RING_WR : Nat := 0xD0003C
abbrev WRK_RING_RD : Nat := 0xD00040
abbrev WRK_RES_LOST : Nat := 0xD00044
abbrev WRK_Wn_CFG (n : Nat) : Nat := 0xD01000 + n * 0x40
abbrev WRK_Wn_CFG_SESSION : Fld := ⟨31, 22⟩
abbrev WRK_Wn_CFG_RESULT : Fld := ⟨21, 21⟩
abbrev WRK_Wn_CFG_EN : Fld := ⟨0, 0⟩
abbrev WRK_Wn_BUDGET (n : Nat) : Nat := 0xD01004 + n * 0x40
abbrev WRK_Wn_BUDGET_WARN : Fld := ⟨25, 16⟩
abbrev WRK_Wn_BUDGET_BUDGET : Fld := ⟨9, 0⟩
abbrev WRK_Wn_TIMER (n : Nat) : Nat := 0xD01008 + n * 0x40
abbrev WRK_Wn_ENTRY (n : Nat) : Nat := 0xD0100C + n * 0x40
abbrev WRK_Wn_START_LO (n : Nat) : Nat := 0xD01010 + n * 0x40
abbrev WRK_Wn_START_HI (n : Nat) : Nat := 0xD01014 + n * 0x40
abbrev WRK_Wn_SEED (n : Nat) : Nat := 0xD01018 + n * 0x40
abbrev WRK_Wn_STATUS (n : Nat) : Nat := 0xD0101C + n * 0x40
abbrev WRK_Wn_CYCLES (n : Nat) : Nat := 0xD01020 + n * 0x40
abbrev WRK_Wn_LASTEXC (n : Nat) : Nat := 0xD01024 + n * 0x40
abbrev WRK_Wn_OVERRUN (n : Nat) : Nat := 0xD01028 + n * 0x40
abbrev WRK_Wn_CYCREAD (n : Nat) : Nat := 0xD0102C + n * 0x40
abbrev WRK_Wn_EXC (n : Nat) : Nat := 0xD01030 + n * 0x40
abbrev WRK_Wn_ECC_CORR (n : Nat) : Nat := 0xD01034 + n * 0x40
abbrev WRK_WINw_CFG (w : Nat) : Nat := 0xD03000 + w * 0x10
abbrev WRK_WINw_CFG_EN : Fld := ⟨31, 31⟩
abbrev WRK_WINw_CFG_WORKER : Fld := ⟨29, 24⟩
abbrev WRK_WINw_CFG_SIZE_M1 : Fld := ⟨23, 16⟩
abbrev WRK_WINw_CFG_BASE64 : Fld := ⟨9, 0⟩
abbrev WRK_WINw_FILLS (w : Nat) : Nat := 0xD03004 + w * 0x10
abbrev WRK_WINw_OVF (w : Nat) : Nat := 0xD03008 + w * 0x10
abbrev WRK_WINw_PWR (w : Nat) : Nat := 0xD0300C + w * 0x10

/-! ### 15_trigger_decision -/

abbrev TRG_CTRL : Nat := 0xE00000
abbrev TRG_CTRL_EN : Fld := ⟨0, 0⟩
abbrev TRG_ERR : Nat := 0xE00004
abbrev TRG_ERR_TRIG_MISSED : Fld := ⟨7, 7⟩
abbrev TRG_ERR_COLL_DIFF : Fld := ⟨6, 6⟩
abbrev TRG_ERR_TAKEOVER : Fld := ⟨5, 5⟩
abbrev TRG_ERR_OUT_HELD : Fld := ⟨4, 4⟩
abbrev TRG_ERR_OUT_LATE : Fld := ⟨3, 3⟩
abbrev TRG_ERR_DIGEST_LATE : Fld := ⟨2, 2⟩
abbrev TRG_ERR_LATE : Fld := ⟨1, 1⟩
abbrev TRG_ERR_CFG_ERR : Fld := ⟨0, 0⟩
abbrev TRG_INT_EN : Nat := 0xE00008
abbrev TRG_FABRIC : Nat := 0xE0000C
abbrev TRG_LATE_CNT : Nat := 0xE00010
abbrev TRG_HELD_CNT : Nat := 0xE00014
abbrev TRG_TCc_CFG (c : Nat) : Nat := 0xE01000 + c * 0x40
abbrev TRG_TCc_CFG_E : Fld := ⟨31, 24⟩
abbrev TRG_TCc_CFG_N : Fld := ⟨20, 16⟩
abbrev TRG_TCc_CFG_K : Fld := ⟨12, 8⟩
abbrev TRG_TCc_CFG_NVETO : Fld := ⟨3, 1⟩
abbrev TRG_TCc_CFG_EN : Fld := ⟨0, 0⟩
abbrev TRG_TCc_WIN (c : Nat) : Nat := 0xE01004 + c * 0x40
abbrev TRG_TCc_PRESCALE (c : Nat) : Nat := 0xE01008 + c * 0x40
abbrev TRG_TCc_VPRE (c : Nat) : Nat := 0xE0100C + c * 0x40
abbrev TRG_TCc_VPOST (c : Nat) : Nat := 0xE01010 + c * 0x40
abbrev TRG_TCc_SRC (c : Nat) (j : Nat) : Nat := 0xE01014 + c * 0x40 + j * 0x4
abbrev TRG_TCc_VETO (c : Nat) : Nat := 0xE01024 + c * 0x40
abbrev TRG_TCc_FIRED (c : Nat) : Nat := 0xE01028 + c * 0x40
abbrev TRG_TCc_VETOED (c : Nat) : Nat := 0xE0102C + c * 0x40
abbrev TRG_TCc_PRESCALED (c : Nat) : Nat := 0xE01030 + c * 0x40
abbrev TRG_TCc_SUPPRESSED (c : Nat) : Nat := 0xE01034 + c * 0x40
abbrev TRG_TCc_NOTES (c : Nat) : Nat := 0xE01038 + c * 0x40
abbrev TRG_TCc_COUNT (c : Nat) : Nat := 0xE0103C + c * 0x40
abbrev TRG_SESg_CFG (g : Nat) : Nat := 0xE03000 + g * 0x100
abbrev TRG_SESg_CFG_SESSION : Fld := ⟨31, 22⟩
abbrev TRG_SESg_CFG_PD_M1 : Fld := ⟨21, 18⟩
abbrev TRG_SESg_CFG_ES : Fld := ⟨17, 10⟩
abbrev TRG_SESg_CFG_LTC : Fld := ⟨9, 4⟩
abbrev TRG_SESg_CFG_STANDBY : Fld := ⟨3, 3⟩
abbrev TRG_SESg_CFG_COLLECTOR : Fld := ⟨2, 2⟩
abbrev TRG_SESg_CFG_MEMBER : Fld := ⟨1, 1⟩
abbrev TRG_SESg_CFG_EN : Fld := ⟨0, 0⟩
abbrev TRG_SESg_CFG2 (g : Nat) : Nat := 0xE03004 + g * 0x100
abbrev TRG_SESg_WIN (g : Nat) : Nat := 0xE03008 + g * 0x100
abbrev TRG_SESg_HIVES (g : Nat) : Nat := 0xE0300C + g * 0x100
abbrev TRG_SESg_GRP (g : Nat) : Nat := 0xE03010 + g * 0x100
abbrev TRG_SESg_PORTS (g : Nat) : Nat := 0xE03014 + g * 0x100
abbrev TRG_SESg_HB (g : Nat) : Nat := 0xE03018 + g * 0x100
abbrev TRG_SESg_STATUS (g : Nat) : Nat := 0xE0301C + g * 0x100
abbrev TRG_SESg_TSEQ_LO (g : Nat) : Nat := 0xE03020 + g * 0x100
abbrev TRG_SESg_TSEQ_HI (g : Nat) : Nat := 0xE03024 + g * 0x100
abbrev TRG_SESg_DIGESTS (g : Nat) : Nat := 0xE03028 + g * 0x100
abbrev TRG_SESg_DLATE (g : Nat) : Nat := 0xE0302C + g * 0x100
abbrev TRG_SESg_DUP (g : Nat) : Nat := 0xE03030 + g * 0x100
abbrev TRG_SESg_MISSED (g : Nat) : Nat := 0xE03034 + g * 0x100
abbrev TRG_SESg_TAKEOVER (g : Nat) : Nat := 0xE03038 + g * 0x100
abbrev TRG_SESg_MEMBERS (g : Nat) (m : Nat) : Nat := 0xE03080 + g * 0x100 + m * 0x4
abbrev TRIG_INn_CFG (n : Nat) : Nat := 0xE05000 + n * 0x10
abbrev TRIG_INn_DLY (n : Nat) : Nat := 0xE05004 + n * 0x10
abbrev TRIG_INn_EDGES (n : Nat) : Nat := 0xE05008 + n * 0x10
abbrev TRIG_INn_SUPP (n : Nat) : Nat := 0xE0500C + n * 0x10
abbrev TRIG_OUTn_CFG (n : Nat) : Nat := 0xE05100 + n * 0x20
abbrev TRIG_OUTn_LAT (n : Nat) : Nat := 0xE05104 + n * 0x20
abbrev TRIG_OUTn_WIDTH (n : Nat) : Nat := 0xE05108 + n * 0x20
abbrev TRIG_OUTn_SRC_LO (n : Nat) : Nat := 0xE0510C + n * 0x20
abbrev TRIG_OUTn_SRC_HI (n : Nat) : Nat := 0xE05110 + n * 0x20
abbrev TRIG_OUTn_PULSES (n : Nat) : Nat := 0xE05114 + n * 0x20
abbrev TRIG_OUTn_LATE (n : Nat) : Nat := 0xE05118 + n * 0x20
abbrev TRIG_OUTn_MERGED (n : Nat) : Nat := 0xE0511C + n * 0x20
abbrev STG_CTRL : Nat := 0xE80000
abbrev STG_CTRL_EN : Fld := ⟨0, 0⟩
abbrev STG_ERR : Nat := 0xE80004
abbrev STG_LOAD : Nat := 0xE80008
abbrev STG_Bb_CFG (b : Nat) : Nat := 0xE81000 + b * 0x20
abbrev STG_Bb_CFG_WIN_M1 : Fld := ⟨29, 24⟩
abbrev STG_Bb_CFG_BSH : Fld := ⟨19, 16⟩
abbrev STG_Bb_CFG_EN : Fld := ⟨0, 0⟩
abbrev STG_Bb_MAP (b : Nat) : Nat := 0xE81004 + b * 0x20
abbrev STG_Bb_THR_LO (b : Nat) : Nat := 0xE81008 + b * 0x20
abbrev STG_Bb_THR_HI (b : Nat) : Nat := 0xE8100C + b * 0x20
abbrev STG_Bb_CAND (b : Nat) : Nat := 0xE81010 + b * 0x20
abbrev STG_Bb_SUPP (b : Nat) : Nat := 0xE81014 + b * 0x20
abbrev STG_Bb_SAT (b : Nat) : Nat := 0xE81018 + b * 0x20
abbrev STG_ENTe (e : Nat) : Nat := 0xE88000 + e * 0x4

/-! ### 16_acquisition_and_capture -/

abbrev ACQ_CTRL : Nat := 0xF00000
abbrev ACQ_CTRL_EN : Fld := ⟨0, 0⟩
abbrev ACQ_ERR : Nat := 0xF00004
abbrev ACQ_ERR_RING_FULL : Fld := ⟨6, 6⟩
abbrev ACQ_ERR_CHG_OVF : Fld := ⟨5, 5⟩
abbrev ACQ_ERR_TICK_LOST : Fld := ⟨4, 4⟩
abbrev ACQ_ERR_DEAD : Fld := ⟨3, 3⟩
abbrev ACQ_ERR_MISSED : Fld := ⟨2, 2⟩
abbrev ACQ_ERR_REL_LATE : Fld := ⟨1, 1⟩
abbrev ACQ_ERR_CFG_ERR : Fld := ⟨0, 0⟩
abbrev ACQ_INT_EN : Nat := 0xF00008
abbrev ACQ_EVT_CFG : Nat := 0xF0000C
abbrev ACQ_EVT_PORTS : Nat := 0xF00010
abbrev ACQ_EVT_RING_BASE : Nat := 0xF00014
abbrev ACQ_EVT_RING_SIZE : Nat := 0xF00018
abbrev ACQ_EVT_RING_WR : Nat := 0xF0001C
abbrev ACQ_EVT_RING_RD : Nat := 0xF00020
abbrev ACQ_CHG_CFG : Nat := 0xF00024
abbrev ACQ_CHG_RING_BASE : Nat := 0xF00028
abbrev ACQ_CHG_RING_SIZE : Nat := 0xF0002C
abbrev ACQ_CHG_RING_WR : Nat := 0xF00030
abbrev ACQ_CHG_RING_RD : Nat := 0xF00034
abbrev ACQ_HIST_CFG : Nat := 0xF00038
abbrev ACQ_HIST_RING_BASE : Nat := 0xF0003C
abbrev ACQ_HIST_RING_SIZE : Nat := 0xF00040
abbrev ACQ_HIST_RING_WR : Nat := 0xF00044
abbrev ACQ_HIST_RING_RD : Nat := 0xF00048
abbrev ACQ_HIST_IN (j : Nat) : Nat := 0xF00050 + j * 0x4
abbrev ACQ_EVT_LOST : Nat := 0xF00070
abbrev ACQ_CHG_OVF : Nat := 0xF00074
abbrev ACQ_CHG_LOST : Nat := 0xF00078
abbrev ACQ_HIST_LOST : Nat := 0xF0007C
abbrev ACQ_CGc_CFG (c : Nat) : Nat := 0xF01000 + c * 0x80
abbrev ACQ_CGc_CFG_SESSION : Fld := ⟨31, 22⟩
abbrev ACQ_CGc_CFG_NSEG_M1 : Fld := ⟨21, 18⟩
abbrev ACQ_CGc_CFG_FALLBACK_AT : Fld := ⟨17, 14⟩
abbrev ACQ_CGc_CFG_HMODE : Fld := ⟨13, 12⟩
abbrev ACQ_CGc_CFG_TAP : Fld := ⟨7, 6⟩
abbrev ACQ_CGc_CFG_EN : Fld := ⟨0, 0⟩
abbrev ACQ_CGc_MEMBERS (c : Nat) : Nat := 0xF01004 + c * 0x80
abbrev ACQ_CGc_BEAMSEL (c : Nat) : Nat := 0xF01008 + c * 0x80
abbrev ACQ_CGc_PRE (c : Nat) : Nat := 0xF0100C + c * 0x80
abbrev ACQ_CGc_POST (c : Nat) : Nat := 0xF01010 + c * 0x80
abbrev ACQ_CGc_ST (c : Nat) : Nat := 0xF01014 + c * 0x80
abbrev ACQ_CGc_LAG (c : Nat) : Nat := 0xF01018 + c * 0x80
abbrev ACQ_CGc_BASE (c : Nat) : Nat := 0xF0101C + c * 0x80
abbrev ACQ_CGc_HOLD (c : Nat) : Nat := 0xF01020 + c * 0x80
abbrev ACQ_CGc_SRC_LO (c : Nat) : Nat := 0xF01024 + c * 0x80
abbrev ACQ_CGc_SRC_HI (c : Nat) : Nat := 0xF01028 + c * 0x80
abbrev ACQ_CGc_SES (c : Nat) : Nat := 0xF0102C + c * 0x80
abbrev ACQ_CGc_START_LO (c : Nat) : Nat := 0xF01030 + c * 0x80
abbrev ACQ_CGc_START_HI (c : Nat) : Nat := 0xF01034 + c * 0x80
abbrev ACQ_CGc_REL_SEG (c : Nat) : Nat := 0xF01038 + c * 0x80
abbrev ACQ_CGc_REL_EFF_LO (c : Nat) : Nat := 0xF0103C + c * 0x80
abbrev ACQ_CGc_REL_EFF_HI (c : Nat) : Nat := 0xF01040 + c * 0x80
abbrev ACQ_CGc_STATUS (c : Nat) : Nat := 0xF01044 + c * 0x80
abbrev ACQ_CGc_SEG_BYTES (c : Nat) : Nat := 0xF01048 + c * 0x80
abbrev ACQ_CGc_EVENT_LO (c : Nat) : Nat := 0xF0104C + c * 0x80
abbrev ACQ_CGc_EVENT_HI (c : Nat) : Nat := 0xF01050 + c * 0x80
abbrev ACQ_CGc_DEAD_LO (c : Nat) : Nat := 0xF01054 + c * 0x80
abbrev ACQ_CGc_DEAD_HI (c : Nat) : Nat := 0xF01058 + c * 0x80
abbrev ACQ_CGc_CAPTURES (c : Nat) : Nat := 0xF0105C + c * 0x80
abbrev ACQ_CGc_JOINED (c : Nat) : Nat := 0xF01060 + c * 0x80
abbrev ACQ_CGc_MISSED (c : Nat) : Nat := 0xF01064 + c * 0x80
abbrev ACQ_CGc_DROPPED (c : Nat) : Nat := 0xF01068 + c * 0x80
abbrev ACQ_CGc_MISSING (c : Nat) : Nat := 0xF0106C + c * 0x80

/-! ### 17_ddr5_controller -/

abbrev DDR_CTRL : Nat := 0x1000000
abbrev DDR_CTRL_EN : Fld := ⟨0, 0⟩
abbrev DDR_CFG : Nat := 0x1000004
abbrev DDR_CFG_MAP : Fld := ⟨9, 8⟩
abbrev DDR_CFG_SPD : Fld := ⟨7, 7⟩
abbrev DDR_CFG_MDOWN : Fld := ⟨6, 6⟩
abbrev DDR_CFG_RANKS : Fld := ⟨5, 5⟩
abbrev DDR_CFG_DENS : Fld := ⟨4, 4⟩
abbrev DDR_CFG_RATE : Fld := ⟨3, 0⟩
abbrev DDR_STATUS : Nat := 0x1000008
abbrev DDR_STATUS_READY : Fld := ⟨31, 31⟩
abbrev DDR_STATUS_TRAINING : Fld := ⟨30, 30⟩
abbrev DDR_STATUS_TRAIN_FAIL : Fld := ⟨29, 29⟩
abbrev DDR_STATUS_HOT : Fld := ⟨28, 28⟩
abbrev DDR_STATUS_FAILED_CH : Fld := ⟨15, 0⟩
abbrev DDR_ERR : Nat := 0x100000C
abbrev DDR_ERR_HOST_WR : Fld := ⟨6, 6⟩
abbrev DDR_ERR_HOT : Fld := ⟨5, 5⟩
abbrev DDR_ERR_NOTREADY : Fld := ⟨4, 4⟩
abbrev DDR_ERR_UNCORR : Fld := ⟨3, 3⟩
abbrev DDR_ERR_CORR : Fld := ⟨2, 2⟩
abbrev DDR_ERR_TRAIN_FAIL : Fld := ⟨1, 1⟩
abbrev DDR_ERR_CFG_ERR : Fld := ⟨0, 0⟩
abbrev DDR_INT_EN : Nat := 0x1000010
abbrev DDR_PEAK : Nat := 0x1000014
abbrev DDR_RSV : Nat := 0x1000018
abbrev DDR_CAP : Nat := 0x100001C
abbrev DDR_AGE : Nat := 0x1000020
abbrev DDR_SCRUB : Nat := 0x1000024
abbrev DDR_BAR2_BASE : Nat := 0x1000028
abbrev DDR_NOTREADY : Nat := 0x1000030
abbrev DDR_HOST_WDROP : Nat := 0x1000034
abbrev DDR_SCRUB_PASS : Nat := 0x1000038
abbrev DDR_ELOG_LO : Nat := 0x1000040
abbrev DDR_ELOG_HI : Nat := 0x1000044
abbrev DDR_CLOG : Nat := 0x1000048
abbrev DDR_PARTp_BASE (p : Nat) : Nat := 0x1000100 + p * 0x10
abbrev DDR_PARTp_SIZE (p : Nat) : Nat := 0x1000104 + p * 0x10
abbrev DDR_CHc_CORR (c : Nat) : Nat := 0x1001000 + c * 0x100
abbrev DDR_CHc_UNCORR (c : Nat) : Nat := 0x1001004 + c * 0x100
abbrev DDR_CHc_TEMP (c : Nat) : Nat := 0x1001008 + c * 0x100
abbrev DDR_CHc_TRAINl (c : Nat) (l : Nat) : Nat := 0x1001040 + c * 0x100 + l * 0x4
abbrev DDR_CLk_RSV (k : Nat) : Nat := 0x1002000 + k * 0x10
abbrev DDR_CLk_OVER (k : Nat) : Nat := 0x1002004 + k * 0x10
abbrev DDR_CLk_PROMOTE (k : Nat) : Nat := 0x1002008 + k * 0x10

/-! ### 18_pcie_and_forager_dma -/

abbrev FDM_CTRL : Nat := 0x1100000
abbrev FDM_CTRL_EN : Fld := ⟨0, 0⟩
abbrev FDM_ERR : Nat := 0x1100004
abbrev FDM_ERR_NOT_OWNED : Fld := ⟨3, 3⟩
abbrev FDM_ERR_BUS_ERR : Fld := ⟨2, 2⟩
abbrev FDM_ERR_CMD_ERR : Fld := ⟨1, 1⟩
abbrev FDM_ERR_CFG_ERR : Fld := ⟨0, 0⟩
abbrev FDM_INT_EN : Nat := 0x1100008
abbrev FDM_AGE : Nat := 0x110000C
abbrev FDM_HALTED : Nat := 0x1100010
abbrev FDM_CHn_CFG (n : Nat) : Nat := 0x1101000 + n * 0x40
abbrev FDM_CHn_CFG_VEC : Fld := ⟨31, 21⟩
abbrev FDM_CHn_CFG_SIZE_LOG2 : Fld := ⟨20, 16⟩
abbrev FDM_CHn_CFG_PRIO : Fld := ⟨9, 8⟩
abbrev FDM_CHn_CFG_MODE : Fld := ⟨4, 4⟩
abbrev FDM_CHn_CFG_EN : Fld := ⟨0, 0⟩
abbrev FDM_CHn_STATE (n : Nat) : Nat := 0x1101004 + n * 0x40
abbrev FDM_CHn_STATE_HEAD : Fld := ⟨31, 16⟩
abbrev FDM_CHn_STATE_CAUSE : Fld := ⟨7, 6⟩
abbrev FDM_CHn_STATE_STOP_PEND : Fld := ⟨5, 5⟩
abbrev FDM_CHn_STATE_STATE : Fld := ⟨2, 0⟩
abbrev FDM_CHn_RING_LO (n : Nat) : Nat := 0x1101008 + n * 0x40
abbrev FDM_CHn_RING_HI (n : Nat) : Nat := 0x110100C + n * 0x40
abbrev FDM_CHn_TAIL (n : Nat) : Nat := 0x1101010 + n * 0x40
abbrev FDM_CHn_CMD (n : Nat) : Nat := 0x1101014 + n * 0x40
abbrev FDM_CHn_ERR_LO (n : Nat) : Nat := 0x1101018 + n * 0x40
abbrev FDM_CHn_ERR_HI (n : Nat) : Nat := 0x110101C + n * 0x40
abbrev FDM_CHn_ERR_INFO (n : Nat) : Nat := 0x1101020 + n * 0x40
abbrev FDM_CHn_DESC (n : Nat) : Nat := 0x1101024 + n * 0x40
abbrev FDM_CHn_BYTES (n : Nat) : Nat := 0x1101028 + n * 0x40
abbrev FDM_CHn_WAITS (n : Nat) : Nat := 0x110102C + n * 0x40
abbrev FDM_CHn_PROMOTE (n : Nat) : Nat := 0x1101030 + n * 0x40

/-! ### 21_sessions_and_roles -/

abbrev CMD_CTRL : Nat := 0x1200000
abbrev CMD_CTRL_EN : Fld := ⟨0, 0⟩
abbrev CMD_ERR : Nat := 0x1200004
abbrev CMD_ERR_AUDIT_WRAP : Fld := ⟨5, 5⟩
abbrev CMD_ERR_OWNER_EVENT : Fld := ⟨4, 4⟩
abbrev CMD_ERR_RING_FAIL : Fld := ⟨3, 3⟩
abbrev CMD_ERR_QUEUE_FULL : Fld := ⟨2, 2⟩
abbrev CMD_ERR_AUTH_FAIL : Fld := ⟨1, 1⟩
abbrev CMD_ERR_CFG_ERR : Fld := ⟨0, 0⟩
abbrev CMD_INT_EN : Nat := 0x1200008
abbrev CMD_DISC_HDR : Nat := 0x1200010
abbrev CMD_DISC_KEY : Nat := 0x1200014
abbrev CMD_DISC_TAG : Nat := 0x1200018
abbrev CMD_DISC_TARGET : Nat := 0x120001C
abbrev CMD_QUEUE_DROP : Nat := 0x1200020
abbrev CMD_EXECUTED : Nat := 0x1200024
abbrev CMD_REFUSED : Nat := 0x1200028
abbrev CMD_DISC_OFF : Nat := 0x120002C
abbrev CMD_AUDIT_OLDEST : Nat := 0x1200030
abbrev CMD_AUDIT_NEXT : Nat := 0x1200034
abbrev CMD_AUDIT_CHAIN_LO : Nat := 0x1200038
abbrev CMD_AUDIT_CHAIN_HI : Nat := 0x120003C
abbrev CMD_OEV_NEXT : Nat := 0x1200040
abbrev CMD_OEV_LOST : Nat := 0x1200044
abbrev CMD_RINGr_BASE_LO (r : Nat) : Nat := 0x1200100 + r * 0x10
abbrev CMD_RINGr_BASE_HI (r : Nat) : Nat := 0x1200104 + r * 0x10
abbrev CMD_RINGr_CFG (r : Nat) : Nat := 0x1200108 + r * 0x10
abbrev CMD_RINGr_STATUS (r : Nat) : Nat := 0x120010C + r * 0x10
abbrev CMD_SESx_CFG (x : Nat) : Nat := 0x1210000 + x * 0x40
abbrev CMD_SESx_OWN_LO (x : Nat) : Nat := 0x1210004 + x * 0x40
abbrev CMD_SESx_OWN_HI (x : Nat) : Nat := 0x1210008 + x * 0x40
abbrev CMD_SESx_Q (x : Nat) (j : Nat) : Nat := 0x121000C + x * 0x40 + j * 0x4
abbrev CMD_SESx_DEG (x : Nat) : Nat := 0x121002C + x * 0x40
abbrev CMD_KEYk_STATE (k : Nat) : Nat := 0x1220000 + k * 0x10
abbrev CMD_KEYk_H (k : Nat) : Nat := 0x1220004 + k * 0x10
abbrev CMD_BINDs_w (s : Nat) (w : Nat) : Nat := 0x1230000 + s * 0x80 + w * 0x4
abbrev CMD_OEVi_v (i : Nat) (v : Nat) : Nat := 0x1240000 + i * 0x10 + v * 0x4
abbrev CMD_MK_DEBUG : Nat := 0x1280000
abbrev CMD_MK_OTP_ADDR : Nat := 0x1280004
abbrev CMD_MK_OTP_DATA : Nat := 0x1280008
abbrev CMD_MK_OTP_CMD : Nat := 0x128000C

/-! ### 24_bring_up_and_monitor -/

abbrev MON_CTRL : Nat := 0x1300000
abbrev MON_CTRL_AUTO_S : Fld := ⟨15, 8⟩
abbrev MON_CTRL_AUTO_WARM : Fld := ⟨1, 1⟩
abbrev MON_CTRL_EN : Fld := ⟨0, 0⟩
abbrev MON_ERR : Nat := 0x1300004
abbrev MON_ERR_IMAGE_FAILED : Fld := ⟨5, 5⟩
abbrev MON_ERR_COPY_BAD : Fld := ⟨4, 4⟩
abbrev MON_ERR_LOGIN_LOCK : Fld := ⟨3, 3⟩
abbrev MON_ERR_UART_ERR : Fld := ⟨2, 2⟩
abbrev MON_ERR_WARM : Fld := ⟨1, 1⟩
abbrev MON_ERR_CFG_ERR : Fld := ⟨0, 0⟩
abbrev MON_INT_EN : Nat := 0x1300008
abbrev MON_STATE : Nat := 0x130000C
abbrev MON_STATE_TRIP : Fld := ⟨18, 18⟩
abbrev MON_STATE_ORPHAN : Fld := ⟨17, 17⟩
abbrev MON_STATE_IMAGE_FAILED : Fld := ⟨16, 16⟩
abbrev MON_STATE_READY : Fld := ⟨15, 15⟩
abbrev MON_STATE_IMAGE : Fld := ⟨8, 8⟩
abbrev MON_STATE_LINKS : Fld := ⟨7, 7⟩
abbrev MON_STATE_NECTAR : Fld := ⟨6, 6⟩
abbrev MON_STATE_LOCKED : Fld := ⟨5, 5⟩
abbrev MON_STATE_TIME : Fld := ⟨4, 4⟩
abbrev MON_STATE_DDR : Fld := ⟨3, 3⟩
abbrev MON_STATE_STANDBY : Fld := ⟨2, 2⟩
abbrev MON_STATE_KEEPER : Fld := ⟨1, 1⟩
abbrev MON_STATE_SERVICE : Fld := ⟨0, 0⟩
abbrev MON_READY_MASK : Nat := 0x1300010
abbrev MON_UART : Nat := 0x1300014
abbrev MON_BOOT : Nat := 0x1300018
abbrev MON_BOOT_IDX : Nat := 0x130001C
abbrev MON_BOOT_GEN : Nat := 0x1300020
abbrev MON_RESET_CAUSE : Nat := 0x1300024
abbrev MON_STATUS_SEL : Nat := 0x1300028
abbrev MON_WARM_CNT : Nat := 0x130002C
abbrev MON_LOGIN_FAIL : Nat := 0x1300030
abbrev MON_UART_ERR_CNT : Nat := 0x1300034

/-! ### 18_pcie_and_forager_dma -/

abbrev PCI_STATUS : Nat := 0x1400000
abbrev PCI_STATUS_BAR2_LOG2 : Fld := ⟨15, 12⟩
abbrev PCI_STATUS_BME : Fld := ⟨11, 11⟩
abbrev PCI_STATUS_WIDTH : Fld := ⟨8, 4⟩
abbrev PCI_STATUS_SPEED : Fld := ⟨3, 0⟩
abbrev PCI_ERR : Nat := 0x1400004
abbrev PCI_ERR_LINK_DOWN : Fld := ⟨4, 4⟩
abbrev PCI_ERR_BME_OFF : Fld := ⟨3, 3⟩
abbrev PCI_ERR_CPL_TIMEOUT : Fld := ⟨2, 2⟩
abbrev PCI_ERR_UR_RX : Fld := ⟨1, 1⟩
abbrev PCI_ERR_BAD_ACCESS : Fld := ⟨0, 0⟩
abbrev PCI_INT_EN : Nat := 0x1400008
abbrev PCI_BAD_CNT : Nat := 0x140000C
abbrev PCI_CPL_TO_CNT : Nat := 0x1400010
abbrev PCI_CORR_CNT : Nat := 0x1400014

/-! ### The rows, block by block (Table 20-1) -/

def rowsGLB0 : List RegRow := [
  ⟨"GLB_ID", 0x0, 1, 0x4, 1, 0x4, .ro, 0x9600A101, 0xFFFFFFFF, false⟩,
  ⟨"GLB_UID_LO", 0x4, 1, 0x4, 1, 0x4, .ro, 0x0, 0xFFFFFFFF, false⟩,
  ⟨"GLB_UID_HI", 0x8, 1, 0x4, 1, 0x4, .ro, 0x0, 0xFFFFFFFF, false⟩,
  ⟨"GLB_SCRATCH", 0xC, 1, 0x4, 1, 0x4, .rw, 0x0, 0xFFFFFFFF, false⟩,
  ⟨"GLB_ERR", 0x10, 1, 0x4, 1, 0x4, .w1c, 0x0, 0x7F, false⟩,
  ⟨"GLB_INT_EN", 0x14, 1, 0x4, 1, 0x4, .rw, 0x0, 0x7F, false⟩,
  ⟨"GLB_INT_STATUS", 0x18, 1, 0x4, 1, 0x4, .ro, 0x0, 0x1FFFFF, false⟩,
  ⟨"GLB_ALARM", 0x1C, 1, 0x4, 1, 0x4, .ro, 0x0, 0x801FFFFF, false⟩,
  ⟨"GLB_GUARD_LO", 0x20, 1, 0x4, 1, 0x4, .mw, 0x0, 0xFFFE, false⟩,
  ⟨"GLB_GUARD_HI", 0x24, 1, 0x4, 1, 0x4, .mw, 0x0, 0xF, false⟩,
  ⟨"GLB_GUARD_HIT", 0x28, 1, 0x4, 1, 0x4, .w1c, 0x0, 0x1FFFFF, false⟩,
  ⟨"GLB_GUARD_ADDR", 0x2C, 1, 0x4, 1, 0x4, .w1c, 0x0, 0x80000000, false⟩,
  ⟨"GLB_XD_ERR", 0x30, 1, 0x4, 1, 0x4, .w1c, 0x0, 0xFFF, false⟩,
  ⟨"GLB_XD_ADDR", 0x34, 1, 0x4, 1, 0x4, .w1c, 0x0, 0x80000000, false⟩,
  ⟨"GLB_DOMAINS", 0x38, 1, 0x4, 1, 0x4, .ro, 0x1, 0xFFF, false⟩,
  ⟨"GLB_ADDR_LOG", 0x3C, 1, 0x4, 1, 0x4, .w1c, 0x0, 0x80000000, false⟩,
  ⟨"GLB_BAR0_WE_LO", 0x40, 1, 0x4, 1, 0x4, .mw, 0xFFFF, 0xFFFF, false⟩,
  ⟨"GLB_BAR0_WE_HI", 0x44, 1, 0x4, 1, 0x4, .mw, 0x1F, 0x1F, false⟩,
  ⟨"GLB_FAULT", 0x48, 1, 0x4, 1, 0x4, .w1c, 0x0, 0x1FFFFF, false⟩,
  ⟨"GLB_SEAL_CFG", 0x50, 1, 0x4, 1, 0x4, .rw, 0x3, 0x3, false⟩,
  ⟨"GLB_SEAL_STATUS", 0x54, 1, 0x4, 1, 0x4, .ro, 0x0, 0xF00000FF, false⟩,
  ⟨"GLB_SEAL_REF", 0x58, 1, 0x4, 1, 0x4, .ro, 0x0, 0xFFFFFFFF, false⟩,
  ⟨"GLB_SEAL_LAST", 0x5C, 1, 0x4, 1, 0x4, .ro, 0x0, 0xFFFFFFFF, false⟩,
  ⟨"GLB_SEAL_PASSES", 0x60, 1, 0x4, 1, 0x4, .ro, 0x0, 0xFFFFFFFF, false⟩]

def rowsGLB1 : List RegRow := [
  ⟨"GLB_SEAL_MISMATCH", 0x64, 1, 0x4, 1, 0x4, .ro, 0x0, 0xFFFFFFFF, false⟩,
  ⟨"GLB_SEAL_VOID", 0x68, 1, 0x4, 1, 0x4, .ro, 0x0, 0xFFFFFFFF, false⟩,
  ⟨"GLB_UNMAPPED_CNT", 0x70, 1, 0x4, 1, 0x4, .ro, 0x0, 0xFFFFFFFF, false⟩,
  ⟨"GLB_XD_CNT", 0x74, 1, 0x4, 1, 0x4, .ro, 0x0, 0xFFFFFFFF, false⟩,
  ⟨"GLB_GUARD_CNT", 0x78, 1, 0x4, 1, 0x4, .ro, 0x0, 0xFFFFFFFF, false⟩,
  ⟨"GLB_INT_MAPb", 0x100, 21, 0x4, 1, 0x4, .rw, 0x0, 0x800007FF, false⟩]

def rowsGLB : List RegRow := rowsGLB0 ++ rowsGLB1

def rowsKPR : List RegRow := [
  ⟨"KPR_CTRL", 0x100000, 1, 0x4, 1, 0x4, .rw, 0x3, 0x3, false⟩,
  ⟨"KPR_STATUS", 0x100004, 1, 0x4, 1, 0x4, .ro, 0x22, 0x80000F3F, false⟩,
  ⟨"KPR_ERR", 0x100008, 1, 0x4, 1, 0x4, .w1c, 0x0, 0x3F, false⟩,
  ⟨"KPR_CMD", 0x10000C, 1, 0x4, 1, 0x4, .wo, 0x0, 0x101, true⟩,
  ⟨"KPR_INT_EN", 0x100010, 1, 0x4, 1, 0x4, .rw, 0x0, 0x3F, false⟩,
  ⟨"KPR_FAULT_LIMIT", 0x100014, 1, 0x4, 1, 0x4, .rw, 0x3, 0xFF, false⟩,
  ⟨"KPR_SWITCH_CNT", 0x100018, 1, 0x4, 1, 0x4, .ro, 0x0, 0xFFFFFFFF, false⟩,
  ⟨"KPR_PLANNED_CNT", 0x10001C, 1, 0x4, 1, 0x4, .ro, 0x0, 0xFFFFFFFF, false⟩,
  ⟨"KPR_REVERT_CNT", 0x100020, 1, 0x4, 1, 0x4, .ro, 0x0, 0xFFFFFFFF, false⟩,
  ⟨"KPR_GAP_TICKS", 0x100024, 1, 0x4, 1, 0x4, .ro, 0x0, 0xFFFFFFFF, false⟩,
  ⟨"KPR_LAST_SW", 0x100028, 1, 0x4, 1, 0x4, .ro, 0x0, 0x800701FF, false⟩,
  ⟨"KPR_LAST_SW_TICK", 0x10002C, 1, 0x4, 1, 0x4, .ro, 0x0, 0xFFFFFFFF, false⟩,
  ⟨"KPR_FAULTS_A", 0x100030, 1, 0x4, 1, 0x4, .ro, 0x0, 0xFFFFFFFF, false⟩,
  ⟨"KPR_FAULTS_B", 0x100034, 1, 0x4, 1, 0x4, .ro, 0x0, 0xFFFFFFFF, false⟩,
  ⟨"KPR_LOCKSTEP", 0x100038, 1, 0x4, 1, 0x4, .ro, 0x0, 0xFFFFFFFF, false⟩,
  ⟨"KPR_MEM_CORR", 0x10003C, 1, 0x4, 1, 0x4, .ro, 0x0, 0xFFFFFFFF, false⟩,
  ⟨"KPR_MEM_UNCORR", 0x100040, 1, 0x4, 1, 0x4, .ro, 0x0, 0xFFFFFFFF, false⟩,
  ⟨"KPR_OP_TICKS_LO", 0x100048, 1, 0x4, 1, 0x4, .ro, 0x0, 0xFFFFFFFF, false⟩,
  ⟨"KPR_OP_TICKS_HI", 0x10004C, 1, 0x4, 1, 0x4, .ro, 0x0, 0xFFFFFFFF, false⟩,
  ⟨"KPR_UNAVAIL_LO", 0x100050, 1, 0x4, 1, 0x4, .ro, 0x0, 0xFFFFFFFF, false⟩,
  ⟨"KPR_UNAVAIL_HI", 0x100054, 1, 0x4, 1, 0x4, .ro, 0x0, 0xFFFFFFFF, false⟩,
  ⟨"KPR_HEALTH_SEQ", 0x100058, 1, 0x4, 1, 0x4, .ro, 0x0, 0xFFFFFFFF, false⟩,
  ⟨"KPR_HEALTHw", 0x101000, 128, 0x4, 1, 0x4, .ro, 0x0, 0xFFFFFFFF, false⟩]

def rowsPWR : List RegRow := [
  ⟨"PWR_CTRL", 0x200000, 1, 0x4, 1, 0x4, .rw, 0x0, 0x3, false⟩,
  ⟨"PWR_ERR", 0x200004, 1, 0x4, 1, 0x4, .w1c, 0x0, 0x3F, false⟩,
  ⟨"PWR_INT_EN", 0x200008, 1, 0x4, 1, 0x4, .rw, 0x0, 0x3F, false⟩,
  ⟨"PWR_STATUS", 0x20000C, 1, 0x4, 1, 0x4, .ro, 0x0, 0xC00003FF, false⟩,
  ⟨"PWR_TEMP", 0x200010, 1, 0x4, 1, 0x4, .ro, 0x0, 0x1FFFFF, false⟩,
  ⟨"PWR_BUDGET", 0x200014, 1, 0x4, 1, 0x4, .ro, 0x61A80, 0x7FFFF, false⟩,
  ⟨"PWR_BASE", 0x200018, 1, 0x4, 1, 0x4, .ro, 0x0, 0x7FFFF, false⟩,
  ⟨"PWR_EST", 0x20001C, 1, 0x4, 1, 0x4, .ro, 0x0, 0xFFFFF, false⟩,
  ⟨"PWR_E_COMB", 0x200020, 1, 0x4, 1, 0x4, .ro, 0x0, 0xFFFFFF, false⟩,
  ⟨"PWR_E_PHASE", 0x200024, 1, 0x4, 1, 0x4, .ro, 0x0, 0xFFFFFF, false⟩,
  ⟨"PWR_E_WAG", 0x200028, 1, 0x4, 1, 0x4, .ro, 0x0, 0xFFFFFF, false⟩,
  ⟨"PWR_E_WRK", 0x20002C, 1, 0x4, 1, 0x4, .ro, 0x0, 0xFFFFFF, false⟩,
  ⟨"PWR_AGE", 0x200030, 1, 0x4, 1, 0x4, .rw, 0x3E8, 0xFFFF, false⟩,
  ⟨"PWR_STEP", 0x200034, 1, 0x4, 1, 0x4, .rw, 0x19, 0x1FF, false⟩,
  ⟨"PWR_THERM", 0x200038, 1, 0x4, 1, 0x4, .rw, 0x64690305, 0xFFFF0FFF, false⟩,
  ⟨"PWR_GRANT", 0x20003C, 1, 0x4, 1, 0x4, .ro, 0x0, 0x3FFFF, false⟩,
  ⟨"PWR_MEAS", 0x200040, 1, 0x4, 1, 0x4, .ro, 0x0, 0xFFFFF, false⟩,
  ⟨"PWR_WITHHELD_CNT", 0x200050, 1, 0x4, 1, 0x4, .ro, 0x0, 0xFFFFFFFF, false⟩,
  ⟨"PWR_PROMOTE_CNT", 0x200054, 1, 0x4, 1, 0x4, .ro, 0x0, 0xFFFFFFFF, false⟩,
  ⟨"PWR_SHED_CNT", 0x200058, 1, 0x4, 1, 0x4, .ro, 0x0, 0xFFFFFFFF, false⟩,
  ⟨"PWR_RAIL_FAIL_CNT", 0x20005C, 1, 0x4, 1, 0x4, .ro, 0x0, 0xFFFFFFFF, false⟩,
  ⟨"PWR_RAILr_CFG", 0x200100, 9, 0x10, 1, 0x4, .rw, 0x0, 0x1FF7F, false⟩,
  ⟨"PWR_RAILr_MEAS", 0x200104, 9, 0x10, 1, 0x4, .ro, 0x0, 0xFFFFFFFF, false⟩]

def rowsCLK0 : List RegRow := [
  ⟨"CLK_CTRL", 0x300000, 1, 0x4, 1, 0x4, .rw, 0x10, 0xF1D, false⟩,
  ⟨"CLK_STATUS", 0x300004, 1, 0x4, 1, 0x4, .ro, 0xF00, 0xF0F0F, false⟩,
  ⟨"CLK_HIST", 0x300008, 1, 0x4, 1, 0x4, .w1c, 0x0, 0xFF, false⟩,
  ⟨"CLK_INT_EN", 0x30000C, 1, 0x4, 1, 0x4, .rw, 0x0, 0xFF, false⟩,
  ⟨"CLK_WTR", 0x300010, 1, 0x4, 1, 0x4, .rw, 0x12C, 0xFFF, false⟩,
  ⟨"CLK_PULL", 0x300014, 1, 0x4, 1, 0x4, .rw, 0xA, 0x3FF, false⟩,
  ⟨"CLK_LBW_PPS", 0x300018, 1, 0x4, 1, 0x4, .rw, 0xA, 0x1FFFF, false⟩,
  ⟨"CLK_LBW_CW", 0x30001C, 1, 0x4, 1, 0x4, .rw, 0x3E8, 0x1FFFF, false⟩,
  ⟨"CLK_LBW_SE", 0x300020, 1, 0x4, 1, 0x4, .rw, 0x3E8, 0x1FFFF, false⟩,
  ⟨"CLK_LBW_PTP", 0x300024, 1, 0x4, 1, 0x4, .rw, 0x32, 0x1FFFF, false⟩,
  ⟨"CLK_LOCK", 0x300028, 1, 0x4, 1, 0x4, .rw, 0xA0014, 0xFF3FFF, false⟩,
  ⟨"CLK_HOLD", 0x30002C, 1, 0x4, 1, 0x4, .rw, 0x3C, 0x3FF, false⟩,
  ⟨"CLK_SSM_MAP_LO", 0x300030, 1, 0x4, 1, 0x4, .rw, 0xFFF4F1FF, 0xFFFFFFFF, false⟩,
  ⟨"CLK_SSM_MAP_HI", 0x300034, 1, 0x4, 1, 0x4, .rw, 0xFFFFAFF6, 0xFFFFFFFF, false⟩,
  ⟨"CLK_QUALIFIED", 0x300040, 1, 0x4, 1, 0x4, .ro, 0x0, 0x1FFF, false⟩,
  ⟨"CLK_IN_WTR", 0x300044, 1, 0x4, 1, 0x4, .ro, 0x0, 0x1FFF, false⟩,
  ⟨"CANDc_CFG", 0x300100, 13, 0x20, 1, 0x4, .rw, 0xFF0, 0x1FF3, false⟩,
  ⟨"CANDc_FREQ", 0x300104, 13, 0x20, 1, 0x4, .rw, 0x0, 0x3FFFFFFF, false⟩,
  ⟨"CANDc_DLY", 0x300108, 13, 0x20, 1, 0x4, .rw, 0x0, 0xFFFFFFFF, false⟩,
  ⟨"CANDc_QTOL", 0x30010C, 13, 0x20, 1, 0x4, .rw, 0xA2710, 0xFFFFFF, false⟩,
  ⟨"CANDc_STATUS", 0x300110, 13, 0x20, 1, 0x4, .ro, 0xF0, 0xFFF03F1, false⟩,
  ⟨"CANDc_FOFS", 0x300114, 13, 0x20, 1, 0x4, .ro, 0x0, 0xFFFFFFFF, false⟩,
  ⟨"CLK_OUTn_CFG", 0x300400, 4, 0x10, 1, 0x4, .rw, 0x9C4000, 0xFFFFFC01, false⟩,
  ⟨"CLK_OUTn_DLY", 0x300404, 4, 0x10, 1, 0x4, .rw, 0x0, 0xFFF, false⟩]

def rowsCLK1 : List RegRow := [
  ⟨"PPS_OUTn_CFG", 0x300440, 4, 0x10, 1, 0x4, .rw, 0x4, 0xF, false⟩,
  ⟨"PPS_OUTn_OFS", 0x300444, 4, 0x10, 1, 0x4, .rw, 0x0, 0xFFFFFFFF, false⟩,
  ⟨"PPS_OUTn_WIDTH", 0x300448, 4, 0x10, 1, 0x4, .rw, 0x5F5E100, 0xFFFFFFFF, false⟩,
  ⟨"PPS_OUTn_STATUS", 0x30044C, 4, 0x10, 1, 0x4, .ro, 0x0, 0x1, false⟩,
  ⟨"TICK_OUT_CFG", 0x300480, 1, 0x4, 1, 0x4, .rw, 0x1004, 0xFFFFF00D, false⟩,
  ⟨"TICK_OUT_OFS", 0x300484, 1, 0x4, 1, 0x4, .rw, 0x0, 0xFFFFFFFF, false⟩,
  ⟨"TICK_OUT_WIDTH", 0x300488, 1, 0x4, 1, 0x4, .rw, 0xFA, 0xFFFFFFFF, false⟩]

def rowsCLK : List RegRow := rowsCLK0 ++ rowsCLK1

def rowsTIM0 : List RegRow := [
  ⟨"TIM_CTRL", 0x400000, 1, 0x4, 1, 0x4, .rw, 0x0, 0x171, false⟩,
  ⟨"TIM_STATUS", 0x400004, 1, 0x4, 1, 0x4, .ro, 0x0, 0xF, false⟩,
  ⟨"TIM_HIST", 0x400008, 1, 0x4, 1, 0x4, .w1c, 0x0, 0x1F, false⟩,
  ⟨"TIM_INCR", 0x40000C, 1, 0x4, 1, 0x4, .ro, 0x0, 0xFFFFFFFF, false⟩,
  ⟨"TIM_NOW_FRAC", 0x400010, 1, 0x4, 1, 0x4, .ro, 0x0, 0xFFFF, false⟩,
  ⟨"TIM_NOW_NS", 0x400014, 1, 0x4, 1, 0x4, .ro, 0x0, 0x3FFFFFFF, false⟩,
  ⟨"TIM_NOW_SEC_LO", 0x400018, 1, 0x4, 1, 0x4, .ro, 0x0, 0xFFFFFFFF, false⟩,
  ⟨"TIM_NOW_SEC_HI", 0x40001C, 1, 0x4, 1, 0x4, .ro, 0x0, 0xFFFF, false⟩,
  ⟨"TIM_TICK_LO", 0x400020, 1, 0x4, 1, 0x4, .ro, 0x0, 0xFFFFFFFF, false⟩,
  ⟨"TIM_TICK_HI", 0x400024, 1, 0x4, 1, 0x4, .ro, 0x0, 0xFFFFFFFF, false⟩,
  ⟨"TIM_STEP_THR", 0x400028, 1, 0x4, 1, 0x4, .rw, 0x3E8, 0x3FFFFFFF, false⟩,
  ⟨"TIM_STEP_OFS_LO", 0x400030, 1, 0x4, 1, 0x4, .ro, 0x0, 0xFFFFFFFF, false⟩,
  ⟨"TIM_STEP_OFS_HI", 0x400034, 1, 0x4, 1, 0x4, .ro, 0x0, 0xFFFFFFFF, false⟩,
  ⟨"TIM_OUTLIER_CNT", 0x400038, 1, 0x4, 1, 0x4, .ro, 0x0, 0xFFFFFFFF, false⟩,
  ⟨"PTPn_CFG", 0x400100, 8, 0x40, 1, 0x4, .rw, 0x0, 0xFFF1FFF, false⟩,
  ⟨"PTPn_INTV", 0x400104, 8, 0x40, 1, 0x4, .rw, 0x300FE00, 0xFFFFFFF, false⟩,
  ⟨"PTPn_TXLAT", 0x400108, 8, 0x40, 1, 0x4, .rw, 0x0, 0xFFFFFFFF, false⟩,
  ⟨"PTPn_RXLAT", 0x40010C, 8, 0x40, 1, 0x4, .rw, 0x0, 0xFFFFFFFF, false⟩,
  ⟨"PTPn_ASYM", 0x400110, 8, 0x40, 1, 0x4, .rw, 0x0, 0xFFFFFFFF, false⟩,
  ⟨"PTPn_STATE", 0x400114, 8, 0x40, 1, 0x4, .ro, 0x3, 0xFF0F, false⟩,
  ⟨"PTPn_OFFSET_LO", 0x400118, 8, 0x40, 1, 0x4, .ro, 0x0, 0xFFFFFFFF, false⟩,
  ⟨"PTPn_OFFSET_HI", 0x40011C, 8, 0x40, 1, 0x4, .ro, 0x0, 0xFFFFFFFF, false⟩,
  ⟨"PTPn_MPD", 0x400120, 8, 0x40, 1, 0x4, .ro, 0x0, 0xFFFFFFFF, false⟩,
  ⟨"PTPn_CLASS", 0x400124, 8, 0x40, 1, 0x4, .rw, 0xF80706, 0xFFFFFF, false⟩]

def rowsTIM1 : List RegRow := [
  ⟨"PTPn_PRIO", 0x400128, 8, 0x40, 1, 0x4, .rw, 0x8080, 0xFFFF, false⟩,
  ⟨"PTPn_DISCARD", 0x40012C, 8, 0x40, 1, 0x4, .ro, 0x0, 0xFFFFFFFF, false⟩]

def rowsTIM : List RegRow := rowsTIM0 ++ rowsTIM1

def rowsNEC0 : List RegRow := [
  ⟨"NEC_CTRL", 0x500000, 1, 0x4, 1, 0x4, .rw, 0x0, 0x1, false⟩,
  ⟨"NEC_INT_EN", 0x500004, 1, 0x4, 1, 0x4, .rw, 0x0, 0x100FF, false⟩,
  ⟨"NEC_HIST_SUM", 0x500008, 1, 0x4, 1, 0x4, .ro, 0x0, 0xFFFF, false⟩,
  ⟨"NEC_ERR", 0x50000C, 1, 0x4, 1, 0x4, .w1c, 0x0, 0x1, false⟩,
  ⟨"NEC_BUNDLEb_CFG", 0x500100, 16, 0x40, 1, 0x4, .rw, 0x0, 0x1F1F03, false⟩,
  ⟨"NEC_BUNDLEb_STATUS", 0x500104, 16, 0x40, 1, 0x4, .ro, 0x1F000000, 0xDF01FFFF, false⟩,
  ⟨"NEC_BUNDLEb_HIST", 0x500108, 16, 0x40, 1, 0x4, .w1c, 0x0, 0xFF, false⟩,
  ⟨"NEC_BUNDLEb_CKOFS", 0x50010C, 16, 0x40, 1, 0x4, .ro, 0x0, 0xFFFFFFFF, false⟩,
  ⟨"NEC_BUNDLEb_SKEW", 0x500110, 16, 0x40, 1, 0x4, .ro, 0x0, 0xFFF, false⟩,
  ⟨"NEC_LANE_STATUS", 0x500800, 16, 0x200, 17, 0x10, .ro, 0x0, 0x3FF, false⟩,
  ⟨"NEC_LANE_DFE", 0x500804, 16, 0x200, 17, 0x10, .ro, 0x0, 0x3FFFFFFF, false⟩,
  ⟨"NEC_LANE_STUFF_CNT", 0x500808, 16, 0x200, 17, 0x10, .ro, 0x0, 0xFFFFFFFF, false⟩,
  ⟨"NEC_LANE_MISS_CNT", 0x50080C, 16, 0x200, 17, 0x10, .ro, 0x0, 0xFFFFFFFF, false⟩,
  ⟨"NEC_PORTn_CFG", 0x503000, 64, 0x40, 1, 0x4, .rw, 0x0, 0xFFFF, false⟩,
  ⟨"NEC_PORTn_SPS_LO", 0x503004, 64, 0x40, 1, 0x4, .ro, 0x0, 0xFFFFFFFF, false⟩,
  ⟨"NEC_PORTn_SPS_HI", 0x503008, 64, 0x40, 1, 0x4, .ro, 0x0, 0x1, false⟩,
  ⟨"NEC_PORTn_MISSING", 0x50300C, 64, 0x40, 1, 0x4, .ro, 0x0, 0xFFFFFFFF, false⟩,
  ⟨"NEC_PORTn_ACCEPTED", 0x503010, 64, 0x40, 1, 0x4, .ro, 0x0, 0xFFFFFFFF, false⟩,
  ⟨"NEC_PORTn_HDR_ERR", 0x503014, 64, 0x40, 1, 0x4, .ro, 0x0, 0xFFFFFFFF, false⟩,
  ⟨"NEC_PORTn_LOST", 0x503018, 64, 0x40, 1, 0x4, .ro, 0x0, 0xFFFFFFFF, false⟩,
  ⟨"NEC_PORTn_CRC_ERR", 0x50301C, 64, 0x40, 1, 0x4, .ro, 0x0, 0xFFFFFFFF, false⟩,
  ⟨"NEC_PORTn_MISMATCH", 0x503020, 64, 0x40, 1, 0x4, .ro, 0x0, 0xFFFFFFFF, false⟩,
  ⟨"NEC_PORTn_EARLY", 0x503024, 64, 0x40, 1, 0x4, .ro, 0x0, 0xFFFFFFFF, false⟩,
  ⟨"NEC_PORTn_LATE", 0x503028, 64, 0x40, 1, 0x4, .ro, 0x0, 0xFFFFFFFF, false⟩]

def rowsNEC1 : List RegRow := [
  ⟨"NEC_PORTn_DUP", 0x50302C, 64, 0x40, 1, 0x4, .ro, 0x0, 0xFFFFFFFF, false⟩,
  ⟨"NEC_PORTn_STRAY", 0x503030, 64, 0x40, 1, 0x4, .ro, 0x0, 0xFFFFFFFF, false⟩,
  ⟨"NEC_PORTn_NONE", 0x503034, 64, 0x40, 1, 0x4, .ro, 0x0, 0xFFFFFFFF, false⟩,
  ⟨"NEC_PORTn_STEPPED", 0x503038, 64, 0x40, 1, 0x4, .ro, 0x0, 0xFFFFFFFF, false⟩]

def rowsNEC : List RegRow := rowsNEC0 ++ rowsNEC1

def rowsING : List RegRow := [
  ⟨"ING_CTRL", 0x600000, 1, 0x4, 1, 0x4, .rw, 0x0, 0x1, false⟩,
  ⟨"ING_ERR", 0x600004, 1, 0x4, 1, 0x4, .w1c, 0x0, 0x1F, false⟩,
  ⟨"ING_INT_EN", 0x600008, 1, 0x4, 1, 0x4, .rw, 0x0, 0x1F, false⟩,
  ⟨"ING_ROYAL", 0x60000C, 1, 0x4, 1, 0x4, .ro, 0x0, 0xF, false⟩,
  ⟨"ING_Ii_CFG", 0x601000, 256, 0x40, 1, 0x4, .rw, 0x800, 0x7371F3F, false⟩,
  ⟨"ING_Ii_RATE", 0x601004, 256, 0x40, 1, 0x4, .rw, 0x0, 0x7FFFFF, false⟩,
  ⟨"ING_Ii_FIR", 0x601008, 256, 0x40, 1, 0x4, .rw, 0x0, 0x1FFFFFFF, false⟩,
  ⟨"ING_Ii_SHIFT", 0x60100C, 256, 0x40, 1, 0x4, .rw, 0x0, 0x1F1F1F1F, false⟩,
  ⟨"ING_Ii_DLY_D0_LO", 0x601010, 256, 0x40, 1, 0x4, .rw, 0x0, 0xFFFFFFFF, true⟩,
  ⟨"ING_Ii_DLY_D0_HI", 0x601014, 256, 0x40, 1, 0x4, .rw, 0x0, 0xFFFF, true⟩,
  ⟨"ING_Ii_DLY_D1", 0x601018, 256, 0x40, 1, 0x4, .rw, 0x0, 0xFFFFFFFF, true⟩,
  ⟨"ING_Ii_DLY_D2", 0x60101C, 256, 0x40, 1, 0x4, .rw, 0x0, 0xFFFFFFFF, true⟩,
  ⟨"ING_Ii_DLY_REF_LO", 0x601020, 256, 0x40, 1, 0x4, .rw, 0x0, 0xFFFFFFFF, true⟩,
  ⟨"ING_Ii_DLY_REF_HI", 0x601024, 256, 0x40, 1, 0x4, .rw, 0x0, 0xFFFFFFFF, true⟩,
  ⟨"ING_Ii_HIT", 0x601028, 256, 0x40, 1, 0x4, .rw, 0x0, 0xFFFFFFFF, false⟩,
  ⟨"ING_Ii_STATUS", 0x60102C, 256, 0x40, 1, 0x4, .ro, 0x0, 0xFC000003, false⟩,
  ⟨"ING_Ii_RATIO", 0x601030, 256, 0x40, 1, 0x4, .ro, 0x0, 0xFFFFFFFF, false⟩,
  ⟨"ING_Ii_GDELAY", 0x601034, 256, 0x40, 1, 0x4, .ro, 0x0, 0xFFFFFFFF, false⟩,
  ⟨"ING_Ii_SAT_CNT", 0x601038, 256, 0x40, 1, 0x4, .ro, 0x0, 0xFFFFFFFF, false⟩,
  ⟨"ING_Ii_ABSENT_CNT", 0x60103C, 256, 0x40, 1, 0x4, .ro, 0x0, 0xFFFFFFFF, false⟩,
  ⟨"ING_FEe_COEF_ADDR", 0x608000, 8, 0x10, 1, 0x4, .rw, 0x0, 0x7FFF, true⟩,
  ⟨"ING_FEe_COEF_DATA", 0x608004, 8, 0x10, 1, 0x4, .rw, 0x0, 0x3FFFF, true⟩]

def rowsCHN0 : List RegRow := [
  ⟨"CHN_CTRL", 0x700000, 1, 0x4, 1, 0x4, .rw, 0x0, 0x1, false⟩,
  ⟨"CHN_ERR", 0x700004, 1, 0x4, 1, 0x4, .w1c, 0x0, 0x1F, false⟩,
  ⟨"CHN_INT_EN", 0x700008, 1, 0x4, 1, 0x4, .rw, 0x0, 0x1F, false⟩,
  ⟨"CHN_GAIN_STATUS", 0x70000C, 1, 0x4, 1, 0x4, .ro, 0x0, 0x3, false⟩,
  ⟨"CHN_GAIN_EFF_LO", 0x700010, 1, 0x4, 1, 0x4, .rw, 0x0, 0xFFFFFFFF, true⟩,
  ⟨"CHN_GAIN_EFF_HI", 0x700014, 1, 0x4, 1, 0x4, .rw, 0x0, 0xFFFFFFFF, true⟩,
  ⟨"CHN_WIN_ADDR", 0x700020, 1, 0x4, 1, 0x4, .rw, 0x0, 0xFFFFF, true⟩,
  ⟨"CHN_WIN_DATA", 0x700024, 1, 0x4, 1, 0x4, .rw, 0x0, 0x3FFFF, true⟩,
  ⟨"CHN_GAIN_ADDR", 0x700028, 1, 0x4, 1, 0x4, .rw, 0x0, 0x7FFFFF, true⟩,
  ⟨"CHN_GAIN_DATA", 0x70002C, 1, 0x4, 1, 0x4, .rw, 0x0, 0xFFFFFFFF, true⟩,
  ⟨"CHN_CPp_CFG", 0x700100, 4, 0x40, 1, 0x4, .rw, 0x0, 0xFFFFFF81, false⟩,
  ⟨"CHN_CPp_WBASE", 0x700104, 4, 0x40, 1, 0x4, .rw, 0x0, 0xFFFFF, false⟩,
  ⟨"CHN_CPp_SHIFT", 0x700108, 4, 0x40, 1, 0x4, .rw, 0x7FFF, 0x7FFF, false⟩,
  ⟨"CHN_CPp_RANGE", 0x70010C, 4, 0x40, 1, 0x4, .rw, 0x0, 0x7FFF7FFF, false⟩,
  ⟨"CHN_CPp_EPOCH_LO", 0x700110, 4, 0x40, 1, 0x4, .rw, 0x0, 0xFFFFFFFF, false⟩,
  ⟨"CHN_CPp_EPOCH_HI", 0x700114, 4, 0x40, 1, 0x4, .rw, 0x0, 0xFFFFFFFF, false⟩,
  ⟨"CHN_CPp_PFB_SAT", 0x700118, 4, 0x40, 1, 0x4, .ro, 0x0, 0xFFFFFFFF, false⟩,
  ⟨"CHN_CPp_OVF_CNT", 0x70011C, 4, 0x40, 1, 0x4, .ro, 0x0, 0xFFFFFFFF, false⟩,
  ⟨"CHN_CPp_OVF_STG", 0x700120, 4, 0x40, 1, 0x4, .w1c, 0x0, 0xFFFF, false⟩,
  ⟨"CHN_CPp_LAST_LO", 0x700124, 4, 0x40, 1, 0x4, .ro, 0x0, 0xFFFFFFFF, false⟩,
  ⟨"CHN_CPp_LAST_HI", 0x700128, 4, 0x40, 1, 0x4, .ro, 0x0, 0xFFFFFFFF, false⟩,
  ⟨"CHN_Ii_CFG", 0x701000, 256, 0x10, 1, 0x4, .rw, 0x0, 0x7FFFFC33, false⟩,
  ⟨"CHN_Ii_START_LO", 0x701004, 256, 0x10, 1, 0x4, .rw, 0x0, 0xFFFFFFFF, false⟩,
  ⟨"CHN_Ii_START_HI", 0x701008, 256, 0x10, 1, 0x4, .rw, 0x0, 0xFFFFFFFF, false⟩]

def rowsCHN1 : List RegRow := [
  ⟨"CHN_Ii_CLIP", 0x70100C, 256, 0x10, 1, 0x4, .ro, 0x0, 0xFFFFFFFF, false⟩]

def rowsCHN : List RegRow := rowsCHN0 ++ rowsCHN1

def rowsCTN0 : List RegRow := [
  ⟨"CTN_CTRL", 0x800000, 1, 0x4, 1, 0x4, .rw, 0x0, 0x1, false⟩,
  ⟨"CTN_ERR", 0x800004, 1, 0x4, 1, 0x4, .w1c, 0x0, 0x3F, false⟩,
  ⟨"CTN_INT_EN", 0x800008, 1, 0x4, 1, 0x4, .rw, 0x0, 0x3F, false⟩,
  ⟨"CTN_ID", 0x80000C, 1, 0x4, 1, 0x4, .rw, 0x0, 0x3FF, false⟩,
  ⟨"CTN_SWARM_ID", 0x800010, 1, 0x4, 1, 0x4, .rw, 0x0, 0xFFFFFFFF, false⟩,
  ⟨"CTN_ANN_CFG", 0x800014, 1, 0x4, 1, 0x4, .rw, 0x30064, 0x3F0F03FF, false⟩,
  ⟨"CTN_ANN_PORTS", 0x800018, 1, 0x4, 1, 0x4, .rw, 0x0, 0xFFFFFFFF, false⟩,
  ⟨"CTN_RX_HDR_ERR", 0x800040, 1, 0x4, 1, 0x4, .ro, 0x0, 0xFFFFFFFF, false⟩,
  ⟨"CTN_RX_SWARM", 0x800044, 1, 0x4, 1, 0x4, .ro, 0x0, 0xFFFFFFFF, false⟩,
  ⟨"CTN_RX_MAP_ERR", 0x800048, 1, 0x4, 1, 0x4, .ro, 0x0, 0xFFFFFFFF, false⟩,
  ⟨"CTN_RX_INPUT_ERR", 0x80004C, 1, 0x4, 1, 0x4, .ro, 0x0, 0xFFFFFFFF, false⟩,
  ⟨"CTN_RX_LATE", 0x800050, 1, 0x4, 1, 0x4, .ro, 0x0, 0xFFFFFFFF, false⟩,
  ⟨"CTN_RX_EARLY", 0x800054, 1, 0x4, 1, 0x4, .ro, 0x0, 0xFFFFFFFF, false⟩,
  ⟨"CTN_RX_DUP", 0x800058, 1, 0x4, 1, 0x4, .ro, 0x0, 0xFFFFFFFF, false⟩,
  ⟨"CTN_TX_SENDS", 0x80005C, 1, 0x4, 1, 0x4, .ro, 0x0, 0xFFFFFFFF, false⟩,
  ⟨"CTN_TX_LOCAL", 0x800060, 1, 0x4, 1, 0x4, .ro, 0x0, 0xFFFFFFFF, false⟩,
  ⟨"CTN_TX_NO_PATH", 0x800064, 1, 0x4, 1, 0x4, .ro, 0x0, 0xFFFFFFFF, false⟩,
  ⟨"CTN_TX_ABANDON", 0x800068, 1, 0x4, 1, 0x4, .ro, 0x0, 0xFFFFFFFF, false⟩,
  ⟨"CTN_ANN_RX", 0x80006C, 1, 0x4, 1, 0x4, .ro, 0x0, 0xFFFFFFFF, false⟩,
  ⟨"CTN_ANN_DROP", 0x800070, 1, 0x4, 1, 0x4, .ro, 0x0, 0xFFFFFFFF, false⟩,
  ⟨"CTN_RX_OFF", 0x800074, 1, 0x4, 1, 0x4, .ro, 0x0, 0xFFFFFFFF, false⟩,
  ⟨"CTN_SESx_CFG", 0x810000, 1024, 0x40, 1, 0x4, .rw, 0x0, 0x1FFFF1F, false⟩,
  ⟨"CTN_SESx_MAP", 0x810004, 1024, 0x40, 1, 0x4, .rw, 0x0, 0x7FF1FFF, false⟩,
  ⟨"CTN_SESx_INMAP", 0x810008, 1024, 0x40, 1, 0x4, .rw, 0x0, 0x7FF3FFF, false⟩]

def rowsCTN1 : List RegRow := [
  ⟨"CTN_SESx_VERSION", 0x81000C, 1024, 0x40, 1, 0x4, .rw, 0x0, 0xFFFFFFFF, false⟩,
  ⟨"CTN_SESx_NEXT_MAP", 0x810010, 1024, 0x40, 1, 0x4, .rw, 0x0, 0x7FF1FFF, false⟩,
  ⟨"CTN_SESx_NEXT_INMAP", 0x810014, 1024, 0x40, 1, 0x4, .rw, 0x0, 0x7FF3FFF, false⟩,
  ⟨"CTN_SESx_NEXT_VERSION", 0x810018, 1024, 0x40, 1, 0x4, .rw, 0x0, 0xFFFFFFFF, false⟩,
  ⟨"CTN_SESx_NEXT_EFF_LO", 0x81001C, 1024, 0x40, 1, 0x4, .rw, 0x0, 0xFFFFFFFF, false⟩,
  ⟨"CTN_SESx_NEXT_EFF_HI", 0x810020, 1024, 0x40, 1, 0x4, .rw, 0x0, 0xFFFFFFFF, false⟩,
  ⟨"CTN_SESx_CFG2", 0x810024, 1024, 0x40, 1, 0x4, .rw, 0xC80000, 0x3FFFFFFF, false⟩,
  ⟨"CTN_SESx_SIBASE", 0x810028, 1024, 0x40, 1, 0x4, .rw, 0x0, 0x3FFFF, false⟩,
  ⟨"CTN_SESx_BROOD", 0x81002C, 1024, 0x40, 1, 0x4, .rw, 0x0, 0x3FFFE00, false⟩,
  ⟨"CTN_SESx_UDP", 0x810030, 1024, 0x40, 1, 0x4, .rw, 0xB860, 0xFFFF, false⟩,
  ⟨"CTN_SESx_LATE", 0x810034, 1024, 0x40, 1, 0x4, .ro, 0x0, 0xFFFFFFFF, false⟩,
  ⟨"CTN_SESx_ABSENT", 0x810038, 1024, 0x40, 1, 0x4, .ro, 0x0, 0xFFFFFFFF, false⟩,
  ⟨"CTN_SESx_DUP", 0x81003C, 1024, 0x40, 1, 0x4, .ro, 0x0, 0xFFFFFFFF, false⟩,
  ⟨"CTN_SLICEe_LO", 0x820000, 8192, 0x8, 1, 0x4, .rw, 0x0, 0x7FFF7FFF, false⟩,
  ⟨"CTN_SLICEe_HI", 0x820004, 8192, 0x8, 1, 0x4, .rw, 0x0, 0x7FFFFFF, false⟩,
  ⟨"CTN_INMAPe_LO", 0x840000, 16384, 0x8, 1, 0x4, .rw, 0x0, 0x3FFFF, false⟩,
  ⟨"CTN_INMAPe_HI", 0x840004, 16384, 0x8, 1, 0x4, .rw, 0x0, 0xFF03FF, false⟩,
  ⟨"CTN_PEERh_CFG", 0x860000, 1024, 0x10, 1, 0x4, .rw, 0x0, 0x1, false⟩,
  ⟨"CTN_PEERh_MASK", 0x860004, 1024, 0x10, 1, 0x4, .rw, 0xFFFFFFFF, 0xFFFFFFFF, false⟩,
  ⟨"CTN_PEERh_STATUS", 0x860008, 1024, 0x10, 1, 0x4, .ro, 0x0, 0x807FFFFF, false⟩,
  ⟨"CTN_PEERh_HIST", 0x86000C, 1024, 0x10, 1, 0x4, .w1c, 0x0, 0x7, false⟩,
  ⟨"CTN_SESx_EPOCH_LO", 0x880000, 1024, 0x10, 1, 0x4, .rw, 0x0, 0xFFFFFFFF, false⟩,
  ⟨"CTN_SESx_EPOCH_HI", 0x880004, 1024, 0x10, 1, 0x4, .rw, 0x0, 0xFFFFFFFF, false⟩,
  ⟨"CTN_SESx_GRID", 0x880008, 1024, 0x10, 1, 0x4, .rw, 0x0, 0x7F900, false⟩]

def rowsCTN : List RegRow := rowsCTN0 ++ rowsCTN1

def rowsETH0 : List RegRow := [
  ⟨"ETH_CTRL", 0x900000, 1, 0x4, 1, 0x4, .rw, 0x0, 0x1, false⟩,
  ⟨"ETH_ERR", 0x900004, 1, 0x4, 1, 0x4, .w1c, 0x0, 0x3, false⟩,
  ⟨"ETH_INT_EN", 0x900008, 1, 0x4, 1, 0x4, .rw, 0x0, 0x3007F, false⟩,
  ⟨"ETH_HIST_SUM", 0x90000C, 1, 0x4, 1, 0x4, .ro, 0x0, 0xFFFFFFFF, false⟩,
  ⟨"ETH_UDP_FIX0", 0x900010, 1, 0x4, 1, 0x4, .rw, 0xBA54B7FC, 0xFFFFFFFF, false⟩,
  ⟨"ETH_UDP_FIX1", 0x900014, 1, 0x4, 1, 0x4, .rw, 0xB9F0, 0xFFFF, false⟩,
  ⟨"ETH_CLS_MULTI", 0x900018, 1, 0x4, 1, 0x4, .ro, 0x0, 0xFFFFFFFF, false⟩,
  ⟨"ETH_CLS_NOMATCH", 0x90001C, 1, 0x4, 1, 0x4, .ro, 0x0, 0xFFFFFFFF, false⟩,
  ⟨"ETH_AGE", 0x900020, 1, 0x4, 1, 0x4, .rw, 0x32, 0x3FF, false⟩,
  ⟨"ETH_ICMP_RATE", 0x900024, 1, 0x4, 1, 0x4, .rw, 0x3E8, 0xFFFF, false⟩,
  ⟨"ETH_NEIGH_CFG", 0x900028, 1, 0x4, 1, 0x4, .rw, 0x3C, 0xFFF, false⟩,
  ⟨"ETHn_CFG", 0x901000, 32, 0x100, 1, 0x4, .rw, 0x1410, 0x7FFFFFF, false⟩,
  ⟨"ETHn_STATUS", 0x901004, 32, 0x100, 1, 0x4, .ro, 0x0, 0x7FF, false⟩,
  ⟨"ETHn_HIST", 0x901008, 32, 0x100, 1, 0x4, .w1c, 0x0, 0x7F, false⟩,
  ⟨"ETHn_MAC_LO", 0x90100C, 32, 0x100, 1, 0x4, .rw, 0x0, 0xFFFFFFFF, false⟩,
  ⟨"ETHn_MAC_HI", 0x901010, 32, 0x100, 1, 0x4, .rw, 0x0, 0xFFFF, false⟩,
  ⟨"ETHn_IP4", 0x901014, 32, 0x100, 1, 0x4, .rw, 0x0, 0xFFFFFFFF, false⟩,
  ⟨"ETHn_IP4_CFG", 0x901018, 32, 0x100, 1, 0x4, .rw, 0x0, 0x8000003F, false⟩,
  ⟨"ETHn_IP4_GW", 0x90101C, 32, 0x100, 1, 0x4, .rw, 0x0, 0xFFFFFFFF, false⟩,
  ⟨"ETHn_IP6", 0x901020, 32, 0x100, 4, 0x4, .rw, 0x0, 0xFFFFFFFF, false⟩,
  ⟨"ETHn_IP6_CFG", 0x901030, 32, 0x100, 1, 0x4, .rw, 0x0, 0x800000FF, false⟩,
  ⟨"ETHn_IP6_GW", 0x901034, 32, 0x100, 4, 0x4, .rw, 0x0, 0xFFFFFFFF, false⟩,
  ⟨"ETHn_CFG2", 0x901044, 32, 0x100, 1, 0x4, .rw, 0x2328, 0x3FFF, false⟩,
  ⟨"ETHn_RX_FRAMES", 0x901080, 32, 0x100, 1, 0x4, .ro, 0x0, 0xFFFFFFFF, false⟩]

def rowsETH1 : List RegRow := [
  ⟨"ETHn_RX_FCS_ERR", 0x901084, 32, 0x100, 1, 0x4, .ro, 0x0, 0xFFFFFFFF, false⟩,
  ⟨"ETHn_FEC_UNCORR", 0x901088, 32, 0x100, 1, 0x4, .ro, 0x0, 0xFFFFFFFF, false⟩,
  ⟨"ETHn_FEC_CORR", 0x90108C, 32, 0x100, 1, 0x4, .ro, 0x0, 0xFFFFFFFF, false⟩,
  ⟨"ETHn_RX_OVERSIZE", 0x901090, 32, 0x100, 1, 0x4, .ro, 0x0, 0xFFFFFFFF, false⟩,
  ⟨"ETHn_RX_MM_ERR", 0x901094, 32, 0x100, 1, 0x4, .ro, 0x0, 0xFFFFFFFF, false⟩,
  ⟨"ETHn_RX_VLAN_DROP", 0x901098, 32, 0x100, 1, 0x4, .ro, 0x0, 0xFFFFFFFF, false⟩,
  ⟨"ETHn_RX_ADDR_DROP", 0x90109C, 32, 0x100, 1, 0x4, .ro, 0x0, 0xFFFFFFFF, false⟩,
  ⟨"ETHn_RX_IP_ERR", 0x9010A0, 32, 0x100, 1, 0x4, .ro, 0x0, 0xFFFFFFFF, false⟩,
  ⟨"ETHn_RX_NON_UDP", 0x9010A4, 32, 0x100, 1, 0x4, .ro, 0x0, 0xFFFFFFFF, false⟩,
  ⟨"ETHn_RX_PAUSE", 0x9010A8, 32, 0x100, 1, 0x4, .ro, 0x0, 0xFFFFFFFF, false⟩,
  ⟨"ETHn_RX_OLD_QUERY", 0x9010AC, 32, 0x100, 1, 0x4, .ro, 0x0, 0xFFFFFFFF, false⟩,
  ⟨"ETHn_TX_FRAMES", 0x9010B0, 32, 0x100, 1, 0x4, .ro, 0x0, 0xFFFFFFFF, false⟩,
  ⟨"ETHn_TX_EXPRESS", 0x9010B4, 32, 0x100, 1, 0x4, .ro, 0x0, 0xFFFFFFFF, false⟩,
  ⟨"ETHn_TX_PREEMPT", 0x9010B8, 32, 0x100, 1, 0x4, .ro, 0x0, 0xFFFFFFFF, false⟩,
  ⟨"ETHn_TX_DROP", 0x9010BC, 32, 0x100, 1, 0x4, .ro, 0x0, 0xFFFFFFFF, false⟩,
  ⟨"ETHn_TX_NO_NEIGH", 0x9010C0, 32, 0x100, 1, 0x4, .ro, 0x0, 0xFFFFFFFF, false⟩,
  ⟨"ETHn_ICMP_LIMITED", 0x9010C4, 32, 0x100, 1, 0x4, .ro, 0x0, 0xFFFFFFFF, false⟩,
  ⟨"ETH_CLSe_PORTS", 0x904000, 256, 0x20, 1, 0x4, .rw, 0x0, 0xFFFFFFFF, false⟩,
  ⟨"ETH_CLSe_MATCH", 0x904004, 256, 0x20, 1, 0x4, .rw, 0x0, 0xFFFFC03F, false⟩,
  ⟨"ETH_CLSe_UDP", 0x904008, 256, 0x20, 1, 0x4, .rw, 0x0, 0xFFFFFFFF, false⟩,
  ⟨"ETH_CLSe_ACTION", 0x90400C, 256, 0x20, 1, 0x4, .rw, 0x0, 0xF000FFFF, false⟩,
  ⟨"ETH_CLSe_HITS", 0x904010, 256, 0x20, 1, 0x4, .ro, 0x0, 0xFFFFFFFF, false⟩,
  ⟨"ETH_GRPg_CFG", 0x906000, 64, 0x40, 1, 0x4, .rw, 0x0, 0xE0000000, false⟩,
  ⟨"ETH_GRPg_PORTS", 0x906004, 64, 0x40, 1, 0x4, .rw, 0x0, 0xFFFFFFFF, false⟩]

def rowsETH2 : List RegRow := [
  ⟨"ETH_GRPg_ADDR", 0x906008, 64, 0x40, 4, 0x4, .rw, 0x0, 0xFFFFFFFF, false⟩,
  ⟨"ETH_GRPg_SRC", 0x906018, 64, 0x40, 4, 0x4, .rw, 0x0, 0xFFFFFFFF, false⟩]

def rowsETH : List RegRow := rowsETH0 ++ rowsETH1 ++ rowsETH2

def rowsCMB0 : List RegRow := [
  ⟨"CMB_CTRL", 0xA00000, 1, 0x4, 1, 0x4, .rw, 0x2, 0x3, false⟩,
  ⟨"CMB_ERR", 0xA00004, 1, 0x4, 1, 0x4, .w1c, 0x0, 0x3F, false⟩,
  ⟨"CMB_INT_EN", 0xA00008, 1, 0x4, 1, 0x4, .rw, 0x0, 0x3F, false⟩,
  ⟨"CMB_STATUS", 0xA0000C, 1, 0x4, 1, 0x4, .ro, 0x1F000000, 0x1F30FFFF, false⟩,
  ⟨"CMB_RETIRE_CMD", 0xA00010, 1, 0x4, 1, 0x4, .wo, 0x0, 0x11F, true⟩,
  ⟨"CMB_LOAD", 0xA00014, 1, 0x4, 1, 0x4, .ro, 0x0, 0x3FFFFFF, false⟩,
  ⟨"CMB_PEAK", 0xA00018, 1, 0x4, 1, 0x4, .ro, 0x0, 0x7FF, false⟩,
  ⟨"CMB_LIST_ADDR", 0xA00020, 1, 0x4, 1, 0x4, .rw, 0x0, 0x3FFFF, true⟩,
  ⟨"CMB_LIST_DATA", 0xA00024, 1, 0x4, 1, 0x4, .rw, 0x0, 0x3FFFF, true⟩,
  ⟨"CMB_WIT_LAST0", 0xA00030, 1, 0x4, 1, 0x4, .ro, 0x0, 0x3FF, false⟩,
  ⟨"CMB_WIT_LAST1", 0xA00034, 1, 0x4, 1, 0x4, .ro, 0x0, 0xFFFFFFFF, false⟩,
  ⟨"CMB_WIT_LAST2", 0xA00038, 1, 0x4, 1, 0x4, .ro, 0x0, 0xFFFFFFFF, false⟩,
  ⟨"CMB_WIT_LAST3", 0xA0003C, 1, 0x4, 1, 0x4, .ro, 0x0, 0x3FFF, false⟩,
  ⟨"CMB_WIT_AGREE", 0xA00040, 1, 0x4, 1, 0x4, .ro, 0x0, 0xFFFFFFFF, false⟩,
  ⟨"CMB_WIT_MISMATCH", 0xA00044, 1, 0x4, 1, 0x4, .ro, 0x0, 0xFFFFFFFF, false⟩,
  ⟨"CMB_WIT_INCONC", 0xA00048, 1, 0x4, 1, 0x4, .ro, 0x0, 0xFFFFFFFF, false⟩,
  ⟨"CMB_WIT_SKIPPED", 0xA0004C, 1, 0x4, 1, 0x4, .ro, 0x0, 0xFFFFFFFF, false⟩,
  ⟨"CMB_DSTORE_CORR", 0xA00050, 1, 0x4, 1, 0x4, .ro, 0x0, 0xFFFFFFFF, false⟩,
  ⟨"CMB_DSTORE_UNCORR", 0xA00054, 1, 0x4, 1, 0x4, .ro, 0x0, 0xFFFFFFFF, false⟩,
  ⟨"CMB_Cc_STATE", 0xA00100, 17, 0x10, 1, 0x4, .ro, 0x0, 0x3FF0003, false⟩,
  ⟨"CMB_Cc_MISMATCH", 0xA00104, 17, 0x10, 1, 0x4, .ro, 0x0, 0xFFFFFFFF, false⟩,
  ⟨"CMB_Cc_TRANSIENT", 0xA00108, 17, 0x10, 1, 0x4, .ro, 0x0, 0xFFFFFFFF, false⟩,
  ⟨"CMB_Cc_WITNESSED", 0xA0010C, 17, 0x10, 1, 0x4, .ro, 0x0, 0xFFFFFFFF, false⟩,
  ⟨"CMB_SESx_CFG", 0xA10000, 1024, 0x20, 1, 0x4, .rw, 0x0, 0x1FF0001, false⟩]

def rowsCMB1 : List RegRow := [
  ⟨"CMB_SESx_LIST", 0xA10004, 1024, 0x20, 1, 0x4, .rw, 0x0, 0x3FFFF, false⟩,
  ⟨"CMB_SESx_START_LO", 0xA10008, 1024, 0x20, 1, 0x4, .rw, 0x0, 0xFFFFFFFF, false⟩,
  ⟨"CMB_SESx_START_HI", 0xA1000C, 1024, 0x20, 1, 0x4, .rw, 0x0, 0xFFFFFFFF, false⟩,
  ⟨"CMB_SESx_STATUS", 0xA10010, 1024, 0x20, 1, 0x4, .ro, 0x1F, 0x83FF001F, false⟩,
  ⟨"CMB_SESx_DWELL_LO", 0xA10014, 1024, 0x20, 1, 0x4, .ro, 0x0, 0xFFFFFFFF, false⟩,
  ⟨"CMB_SESx_ABANDON", 0xA10018, 1024, 0x20, 1, 0x4, .ro, 0x0, 0xFFFFFFFF, false⟩,
  ⟨"CMB_SESx_SUSPECT", 0xA1001C, 1024, 0x20, 1, 0x4, .ro, 0x0, 0xFFFFFFFF, false⟩]

def rowsCMB : List RegRow := rowsCMB0 ++ rowsCMB1

def rowsSUP : List RegRow := [
  ⟨"SUP_CTRL", 0xB00000, 1, 0x4, 1, 0x4, .rw, 0x0, 0x1, false⟩,
  ⟨"SUP_ERR", 0xB00004, 1, 0x4, 1, 0x4, .w1c, 0x0, 0x3F, false⟩,
  ⟨"SUP_INT_EN", 0xB00008, 1, 0x4, 1, 0x4, .rw, 0x0, 0x3F, false⟩,
  ⟨"SUP_USE", 0xB0000C, 1, 0x4, 1, 0x4, .ro, 0x0, 0x7FFFFFF, false⟩,
  ⟨"SUP_ECC_CORR", 0xB00010, 1, 0x4, 1, 0x4, .ro, 0x0, 0xFFFFFFFF, false⟩,
  ⟨"SUP_ECC_UNCORR", 0xB00014, 1, 0x4, 1, 0x4, .ro, 0x0, 0xFFFFFFFF, false⟩,
  ⟨"SUP_SAT_CNT", 0xB00018, 1, 0x4, 1, 0x4, .ro, 0x0, 0xFFFFFFFF, false⟩,
  ⟨"SUP_LOSS_DROP", 0xB0001C, 1, 0x4, 1, 0x4, .ro, 0x0, 0xFFFFFFFF, false⟩,
  ⟨"SUP_SESx_CFG", 0xB10000, 1024, 0x40, 1, 0x4, .rw, 0x0, 0xFFFF31F3, false⟩,
  ⟨"SUP_SESx_BASE", 0xB10004, 1024, 0x40, 1, 0x4, .rw, 0x0, 0x3FFFFFF, false⟩,
  ⟨"SUP_SESx_SEED", 0xB10008, 1024, 0x40, 1, 0x4, .rw, 0x0, 0xFFFFFFFF, false⟩,
  ⟨"SUP_SESx_RATE", 0xB1000C, 1024, 0x40, 1, 0x4, .rw, 0x0, 0x1FFFF, false⟩,
  ⟨"SUP_SESx_UDP", 0xB10010, 1024, 0x40, 1, 0x4, .rw, 0xB8C4, 0xFFFF, false⟩,
  ⟨"SUP_SESx_RING_BASE", 0xB10014, 1024, 0x40, 1, 0x4, .rw, 0x0, 0x1FFFFFF, false⟩,
  ⟨"SUP_SESx_RING_SIZE", 0xB10018, 1024, 0x40, 1, 0x4, .rw, 0x0, 0x7FFFFF, false⟩,
  ⟨"SUP_SESx_RING_WR", 0xB1001C, 1024, 0x40, 1, 0x4, .ro, 0x0, 0xFFFFFFFF, false⟩,
  ⟨"SUP_SESx_RING_RD", 0xB10020, 1024, 0x40, 1, 0x4, .rw, 0x0, 0xFFFFFFFF, true⟩,
  ⟨"SUP_SESx_STATUS", 0xB10024, 1024, 0x40, 1, 0x4, .ro, 0x0, 0xE000FFFF, false⟩,
  ⟨"SUP_SESx_INTEG_LO", 0xB10028, 1024, 0x40, 1, 0x4, .ro, 0x0, 0xFFFFFFFF, false⟩,
  ⟨"SUP_SESx_OVERRUN", 0xB1002C, 1024, 0x40, 1, 0x4, .ro, 0x0, 0xFFFFFFFF, false⟩,
  ⟨"SUP_SESx_LOST", 0xB10030, 1024, 0x40, 1, 0x4, .ro, 0x0, 0xFFFFFFFF, false⟩,
  ⟨"SUP_SESx_POISON", 0xB10034, 1024, 0x40, 1, 0x4, .ro, 0x0, 0xFFFFFFFF, false⟩,
  ⟨"SUP_SESx_LOSS", 0xB10038, 1024, 0x40, 1, 0x4, .ro, 0x0, 0xFFFFFFFF, false⟩]

def rowsWAG0 : List RegRow := [
  ⟨"WAG_CTRL", 0xC00000, 1, 0x4, 1, 0x4, .rw, 0x0, 0x1, false⟩,
  ⟨"WAG_ERR", 0xC00004, 1, 0x4, 1, 0x4, .w1c, 0x0, 0x7F, false⟩,
  ⟨"WAG_INT_EN", 0xC00008, 1, 0x4, 1, 0x4, .rw, 0x0, 0x7F, false⟩,
  ⟨"WAG_LOAD", 0xC0000C, 1, 0x4, 1, 0x4, .ro, 0x0, 0xFFFFFFFF, false⟩,
  ⟨"WAG_WUSE", 0xC00010, 1, 0x4, 1, 0x4, .ro, 0x0, 0x1FFFFFF, false⟩,
  ⟨"WAG_GUSE", 0xC00014, 1, 0x4, 1, 0x4, .ro, 0x0, 0x7FFFFF, false⟩,
  ⟨"WAG_ECC_CORR", 0xC00018, 1, 0x4, 1, 0x4, .ro, 0x0, 0xFFFFFFFF, false⟩,
  ⟨"WAG_ECC_UNCORR", 0xC0001C, 1, 0x4, 1, 0x4, .ro, 0x0, 0xFFFFFFFF, false⟩,
  ⟨"WAG_WT_ADDR", 0xC00020, 1, 0x4, 1, 0x4, .rw, 0x0, 0x1FFFFFF, true⟩,
  ⟨"WAG_WT_DATA", 0xC00024, 1, 0x4, 1, 0x4, .rw, 0x0, 0xFFFF, true⟩,
  ⟨"WAG_GEO_ADDR", 0xC00028, 1, 0x4, 1, 0x4, .rw, 0x0, 0x7FFFFF, true⟩,
  ⟨"WAG_GEO_DATA", 0xC0002C, 1, 0x4, 1, 0x4, .rw, 0x0, 0xFFFFFFFF, true⟩,
  ⟨"WAG_SESx_CFG", 0xC10000, 1024, 0x80, 1, 0x4, .rw, 0x0, 0xFFFF000D, false⟩,
  ⟨"WAG_SESx_BEAMS", 0xC10004, 1024, 0x80, 1, 0x4, .rw, 0x0, 0x1FFF, false⟩,
  ⟨"WAG_SESx_IN_FIRST", 0xC10008, 1024, 0x80, 1, 0x4, .rw, 0x0, 0x3FFFF, false⟩,
  ⟨"WAG_SESx_IN_COUNT", 0xC1000C, 1024, 0x80, 1, 0x4, .rw, 0x0, 0x3FFFF, false⟩,
  ⟨"WAG_SESx_WBASE", 0xC10010, 1024, 0x80, 1, 0x4, .rw, 0x0, 0xFFFFFF, false⟩,
  ⟨"WAG_SESx_GBASE", 0xC10014, 1024, 0x80, 1, 0x4, .rw, 0x0, 0x3FFFFF, false⟩,
  ⟨"WAG_SESx_EPOCH_LO", 0xC10018, 1024, 0x80, 1, 0x4, .rw, 0x0, 0xFFFFFFFF, false⟩,
  ⟨"WAG_SESx_EPOCH_HI", 0xC1001C, 1024, 0x80, 1, 0x4, .rw, 0x0, 0xFFFFFFFF, false⟩,
  ⟨"WAG_SESx_F0_LO", 0xC10020, 1024, 0x80, 1, 0x4, .rw, 0x0, 0xFFFFFFFF, false⟩,
  ⟨"WAG_SESx_F0_HI", 0xC10024, 1024, 0x80, 1, 0x4, .rw, 0x0, 0xFFFF, false⟩,
  ⟨"WAG_SESx_DF_LO", 0xC10028, 1024, 0x80, 1, 0x4, .rw, 0x0, 0xFFFFFFFF, false⟩,
  ⟨"WAG_SESx_DF_HI", 0xC1002C, 1024, 0x80, 1, 0x4, .rw, 0x0, 0xFF, false⟩]

def rowsWAG1 : List RegRow := [
  ⟨"WAG_SESx_COMMIT_LO", 0xC10030, 1024, 0x80, 1, 0x4, .rw, 0x0, 0xFFFFFFFF, true⟩,
  ⟨"WAG_SESx_COMMIT_HI", 0xC10034, 1024, 0x80, 1, 0x4, .rw, 0x0, 0xFFFFFFFF, true⟩,
  ⟨"WAG_SESx_OUT", 0xC10038, 1024, 0x80, 1, 0x4, .rw, 0x0, 0x1F0107, false⟩,
  ⟨"WAG_SESx_PORTS", 0xC1003C, 1024, 0x80, 1, 0x4, .rw, 0x0, 0xFFFFFFFF, false⟩,
  ⟨"WAG_SESx_UDP", 0xC10040, 1024, 0x80, 1, 0x4, .rw, 0xB928, 0xFFFF, false⟩,
  ⟨"WAG_SESx_RING_BASE", 0xC10044, 1024, 0x80, 1, 0x4, .rw, 0x0, 0x1FFFFFF, false⟩,
  ⟨"WAG_SESx_RING_SIZE", 0xC10048, 1024, 0x80, 1, 0x4, .rw, 0x0, 0x7FFFFF, false⟩,
  ⟨"WAG_SESx_RING_WR", 0xC1004C, 1024, 0x80, 1, 0x4, .ro, 0x0, 0xFFFFFFFF, false⟩,
  ⟨"WAG_SESx_RING_RD", 0xC10050, 1024, 0x80, 1, 0x4, .rw, 0x0, 0xFFFFFFFF, true⟩,
  ⟨"WAG_SESx_WRK", 0xC10054, 1024, 0x80, 1, 0x4, .rw, 0x0, 0xFFFFFFFF, false⟩,
  ⟨"WAG_SESx_STATUS", 0xC10058, 1024, 0x80, 1, 0x4, .ro, 0x0, 0xF000FFFF, false⟩,
  ⟨"WAG_SESx_EPOCH_MISS", 0xC1005C, 1024, 0x80, 1, 0x4, .ro, 0x0, 0xFFFFFFFF, false⟩,
  ⟨"WAG_SESx_ABANDON", 0xC10060, 1024, 0x80, 1, 0x4, .ro, 0x0, 0xFFFFFFFF, false⟩,
  ⟨"WAG_SESx_OCLIP", 0xC10064, 1024, 0x80, 1, 0x4, .ro, 0x0, 0xFFFFFFFF, false⟩,
  ⟨"WAG_SESx_WCLIP", 0xC10068, 1024, 0x80, 1, 0x4, .ro, 0x0, 0xFFFFFFFF, false⟩,
  ⟨"WAG_SESx_LOST", 0xC1006C, 1024, 0x80, 1, 0x4, .ro, 0x0, 0xFFFFFFFF, false⟩,
  ⟨"WAG_SESx_ABSENT", 0xC10070, 1024, 0x80, 1, 0x4, .ro, 0x0, 0xFFFFFFFF, false⟩]

def rowsWAG : List RegRow := rowsWAG0 ++ rowsWAG1

def rowsWRK0 : List RegRow := [
  ⟨"WRK_CTRL", 0xD00000, 1, 0x4, 1, 0x4, .rw, 0x0, 0x1, false⟩,
  ⟨"WRK_ERR", 0xD00004, 1, 0x4, 1, 0x4, .w1c, 0x0, 0x7F, false⟩,
  ⟨"WRK_INT_EN", 0xD00008, 1, 0x4, 1, 0x4, .rw, 0x0, 0x7F, false⟩,
  ⟨"WRK_RETIRE_CMD", 0xD0000C, 1, 0x4, 1, 0x4, .wo, 0x0, 0x17F, true⟩,
  ⟨"WRK_RETIRE_THR", 0xD00010, 1, 0x4, 1, 0x4, .rw, 0x2, 0xFF, false⟩,
  ⟨"WRK_PRETIRED", 0xD00014, 3, 0x4, 1, 0x4, .ro, 0x0, 0xFFFFFFFF, false⟩,
  ⟨"WRK_MEM_ADDR", 0xD00020, 1, 0x4, 1, 0x4, .rw, 0x0, 0x3F03FFFF, true⟩,
  ⟨"WRK_MEM_DATA_LO", 0xD00024, 1, 0x4, 1, 0x4, .rw, 0x0, 0xFFFFFFFF, true⟩,
  ⟨"WRK_MEM_DATA_HI", 0xD00028, 1, 0x4, 1, 0x4, .rw, 0x0, 0xFFFF, true⟩,
  ⟨"WRK_RES_CFG", 0xD00030, 1, 0x4, 1, 0x4, .rw, 0x0, 0x31F0, false⟩,
  ⟨"WRK_RING_BASE", 0xD00034, 1, 0x4, 1, 0x4, .rw, 0x0, 0x1FFFFFF, false⟩,
  ⟨"WRK_RING_SIZE", 0xD00038, 1, 0x4, 1, 0x4, .rw, 0x0, 0x7FFFFF, false⟩,
  ⟨"WRK_RING_WR", 0xD0003C, 1, 0x4, 1, 0x4, .ro, 0x0, 0xFFFFFFFF, false⟩,
  ⟨"WRK_RING_RD", 0xD00040, 1, 0x4, 1, 0x4, .rw, 0x0, 0xFFFFFFFF, true⟩,
  ⟨"WRK_RES_LOST", 0xD00044, 1, 0x4, 1, 0x4, .ro, 0x0, 0xFFFFFFFF, false⟩,
  ⟨"WRK_Wn_CFG", 0xD01000, 64, 0x40, 1, 0x4, .rw, 0x0, 0xFFE00001, false⟩,
  ⟨"WRK_Wn_BUDGET", 0xD01004, 64, 0x40, 1, 0x4, .rw, 0x3DE, 0x3FF03FF, false⟩,
  ⟨"WRK_Wn_TIMER", 0xD01008, 64, 0x40, 1, 0x4, .rw, 0x0, 0x3FF, false⟩,
  ⟨"WRK_Wn_ENTRY", 0xD0100C, 64, 0x40, 1, 0x4, .rw, 0x0, 0x7FFF, false⟩,
  ⟨"WRK_Wn_START_LO", 0xD01010, 64, 0x40, 1, 0x4, .rw, 0x0, 0xFFFFFFFF, false⟩,
  ⟨"WRK_Wn_START_HI", 0xD01014, 64, 0x40, 1, 0x4, .rw, 0x0, 0xFFFFFFFF, false⟩,
  ⟨"WRK_Wn_SEED", 0xD01018, 64, 0x40, 1, 0x4, .rw, 0x0, 0xFFFFFFFF, false⟩,
  ⟨"WRK_Wn_STATUS", 0xD0101C, 64, 0x40, 1, 0x4, .ro, 0x0, 0xE07F7FFF, false⟩,
  ⟨"WRK_Wn_CYCLES", 0xD01020, 64, 0x40, 1, 0x4, .ro, 0x0, 0x3FF, false⟩]

def rowsWRK1 : List RegRow := [
  ⟨"WRK_Wn_LASTEXC", 0xD01024, 64, 0x40, 1, 0x4, .ro, 0x0, 0x3F007FFF, false⟩,
  ⟨"WRK_Wn_OVERRUN", 0xD01028, 64, 0x40, 1, 0x4, .ro, 0x0, 0xFFFFFFFF, false⟩,
  ⟨"WRK_Wn_CYCREAD", 0xD0102C, 64, 0x40, 1, 0x4, .ro, 0x0, 0xFFFFFFFF, false⟩,
  ⟨"WRK_Wn_EXC", 0xD01030, 64, 0x40, 1, 0x4, .ro, 0x0, 0xFFFFFFFF, false⟩,
  ⟨"WRK_Wn_ECC_CORR", 0xD01034, 64, 0x40, 1, 0x4, .ro, 0x0, 0xFFFFFFFF, false⟩,
  ⟨"WRK_WINw_CFG", 0xD03000, 64, 0x10, 1, 0x4, .rw, 0x0, 0xBFFF03FF, false⟩,
  ⟨"WRK_WINw_FILLS", 0xD03004, 64, 0x10, 1, 0x4, .ro, 0x0, 0xFFFFFFFF, false⟩,
  ⟨"WRK_WINw_OVF", 0xD03008, 64, 0x10, 1, 0x4, .ro, 0x0, 0xFFFFFFFF, false⟩,
  ⟨"WRK_WINw_PWR", 0xD0300C, 64, 0x10, 1, 0x4, .ro, 0x0, 0xFFFFFFFF, false⟩]

def rowsWRK : List RegRow := rowsWRK0 ++ rowsWRK1

def rowsTRG0 : List RegRow := [
  ⟨"TRG_CTRL", 0xE00000, 1, 0x4, 1, 0x4, .rw, 0x0, 0x1, false⟩,
  ⟨"TRG_ERR", 0xE00004, 1, 0x4, 1, 0x4, .w1c, 0x0, 0xFF, false⟩,
  ⟨"TRG_INT_EN", 0xE00008, 1, 0x4, 1, 0x4, .rw, 0x0, 0x300FF, false⟩,
  ⟨"TRG_FABRIC", 0xE0000C, 1, 0x4, 1, 0x4, .rw, 0x7D0, 0x3FFFF, false⟩,
  ⟨"TRG_LATE_CNT", 0xE00010, 1, 0x4, 1, 0x4, .ro, 0x0, 0xFFFFFFFF, false⟩,
  ⟨"TRG_HELD_CNT", 0xE00014, 1, 0x4, 1, 0x4, .ro, 0x0, 0xFFFFFFFF, false⟩,
  ⟨"TRG_TCc_CFG", 0xE01000, 64, 0x40, 1, 0x4, .rw, 0x0, 0xFF1F1F0F, false⟩,
  ⟨"TRG_TCc_WIN", 0xE01004, 64, 0x40, 1, 0x4, .rw, 0x0, 0x7FFFF, false⟩,
  ⟨"TRG_TCc_PRESCALE", 0xE01008, 64, 0x40, 1, 0x4, .rw, 0x1, 0xFFFFFF, false⟩,
  ⟨"TRG_TCc_VPRE", 0xE0100C, 64, 0x40, 1, 0x4, .rw, 0x0, 0x7FFFF, false⟩,
  ⟨"TRG_TCc_VPOST", 0xE01010, 64, 0x40, 1, 0x4, .rw, 0x0, 0xFFFF, false⟩,
  ⟨"TRG_TCc_SRC", 0xE01014, 64, 0x40, 4, 0x4, .rw, 0x0, 0xFFFFFFFF, false⟩,
  ⟨"TRG_TCc_VETO", 0xE01024, 64, 0x40, 1, 0x4, .rw, 0x0, 0xFFFFFFFF, false⟩,
  ⟨"TRG_TCc_FIRED", 0xE01028, 64, 0x40, 1, 0x4, .ro, 0x0, 0xFFFFFFFF, false⟩,
  ⟨"TRG_TCc_VETOED", 0xE0102C, 64, 0x40, 1, 0x4, .ro, 0x0, 0xFFFFFFFF, false⟩,
  ⟨"TRG_TCc_PRESCALED", 0xE01030, 64, 0x40, 1, 0x4, .ro, 0x0, 0xFFFFFFFF, false⟩,
  ⟨"TRG_TCc_SUPPRESSED", 0xE01034, 64, 0x40, 1, 0x4, .ro, 0x0, 0xFFFFFFFF, false⟩,
  ⟨"TRG_TCc_NOTES", 0xE01038, 64, 0x40, 1, 0x4, .ro, 0x0, 0xFFFFFFFF, false⟩,
  ⟨"TRG_TCc_COUNT", 0xE0103C, 64, 0x40, 1, 0x4, .ro, 0x0, 0xFFFFFFFF, false⟩,
  ⟨"TRG_SESg_CFG", 0xE03000, 8, 0x100, 1, 0x4, .rw, 0x0, 0xFFFFFFFF, false⟩,
  ⟨"TRG_SESg_CFG2", 0xE03004, 8, 0x100, 1, 0x4, .rw, 0x0, 0xFF0007FF, false⟩,
  ⟨"TRG_SESg_WIN", 0xE03008, 8, 0x100, 1, 0x4, .rw, 0x0, 0x7FFFF, false⟩,
  ⟨"TRG_SESg_HIVES", 0xE0300C, 8, 0x100, 1, 0x4, .rw, 0x0, 0x3FF03FF, false⟩,
  ⟨"TRG_SESg_GRP", 0xE03010, 8, 0x100, 1, 0x4, .rw, 0x0, 0x3F3F, false⟩]

def rowsTRG1 : List RegRow := [
  ⟨"TRG_SESg_PORTS", 0xE03014, 8, 0x100, 1, 0x4, .rw, 0x0, 0xFFFFFFFF, false⟩,
  ⟨"TRG_SESg_HB", 0xE03018, 8, 0x100, 1, 0x4, .rw, 0x30064, 0xF03FF, false⟩,
  ⟨"TRG_SESg_STATUS", 0xE0301C, 8, 0x100, 1, 0x4, .ro, 0x0, 0x83FF0000, false⟩,
  ⟨"TRG_SESg_TSEQ_LO", 0xE03020, 8, 0x100, 1, 0x4, .ro, 0x0, 0xFFFFFFFF, false⟩,
  ⟨"TRG_SESg_TSEQ_HI", 0xE03024, 8, 0x100, 1, 0x4, .ro, 0x0, 0xFFFFFFFF, false⟩,
  ⟨"TRG_SESg_DIGESTS", 0xE03028, 8, 0x100, 1, 0x4, .ro, 0x0, 0xFFFFFFFF, false⟩,
  ⟨"TRG_SESg_DLATE", 0xE0302C, 8, 0x100, 1, 0x4, .ro, 0x0, 0xFFFFFFFF, false⟩,
  ⟨"TRG_SESg_DUP", 0xE03030, 8, 0x100, 1, 0x4, .ro, 0x0, 0xFFFFFFFF, false⟩,
  ⟨"TRG_SESg_MISSED", 0xE03034, 8, 0x100, 1, 0x4, .ro, 0x0, 0xFFFFFFFF, false⟩,
  ⟨"TRG_SESg_TAKEOVER", 0xE03038, 8, 0x100, 1, 0x4, .ro, 0x0, 0xFFFFFFFF, false⟩,
  ⟨"TRG_SESg_MEMBERS", 0xE03080, 8, 0x100, 32, 0x4, .rw, 0x0, 0xFFFFFFFF, false⟩,
  ⟨"TRIG_INn_CFG", 0xE05000, 8, 0x10, 1, 0x4, .rw, 0x400, 0xFF03, false⟩,
  ⟨"TRIG_INn_DLY", 0xE05004, 8, 0x10, 1, 0x4, .rw, 0x0, 0x3FFFFF, false⟩,
  ⟨"TRIG_INn_EDGES", 0xE05008, 8, 0x10, 1, 0x4, .ro, 0x0, 0xFFFFFFFF, false⟩,
  ⟨"TRIG_INn_SUPP", 0xE0500C, 8, 0x10, 1, 0x4, .ro, 0x0, 0xFFFFFFFF, false⟩,
  ⟨"TRIG_OUTn_CFG", 0xE05100, 8, 0x20, 1, 0x4, .rw, 0x0, 0xFF000003, false⟩,
  ⟨"TRIG_OUTn_LAT", 0xE05104, 8, 0x20, 1, 0x4, .rw, 0x13880, 0xFFFFF, false⟩,
  ⟨"TRIG_OUTn_WIDTH", 0xE05108, 8, 0x20, 1, 0x4, .rw, 0x64, 0xFFFFF, false⟩,
  ⟨"TRIG_OUTn_SRC_LO", 0xE0510C, 8, 0x20, 1, 0x4, .rw, 0x0, 0xFFFFFFFF, false⟩,
  ⟨"TRIG_OUTn_SRC_HI", 0xE05110, 8, 0x20, 1, 0x4, .rw, 0x0, 0xFFFFFFFF, false⟩,
  ⟨"TRIG_OUTn_PULSES", 0xE05114, 8, 0x20, 1, 0x4, .ro, 0x0, 0xFFFFFFFF, false⟩,
  ⟨"TRIG_OUTn_LATE", 0xE05118, 8, 0x20, 1, 0x4, .ro, 0x0, 0xFFFFFFFF, false⟩,
  ⟨"TRIG_OUTn_MERGED", 0xE0511C, 8, 0x20, 1, 0x4, .ro, 0x0, 0xFFFFFFFF, false⟩,
  ⟨"STG_CTRL", 0xE80000, 1, 0x4, 1, 0x4, .rw, 0x0, 0x1, false⟩]

def rowsTRG2 : List RegRow := [
  ⟨"STG_ERR", 0xE80004, 1, 0x4, 1, 0x4, .w1c, 0x0, 0x3, false⟩,
  ⟨"STG_LOAD", 0xE80008, 1, 0x4, 1, 0x4, .ro, 0x0, 0xFFFF, false⟩,
  ⟨"STG_Bb_CFG", 0xE81000, 128, 0x20, 1, 0x4, .rw, 0x0, 0x3F0F0001, false⟩,
  ⟨"STG_Bb_MAP", 0xE81004, 128, 0x20, 1, 0x4, .rw, 0x0, 0x7FFF00FF, false⟩,
  ⟨"STG_Bb_THR_LO", 0xE81008, 128, 0x20, 1, 0x4, .rw, 0x0, 0xFFFFFFFF, false⟩,
  ⟨"STG_Bb_THR_HI", 0xE8100C, 128, 0x20, 1, 0x4, .rw, 0x0, 0xFF, false⟩,
  ⟨"STG_Bb_CAND", 0xE81010, 128, 0x20, 1, 0x4, .ro, 0x0, 0xFFFFFFFF, false⟩,
  ⟨"STG_Bb_SUPP", 0xE81014, 128, 0x20, 1, 0x4, .ro, 0x0, 0xFFFFFFFF, false⟩,
  ⟨"STG_Bb_SAT", 0xE81018, 128, 0x20, 1, 0x4, .ro, 0x0, 0xFFFFFFFF, false⟩,
  ⟨"STG_ENTe", 0xE88000, 32768, 0x4, 1, 0x4, .rw, 0x0, 0xCFFF00FF, false⟩]

def rowsTRG : List RegRow := rowsTRG0 ++ rowsTRG1 ++ rowsTRG2

def rowsACQ0 : List RegRow := [
  ⟨"ACQ_CTRL", 0xF00000, 1, 0x4, 1, 0x4, .rw, 0x0, 0x1, false⟩,
  ⟨"ACQ_ERR", 0xF00004, 1, 0x4, 1, 0x4, .w1c, 0x0, 0x7F, false⟩,
  ⟨"ACQ_INT_EN", 0xF00008, 1, 0x4, 1, 0x4, .rw, 0x0, 0x7F, false⟩,
  ⟨"ACQ_EVT_CFG", 0xF0000C, 1, 0x4, 1, 0x4, .rw, 0xB98C0000, 0xFFFF01F7, false⟩,
  ⟨"ACQ_EVT_PORTS", 0xF00010, 1, 0x4, 1, 0x4, .rw, 0x0, 0xFFFFFFFF, false⟩,
  ⟨"ACQ_EVT_RING_BASE", 0xF00014, 1, 0x4, 1, 0x4, .rw, 0x0, 0x1FFFFFF, false⟩,
  ⟨"ACQ_EVT_RING_SIZE", 0xF00018, 1, 0x4, 1, 0x4, .rw, 0x0, 0x7FFFFF, false⟩,
  ⟨"ACQ_EVT_RING_WR", 0xF0001C, 1, 0x4, 1, 0x4, .ro, 0x0, 0xFFFFFFFF, false⟩,
  ⟨"ACQ_EVT_RING_RD", 0xF00020, 1, 0x4, 1, 0x4, .rw, 0x0, 0xFFFFFFFF, true⟩,
  ⟨"ACQ_CHG_CFG", 0xF00024, 1, 0x4, 1, 0x4, .rw, 0x4, 0x8000001F, false⟩,
  ⟨"ACQ_CHG_RING_BASE", 0xF00028, 1, 0x4, 1, 0x4, .rw, 0x0, 0x1FFFFFF, false⟩,
  ⟨"ACQ_CHG_RING_SIZE", 0xF0002C, 1, 0x4, 1, 0x4, .rw, 0x0, 0x7FFFFF, false⟩,
  ⟨"ACQ_CHG_RING_WR", 0xF00030, 1, 0x4, 1, 0x4, .ro, 0x0, 0xFFFFFFFF, false⟩,
  ⟨"ACQ_CHG_RING_RD", 0xF00034, 1, 0x4, 1, 0x4, .rw, 0x0, 0xFFFFFFFF, true⟩,
  ⟨"ACQ_HIST_CFG", 0xF00038, 1, 0x4, 1, 0x4, .rw, 0x1, 0x800FFFFF, false⟩,
  ⟨"ACQ_HIST_RING_BASE", 0xF0003C, 1, 0x4, 1, 0x4, .rw, 0x0, 0x1FFFFFF, false⟩,
  ⟨"ACQ_HIST_RING_SIZE", 0xF00040, 1, 0x4, 1, 0x4, .rw, 0x0, 0x7FFFFF, false⟩,
  ⟨"ACQ_HIST_RING_WR", 0xF00044, 1, 0x4, 1, 0x4, .ro, 0x0, 0xFFFFFFFF, false⟩,
  ⟨"ACQ_HIST_RING_RD", 0xF00048, 1, 0x4, 1, 0x4, .rw, 0x0, 0xFFFFFFFF, true⟩,
  ⟨"ACQ_HIST_IN", 0xF00050, 8, 0x4, 1, 0x4, .rw, 0x0, 0xFFFFFFFF, false⟩,
  ⟨"ACQ_EVT_LOST", 0xF00070, 1, 0x4, 1, 0x4, .ro, 0x0, 0xFFFFFFFF, false⟩,
  ⟨"ACQ_CHG_OVF", 0xF00074, 1, 0x4, 1, 0x4, .ro, 0x0, 0xFFFFFFFF, false⟩,
  ⟨"ACQ_CHG_LOST", 0xF00078, 1, 0x4, 1, 0x4, .ro, 0x0, 0xFFFFFFFF, false⟩,
  ⟨"ACQ_HIST_LOST", 0xF0007C, 1, 0x4, 1, 0x4, .ro, 0x0, 0xFFFFFFFF, false⟩]

def rowsACQ1 : List RegRow := [
  ⟨"ACQ_CGc_CFG", 0xF01000, 64, 0x80, 1, 0x4, .rw, 0x0, 0xFFFFF0C1, false⟩,
  ⟨"ACQ_CGc_MEMBERS", 0xF01004, 64, 0x80, 1, 0x4, .rw, 0x0, 0xFFFF, false⟩,
  ⟨"ACQ_CGc_BEAMSEL", 0xF01008, 64, 0x80, 1, 0x4, .rw, 0x0, 0x1FFF03FF, false⟩,
  ⟨"ACQ_CGc_PRE", 0xF0100C, 64, 0x80, 1, 0x4, .rw, 0x0, 0xFFFFFF, false⟩,
  ⟨"ACQ_CGc_POST", 0xF01010, 64, 0x80, 1, 0x4, .rw, 0x0, 0xFFFFFF, false⟩,
  ⟨"ACQ_CGc_ST", 0xF01014, 64, 0x80, 1, 0x4, .rw, 0x0, 0xFFFFFF, false⟩,
  ⟨"ACQ_CGc_LAG", 0xF01018, 64, 0x80, 1, 0x4, .rw, 0x0, 0xFF, false⟩,
  ⟨"ACQ_CGc_BASE", 0xF0101C, 64, 0x80, 1, 0x4, .rw, 0x0, 0x1FFFFFF, false⟩,
  ⟨"ACQ_CGc_HOLD", 0xF01020, 64, 0x80, 1, 0x4, .rw, 0x0, 0xFFFFFFFF, false⟩,
  ⟨"ACQ_CGc_SRC_LO", 0xF01024, 64, 0x80, 1, 0x4, .rw, 0x0, 0xFFFFFFFF, false⟩,
  ⟨"ACQ_CGc_SRC_HI", 0xF01028, 64, 0x80, 1, 0x4, .rw, 0x0, 0xFFFFFFFF, false⟩,
  ⟨"ACQ_CGc_SES", 0xF0102C, 64, 0x80, 1, 0x4, .rw, 0x0, 0xFF, false⟩,
  ⟨"ACQ_CGc_START_LO", 0xF01030, 64, 0x80, 1, 0x4, .rw, 0x0, 0xFFFFFFFF, false⟩,
  ⟨"ACQ_CGc_START_HI", 0xF01034, 64, 0x80, 1, 0x4, .rw, 0x0, 0xFFFFFFFF, false⟩,
  ⟨"ACQ_CGc_REL_SEG", 0xF01038, 64, 0x80, 1, 0x4, .rw, 0x0, 0xF, true⟩,
  ⟨"ACQ_CGc_REL_EFF_LO", 0xF0103C, 64, 0x80, 1, 0x4, .rw, 0x0, 0xFFFFFFFF, true⟩,
  ⟨"ACQ_CGc_REL_EFF_HI", 0xF01040, 64, 0x80, 1, 0x4, .rw, 0x0, 0xFFFFFFFF, true⟩,
  ⟨"ACQ_CGc_STATUS", 0xF01044, 64, 0x80, 1, 0x4, .ro, 0x0, 0xEF00FFFF, false⟩,
  ⟨"ACQ_CGc_SEG_BYTES", 0xF01048, 64, 0x80, 1, 0x4, .ro, 0x0, 0x1FFFFFF, false⟩,
  ⟨"ACQ_CGc_EVENT_LO", 0xF0104C, 64, 0x80, 1, 0x4, .ro, 0x0, 0xFFFFFFFF, false⟩,
  ⟨"ACQ_CGc_EVENT_HI", 0xF01050, 64, 0x80, 1, 0x4, .ro, 0x0, 0xFFFFFFFF, false⟩,
  ⟨"ACQ_CGc_DEAD_LO", 0xF01054, 64, 0x80, 1, 0x4, .ro, 0x0, 0xFFFFFFFF, false⟩,
  ⟨"ACQ_CGc_DEAD_HI", 0xF01058, 64, 0x80, 1, 0x4, .ro, 0x0, 0xFFFFFFFF, false⟩,
  ⟨"ACQ_CGc_CAPTURES", 0xF0105C, 64, 0x80, 1, 0x4, .ro, 0x0, 0xFFFFFFFF, false⟩]

def rowsACQ2 : List RegRow := [
  ⟨"ACQ_CGc_JOINED", 0xF01060, 64, 0x80, 1, 0x4, .ro, 0x0, 0xFFFFFFFF, false⟩,
  ⟨"ACQ_CGc_MISSED", 0xF01064, 64, 0x80, 1, 0x4, .ro, 0x0, 0xFFFFFFFF, false⟩,
  ⟨"ACQ_CGc_DROPPED", 0xF01068, 64, 0x80, 1, 0x4, .ro, 0x0, 0xFFFFFFFF, false⟩,
  ⟨"ACQ_CGc_MISSING", 0xF0106C, 64, 0x80, 1, 0x4, .ro, 0x0, 0xFFFFFFFF, false⟩]

def rowsACQ : List RegRow := rowsACQ0 ++ rowsACQ1 ++ rowsACQ2

def rowsDDR0 : List RegRow := [
  ⟨"DDR_CTRL", 0x1000000, 1, 0x4, 1, 0x4, .rw, 0x0, 0x1, false⟩,
  ⟨"DDR_CFG", 0x1000004, 1, 0x4, 1, 0x4, .rw, 0x2B8, 0x3FF, false⟩,
  ⟨"DDR_STATUS", 0x1000008, 1, 0x4, 1, 0x4, .ro, 0x0, 0xF000FFFF, false⟩,
  ⟨"DDR_ERR", 0x100000C, 1, 0x4, 1, 0x4, .w1c, 0x0, 0x7F, false⟩,
  ⟨"DDR_INT_EN", 0x1000010, 1, 0x4, 1, 0x4, .rw, 0x0, 0x7F, false⟩,
  ⟨"DDR_PEAK", 0x1000014, 1, 0x4, 1, 0x4, .ro, 0x0, 0xFFFFF, false⟩,
  ⟨"DDR_RSV", 0x1000018, 1, 0x4, 1, 0x4, .ro, 0x0, 0xFFFFF, false⟩,
  ⟨"DDR_CAP", 0x100001C, 1, 0x4, 1, 0x4, .ro, 0x0, 0xFFF, false⟩,
  ⟨"DDR_AGE", 0x1000020, 1, 0x4, 1, 0x4, .rw, 0x7D0, 0x1FFFF, false⟩,
  ⟨"DDR_SCRUB", 0x1000024, 1, 0x4, 1, 0x4, .rw, 0x80000018, 0x800000FF, false⟩,
  ⟨"DDR_BAR2_BASE", 0x1000028, 1, 0x4, 1, 0x4, .rw, 0x0, 0x7FF, false⟩,
  ⟨"DDR_NOTREADY", 0x1000030, 1, 0x4, 1, 0x4, .ro, 0x0, 0xFFFFFFFF, false⟩,
  ⟨"DDR_HOST_WDROP", 0x1000034, 1, 0x4, 1, 0x4, .ro, 0x0, 0xFFFFFFFF, false⟩,
  ⟨"DDR_SCRUB_PASS", 0x1000038, 1, 0x4, 1, 0x4, .ro, 0x0, 0xFFFFFFFF, false⟩,
  ⟨"DDR_ELOG_LO", 0x1000040, 1, 0x4, 1, 0x4, .ro, 0x0, 0xFFFFFFFF, false⟩,
  ⟨"DDR_ELOG_HI", 0x1000044, 1, 0x4, 1, 0x4, .w1c, 0x0, 0x80000000, false⟩,
  ⟨"DDR_CLOG", 0x1000048, 1, 0x4, 1, 0x4, .ro, 0x0, 0x800F011F, false⟩,
  ⟨"DDR_PARTp_BASE", 0x1000100, 6, 0x10, 1, 0x4, .rw, 0x0, 0x1FFFFFF, false⟩,
  ⟨"DDR_PARTp_SIZE", 0x1000104, 6, 0x10, 1, 0x4, .rw, 0x0, 0x3FFFFFF, false⟩,
  ⟨"DDR_CHc_CORR", 0x1001000, 16, 0x100, 1, 0x4, .ro, 0x0, 0xFFFFFFFF, false⟩,
  ⟨"DDR_CHc_UNCORR", 0x1001004, 16, 0x100, 1, 0x4, .ro, 0x0, 0xFFFFFFFF, false⟩,
  ⟨"DDR_CHc_TEMP", 0x1001008, 16, 0x100, 1, 0x4, .ro, 0x0, 0xFFFF, false⟩,
  ⟨"DDR_CHc_TRAINl", 0x1001040, 16, 0x100, 40, 0x4, .ro, 0x0, 0xFFFFFFFF, false⟩,
  ⟨"DDR_CLk_RSV", 0x1002000, 12, 0x10, 1, 0x4, .ro, 0x0, 0xFFFFF, false⟩]

def rowsDDR1 : List RegRow := [
  ⟨"DDR_CLk_OVER", 0x1002004, 12, 0x10, 1, 0x4, .ro, 0x0, 0xFFFFFFFF, false⟩,
  ⟨"DDR_CLk_PROMOTE", 0x1002008, 12, 0x10, 1, 0x4, .ro, 0x0, 0xFFFFFFFF, false⟩]

def rowsDDR : List RegRow := rowsDDR0 ++ rowsDDR1

def rowsFDM : List RegRow := [
  ⟨"FDM_CTRL", 0x1100000, 1, 0x4, 1, 0x4, .rw, 0x0, 0x1, false⟩,
  ⟨"FDM_ERR", 0x1100004, 1, 0x4, 1, 0x4, .w1c, 0x0, 0xF, false⟩,
  ⟨"FDM_INT_EN", 0x1100008, 1, 0x4, 1, 0x4, .rw, 0x0, 0xF, false⟩,
  ⟨"FDM_AGE", 0x110000C, 1, 0x4, 1, 0x4, .rw, 0x14, 0x3FF, false⟩,
  ⟨"FDM_HALTED", 0x1100010, 1, 0x4, 1, 0x4, .ro, 0x0, 0xFFFFFFFF, false⟩,
  ⟨"FDM_CHn_CFG", 0x1101000, 32, 0x40, 1, 0x4, .rw, 0x40300, 0xFFFF0311, false⟩,
  ⟨"FDM_CHn_STATE", 0x1101004, 32, 0x40, 1, 0x4, .ro, 0x0, 0xFFFF00E7, false⟩,
  ⟨"FDM_CHn_RING_LO", 0x1101008, 32, 0x40, 1, 0x4, .rw, 0x0, 0xFFFFFFC0, false⟩,
  ⟨"FDM_CHn_RING_HI", 0x110100C, 32, 0x40, 1, 0x4, .rw, 0x0, 0xFFFFFFFF, false⟩,
  ⟨"FDM_CHn_TAIL", 0x1101010, 32, 0x40, 1, 0x4, .ro, 0x0, 0xFFFF, false⟩,
  ⟨"FDM_CHn_CMD", 0x1101014, 32, 0x40, 1, 0x4, .wo, 0x0, 0x7, true⟩,
  ⟨"FDM_CHn_ERR_LO", 0x1101018, 32, 0x40, 1, 0x4, .ro, 0x0, 0xFFFFFFFF, false⟩,
  ⟨"FDM_CHn_ERR_HI", 0x110101C, 32, 0x40, 1, 0x4, .ro, 0x0, 0xFFFFFFFF, false⟩,
  ⟨"FDM_CHn_ERR_INFO", 0x1101020, 32, 0x40, 1, 0x4, .ro, 0x0, 0x1F0130, false⟩,
  ⟨"FDM_CHn_DESC", 0x1101024, 32, 0x40, 1, 0x4, .ro, 0x0, 0xFFFFFFFF, false⟩,
  ⟨"FDM_CHn_BYTES", 0x1101028, 32, 0x40, 1, 0x4, .ro, 0x0, 0xFFFFFFFF, false⟩,
  ⟨"FDM_CHn_WAITS", 0x110102C, 32, 0x40, 1, 0x4, .ro, 0x0, 0xFFFFFFFF, false⟩,
  ⟨"FDM_CHn_PROMOTE", 0x1101030, 32, 0x40, 1, 0x4, .ro, 0x0, 0xFFFFFFFF, false⟩]

def rowsCMD0 : List RegRow := [
  ⟨"CMD_CTRL", 0x1200000, 1, 0x4, 1, 0x4, .rw, 0x0, 0x1, false⟩,
  ⟨"CMD_ERR", 0x1200004, 1, 0x4, 1, 0x4, .w1c, 0x0, 0x3F, false⟩,
  ⟨"CMD_INT_EN", 0x1200008, 1, 0x4, 1, 0x4, .rw, 0x0, 0x3F, false⟩,
  ⟨"CMD_DISC_HDR", 0x1200010, 1, 0x4, 1, 0x4, .ro, 0x0, 0xFFFFFFFF, false⟩,
  ⟨"CMD_DISC_KEY", 0x1200014, 1, 0x4, 1, 0x4, .ro, 0x0, 0xFFFFFFFF, false⟩,
  ⟨"CMD_DISC_TAG", 0x1200018, 1, 0x4, 1, 0x4, .ro, 0x0, 0xFFFFFFFF, false⟩,
  ⟨"CMD_DISC_TARGET", 0x120001C, 1, 0x4, 1, 0x4, .ro, 0x0, 0xFFFFFFFF, false⟩,
  ⟨"CMD_QUEUE_DROP", 0x1200020, 1, 0x4, 1, 0x4, .ro, 0x0, 0xFFFFFFFF, false⟩,
  ⟨"CMD_EXECUTED", 0x1200024, 1, 0x4, 1, 0x4, .ro, 0x0, 0xFFFFFFFF, false⟩,
  ⟨"CMD_REFUSED", 0x1200028, 1, 0x4, 1, 0x4, .ro, 0x0, 0xFFFFFFFF, false⟩,
  ⟨"CMD_DISC_OFF", 0x120002C, 1, 0x4, 1, 0x4, .ro, 0x0, 0xFFFFFFFF, false⟩,
  ⟨"CMD_AUDIT_OLDEST", 0x1200030, 1, 0x4, 1, 0x4, .ro, 0x0, 0xFFFFFFFF, false⟩,
  ⟨"CMD_AUDIT_NEXT", 0x1200034, 1, 0x4, 1, 0x4, .ro, 0x0, 0xFFFFFFFF, false⟩,
  ⟨"CMD_AUDIT_CHAIN_LO", 0x1200038, 1, 0x4, 1, 0x4, .ro, 0x0, 0xFFFFFFFF, false⟩,
  ⟨"CMD_AUDIT_CHAIN_HI", 0x120003C, 1, 0x4, 1, 0x4, .ro, 0x0, 0xFFFFFFFF, false⟩,
  ⟨"CMD_OEV_NEXT", 0x1200040, 1, 0x4, 1, 0x4, .ro, 0x0, 0xFF, false⟩,
  ⟨"CMD_OEV_LOST", 0x1200044, 1, 0x4, 1, 0x4, .ro, 0x0, 0xFFFFFFFF, false⟩,
  ⟨"CMD_RINGr_BASE_LO", 0x1200100, 64, 0x10, 1, 0x4, .rw, 0x0, 0xFFFF8000, false⟩,
  ⟨"CMD_RINGr_BASE_HI", 0x1200104, 64, 0x10, 1, 0x4, .rw, 0x0, 0xFFFFFFFF, false⟩,
  ⟨"CMD_RINGr_CFG", 0x1200108, 64, 0x10, 1, 0x4, .rw, 0x0, 0xFFEF0001, false⟩,
  ⟨"CMD_RINGr_STATUS", 0x120010C, 64, 0x10, 1, 0x4, .ro, 0x0, 0x8000FFFF, false⟩,
  ⟨"CMD_SESx_CFG", 0x1210000, 1024, 0x40, 1, 0x4, .ro, 0x0, 0xC0000033, false⟩,
  ⟨"CMD_SESx_OWN_LO", 0x1210004, 1024, 0x40, 1, 0x4, .ro, 0x0, 0xFFFFFFFF, false⟩,
  ⟨"CMD_SESx_OWN_HI", 0x1210008, 1024, 0x40, 1, 0x4, .ro, 0x0, 0xFFFFFFFF, false⟩]

def rowsCMD1 : List RegRow := [
  ⟨"CMD_SESx_Q", 0x121000C, 1024, 0x40, 8, 0x4, .ro, 0xFFFFFFFF, 0xFFFFFFFF, false⟩,
  ⟨"CMD_SESx_DEG", 0x121002C, 1024, 0x40, 1, 0x4, .ro, 0x0, 0xF, false⟩,
  ⟨"CMD_KEYk_STATE", 0x1220000, 70, 0x10, 1, 0x4, .ro, 0x0, 0xFFFFFFFF, false⟩,
  ⟨"CMD_KEYk_H", 0x1220004, 70, 0x10, 1, 0x4, .ro, 0x0, 0xFFFFFFFF, false⟩,
  ⟨"CMD_BINDs_w", 0x1230000, 64, 0x80, 32, 0x4, .ro, 0x0, 0xFFFFFFFF, false⟩,
  ⟨"CMD_OEVi_v", 0x1240000, 256, 0x10, 4, 0x4, .ro, 0x0, 0xFFFFFFFF, false⟩,
  ⟨"CMD_MK_DEBUG", 0x1280000, 1, 0x4, 1, 0x4, .rw, 0x0, 0x1, false⟩,
  ⟨"CMD_MK_OTP_ADDR", 0x1280004, 1, 0x4, 1, 0x4, .rw, 0x0, 0xFFF, false⟩,
  ⟨"CMD_MK_OTP_DATA", 0x1280008, 1, 0x4, 1, 0x4, .rw, 0x0, 0xFFFFFFFF, false⟩,
  ⟨"CMD_MK_OTP_CMD", 0x128000C, 1, 0x4, 1, 0x4, .rw, 0x0, 0x3, false⟩]

def rowsCMD : List RegRow := rowsCMD0 ++ rowsCMD1

def rowsMON : List RegRow := [
  ⟨"MON_CTRL", 0x1300000, 1, 0x4, 1, 0x4, .rw, 0x503, 0xFF03, false⟩,
  ⟨"MON_ERR", 0x1300004, 1, 0x4, 1, 0x4, .w1c, 0x0, 0x3F, false⟩,
  ⟨"MON_INT_EN", 0x1300008, 1, 0x4, 1, 0x4, .rw, 0x0, 0x3F, false⟩,
  ⟨"MON_STATE", 0x130000C, 1, 0x4, 1, 0x4, .ro, 0x0, 0x781FF, false⟩,
  ⟨"MON_READY_MASK", 0x1300010, 1, 0x4, 1, 0x4, .rw, 0x17A, 0x1FF, false⟩,
  ⟨"MON_UART", 0x1300014, 1, 0x4, 1, 0x4, .rw, 0x3641, 0x1FFFFF, true⟩,
  ⟨"MON_BOOT", 0x1300018, 1, 0x4, 1, 0x4, .ro, 0x0, 0xFF00FFFF, false⟩,
  ⟨"MON_BOOT_IDX", 0x130001C, 1, 0x4, 1, 0x4, .ro, 0x0, 0xFFFFFFFF, false⟩,
  ⟨"MON_BOOT_GEN", 0x1300020, 1, 0x4, 1, 0x4, .ro, 0x0, 0xFFFFFFFF, false⟩,
  ⟨"MON_RESET_CAUSE", 0x1300024, 1, 0x4, 1, 0x4, .ro, 0x0, 0x7, false⟩,
  ⟨"MON_STATUS_SEL", 0x1300028, 1, 0x4, 1, 0x4, .rw, 0x1004030F, 0x9F9F9F9F, false⟩,
  ⟨"MON_WARM_CNT", 0x130002C, 1, 0x4, 1, 0x4, .ro, 0x0, 0xFFFFFFFF, false⟩,
  ⟨"MON_LOGIN_FAIL", 0x1300030, 1, 0x4, 1, 0x4, .ro, 0x0, 0xFFFFFFFF, false⟩,
  ⟨"MON_UART_ERR_CNT", 0x1300034, 1, 0x4, 1, 0x4, .ro, 0x0, 0xFFFFFFFF, false⟩]

def rowsPCI : List RegRow := [
  ⟨"PCI_STATUS", 0x1400000, 1, 0x4, 1, 0x4, .ro, 0x0, 0xF9FF, false⟩,
  ⟨"PCI_ERR", 0x1400004, 1, 0x4, 1, 0x4, .w1c, 0x0, 0x1F, false⟩,
  ⟨"PCI_INT_EN", 0x1400008, 1, 0x4, 1, 0x4, .rw, 0x0, 0x1F, false⟩,
  ⟨"PCI_BAD_CNT", 0x140000C, 1, 0x4, 1, 0x4, .ro, 0x0, 0xFFFFFFFF, false⟩,
  ⟨"PCI_CPL_TO_CNT", 0x1400010, 1, 0x4, 1, 0x4, .ro, 0x0, 0xFFFFFFFF, false⟩,
  ⟨"PCI_CORR_CNT", 0x1400014, 1, 0x4, 1, 0x4, .ro, 0x0, 0xFFFFFFFF, false⟩]

/-- The rows of register block `b` of Table 20-1. -/
def blockRows : Nat → List RegRow
  | 0 => rowsGLB
  | 1 => rowsKPR
  | 2 => rowsPWR
  | 3 => rowsCLK
  | 4 => rowsTIM
  | 5 => rowsNEC
  | 6 => rowsING
  | 7 => rowsCHN
  | 8 => rowsCTN
  | 9 => rowsETH
  | 10 => rowsCMB
  | 11 => rowsSUP
  | 12 => rowsWAG
  | 13 => rowsWRK
  | 14 => rowsTRG
  | 15 => rowsACQ
  | 16 => rowsDDR
  | 17 => rowsFDM
  | 18 => rowsCMD
  | 19 => rowsMON
  | 20 => rowsPCI
  | _ => []

/-- Does row `r` hold a register at BAR0 offset `a`? -/
def RegRow.covers (r : RegRow) (a : Nat) : Bool :=
  let d := a - r.off
  r.off ≤ a && d / r.s1 < r.n1 && (d % r.s1) % r.s2 == 0 && (d % r.s1) / r.s2 < r.n2

/-- The row that names a register at BAR0 offset `a`; none where the offset names no register (R495). -/
def rowAt (a : Nat) : Option RegRow := (blockRows (a / 0x100000)).find? (·.covers a)

/-- Reset value of the register at offset `a` (the header lines of the chapters). The values the maker programs in
OTP come from `Config`; GLB_INT_MAPb resets to b; CMD_SES0_CFG resets to 0x4000_0010 (Table 21-8). -/
def resetVal (a : Nat) : BitVec 32 :=
  match rowAt a with
  | none => 0
  | some r =>
    if r.off = 0x4 then (Config.uid % 2 ^ 32 : Nat)
    else if r.off = 0x8 then (Config.uid / 2 ^ 32 : Nat)
    else if r.off = 0x100 then ((a - 0x100) / 4 : Nat)
    else if r.off = 0x200018 then BitVec.ofNat 32 (Config.pwrBase % 2 ^ 19)
    else if r.off = 0x200020 then BitVec.ofNat 32 (Config.pwrEComb % 2 ^ 24)
    else if r.off = 0x200024 then BitVec.ofNat 32 (Config.pwrEPhase % 2 ^ 24)
    else if r.off = 0x200028 then BitVec.ofNat 32 (Config.pwrEWag % 2 ^ 24)
    else if r.off = 0x20002C then BitVec.ofNat 32 (Config.pwrEWrk % 2 ^ 24)
    else if r.off = 0x90100C then BitVec.ofNat 32 (Config.macBase + (a - 0x90100C) / 0x100)
    else if r.off = 0x901010 then BitVec.ofNat 32 ((Config.macBase + (a - 0x901010) / 0x100) / 2 ^ 32 % 2 ^ 16)
    else if a = 0x1210000 then 0x40000010
    else if r.off = 0x1220000 ∧ 68 ≤ (a - 0x1220000) / 0x10 then
      BitVec.ofNat 32 (Config.makerKeyState ((a - 0x1220000) / 0x10 - 68) % 4)
    else BitVec.ofNat 32 r.reset

/-- The registers whose bits the seal covers (R507, Table 20-4): the RW and MW registers that are not LIVE in every
guard mode, that no commit rewrites, and that lie outside GLB_SCRATCH and the maker region. -/
def RegRow.sealed (r : RegRow) : Bool :=
  (r.acc == .rw || r.acc == .mw) && !r.live && !(r.off == 0xC)
  && !(r.off == 0x810004 || r.off == 0x810008 || r.off == 0x81000C)
  && !(0x1280000 ≤ r.off && r.off ≤ 0x128000C)

end Sys2Proof.Machine
end

