-- ==== Sys2Proof/Machine/Sparse.lean ====
section
/-!
DEFINITION. The one form in which the model keeps stores and memories: a list of (address, value) pairs with the
addresses strictly rising and no entry equal to what an unlisted address reads as, so that equal stores are equal data.
`d` is what an unlisted address reads as.
-/
namespace Sys2Proof.Machine

/-- The value at address `k`. -/
def spGet {α : Type} (d : Nat → α) : List (Nat × α) → Nat → α
  | [], k => d k
  | (a, v) :: t, k => if a = k then v else spGet d t k

/-- Puts `v` at address `k` of a sorted list, keeping it sorted; an older entry for `k` goes. -/
def spPut {α : Type} : List (Nat × α) → Nat → α → List (Nat × α)
  | [], k, v => [(k, v)]
  | (a, w) :: t, k, v => if k < a then (k, v) :: (a, w) :: t else if k = a then (k, v) :: t else (a, w) :: spPut t k v

/-- Removes the entry for address `k`. -/
def spDel {α : Type} : List (Nat × α) → Nat → List (Nat × α)
  | [], _ => []
  | (a, w) :: t, k => if a = k then spDel t k else (a, w) :: spDel t k

/-- Writes `v` at address `k`; writing what an unlisted address reads as removes the entry. -/
def spSet {α : Type} [DecidableEq α] (d : Nat → α) (m : List (Nat × α)) (k : Nat) (v : α) : List (Nat × α) :=
  if v = d k then spDel m k else spPut m k v

/-- The addresses of `m` all lie above `lo`, strictly rising, and no entry equals the default. -/
def spWfFrom {α : Type} [DecidableEq α] (d : Nat → α) : Nat → List (Nat × α) → Bool
  | _, [] => true
  | lo, (a, v) :: t => decide (lo ≤ a) && !decide (v = d a) && spWfFrom d (a + 1) t

/-- The canonical form. -/
def spWf {α : Type} [DecidableEq α] (d : Nat → α) (m : List (Nat × α)) : Bool := spWfFrom d 0 m

/-- Writes a list of values at consecutive addresses from `k`. -/
def spSetAll {α : Type} [DecidableEq α] (d : Nat → α) (m : List (Nat × α)) (k : Nat) : List α → List (Nat × α)
  | [] => m
  | v :: t => spSetAll d (spSet d m k v) (k + 1) t

/-- Reads `n` values at consecutive addresses from `k`. -/
def spGetN {α : Type} (d : Nat → α) (m : List (Nat × α)) (k : Nat) : Nat → List α
  | 0 => []
  | n + 1 => spGet d m k :: spGetN d m (k + 1) n

/-- What every unlisted address of a store that resets to zero reads as. -/
def zeroNat : Nat → Nat := fun _ => 0

/-- The same for signed stores. -/
def zeroInt : Nat → Int := fun _ => 0

/-- The same for byte memories. -/
def zeroByte : Nat → Byte := fun _ => 0

/-- The value of index `i` of a list, `d` past its end. -/
def nth {α : Type} (l : List α) (i : Nat) (d : α) : α := l.getD i d

/-- The list with index `i` replaced; unchanged past its end. -/
def setNth {α : Type} : List α → Nat → α → List α
  | [], _, _ => []
  | _ :: t, 0, v => v :: t
  | h :: t, i + 1, v => h :: setNth t i v

/-- The list with index `i` changed by `f`. -/
def modNth {α : Type} : List α → Nat → (α → α) → List α
  | [], _, _ => []
  | h :: t, 0, f => f h :: t
  | h :: t, i + 1, f => h :: modNth t i f

end Sys2Proof.Machine
end

