-- ==== Sys2Proof/Machine/State.lean ====
section
/-!
DEFINITION. The state of one FV9600: every register (one sparse file over BAR0), and, block by block, what the chapters
give the block beside its registers. Plain data only. `State.reset` is the part as power-on reset leaves it.
-/
namespace Sys2Proof.Machine

/-- Why the machine stops with a fault. Nothing in the manual stops the part, so no meaning raises one. -/
inductive Fault where
  /-- Raised by no meaning; safe. -/
  | none
  deriving DecidableEq, Repr

/-- Why a command is refused. -/
inductive Refusal where
  /-- A command that has no meaning yet, by the name the table of operations gives it; safe. -/
  | notModelled (mnemonic : String)
  deriving DecidableEq, Repr

/-- A foreign master as an instance has heard it: its last Announce, the microsecond it came in, and whether it came within the
foreign master window after another of the same master, which qualifies it (IEEE 1588-2019 9.3.2.5). -/
structure Foreign where
  msg  : PtpMsg
  at_  : Nat
  qual : Bool
  deriving DecidableEq, Repr

/-- A request an instance has received and not yet answered, or the Pdelay_Resp whose follow-up is still to be sent: sequence id, who asked,
the receipt (or egress) timestamp and the correction to be returned. -/
structure PtpReq where
  seq  : Nat
  who  : Nat
  ts   : Int
  corr : Int
  deriving DecidableEq, Repr

/-- One PTP instance beside its registers (R71 to R80): the masters heard and the best of them, and the
timestamps of the exchange in progress, all times in 2^−16 ns. -/
structure PtpInst where
  foreign : List Foreign
  best    : Option PtpMsg              -- the best qualified master
  since   : Nat                        -- microsecond of its last Announce, or of the change of portState since which none has come
  sent    : List (Option Nat)          -- microsecond each message sent at an interval last left: 0 Sync, 1 Announce, 2 requests
  seqs    : List Nat                   -- next sequence id of the same three
  syncTx  : Option (Nat × Int)         -- sequence id and egress timestamp of a two-step Sync whose Follow_Up is to be sent
  req     : Option PtpReq
  respTx  : Option PtpReq
  syncT2  : Option (Nat × Int × Int)   -- sequence id, ingress timestamp, correction of a two-step Sync awaiting Follow_Up
  ms      : Option Int                 -- (t2 − t1) − corr of the last complete Sync
  t3      : Option (Nat × Int)         -- sequence id and egress timestamp of the last Delay_Req or Pdelay_Req
  pd      : Option (Nat × Int × Int)   -- sequence id, t4 and turnaround so far of a two-step Pdelay_Resp
  mpd     : Option Int
  deriving DecidableEq, Repr

/-- Hive time (chapter 03). `now` is in units of 2^−48 ns: FRACTION and the 32 hidden bits below it (R64, R65). -/
structure Tim where
  now       : Nat
  us        : Nat                      -- microseconds of the local oscillator since reset: what every timer counts
  lastTick  : Option Nat               -- tick number of the last strobe issued
  todPend   : Option (Nat × Nat)       -- SECONDS of a TIME_SET not yet loaded, and `now` when it executed
  todEdge   : Bool                     -- the selected 1PPS has had an edge since
  utcOffset : Int                      -- currentUtcOffset as the time source received it (R64)
  step      : Option (Int × Nat)       -- a scheduled step: Δ in 2^−16 ns, apply second S
  runLen    : Nat
  runNeg    : Bool
  within    : Nat                      -- consecutive measurements within the threshold while STEP_PENDING
  skipped   : List (Nat × Nat)         -- ranges of tick numbers a forward step passed over
  stepIvals : List (Int × Int)         -- step intervals of R86, 2^−16 ns
  stepSecs  : List Nat                 -- apply seconds of the steps made (R400)
  ptp       : List PtpInst
  deriving DecidableEq, Repr

/-- A clock output (R110), instants in 0.25 ns: its frequency in kHz and the aligned edge it runs from; the frequency it ran at before the
last change, 0 where it stood still, and the falling edge at which that ended. -/
structure ClkOut where
  freq  : Nat
  start : Nat
  old   : Nat
  stop  : Nat
  deriving DecidableEq, Repr

/-- Reference selection (chapter 04) beside the CLK registers. -/
structure Clk where
  wtrTicks  : List Nat                 -- ticks of wait-to-restore remaining, per candidate
  lostOnce  : List Bool                -- lost QUALIFIED while enabled, so the next qualification waits
  yLog      : List Int                 -- y of each tick since LOCKED was last entered, newest first
  phase     : Int                      -- hive time minus reference, 2^−16 ns, still to be slewed out (R106)
  slewRem   : Nat                      -- remainder of the slew of a tick, 2^−16 ns × 10^−6
  edgeAt    : List (Option Nat)        -- microsecond of each 1PPS input's last edge
  ppsEdge   : Option Int               -- last edge of the active 1PPS reference, 2^−16 ns of hive time
  okSince   : List (Option Nat)        -- microsecond since which a candidate's conditions hold (Table 4-4)
  edgeOfs   : List Int                 -- distance of each 1PPS input's last edge from its second, 2^−16 ns
  ptpOfs    : Int                      -- last offset of the time source within the step threshold, 2^−16 ns
  lockFor   : Nat                      -- ticks in a row of ACQUIRE in which what the state holds of the lock condition held
  esmcAt    : List Nat                 -- microsecond of the last ESMC PDU on ETH0 to ETH3
  outs      : List ClkOut
  pulses    : List (Pin × Int × Int)   -- start and end of the last pulse of each pulse pin, 0.25 ns
  deriving DecidableEq, Repr

/-- A PTP instance after reset (R71). -/
def PtpInst.reset : PtpInst := ⟨[], none, 0, List.replicate 3 none, List.replicate 3 0, none, none, none, none, none, none, none, none⟩

/-- Hive time after reset: R68, TIME_VALID is 0 and no strobe has been issued. The instant hive time itself starts from
is not stated: DESIGN CHOICE 0, log entry 6. -/
def Tim.reset : Tim := ⟨0, 0, none, none, false, 0, none, 0, false, 0, [], [], [], List.replicate 8 PtpInst.reset⟩

/-- Reference selection after reset. -/
def Clk.reset : Clk :=
  ⟨List.replicate 13 0, List.replicate 13 false, [], 0, 0, List.replicate 8 none, none, List.replicate 13 none, List.replicate 8 0, 0, 0, List.replicate 4 0,
   List.replicate 4 ⟨10000, 0, 0, 0⟩, []⟩

/-- A nectar lane beside its registers: good markers seen in VERIFY, the SEQ of the last good marker and its arrival at
the balls in UI (R127 to R130); its present marker has been held against the alignment point; FORCE_EN named it at the last period
boundary (R133). -/
structure NecLane where
  verified : Nat
  seq      : Nat
  arrival  : Int
  judged   : Bool
  forced   : Bool
  deriving DecidableEq, Repr

/-- A nectar port (R136 to R147): words of the stream not yet assembled into a block, each with its lost mark; the ticks accepted; the last
discard cause per tick; the ticks neither delivered nor absent yet, as ranges in ascending order; the accepted blocks that wait for
an earlier tick; SPI and ticks missed, summed over the second in progress, and the sums of the second before. -/
structure NecPort where
  buf      : List (Nat × Bool)
  accepted : List Nat
  causes   : List (Nat × NecCause)
  todo     : List (Nat × Nat)
  wait     : List (Nat × List NativeTick)
  sps      : Nat
  missing  : Nat
  spsEnd   : Nat
  missEnd  : Nat
  deriving DecidableEq, Repr

/-- Nectar links (chapter 05) beside the NEC registers: lane u of bundle b is entry 17 b + u. -/
structure Nec where
  lanes    : List NecLane
  ports    : List NecPort
  alignSeq : List Nat                  -- SEQ of each bundle's alignment point
  alignAt  : List Int                  -- its arrival, UI
  wholeSec : List Bool                 -- bundle ALIGNED since the last second boundary
  skewMax  : List Nat                  -- largest skew of the second in progress, UI
  ended    : List (Bool × Nat)         -- the same two of the second before
  due      : Bool                      -- a second has ended whose measurements are not latched yet (R147)
  fresh    : List Nat                  -- ticks issued that a block may still be accepted for
  deriving DecidableEq, Repr

def NecLane.reset : NecLane := ⟨0, 0, 0, false, false⟩
def NecPort.reset : NecPort := ⟨[], [], [], [], [], 0, 0, 0, 0⟩
def Nec.reset : Nec :=
  ⟨List.replicate 272 NecLane.reset, List.replicate 64 NecPort.reset, List.replicate 16 0, List.replicate 16 0,
   List.replicate 16 false, List.replicate 16 0, List.replicate 16 (false, 0), false, []⟩

/-- A delay model (R160): D0, D1, D2 and its reference tick. -/
structure DlyModel where
  d0 : Int
  d1 : Int
  d2 : Int
  kr : Nat
  deriving DecidableEq, Repr

/-- One native tick a slot has taken in: its ordinal, phase and sample count, or the cause of its absence. -/
structure SlotTick where
  tick  : Nat
  o     : Nat
  phase : Nat
  spi   : Nat
  cause : NecCause
  deriving DecidableEq, Repr

/-- A filter slot (R151 to R171) beside its registers. Lists are newest first. -/
structure Slot where
  startAt   : Option Nat               -- armed: the k_r it starts at
  stopAt    : Option Nat               -- EN was cleared: stops at the boundary that begins this tick
  kStart    : Nat
  pend      : Option DlyModel
  models    : List DlyModel            -- in force and earlier
  ticks     : List SlotTick
  cStar     : Option Int               -- c of the latest pair of consecutive accepted blocks, 2^−32 samples
  dc        : Int
  hist      : List (List Smp)          -- inputs of FIR stages 1 to 3
  dec       : List Smp                 -- decimated samples; the first has index decTop − 1
  decTop    : Nat
  nextOrd   : Nat                      -- ordinal of the next native sample to enter the chain
  taintFrom : Option (Nat × NecCause)
  lastCause : NecCause                 -- cause of the latest absence
  hit       : Bool
  cfgLog    : List (Nat × Nat × Nat)   -- timeline of CFG and HIT at tick boundaries
  deriving DecidableEq, Repr

/-- Ingest conditioning (chapter 06) beside the ING registers. -/
structure Ing where
  inbox    : List NativeTick           -- native ticks from the ports, not yet taken by a slot
  replayIn : List NativeTick           -- recorded blocks for replay slots (R170)
  slots    : List Slot
  coef     : List (Nat × Nat)          -- coefficient stores: engine × 32,768 + address of Table 6-2
  canon    : List CanonTick            -- canonical ticks delivered, newest first
  debt     : List Nat                  -- native samples of replay slots each engine has yet to work off in idle cycles (R170)
  deriving DecidableEq, Repr

def Slot.reset : Slot :=
  ⟨none, none, 0, none, [], [], none, 0, [[], [], []], [], 0, 0, none, .none, false, []⟩

/-- The coefficient stores hold 0 after reset, which the manual does not state: DESIGN CHOICE, log entry 10. -/
def Ing.reset : Ing := ⟨[], [], List.replicate 256 Slot.reset, [], [], List.replicate 8 0⟩

/-- A spectrum handed to the corner turn (R191): its channels FIRST onwards, and its mark: `absent` with a cause, or
present with the mark of R168, or unmarked with `none` (R190). -/
structure Spectrum where
  input   : Nat
  n       : Nat
  home    : Nat
  profile : Nat
  replay  : Bool
  absent  : Bool
  mark    : NecCause
  first   : Nat
  vals    : List (Int × Int)
  deriving DecidableEq, Repr

/-- The channeliser (chapter 07) beside the CHN registers. -/
structure Chn where
  win      : List (Nat × Nat)          -- window store (R180)
  gain     : List (Nat × Nat)          -- gain store, bank × 2^22 + entry (R187)
  gainEff  : Option Nat                -- k_eff of a pending switch (R188)
  switched : Bool                      -- ACTIVE names its bank
  banks    : List (Nat × Nat)          -- bank from each home tick a switch has made ACTIVE, latest first
  debt     : Nat                       -- samples of replay spectra still to be worked off in idle capacity (R194)
  stopAt   : List (Nat × Nat)          -- (input, tick boundary) of inputs whose EN was cleared (R179)
  spectra  : List Spectrum             -- handed to the corner turn, newest first
  deriving DecidableEq, Repr

/-- The gain store resets to 0 with bank 0 active (R187). The window store's contents after reset are not stated: DESIGN
CHOICE 0, log entry 10. -/
def Chn.reset : Chn := ⟨[], [], none, false, [], 0, [], []⟩

/-- An Ethernet port (chapter 08) beside its registers. -/
structure EthPort where
  queues   : List (List TxFrame)       -- transmit queues 0 to 7, heads first
  cur      : Option TxFrame            -- the frame in progress
  left     : Nat                       -- bytes of it, or of the suspended frame, not yet cut off (R211)
  headAt   : List Nat                  -- microsecond at which each queue's head frame became its head (R207)
  verAt    : Nat                       -- microsecond of the last verify mPacket (R210)
  susp     : Option TxFrame            -- a pre-emptable frame queue 7 has interrupted (R210)
  promoted : List Nat                  -- queues whose head is promoted (R207)
  ident    : Nat                       -- IPv4 Identification counter (R214)
  tries    : Nat                       -- verify mPackets sent since verification started (R210)
  rasm     : Option (Nat × Nat × List Byte) -- frame count, next fragment count, bytes so far (R211)
  dad      : List (Nat × Nat)          -- IPv6 addresses under duplicate address detection, microsecond of the solicitation (R217)
  v6Bad    : List Nat                  -- addresses that failed it and are not used
  echoes   : Nat                       -- echo replies in this second (R219)
  queries  : List (Nat × List Nat)     -- pending current-state reports: the microsecond they are due, groups (R220)
  deriving DecidableEq, Repr

/-- An entry of the neighbour cache (R218). -/
structure Neigh where
  v6   : Bool
  ip   : Nat
  port : Nat
  mac  : Option Nat
  at_  : Nat                           -- microsecond of its last resolution
  deriving DecidableEq, Repr

/-- An installed stream: session, stream kind (0 honey, 1 waggle, 2 events, 3 worker records), port, queue class and
header template, with the tick from which it applies (R491). -/
structure Stream where
  session : Nat
  kind    : Nat
  port    : Nat
  queue   : Nat
  tmpl    : List Byte
  tick    : Nat
  deriving DecidableEq, Repr

/-- Ethernet (chapter 08) beside the ETH registers. -/
structure Eth where
  ports   : List EthPort
  outbox  : List (Nat × TxFrame)       -- frames a producer has handed on for a port, waiting for space (R208)
  sends   : List Send                  -- bulk sends not yet cut into frames (R213)
  sidCtr  : Nat                        -- number of the last bulk send
  inbox   : List RxItem                -- received messages on their way to their handlers
  neigh   : List Neigh
  streams : List Stream
  grpPend : List (Nat × Nat × Bool)    -- group, port, joined: state changes to report (R220)
  grpRep  : List (Nat × Nat × Bool × Nat) -- state changes reported once, with the microsecond of the report
  deriving DecidableEq, Repr

def EthPort.reset : EthPort := ⟨List.replicate 8 [], none, 0, List.replicate 8 0, 0, none, [], 0, 0, none, [], [], 0, []⟩
def Eth.reset : Eth := ⟨List.replicate 32 EthPort.reset, [], [], 0, [], [], [], [], []⟩

/-- A slice-map and an input map with their version, as CTN_SESx_MAP, INMAP and VERSION name them (R225, R226). -/
structure CtnMaps where
  map     : Nat
  inmap   : Nat
  version : Nat
  deriving DecidableEq, Repr

/-- A session whose brood is enabled (R237, R238): its configuration as enabled, its maps by dwell, a pending switch with
the tick it was committed for and the dwell it begins with, the dwells its windows are assigned to. -/
structure CtnSes where
  cfg    : Nat
  cfg2   : Nat
  sibase : Nat
  brood  : Nat
  udp    : Nat
  epoch  : Nat
  grid   : Nat
  maps   : List (Nat × CtnMaps)
  pend   : Option (Nat × Nat × CtnMaps)
  first  : Nat
  last   : Option Nat
  win    : List (Option Nat)
  since  : Nat := 0                    -- tick in which EN was written 1
  deriving DecidableEq, Repr

/-- One arrival bit (R238): session, dwell, local channel, spectrum, first session input of the producer. -/
structure Arrival where
  x : Nat
  d : Nat
  l : Nat
  n : Nat
  si : Nat
  deriving DecidableEq, Repr

/-- A send as its mark record names it (R236, R240): session, dwell, home tick, first channel, first spectrum, producer's
first input and input count. -/
structure SendId where
  x  : Nat
  d  : Nat
  tick : Nat
  ch : Nat
  n  : Nat
  si : Nat
  cnt : Nat
  deriving DecidableEq, Repr

/-- A port of a peer's set (R246), with the tick of its last announce. -/
structure Member where
  hive : Nat
  port : Nat
  ip   : Nat
  last : Nat
  deriving DecidableEq, Repr

/-- Corner turn and brood assembly (chapter 09) beside the CTN registers. -/
structure Ctn where
  ses     : List (Nat × CtnSes)
  sent    : List (Nat × Nat × Nat)     -- session, entry, home tick of the sends formed
  brood   : List (Nat × Byte)          -- brood memory: window × 2^26 + byte offset
  arrived : List Arrival
  marked  : List SendId                -- sends of which sample records were accepted and that carry a mark record
  marks   : List (SendId × List Nat)   -- accepted mark records, one byte per input
  final   : List (Nat × Nat × List Nat) -- session, dwell, presence codes by session input (R242)
  members : List Member
  annIn   : List (Nat × Nat × Nat)     -- announces of this tick: port, hive, address
  annSeq  : List (Nat × Option Nat)    -- per port: announces sent, tick of the last
  ending  : List (Nat × CtnSes)        -- sessions enabled again while their last dwells are not released (R238)
  bad     : List Nat                   -- bytes of brood memory with an uncorrectable error (Table 2-5)
  deriving DecidableEq, Repr

def Ctn.reset : Ctn := ⟨[], [], [], [], [], [], [], [], [], List.replicate 32 (0, none), [], []⟩

/-- A grant of the power arbiter for the tick in progress (R536, R537): session, unit (0 combs, 1 phase engine, 2 waggle
engine, 3 workers, 4 witness comb; 5 one worker), items wanted and granted, and the items that would be granted without thermal control (R541). -/
structure Grant where
  x      : Nat
  unit   : Nat
  want   : Nat
  got    : Nat
  cool   : Nat
  deriving DecidableEq, Repr

/-- A session's comb work (R255 to R281): the grid it was enabled with, its first and last dwell, the last dwell whose dump
was issued. -/
structure CmbSes where
  grid  : CtnSes
  first : Nat
  last  : Option Nat
  dumped : Option Nat
  judged : Nat := 0                    -- reference ticks below it have passed their deadline (R264)
  renew : Option (Nat × List (Nat × Nat)) := none -- the first dwell and the registers of comb work that follows the last dump (R55)
  deriving DecidableEq, Repr

/-- Comb states as they apply to dwells: RETIRED combs, CW's state (0 WITNESS, 1 STANDIN, 2 FAULT, 3 OFF) and the comb it
stands in for (Tables 10-4, 10-5). -/
structure CmbMode where
  retired : List Nat
  cw      : Nat
  standin : Option Nat
  deriving DecidableEq, Repr

/-- Work of one reference tick on one comb (R263, R264): block-spectra done, why no more, and the number below which what is withheld is so for THERMAL. -/
structure CmbWork where
  x    : Nat
  comb : Nat
  k    : Nat
  done : Nat
  why  : Nat
  cool : Nat
  deriving DecidableEq, Repr

/-- A change of a comb's state, which takes effect at the end of the tick in which its cause completes (R273): the commands of R281, WIT_EN
(R280), a comparison that agreed on a comb or, for a session and dwell, disagreed. -/
inductive CombEvent where
  | retire (c : Nat)
  | restore (c : Nat)
  | witness (on : Bool)
  | agree (c : Nat)
  | mismatch (x d c : Nat)
  deriving DecidableEq, Repr

/-- One slot of a dump: its block, entries, and the marks of Table 10-3. EXCLUDED cells are those of the rows and columns listed. -/
structure DumpBlock where
  g        : Nat
  comb     : Nat
  slot     : Nat
  vals     : List (Int × Int)
  reasons  : List Nat                  -- ABANDONED: the reasons of R264
  uncorr   : List Nat                  -- cells marked UNCORR
  suspect  : Bool
  withheld : Bool
  exRows   : List Nat := []
  exCols   : List Nat := []
  noted    : List Nat := []            -- reasons that flag the product and leave the entries as they are
  deriving DecidableEq, Repr

/-- A dump of one session and dwell (R266 to R268): N_x, the input list, C_x, the presence codes, the slots. -/
structure Dump where
  x      : Nat
  d      : Nat
  nx     : Nat
  list   : List Nat
  cx     : Nat
  grid   : CtnSes
  codes  : List Nat
  blocks : List DumpBlock
  deriving DecidableEq, Repr

/-- A comparison of the witnessed comb with CW that has not been applied yet (R272). -/
structure WitPend where
  x       : Nat
  d       : Nat
  comb    : Nat
  skipped : Bool
  inconc  : Bool
  work    : List (Nat × List (Int × Int)) -- slot, entries of the comb
  cw      : List (Nat × List (Int × Int))
  deriving DecidableEq, Repr

/-- The combs (chapter 10) beside the CMB registers. -/
structure Cmb where
  ses     : List (Nat × CmbSes)
  list    : List (Nat × Nat)           -- list store (R255)
  dstore  : List (Nat × List (Int × Int)) -- dwell stores: (comb × 512 + slot) × 2 + bank (R258)
  bad     : List (Nat × Nat)           -- uncorrectable entries of this dwell
  seen    : List (Nat × Nat)           -- entries whose error was counted in this dwell
  work    : List CmbWork
  used    : List (Nat × Nat × Nat × Nat) -- tick, session, comb, comb cycles of the grant used
  lost    : List (Nat × Nat × Nat × Nat × Nat) -- session, dwell, comb, slot, reason of abandoned work
  modes   : List (Nat × CmbMode)       -- timeline of the states, by the tick at whose end they take effect
  rewit   : List (Nat × Nat × Nat)     -- session, dwell, comb to witness again (R275)
  skip    : List (Nat × Nat)           -- session, dwell whose witness work was withheld
  wit     : List WitPend
  dumps   : List Dump                  -- dumps issued, not yet applied to a super
  todo    : List CombEvent             -- state changes that take effect at the end of the tick (R273)
  busy    : List (Nat × Nat × Nat)     -- tick, comb, the comb cycles of that tick it has been through
  noted   : List (Nat × Nat × Nat × Nat × Nat) -- session, dwell, comb, slot, reason that flags the slot's products
  deriving DecidableEq, Repr

def CmbMode.reset : CmbMode := ⟨[], 0, none⟩
def Cmb.reset : Cmb := ⟨[], [], [], [], [], [], [], [], [], [], [], [], [], [], [], []⟩

/-- The layout an integration was filled with (R309): number, first dwell taken, N_x, C_x, first word, exact mode, I_x, D_x, the channel
numbers of the local channels. -/
structure Layout where
  j     : Nat
  first : Nat
  nx    : Nat
  cx    : Nat
  base  : Nat
  exact : Bool
  i     : Nat
  d     : Nat
  chans : List Nat
  deriving DecidableEq, Repr

/-- A loss entry (Table 11-7), with its integration and local channel. -/
structure LossEnt where
  j      : Nat
  l      : Nat
  reason : Nat
  ofs    : Nat
  kind   : Nat
  p      : Nat
  q      : Nat
  deriving DecidableEq, Repr

/-- The drain of an integration (R296 to R307): its layout, the tick it began in, the next send of its plan, the sends
lost or not produced, the counted bytes of the sends handed on, and the reasons every channel's flags start from. -/
structure Drain where
  lay   : Layout
  home  : Nat                          -- the integration's start tick (R491)
  t0    : Nat
  next  : Nat
  lost  : Nat
  bytes : Nat
  extra : List Nat
  deriving DecidableEq, Repr

/-- A session in the supers (R282 to R311). -/
structure SupSes where
  start  : Nat                         -- first dwell of the session's comb work (R308)
  stop   : Bool                        -- EN was cleared: it ends with the drain in progress
  lays   : List Layout
  pres   : List (Nat × List Nat)       -- dwell, presence codes by list position (R300)
  loss   : List LossEnt
  tot    : List (Nat × Nat × Nat)      -- integration, channel, loss entries generated (R301)
  flags  : List (Nat × Nat × Nat)      -- integration, channel, reason
  cfgs   : List (Nat × Nat × Nat)      -- dwell from which a configuration and seed hold (R311)
  drain  : Option Drain
  deriving DecidableEq, Repr

/-- The supers and the honey drain (chapter 11) beside the SUP registers. -/
structure Sup where
  ses    : List (Nat × SupSes)
  words  : List (Nat × Nat)            -- super × 2^26 + word: 64 bits
  poison : List Nat                    -- poisoned words
  deriving DecidableEq, Repr

def Sup.reset : Sup := ⟨[], [], []⟩

/-- A session's waggle work (R312 to R327): the first epoch beamformed, once a commit gave it; the banks in force by epoch
(geometry banks in computed mode, weight banks in explicit mode); the epoch of a pending commit; the epochs whose weights
are complete; those not used, with their reasons; those computed with an uncorrectable word; the last reference tick. -/
structure WagSes where
  first  : Option Nat
  banks  : List (Nat × Nat)
  pend   : Option Nat
  done   : List Nat
  missed : List (Nat × List Nat)
  bad    : List Nat
  stop   : Option Nat
  deriving DecidableEq, Repr

/-- A released weight computation (R323): session, epoch, deadline, cycles left, uncorrectable geometry words met. -/
structure PhaseJob where
  x        : Nat
  e        : Nat
  deadline : Nat
  left     : Nat
  errs     : List Nat
  deriving DecidableEq, Repr

/-- The beam samples of one reference tick of a session as far as they are formed (R317), whether any was read with an
uncorrectable weight, and why the rest was not formed in the last tick that worked on it. -/
structure WagWork where
  x     : Nat
  k     : Nat
  vals  : List (Int × Int)
  bad   : Bool
  why   : List Nat
  deriving DecidableEq, Repr

/-- The waggle beamformer (chapter 12) beside the WAG registers. -/
structure Wag where
  ses   : List (Nat × WagSes)
  wt    : List (Nat × Nat)             -- weight store: bank × 2^24 + index
  geo   : List (Nat × Nat)             -- geometry store: bank × 2^22 + word
  jobs  : List PhaseJob
  work  : List WagWork
  fin   : List (Nat × Nat)             -- session and reference tick of the work delivered
  used  : List (Nat × Nat × Nat)       -- tick, session, CMAC-cycles of the grant used
  ending : List (Nat × WagSes) := []   -- sessions enabled again before their last blocks were formed (R327)
  deriving DecidableEq, Repr

/-- The stores hold 0 after reset, which the manual does not state: DESIGN CHOICE, log entry 10. -/
def Wag.reset : Wag := ⟨[], [], [], [], [], [], [], []⟩

/-- The registers of a worker that exist twice (R337): X0 to X7 and Y0 to Y7, A0 to A3, P0 to P7, SR. -/
structure WBank where
  xy : List Nat
  a  : List Int
  p  : List Nat
  sr : Nat
  deriving DecidableEq, Repr

/-- The delay slots that follow a branch (R347): slots left, the target of a taken branch, the branch's address, the
register code a BRX read, and whether it is an RTE. -/
structure WSlot where
  left   : Nat
  target : Option Nat
  from_  : Nat
  reads  : Option Nat
  rte    : Bool
  deriving DecidableEq, Repr

/-- A logical worker (R333 to R358) beside its registers of BAR0 and its memories. `cur` is the bank in use and `oth` the
other one; `loads` are loads not yet written (R345); `mrNext` is an MR write in its shadow (R348); `stack` is the repeat
stack, top first: passes remaining, first and last address (R349). -/
structure WCore where
  cur     : WBank
  oth     : WBank
  handler : Bool
  m       : List Nat
  l       : List Nat
  mr      : Nat
  mrNext  : Option Nat
  smr     : Nat
  rta     : Nat
  ecause  : Nat
  eaddr   : Nat
  stack   : List (Nat × Nat × Nat)
  cyc     : Nat
  pc      : Nat
  loads   : List (Nat × Nat)
  slot    : Option WSlot
  fresh   : Bool                       -- RTE has just returned: the instruction at RTA comes before any interrupt (R353)
  tTaken  : Bool                       -- the TIMER interrupt of this run has been taken
  wTaken  : Bool
  run     : Option Nat                 -- the tick whose run is in progress
  ran     : Option Nat                 -- the last tick served
  rs      : List Nat                   -- reasons of the run so far
  popped  : Option (Nat × Nat × Nat)   -- the entry whose pop left the repeat stack empty, since it was cleared
  again   : Bool                       -- enabled again while a run is in progress: the registers are cleared when it ends (R338)
  deriving DecidableEq, Repr

def WBank.reset : WBank := ⟨List.replicate 16 0, List.replicate 4 0, List.replicate 8 0, 0⟩

/-- A worker with every register and the repeat stack cleared (R338). -/
def WCore.reset : WCore :=
  ⟨WBank.reset, WBank.reset, false, List.replicate 8 0, List.replicate 8 0, 0, none, 0, 0, 0, 0, [], 0, 0, [], none, false,
   false, false, none, none, [], none, false⟩

/-- A result set (R361): logical worker, tick, RES0 to RES31, its reasons; whether its run could read replayed data (R13). -/
structure WSet where
  n     : Nat
  tick  : Nat
  words : List Nat
  rs    : List Nat
  rep   : Bool
  deriving DecidableEq, Repr

/-- The worker cores (chapter 13) beside the WRK registers. -/
structure Wrk where
  cores   : List WCore
  phys    : List Nat                   -- physical core of each logical worker (R333)
  pm      : List (Nat × Nat)           -- worker × 32,768 + address: 48 bits
  xm      : List (Nat × Nat)           -- worker × 65,536 + address: 24 bits
  ym      : List (Nat × Nat)
  winRs   : List (Nat × List Nat)      -- window × 2 + half: reasons of the data there (R363)
  errs    : List (Nat × Nat)           -- uncorrectable errors by physical core (R334)
  moves   : List (Nat × Nat × Nat)     -- logical worker, spare, words copied (R334)
  stopped : List Nat                   -- logical workers without a core (R335)
  sets    : List WSet                  -- results not yet collected
  recs    : List (Nat × List Byte)     -- result records that wait for room: tick, bytes (R362)
  winRep  : List Nat                   -- window × 2 + half: halves that hold replayed data (R13)
  interval : Option Nat                -- the tick of the last switch interval
  deriving DecidableEq, Repr

/-- The memories hold 0 after reset, which the manual does not state: DESIGN CHOICE, log entry 10. -/
def Wrk.reset : Wrk := ⟨List.replicate 64 WCore.reset, List.range 64, [], [], [], [], [], [], [], [], [], [], none⟩

/-- A source's report for one tick (R391): its source, report index, arrival, contributions (tick, sub) and reasons. The
arrival is 2 × tick, plus 1 once the evaluations of that tick have started. -/
structure TrgRep where
  src  : Nat
  idx  : Nat
  at_  : Nat
  cons : List (Nat × Nat)
  rs   : List Nat
  deriving DecidableEq, Repr

/-- A decision record (Table 15-3), with the tick and rank of its handing on (R399). -/
structure DecRec where
  kind   : Nat
  rs     : List Nat
  late   : Bool
  origin : Nat
  count  : Nat
  tick   : Nat
  sub    : Nat
  mask   : Nat
  number : Nat
  handed : Nat
  rank   : Nat
  deriving DecidableEq, Repr

/-- One digest entry held at a collector (R404, R405). -/
structure TrgDig where
  g    : Nat
  hive : Nat
  tick : Nat
  at_  : Nat
  fire : Option Nat
  rs   : List Nat
  late : Bool
  deriving DecidableEq, Repr

/-- Duplicate state of a slot, sender and message type (R403). -/
structure TrgDup where
  g    : Nat
  hive : Nat
  type : Nat
  a    : Nat
  ta   : Nat
  seen : List Nat
  deriving DecidableEq, Repr

/-- A global trigger as a collector evaluated it (R405): event tick, sub-tick, hives counted, anchor, number, reasons. -/
structure GlobTrig where
  tick  : Nat
  sub   : Nat
  hives : List Nat
  anchor : Nat
  tseq  : Nat
  rs    : List Nat
  late  : Bool
  deriving DecidableEq, Repr

/-- A trigger slot beside its registers (R401 to R408). -/
structure TrgSlot where
  seqs     : List Nat                  -- next SEQ of each message type
  evald    : List GlobTrig             -- global triggers evaluated, newest first
  lateTicks : Nat
  accepted : List (Nat × Nat × Nat × Nat) -- event tick, TSEQ, SUB, NHIVES of accepted triggers
  known    : Nat                       -- highest TSEQ known
  lastHb   : Nat                       -- tick of the last heartbeat received
  hbTick   : Nat                       -- its TICK
  hbSent   : Option Nat
  deriving DecidableEq, Repr

/-- The trigger unit and the sting beamformer (chapter 15) beside the TRG and STG registers. -/
structure Trg where
  reps     : List TrgRep
  lastEval : Option Nat                -- tick of the last condition evaluations
  lastColl : Option Nat
  evals    : List (Nat × Nat × Option Nat × List Nat × Bool) -- condition, event tick, sub of a fire, reasons, late
  decs     : List DecRec               -- records handed to the acquisition unit
  quarter  : List (Option Nat)         -- quarter of the last edge of each TRIG_IN
  sched    : List (Nat × Nat)          -- scheduled leading edges: output, instant in 0.25 ns
  busy     : List Nat                  -- end of each output's last pulse, 0.25 ns
  digs     : List TrgDig
  dups     : List TrgDup
  slots    : List TrgSlot
  beams    : List (Nat × Nat)          -- enabled sting beams with their first grid tick
  deriving DecidableEq, Repr

def TrgSlot.reset : TrgSlot := ⟨[0, 0, 0], [], 0, [], 0, 0, 0, none⟩
def Trg.reset : Trg :=
  ⟨[], none, none, [], [], List.replicate 8 none, [], List.replicate 8 0, [], [], List.replicate 8 TrgSlot.reset, []⟩

/-- A beam block as the BEAM tap delivers it (Table 16-1): waggle session, home tick, local channel, spectra, samples in
[spectrum][beam] order, flag reasons. -/
structure BeamTick where
  x    : Nat
  h    : Nat
  l    : Nat
  ns   : List Nat
  vals : List (Int × Int)
  rs   : List Nat
  deriving DecidableEq, Repr

/-- What a capture group records, as it was enabled (R415 to R417): tap, first member, members, slot size of each member,
segment length in ticks, waggle session of the BEAM tap, with its C_x and FMT. -/
structure AcqCfg where
  tap   : Nat
  first : Nat
  q     : List Nat
  st    : Nat
  wses  : Nat
  base  : Nat
  segBytes : Nat
  cx    : Nat
  fmt8  : Bool
  deriving DecidableEq, Repr

/-- A segment's ticks: segment, start tick s0, last tick once it is known (R422). -/
structure AcqSpan where
  seg  : Nat
  s0   : Nat
  last : Option Nat
  deriving DecidableEq, Repr

/-- An unreleased capture (R422, R423): event number, ticks, the tick e its segment stops after, the decision and the flags it
adds, LINK, DEAD and DROPPED of its record, whether it is sealed, and what its group recorded (R12). -/
structure AcqCap where
  ev     : Nat
  seg    : Nat
  first  : Nat
  last   : Nat
  e      : Nat
  dec    : DecRec
  rs     : List Nat
  late   : Bool
  link   : Nat
  dead   : Nat
  drop   : Nat
  sealed_ : Bool
  cfg    : AcqCfg
  deriving DecidableEq, Repr

/-- One tick in the ring: whether its data was written, the mark of each member (Table 16-2), the reasons of an abandonment. -/
structure AcqTick where
  k       : Nat
  written : Bool
  marks   : List Nat
  rs      : List Nat
  deriving DecidableEq, Repr

/-- A capture group (R415 to R427) beside its registers. Times of holds and dead intervals are in 0.25 ns. -/
structure AcqGrp where
  cfg    : AcqCfg
  spans  : List AcqSpan                -- newest first
  caps   : List AcqCap                 -- unreleased, newest first
  ticks  : List AcqTick                -- newest first
  dead   : Option Nat                  -- DEAD from this tick
  ivals  : List (Nat × Nat)            -- closed intervals of the dead set D (R427)
  cntAt  : Option Nat                  -- open interval of a COUNT hold-off
  prevTe : Nat                         -- t_p of R427: event time of the previous CAPTURE, or (START, 0)
  hold   : Option Nat                  -- event time of the last CAPTURE, once there is one
  holdCnt : Nat                        -- records the COUNT hold-off still misses
  prevCap : Option (Nat × Nat)         -- e′ and event number of the previous capture
  drop   : Nat                         -- records dropped since the last event record
  cur    : Nat × Nat                   -- tick and position of the next decision record to take
  taken  : Nat × Nat                   -- tick, and records taken in it
  rel    : List (Nat × Nat × Bool)     -- releases committed: segment, r, r was 0
  fresh  : List Nat                    -- segments freed with r = 0 and not captured in since
  off    : Bool                        -- EN was written 0 in this tick: OFF from the boundary (Table 16-3)
  deriving DecidableEq, Repr

/-- An event record that waits for its send: tick of emission, whether it is a CAPTURE, group, event number, session, bytes. -/
structure AcqRec where
  tick  : Nat
  cap   : Bool
  c     : Nat
  ev    : Nat
  x     : Nat
  bytes : List Byte
  deriving DecidableEq, Repr

/-- The acquisition unit (chapter 16) beside the ACQ registers. -/
structure Acq where
  native : List NativeTick             -- native ticks as the NATIVE tap delivers them, newest first
  beams  : List BeamTick               -- beam blocks, newest first
  grps   : List (Nat × AcqGrp)
  recs   : List AcqRec
  evtSeq : Nat                         -- sends of the event stream
  chgLast : Option Nat                 -- last tick whose change records are written
  chgLost : Nat                        -- change records lost since the last one written
  histLast : Option Nat
  replay : List (Nat × Nat × Nat × Nat) -- active replays: session, group, event, next tick
  deriving DecidableEq, Repr

def AcqCfg.reset : AcqCfg := ⟨0, 0, [], 1, 0, 0, 0, 0, false⟩
def AcqGrp.reset : AcqGrp := ⟨AcqCfg.reset, [], [], [], none, [], none, 0, none, 0, none, 0, (0, 0), (0, 0), [], [], false⟩
def Acq.reset : Acq := ⟨[], [], [], [], 0, none, 0, none, []⟩

/-- The DDR5 controller (chapter 17) beside the DDR registers. -/
structure Ddr where
  mem    : List (Nat × Byte)           -- the devices' contents, by DDR address
  bad    : List Nat                    -- lines stored as uncorrectable
  wq     : List (Nat × List (Nat × Byte)) -- write queue, oldest first: line, its masked bytes by offset (R452)
  drain  : Bool                        -- writes have precedence until 32 entries remain (R452)
  queue  : List DdrReq                 -- requests accepted, not yet granted
  served : List (Nat × Nat)            -- bytes granted to each client in the tick in progress (R450)
  reply  : List (Nat × Nat × List Byte × Bool) -- reads answered, newest first: client, address, bytes, uncorrectable
  late   : List (Nat × Nat)            -- refreshes postponed in a row, by rank 2c + r of channel c (R455)
  scrub  : Nat                         -- next line of the patrol scrub (R456)
  deriving DecidableEq, Repr

/-- DDR memory after power-on holds no stated value: DESIGN CHOICE 0, log entry 12. -/
def Ddr.reset : Ddr := ⟨[], [], [], false, [], [], [], [], 0⟩

/-- A unit a producer delivers to a STREAM channel (R470): the product it is, its session, the tick it was handed on in. -/
structure FdmUnit where
  ch    : Nat
  kind  : FrameKind
  src   : Nat
  age   : Nat
  bytes : List Byte
  deriving DecidableEq, Repr

/-- What an unwritten word of the MSI-X table reads as: the vector control word (index 3 of an entry) has its mask bit
at 1, the other words are 0. PRESUMED: the reset values of the PCI Express Base Specification, log entry 7. -/
def msixReset (i : Nat) : Nat := if i % 4 = 3 then 1 else 0

/-- The MSI-X table, four words per vector, and its pending bits (R464); the endpoint is held in reset by PERST_L (R568). -/
structure Pci where
  msix : List (Nat × Nat)
  pba  : List (Nat × Nat)
  held : Bool
  deriving DecidableEq, Repr

/-- PCIe endpoint after power-on reset: PERST_L is low until it goes high. -/
def Pci.reset : Pci := ⟨[], [], true⟩

/-- A descriptor a forager channel has fetched (R467 to R469): its ring index, CTRL, host and DDR address, the code its check
gave, its elements, the elements counted, the bytes counted, FAIL_IDX; `known` is false where the fetch itself failed; the bytes of the element in
progress that beats have moved, and whether one of them was uncorrectable (R471). -/
structure FdmDesc where
  idx   : Nat
  ctrl  : Nat
  host  : Nat
  ddr   : Nat
  code  : Nat
  els   : List (Nat × Nat)
  done  : Nat
  bytes : Nat
  fail  : Nat
  known : Bool
  part  : Nat
  uncorr : Bool
  deriving DecidableEq, Repr

/-- The forager (R465 to R476) beside the FDM registers: the descriptors each channel holds, first in progress; the
channels promoted for one grant (R472); the beats each STREAM channel was granted of the unit in front (R471). -/
structure Fdm where
  pre  : List (List FdmDesc)
  prom : List Nat
  got  : List (Nat × Nat)
  deriving DecidableEq, Repr

def Fdm.reset : Fdm := ⟨List.replicate 32 [], [], []⟩

/-- The propolis seal's pass in progress (R508 to R511): has an agent written a sealed register since it began; did it begin
with COMMIT_PENDING at 1, so that it is adopted. -/
structure Seal where
  dirty : Bool
  adopt : Bool
  deriving DecidableEq, Repr

/-- A packet in a command queue (R483): where it entered, its bytes. -/
structure Pkt where
  via   : Via
  bytes : List Byte
  deriving DecidableEq, Repr

/-- A cached reply (R482): SEQ, TAG of the command, the reply where its PLEN is at most 1,024. -/
structure Cached where
  seq   : Nat
  tag   : List Byte
  reply : Option (List Byte)
  deriving DecidableEq, Repr

/-- The reply cache of one (source, key) pair; newest reply first. -/
structure CachePair where
  src  : List Nat
  key  : Nat
  ents : List Cached
  deriving DecidableEq, Repr

/-- What an admitted command changes at its effective tick (R55, R58): a session's fields, register images and quotas; a removal; the
reference mode; the budget; a trigger slot's register images; the sessions whose next product is CONFIG_UNTIMED (R56). -/
inductive Change where
  | setSes (x : Nat) (regs : List (Nat × Nat))
  | remove (x : Nat)
  | refMode (img : Nat)
  | budget (mw : Nat)
  | trigSlot (g : Nat) (regs : List (Nat × Nat))
  | mark (xs : List Nat)
  deriving DecidableEq, Repr

/-- An admitted change not yet in force. -/
structure Pend where
  tick    : Nat
  untimed : Bool
  what    : Change
  deriving DecidableEq, Repr

/-- A gather or scatter in execution (R484, R490): its packet, the elements done, the values read, H of its
key before it. -/
structure RegRun where
  pkt   : Pkt
  done  : Nat
  vals  : List Nat
  h0    : Nat
  deriving DecidableEq, Repr

/-- An episode of R525: session, reason, products flagged. -/
structure Episode where
  x     : Nat
  why   : Nat
  count : Nat
  deriving DecidableEq, Repr

/-- The command sequencer (chapters 19 and 21) beside the CMD registers. -/
structure Cmd where
  ordQ   : List Pkt
  urgQ   : List Pkt
  prod   : List Nat                    -- producer index of each ring (R480)
  keys   : List (Nat × List Byte)      -- key of each loaded slot, 0 to 67 (R518)
  seen   : List (Nat × List Nat)       -- SEQs accepted within 64 of H, by key (R481)
  cache  : List CachePair              -- the pair whose last command executed most recently first
  audit  : List (List Byte)            -- audit entries, oldest first (R527)
  pend   : List Pend                   -- admitted changes in the order admitted
  ended  : List Nat                    -- REMOVING sessions whose last object stopped in an earlier tick (R515)
  run    : Option RegRun
  eps    : List Episode                -- open episodes
  deriving DecidableEq, Repr

def Cmd.reset : Cmd := ⟨[], [], List.replicate 64 0, [], [], [], [], [], [], none, []⟩

/-- The power arbiter (chapter 22) beside the PWR registers. Energies are in pJ. -/
structure Pwr where
  cool  : Nat                          -- consecutive ticks with T_j below T_C − HYST
  meas  : Nat                          -- R_meas, mW
  left  : Nat                          -- ticks it still holds for
  spent : Nat                          -- energy granted in rows 2 to 5 in the last tick (R539)
  idle  : List (Nat × Nat)             -- ticks in a row without a grant, by unreserved class C session (R538)
  held  : List (Nat × Nat)             -- session and reason of the work withheld in the tick in progress
  sampled : Option Nat                 -- microsecond count at the last temperature sample, rail reading and step of R_th (R540, R543)
  railed  : Option Nat
  stepped : Option Nat
  deriving DecidableEq, Repr

def Pwr.reset : Pwr := ⟨0, 0, 0, 0, [], [], none, none, none⟩

/-- An entry of the boot image (Table 24-5). -/
inductive BootEntry where
  | packet (b : List Byte)
  | wait (cond ms : Nat)
  | stop
  deriving DecidableEq, Repr

/-- A line of the monitor (Table 24-7). -/
inductive MonLine where
  | help | ident | status | health | logout | resetWarm | bad
  | login (role slot : Nat)
  | response (b : List Byte)
  | pkt (b : List Byte)
  | baud (n : Nat)
  deriving DecidableEq, Repr

/-- Bring-up, the boot image and the monitor (chapter 24) beside the MON registers. `held` is the power-on reset in progress;
slots are numbered 0 to 69 as CMD_KEYk is. -/
structure Mon where
  held   : Bool
  trip   : Bool                        -- THERMTRIP_L is low (R544, R588)
  image  : List BootEntry              -- entries not yet begun, the first being the one in execution
  busy   : Bool                        -- a PACKET entry waits for its reply
  since  : Nat                         -- microsecond count when the entry in execution began (R574)
  chal   : Option (Nat × List Byte)    -- challenge sent to a login of a slot
  login  : Option Nat                  -- slot logged in
  wrong  : Nat                         -- wrong responses in a row
  locked : Bool
  lockAt : Nat                         -- microsecond count at the third wrong response, and at the last input (R578)
  inAt   : Nat
  health : List Byte                   -- the monitor's copy of the latest health report
  wait   : Bool                        -- a `pkt` waits for its reply
  pkt    : Option (List Byte)          -- its packet, while the queue is full (R483)
  lines  : List MonLine                -- lines queued behind it (R577)
  otp    : List (Nat × Nat)            -- OTP words programmed in the field (Table 21-9)
  revoked : List Nat                   -- maker slots revoked in OTP (R520)
  deriving DecidableEq, Repr

def Mon.reset : Mon := ⟨true, false, [], false, 0, none, none, 0, false, 0, 0, [], false, none, [], [], []⟩

/-- The keepers (chapter 23) beside the KPR registers. The mirrored state is one copy here: both keepers hold it equal
at every command boundary (R551, log entry 9). -/
structure Kpr where
  gap       : Bool                     -- a keeper gap runs: the outputs of R556 are held
  gapAt     : Int                      -- the instant it began, 0.25 ns
  takeAt    : Option Nat               -- microsecond count at whose boundary the STANDBY keeper takes control (R555)
  swCause   : Nat × Nat                -- cause of the fault and faulted keeper of the switchover in progress
  swTick    : Nat                      -- tick of that fault
  planned   : Bool                     -- KEEPER_SWITCH passes control at the next tick boundary (R557)
  revertTo  : Option Nat               -- keeper that lost control through an unplanned switchover (R558)
  faults    : List (Nat × Nat)         -- (keeper, microsecond count) of each fault (R560)
  orphan    : Bool                     -- R561
  orphanAt  : Nat                      -- microsecond count when the hive became ORPHAN (R567)
  moves     : List (Nat × Nat)         -- keepers whose new state takes effect at the next tick boundary (R549)
  recSeq    : Nat                      -- sequence number of the last mirror record (R552)
  recWait   : Bool                     -- a mirror record waits for its acknowledgement (R551)
  recAt     : Nat                      -- microsecond count when it was sent
  dirty     : Bool                     -- the keeper that is not ACTIVE was not clean in this second (R552)
  badTick   : Bool                     -- the tick in progress is unavailable (R546)
  gapSec    : Bool                     -- the rest: the second in progress, for the health report (Table 23-7)
  flagsSec  : List Nat                 -- reasons of the products, and LATE
  lateSec   : Bool
  tempSec   : Int
  thermSec  : Nat
  faultSec  : Nat
  rebuildSec : Nat
  lostSec   : Nat
  degSec    : List Nat
  measSum   : Nat
  measCnt   : Nat
  unavail0  : Nat
  heldState : Nat                      -- MON_STATE as the held STATUS pins show it (R556)
  counters0 : List Nat
  repAt     : Nat                      -- microsecond count at the last health report
  deriving DecidableEq, Repr

/-- The keepers after power-on reset (R549). -/
def Kpr.reset : Kpr :=
  ⟨false, 0, none, (0, 0), 0, false, none, [], false, 0, [], 0, false, 0, false, false, false, [], false, 0, 0, 0, 0, 0, [], 0, 0, 0, 0, [], 0⟩

/-- The state of the part. -/
structure State where
  /-- The registers that differ from their reset values, by BAR0 offset (R493). -/
  regs : List (Nat × BitVec 32)
  /-- Hive time and PTP, chapter 03. -/
  tim : Tim
  /-- Reference selection, chapter 04. -/
  clk : Clk
  /-- Nectar links, chapter 05. -/
  nec : Nec
  /-- Ingest conditioning, chapter 06. -/
  ing : Ing
  /-- The channeliser, chapter 07. -/
  chn : Chn
  /-- Ethernet ports, chapter 08. -/
  eth : Eth
  /-- Corner turn and brood memory, chapter 09. -/
  ctn : Ctn
  /-- The combs, chapter 10. -/
  cmb : Cmb
  /-- The grants of the tick in progress (R537). -/
  grants : List Grant
  /-- The supers and the honey drain, chapter 11. -/
  sup : Sup
  /-- The waggle beamformer, chapter 12. -/
  wag : Wag
  /-- The worker cores, chapters 13 and 14. -/
  wrk : Wrk
  /-- The trigger unit and the sting beamformer, chapter 15. -/
  trg : Trg
  /-- The acquisition unit, chapter 16. -/
  acq : Acq
  /-- The DDR5 controller, chapter 17. -/
  ddr : Ddr
  /-- Units that wait for a STREAM channel (R470). -/
  units : List FdmUnit
  /-- The MSI-X table and pending bits, chapter 18. -/
  pci : Pci
  /-- The forager, chapter 18. -/
  fdm : Fdm
  /-- The keepers, chapter 23. -/
  kpr : Kpr
  /-- The propolis seal, chapter 20. -/
  pass : Seal
  /-- The command sequencer, chapters 19 and 21. -/
  cmd : Cmd
  /-- The power arbiter, chapter 22. -/
  pwr : Pwr
  /-- Bring-up and the monitor, chapter 24. -/
  mon : Mon
  /-- Sessions whose next product is CONFIG_UNTIMED (R56). -/
  untimed : List Nat
  /-- The DEGRADED reasons of the products flagged since the last tick boundary, each with its session (R54, R525). -/
  degraded : List (Nat × Nat)
  /-- The tick in which the EN bit of a block last changed, by block (R607). -/
  enAt : List (Nat × Nat)
  /-- What has left the part, newest first; the model's own record. -/
  out : List Out
  /-- The counter the free values are drawn with; the model's own field, log entry 2. -/
  freeCtr : Nat
  /-- The commands that wait, first in, first out; the model's own field, log entry 1. -/
  pending : List Instr
  deriving DecidableEq, Repr

/-- The part after power-on reset: every register at its reset value (R9), every buffer and queue empty. -/
def State.reset : State where
  regs := []
  tim := Tim.reset
  clk := Clk.reset
  nec := Nec.reset
  ing := Ing.reset
  chn := Chn.reset
  eth := Eth.reset
  ctn := Ctn.reset
  cmb := Cmb.reset
  grants := []
  sup := Sup.reset
  wag := Wag.reset
  wrk := Wrk.reset
  trg := Trg.reset
  acq := Acq.reset
  ddr := Ddr.reset
  units := []
  pci := Pci.reset
  fdm := Fdm.reset
  kpr := Kpr.reset
  pass := ⟨false, false⟩
  cmd := Cmd.reset
  pwr := Pwr.reset
  mon := Mon.reset
  untimed := []
  degraded := []
  enAt := []
  out := []
  freeCtr := 0
  pending := []

end Sys2Proof.Machine
end

