-- ==== Sys2Proof/Machine/Ops.lean ====
section
/-!
DEFINITION. The named operations every meaning is written with: registers and their fields, flags and block interrupts
(R498, R504, R505), counters, free values, what leaves the part, and the tick in progress.
-/
namespace Sys2Proof.Machine

/-- A meaning's outcome. -/
abbrev Res := Host.Outcome State Fault Refusal

/-! ### Registers -/

/-- The contents of the register at BAR0 offset `a`. -/
def State.rd (s : State) (a : Nat) : Nat := (spGet resetVal s.regs a).toNat

/-- The state with the register at `a` holding `v`. -/
def State.wr (s : State) (a v : Nat) : State := { s with regs := spSet resetVal s.regs a (BitVec.ofNat 32 v) }

/-- Field `f` of the register at `a`. -/
def State.fd (s : State) (a : Nat) (f : Fld) : Nat := bitsOf (s.rd a) f.hi f.lo

/-- Bit `i` of the register at `a`, as 0 or 1. -/
def State.bit (s : State) (a i : Nat) : Nat := bitOf (s.rd a) i

/-- The state with field `f` of the register at `a` set to `v`. -/
def State.setFd (s : State) (a : Nat) (f : Fld) (v : Nat) : State := s.wr a (setBits (s.rd a) f.hi f.lo v)

/-- The state with bit `i` of the register at `a` set to `b`. -/
def State.setBit (s : State) (a i : Nat) (b : Bool) : State := s.wr a (setBits (s.rd a) i i (if b then 1 else 0))

/-- The 64-bit value of a register pair. -/
def State.rd64 (s : State) (lo hi : Nat) : Nat := s.rd lo + s.rd hi * 2 ^ 32

/-- A register pair set to a 64-bit value. -/
def State.wr64 (s : State) (lo hi v : Nat) : State := (s.wr lo (v % 2 ^ 32)).wr hi (v / 2 ^ 32 % 2 ^ 32)

/-- A counter register increased by `n`; counters wrap at 2^32. -/
def State.count (s : State) (a n : Nat) : State := s.wr a (s.rd a + n)

/-- The bit of Table 20-2 of the domain block `b` lies in (Table 20-1); for the keeper blocks that of the ACTIVE keeper. -/
def State.blockDomain (s : State) (b : Nat) : Nat :=
  match b with
  | 1 | 2 | 18 => 1 + s.bit KPR_STATUS 31
  | 3 | 4 | 14 => 3
  | 5 | 6 | 7 => 4
  | 8 | 11 => 5
  | 9 => 6
  | 10 => 7
  | 12 => 8
  | 13 => 9
  | 15 => 10
  | 17 | 20 => 11
  | _ => 0

/-- Block `b` works: its domain's clock runs (R503, R544) and its EN bit is 1. GLB and PCI have no EN bit (R494, R500). -/
def State.blockOn (s : State) (b : Nat) : Bool :=
  s.bit GLB_DOMAINS (s.blockDomain b) == 1 && (b == 0 || b == 20 || s.bit (b * 0x100000) 0 == 1)

/-- The tick in which block `b` was last enabled or disabled (R607). -/
def State.enTick (s : State) (b : Nat) : Nat := spGet zeroNat s.enAt b

/-- Block `b` does the work of tick `k`: it is on and was enabled by then (R607). -/
def State.worksOn (s : State) (b k : Nat) : Bool := s.blockOn b && s.enTick b ≤ k

/-- A write of the control register at `a`, which held `old`: EN is noted where it changed. -/
def State.noteEn (s : State) (a old t : Nat) : State :=
  if a % 0x100000 = 0 && bitOf old 0 != s.bit a 0 then { s with enAt := spSet zeroNat s.enAt (a / 0x100000) t } else s

/-! ### Free values, time, what leaves -/

/-- A fresh free value and the state whose counter has advanced (log entry 2). -/
def State.free (s : State) : Nat × State := (Config.freeValue s.freeCtr, { s with freeCtr := s.freeCtr + 1 })

/-- The part puts `o` out. -/
def State.emit (s : State) (o : Out) : State := { s with out := o :: s.out }

/-- Number of the tick in progress: that of the last strobe (R606); 0 before the first. -/
def State.tick (s : State) : Nat := s.tim.lastTick.getD 0

/-- Has tick k begun (R606)? -/
def State.begun (s : State) (k : Nat) : Bool :=
  match s.tim.lastTick with
  | none => false
  | some t => k ≤ t

/-- TIME_VALID (R68). -/
def State.timeValid (s : State) : Bool := s.bit TIM_STATUS 0 == 1

/-! ### Interrupts (R504 to R506) -/

/-- Some W1C flag of `flags` is 1 while its enable bit of `enables`, `shift` places up, is 1. -/
def State.flagged (s : State) (flag enable shift : Nat) : Bool :=
  Nat.land (s.rd flag) (s.rd enable / 2 ^ shift) != 0

/-- The flag registers of block `b` with their enable registers, as the block's INT_EN table states (R504). -/
def State.flagsUp (s : State) (b : Nat) : Bool :=
  match b with
  | 0 => s.flagged GLB_ERR GLB_INT_EN 0
  | 1 => s.flagged KPR_ERR KPR_INT_EN 0
  | 2 => s.flagged PWR_ERR PWR_INT_EN 0
  | 3 => s.flagged CLK_HIST CLK_INT_EN 0
  | 4 => s.rd TIM_HIST != 0
  | 5 => (List.range 16).any (fun n => Nat.land (s.rd (NEC_BUNDLEb_HIST n)) (s.rd NEC_INT_EN % 256) != 0)
         || s.flagged NEC_ERR NEC_INT_EN 16
  | 6 => s.flagged ING_ERR ING_INT_EN 0
  | 7 => s.flagged CHN_ERR CHN_INT_EN 0
  | 8 => s.flagged CTN_ERR CTN_INT_EN 0
  | 9 => (List.range 32).any (fun n => Nat.land (s.rd (ETHn_HIST n)) (s.rd ETH_INT_EN % 128) != 0)
         || s.flagged ETH_ERR ETH_INT_EN 16
  | 10 => s.flagged CMB_ERR CMB_INT_EN 0
  | 11 => s.flagged SUP_ERR SUP_INT_EN 0
  | 12 => s.flagged WAG_ERR WAG_INT_EN 0
  | 13 => s.flagged WRK_ERR WRK_INT_EN 0
  | 14 => Nat.land (s.rd TRG_ERR) (s.rd TRG_INT_EN % 256) != 0 || s.flagged STG_ERR TRG_INT_EN 16
  | 15 => s.flagged ACQ_ERR ACQ_INT_EN 0
  | 16 => s.flagged DDR_ERR DDR_INT_EN 0
  | 17 => s.flagged FDM_ERR FDM_INT_EN 0
  | 18 => s.flagged CMD_ERR CMD_INT_EN 0
  | 19 => s.flagged MON_ERR MON_INT_EN 0
  | 20 => s.flagged PCI_ERR PCI_INT_EN 0
  | _ => false

/-- The interrupt of block `b` is asserted (R504). -/
def State.irq (s : State) (b : Nat) : Bool := s.flagsUp b || s.bit GLB_FAULT b == 1

/-- Block `b` drives ALARM_L (R506). -/
def State.alarms (s : State) (b : Nat) : Bool := s.irq b && s.bit (GLB_INT_MAPb b) 31 == 1

/-- Sends the MSI-X message of vector `v`, or sets its pending bit while it is masked (R464). A message is a request: while
Bus Master Enable is 0 it is suppressed and BME_OFF is set (Table of PCI_ERR; log entry 26). -/
def State.sendVec (s : State) (v : Nat) : State :=
  if spGet msixReset s.pci.msix (v * 4 + 3) % 2 = 1 then
    { s with pci := { s.pci with pba := spSet zeroNat s.pci.pba v 1 } }
  else if s.bit PCI_STATUS 11 = 0 then s.setBit PCI_ERR 3 true
  else s.emit (.msix v)

/-- Sends the message of block `b`'s interrupt (R504). -/
def State.sendIrq (s : State) (b : Nat) : State := s.sendVec (s.fd (GLB_INT_MAPb b) GLB_INT_MAPb_VEC)

/-- Sends block `b`'s message if its interrupt went from 0 in `s0` to 1 in `s` (R504). -/
def State.noteRise (s0 s : State) (b : Nat) : State := if !s0.irq b && s.irq b then s.sendIrq b else s

/-- Hardware sets bit `i` of the W1C register at `a` (R498, R504). -/
def State.flag (s : State) (a i : Nat) : State := s.noteRise (s.setBit a i true) (a / 0x100000)

/-- Block `b` raises its fault interrupt (R505). -/
def State.fault (s : State) (b : Nat) : State :=
  let t := { s with kpr := { s.kpr with faultSec := Nat.lor s.kpr.faultSec (2 ^ b) } }
  s.noteRise (t.setBit GLB_FAULT b true) b

/-! ### Start-up state (R570, R571) -/

/-- The conditions of steps 4 to 8 of Table 24-3 as the registers show them now, as MON_STATE bits. Steps 7 and 8 need their
block enabled and at least one bundle or port enabled. -/
def State.stepsNow (s : State) : Nat :=
  let bundles := (List.range 16).filter (fun b => s.bit (NEC_BUNDLEb_CFG b) 0 == 1)
  let ports := (List.range 32).filter (fun n => s.bit (ETHn_CFG n) 0 == 1)
  let put (b : Bool) (n : Nat) : Nat := if b then 2 ^ n else 0
  put (s.bit DDR_STATUS 31 == 1) 3 + put s.timeValid 4 + put (s.fd CLK_STATUS CLK_STATUS_STATE == 2) 5
  + put (s.blockOn 5 && !bundles.isEmpty && bundles.all (fun b => s.bit (NEC_BUNDLEb_STATUS b) 31 == 1)) 6
  + put (s.blockOn 9 && !ports.isEmpty && ports.all (fun n => s.bit (ETHn_STATUS n) 0 == 1)) 7

/-- R571: READY is 1 while every bit of the mask is 1. -/
def State.showReady (s : State) : State :=
  let m := s.rd MON_READY_MASK % 512
  s.setBit MON_STATE 15 (Nat.land m (s.rd MON_STATE) == m)

/-- A step sets its bit when its condition first holds (R570). -/
def State.monLatch (s : State) : State :=
  (s.wr MON_STATE (Nat.lor (s.rd MON_STATE) s.stepsNow)).showReady

/-- Changes under `c`, else not. -/
def State.when (s : State) (c : Bool) (f : State → State) : State := if c then f s else s

/-- Folds `f` over a list. -/
def State.each {α : Type} (s : State) (l : List α) (f : State → α → State) : State := l.foldl f s

end Sys2Proof.Machine
end

