-- ==== Sys2Proof/Machine/Flags.lean ====
section
/-!
DEFINITION. The product flag word (R52, R53, Tables 2-6 and 2-7): a product's reasons, the word they form, and the marks
that a change of configuration without an effective tick leaves for the next product of a session (R56).
-/
namespace Sys2Proof.Machine

/-! ### Reason codes of Table 2-7 -/

abbrev rBroodAbsent : Nat := 0x01
abbrev rMemUncorr : Nat := 0x02
abbrev rWorkerOverrun : Nat := 0x03
abbrev rCycleRead : Nat := 0x04
abbrev rTickAbandoned : Nat := 0x05
abbrev rTimeStep : Nat := 0x06
abbrev rUntimed : Nat := 0x07
abbrev rTriggerLate : Nat := 0x08
abbrev rWitness : Nat := 0x10
abbrev rPowerBudget : Nat := 0x20
abbrev rThermal : Nat := 0x21
abbrev rClass : Nat := 0x22
abbrev rSpare : Nat := 0x23

/-- The flag bit a reason belongs to: DEGRADED 15, SUSPECT 14, TIMING_DEPENDENT 13. -/
def reasonBit (r : Nat) : Nat := if r ≥ 0x20 then 15 else if r = 0x10 then 14 else 13

/-- The lowest of a list of codes; 0 for none. -/
def lowest : List Nat → Nat
  | [] => 0
  | a :: t => t.foldl min a

/-- The 16-bit product flag word (R52, R53): every bit whose condition failed; REASON the lowest code of the highest
set bit among 15 to 13. -/
def flagWord (rs : List Nat) (late : Bool) : Nat :=
  let on (b : Nat) : Bool := rs.any (fun r => reasonBit r == b)
  let top := if on 15 then 15 else if on 14 then 14 else 13
  (if on 15 then 2 ^ 15 else 0) + (if on 14 then 2 ^ 14 else 0) + (if on 13 then 2 ^ 13 else 0)
  + (if late then 2 ^ 12 else 0) + lowest (rs.filter (fun r => reasonBit r == top))

/-- The reasons a flag word received from another hive stands for: its REASON, and for a lower flag bit whose own reason the
word does not name, the bit alone (0x1F stands for TIMING_DEPENDENT, R53). -/
def wordReasons (w : Nat) : List Nat :=
  let r := w % 256
  let top := if r = 0 then [] else [r]
  top ++ (if bitOf w 14 = 1 && r ≠ 0x10 then [0x10] else []) ++ (if bitOf w 13 = 1 && (r = 0 || reasonBit r ≠ 13) then [0x1F] else [])

/-- The union of two reason lists. -/
def addReasons (a b : List Nat) : List Nat := b.foldl addNew a

/-- The reason an absence cause of R143 gives a product formed from the samples of this hive (R167). -/
def causeReason : NecCause → List Nat
  | .none => []
  | .stepped => [rTimeStep]
  | .laneLost => [rSpare]
  | _ => [rBroodAbsent]

/-- R56: the next product of session x is CONFIG_UNTIMED. -/
def State.markUntimed (s : State) (x : Nat) : State := { s with untimed := addNew s.untimed x }

/-- Takes the CONFIG_UNTIMED mark of session x, if there is one, for the product now formed. -/
def State.takeUntimed (s : State) (x : Nat) : List Nat × State :=
  if s.untimed.contains x then ([rUntimed], { s with untimed := s.untimed.filter (· != x) }) else ([], s)

/-- Notes the flag word of a product for the health report's union of the second (Table 23-7). -/
def State.noteFlags (s : State) (rs : List Nat) (late : Bool) : State :=
  { s with kpr := { s.kpr with flagsSec := addReasons s.kpr.flagsSec rs, lateSec := s.kpr.lateSec || late } }

/-- Notes the reasons of a product of session x, with its bytes sent or not, for the owner events of the power arbiter
(R54, R526) and the health report's union of the flags of the second (Table 23-7). -/
def State.noteProduct (s : State) (x : Nat) (rs : List Nat) : State :=
  let s := s.noteFlags rs false
  { s with degraded := rs.foldl (fun l r => if reasonBit r = 15 then l ++ [(x, r)] else l) s.degraded }

/-! ### Work given up (R43, R44) -/

/-- What is left for a cause that R44 does not list raises the block's fault interrupt and makes the tick unavailable (R44, R546). -/
def raiseFault (b : Nat) (r : State × Bool) : State :=
  if r.2 then { r.1.fault b with kpr := { (r.1.fault b).kpr with badTick := true } } else r.1

/-! ### Session classes and grants (R512, R537) -/

/-- Class of session x: 0 A, 1 B, 2 C; its reservation and replay bits. -/
def State.sesClass (s : State) (x : Nat) : Nat := s.fd (CMD_SESx_CFG x) ⟨5, 4⟩

/-- The ACTIVE sessions. -/
def State.activeSes (s : State) : List Nat := (List.range 1024).filter (fun x => bitsOf (s.rd (CMD_SESx_CFG x)) 31 30 == 1)

/-- A class A or class B session is ACTIVE: the tick in progress is an operating tick (R545). -/
def State.operating (s : State) : Bool := s.activeSes.any (fun x => s.sesClass x < 2)

def State.sesRsv (s : State) (x : Nat) : Bool := s.bit (CMD_SESx_CFG x) 0 == 1
def State.sesReplay (s : State) (x : Nat) : Bool := s.bit (CMD_SESx_CFG x) 1 == 1

/-- Order of R263: A, B, reserved C, other C. -/
def State.classRank (s : State) (x : Nat) : Nat := if s.sesClass x = 2 && !s.sesRsv x then 3 else s.sesClass x

/-- The sum of Table 1-4 runs over session x (R22). -/
def State.sesCounts (s : State) (x : Nat) : Bool := s.classRank x < 3

/-- R541: the reasons of what is withheld of `want` items when `got` are granted, and `cool` would be without thermal control. -/
def withheldReasons (got cool want : Nat) : List Nat :=
  (if got < min cool want then [rThermal] else []) ++ (if max got cool < want then [rPowerBudget] else [])

def Grant.reasons (g : Grant) : List Nat := withheldReasons g.got g.cool g.want

/-- Items granted to session x on a unit for the tick in progress, and those that would be without thermal control. What is not listed is granted
whole. -/
def State.granted (s : State) (unit x want : Nat) : Nat × Nat :=
  match s.grants.find? (fun g => g.x == x && g.unit == unit) with
  | some g => if g.want ≤ g.got then (want, want) else (g.got, g.cool)
  | none => (want, want)

/-- Why session x lacks items of a unit in the tick in progress: nothing where it lacks none. -/
def State.heldReasons (s : State) (unit x : Nat) : List Nat :=
  match s.grants.find? (fun g => g.x == x && g.unit == unit) with
  | some g => g.reasons
  | none => []

end Sys2Proof.Machine
end

