-- ==== Sys2Proof/Machine/Hash.lean ====
section
/-!
DEFINITION. The check and hash functions the chapters name: CRC-8 of the nectar marker (R123), CRC-32C (R140), the
PRBS31 scrambler (R124), SHA-256 and HMAC-SHA-256 (R478, R529; FIPS 180-4, RFC 2104), and conversions between numbers
and bytes in both orders (R8).
-/
namespace Sys2Proof.Machine

/-! ### Bytes -/

/-- `n` as `k` bytes, most significant first. -/
def toBE (k n : Nat) : List Byte := (List.range k).reverse.map (fun i => BitVec.ofNat 8 (n / 256 ^ i))

/-- `n` as `k` bytes, least significant first. -/
def toLE (k n : Nat) : List Byte := (List.range k).map (fun i => BitVec.ofNat 8 (n / 256 ^ i))

/-- The number a list of bytes spells, most significant first. -/
def ofBE (l : List Byte) : Nat := l.foldl (fun a b => a * 256 + b.toNat) 0

/-- The number a list of bytes spells, least significant first. -/
def ofLE (l : List Byte) : Nat := l.foldr (fun b a => a * 256 + b.toNat) 0

/-- Bytes [i, i + k) of a list; bytes past its end read as 0. -/
def slice (l : List Byte) (i k : Nat) : List Byte :=
  let t := (l.drop i).take k
  t ++ List.replicate (k - t.length) 0

/-- The big-endian number in bytes [i, i + k). -/
def beAt (l : List Byte) (i k : Nat) : Nat := ofBE (slice l i k)

/-- The little-endian number in bytes [i, i + k). -/
def leAt (l : List Byte) (i k : Nat) : Nat := ofLE (slice l i k)

/-! ### CRC-8, CRC-32C, PRBS31 -/

/-- R123: CRC-8 over marker bits [55:0]. -/
def crc8 (m : Nat) : Nat :=
  (List.range 56).foldl (fun crc i =>
    let fb := Nat.xor (crc / 128) (bitOf m i) % 2
    let c := crc * 2 % 256
    if fb = 1 then Nat.xor c 7 else c) 0xFF

/-- One bit of the reflected CRC-32C: 0x82F6_3B78 is 0x1EDC_6F41 reversed. -/
def crc32cBit (c : BitVec 32) : BitVec 32 := if c.getLsbD 0 then (c >>> 1) ^^^ 0x82F63B78 else c >>> 1

/-- One byte of CRC-32C. -/
def crc32cByte (c : BitVec 32) (b : Byte) : BitVec 32 :=
  crc32cBit (crc32cBit (crc32cBit (crc32cBit (crc32cBit (crc32cBit (crc32cBit (crc32cBit (c ^^^ b.setWidth 32))))))))

/-- R140: CRC-32C of a byte string. -/
def crc32c (l : List Byte) : BitVec 32 := (l.foldl crc32cByte 0xFFFFFFFF) ^^^ 0xFFFFFFFF

/-- One step of the PRBS31 scrambler of R124: the key bit and the next state. -/
def prbsStep (s : BitVec 31) : Bool × BitVec 31 :=
  let k := s.getLsbD 30 != s.getLsbD 27
  (k, (s <<< 1) ||| (if k then 1 else 0))

/-- The scrambler state after `n` steps. -/
def prbsAfter : Nat → BitVec 31 → BitVec 31
  | 0, s => s
  | n + 1, s => prbsAfter n (prbsStep s).2

/-- The next `n` key bits as a number, the first the least significant. -/
def prbsKey : Nat → BitVec 31 → Nat
  | 0, _ => 0
  | n + 1, s => let r := prbsStep s; (if r.1 then 1 else 0) + 2 * prbsKey n r.2

/-- R124: seed(b, u) = 0x5A3C_96E1 ^ (b << 5) ^ u. -/
def laneSeed (b u : Nat) : BitVec 31 := BitVec.ofNat 31 (Nat.xor (Nat.xor 0x5A3C96E1 (b * 32)) u)

/-- R124: payload word `q` of a period of lane u of bundle b, descrambled (the scrambler is additive). -/
def descramble (b u q word : Nat) : Nat := Nat.xor (word % 2 ^ 64) (prbsKey 64 (prbsAfter (64 * q) (laneSeed b u)))

/-! ### SHA-256 and HMAC. The constants come from their definition in FIPS 180-4: the first 32 fractional bits of square roots and of cube
roots of the first primes. -/

/-- The largest `r` below 2^bits with r^e ≤ n, one bit at a time from the top; `r` holds the bits already found. -/
def rootBits (e n : Nat) : Nat → Nat → Nat
  | 0, r => r
  | bits + 1, r => rootBits e n bits (if (r + 2 ^ bits) ^ e ≤ n then r + 2 ^ bits else r)

/-- The primes below 312, of which there are 64. -/
def smallPrimes : List Nat :=
  (List.range 312).filter (fun n => 1 < n && [2, 3, 5, 7, 11, 13, 17].all (fun d => n ≤ d || n % d != 0))

/-- The first 32 fractional bits of the e-th root of n. -/
def fracRoot (e n : Nat) : BitVec 32 := BitVec.ofNat 32 (rootBits e (n * 2 ^ (32 * e)) 37 0)

/-- The 64 round constants, and the value a hash starts from. -/
def shaK : List (BitVec 32) := smallPrimes.map (fracRoot 3)
def shaInit : List (BitVec 32) := (smallPrimes.take 8).map (fracRoot 2)

/-- The exclusive or of three right rotations. -/
def rot3 (x : BitVec 32) (i j k : Nat) : BitVec 32 := x.rotateRight i ^^^ (x.rotateRight j ^^^ x.rotateRight k)

/-- The word that follows a window of 16 words of the message schedule, oldest first. -/
def shaNext (win : List (BitVec 32)) : BitVec 32 :=
  let at_ (i : Nat) : BitVec 32 := win.getD i 0
  let low (x : BitVec 32) (i j k : Nat) : BitVec 32 := (x >>> k) ^^^ (x.rotateRight i ^^^ x.rotateRight j)
  at_ 0 + at_ 9 + low (at_ 1) 7 18 3 + low (at_ 14) 17 19 10

/-- One round over the eight working words, `x` being the sum of its constant and its schedule word. -/
def shaRound (x : BitVec 32) (v : List (BitVec 32)) : List (BitVec 32) :=
  let at_ (i : Nat) : BitVec 32 := v.getD i 0
  let pick := at_ 6 ^^^ (at_ 4 &&& (at_ 5 ^^^ at_ 6))
  let most := (at_ 0 &&& at_ 1) ||| (at_ 2 &&& (at_ 0 ||| at_ 1))
  let up := x + pick + rot3 (at_ 4) 6 11 25 + at_ 7
  (up + most + rot3 (at_ 0) 2 13 22) :: at_ 0 :: at_ 1 :: at_ 2 :: (up + at_ 3) :: [at_ 4, at_ 5, at_ 6]

/-- The rounds of the constants `ks`, the schedule window moving on by one word in each. -/
def shaRounds : List (BitVec 32) → List (BitVec 32) → List (BitVec 32) → List (BitVec 32)
  | [], _, v => v
  | k :: ks, win, v => shaRounds ks (win.drop 1 ++ [shaNext win]) (shaRound (k + win.getD 0 0) v)

/-- The hash `h` carried over one block of 64 bytes. -/
def shaBlock (h : List (BitVec 32)) (block : List Byte) : List (BitVec 32) :=
  let win := (List.range 16).map (fun i => BitVec.ofNat 32 (beAt block (4 * i) 4))
  (h.zip (shaRounds shaK win h)).map (fun q => q.1 + q.2)

/-- The hash carried over `n` blocks. -/
def shaBlocks : Nat → List (BitVec 32) → List Byte → List (BitVec 32)
  | 0, h, _ => h
  | n + 1, h, l => shaBlocks n (shaBlock h (l.take 64)) (l.drop 64)

/-- SHA-256 of a byte string: its bytes, a one bit, zeros, and its length in bits fill whole blocks. -/
def sha256 (m : List Byte) : List Byte :=
  let n := (m.length + 72) / 64
  let body := m ++ 0x80 :: List.replicate (64 * n - m.length - 9) 0 ++ toBE 8 (m.length * 8)
  (shaBlocks n shaInit body).flatMap (fun w => toBE 4 w.toNat)

/-- HMAC-SHA-256 of a byte string under a key of at most 64 bytes. -/
def hmac (key m : List Byte) : List Byte :=
  let k := key ++ List.replicate (64 - key.length) 0
  sha256 (k.map (· ^^^ 0x5C) ++ sha256 (k.map (· ^^^ 0x36) ++ m))

end Sys2Proof.Machine
end

