-- ==== Sys2Proof/Machine/LocalClock.lean ====
section
/-!
DEFINITION. The local clock (chapter 03): hive time and its fields, the cycle of the time and DPLL domain, the boundary that comes next, and the instants
captured against it.
-/
namespace Sys2Proof.Machine

/-! ### The local clock (R64 to R66) -/

/-- 1 ns in the unit of `Tim.now`, 2^−48 ns. -/
def nsU : Nat := 2 ^ 48

/-- One tick, 1,000 ns (R32). -/
def tickU : Nat := 1000 * nsU

/-- One second. -/
def secU : Nat := 1000000000 * nsU

/-- The increment P = 2 ns × (1 + y × 2^−40) of R65, y the signed value of TIM_INCR. -/
def State.clockStep (s : State) : Nat := ((2 ^ 49 : Int) + signed 32 (s.rd TIM_INCR) * 512).toNat

/-- Hive time in 2^−16 ns (FRACTION resolution). -/
def State.time16 (s : State) : Int := (s.tim.now / 2 ^ 32 : Nat)

/-- SECONDS, NANOSECONDS and FRACTION of Table 3-1. -/
def State.seconds (s : State) : Nat := s.tim.now / secU % 2 ^ 48
def State.nanoseconds (s : State) : Nat := s.tim.now / nsU % 1000000000
def State.fraction (s : State) : Nat := s.tim.now / 2 ^ 32 % 2 ^ 16

/-- The first instant at or after `target` at which a clock cycle falls (R65, R88). -/
def State.cycleAt (s : State) (target : Nat) : Nat :=
  if target ≤ s.tim.now then s.tim.now else s.tim.now + ceilDiv (target - s.tim.now) s.clockStep * s.clockStep

/-- The tick number the next strobe carries: one more than the last, or, after a forward step, that of the first tick
boundary at or after hive time (R34, R85). -/
def State.nextTick (s : State) : Nat :=
  match s.tim.lastTick with
  | none => ceilDiv s.tim.now tickU
  | some t => max (t + 1) (ceilDiv s.tim.now tickU)

/-- The microsecond boundary that comes next: that of the next strobe, or, before the first strobe, of the local oscillator. -/
def State.nextEdge (s : State) : Nat :=
  match s.tim.lastTick with
  | none => (s.tim.now / tickU + 1) * tickU
  | some _ => s.nextTick * tickU

/-- Hive time runs on by `n` cycles, but not into the next tick: that is the strobe's own step (R88). -/
def State.elapse (s : State) (n : Nat) : State :=
  let left := (s.nextEdge - s.tim.now - 1) / s.clockStep
  { s with tim := { s.tim with now := s.tim.now + min n left * s.clockStep } }

/-- An instant as the local clock captures it, in 2^−16 ns (R77): the outside gives it, and it lies in the tick in progress, to within the ±0.5 ns
the captured value may be off. -/
def State.capture (s : State) (t : Int) : Int := max (s.time16 - 32768) (min t ((s.nextEdge / 2 ^ 32 : Nat) + 32768))

end Sys2Proof.Machine
end

