-- ==== Sys2Proof/Machine/Clock.lean ====
section
/-!
DEFINITION. Reference selection, holdover and clock outputs (chapter 04): candidates and their quality levels, the
selection of R96 to R100, the DPLL states, phase pulls and the pulse pins.
-/
namespace Sys2Proof.Machine

/-! ### Candidates (R90 to R95) -/

def CANDc_STATUS_WTR : Fld := ⟨27, 16⟩
def CANDc_STATUS_QL : Fld := ⟨7, 4⟩

def State.candEn (s : State) (c : Nat) : Bool := s.bit (CANDc_CFG c) 0 == 1
def State.candQualified (s : State) (c : Nat) : Bool := s.bit (CANDc_STATUS c) 8 == 1
def State.candInWtr (s : State) (c : Nat) : Bool := s.bit (CANDc_STATUS c) 9 == 1
def State.candQl (s : State) (c : Nat) : Nat := s.fd (CANDc_STATUS c) CANDc_STATUS_QL
def State.candPrio (s : State) (c : Nat) : Nat := s.fd (CANDc_CFG c) CANDc_CFG_PRIO
def State.setCandQl (s : State) (c ql : Nat) : State := s.setFd (CANDc_STATUS c) CANDc_STATUS_QL ql

/-- Candidate c is a physical 1PPS input (R91). -/
def State.candIsPps (s : State) (c : Nat) : Bool := c < 8 && s.fd (CANDc_CFG c) CANDc_CFG_TYPE == 1

/-- Candidate c carries phase (Table 4-1). -/
def State.candHasPhase (s : State) (c : Nat) : Bool := c == 8 || s.candIsPps c

/-- Table 4-3: the QL of a grandmaster clockClass. -/
def classQl (cls : Nat) : Nat :=
  match cls with
  | 6 => 1 | 7 => 3 | 13 => 5 | 14 => 6 | 52 => 7 | 58 => 7 | 187 => 8 | 193 => 8 | 135 => 9 | 140 => 9
  | 150 => 10 | 160 => 11 | 165 => 11 | 248 => 13 | 255 => 15 | _ => 14

/-- Sets QUALIFIED and its bit of CLK_QUALIFIED. -/
def State.setQualified (s : State) (c : Nat) (b : Bool) : State :=
  (s.setBit (CANDc_STATUS c) 8 b).setBit CLK_QUALIFIED c b

/-- Sets the wait-to-restore of candidate c: `t` ticks remaining, shown in whole seconds, rounded up. -/
def State.setWtr (s : State) (c t : Nat) : State :=
  let s := { s with clk := { s.clk with wtrTicks := setNth s.clk.wtrTicks c t } }
  let s := (s.setBit (CANDc_STATUS c) 9 (t != 0)).setBit CLK_IN_WTR c (t != 0)
  s.setFd (CANDc_STATUS c) CANDc_STATUS_WTR (ceilDiv t 1000000)

/-- Candidate c becomes QUALIFIED; it waits to restore when it lost QUALIFIED before while enabled (R92, R99). -/
def State.qualifyCand (s : State) (c : Nat) : State :=
  if s.candQualified c then s
  else
    let s := s.setQualified c true
    if nth s.clk.lostOnce c false then s.setWtr c (s.fd CLK_WTR ⟨11, 0⟩ * 1000000) else s

/-- Candidate c loses QUALIFIED (R92, R108). -/
def State.loseCand (s : State) (c : Nat) : State :=
  if !s.candQualified c then s
  else
    let s := (s.setQualified c false).setWtr c 0
    if s.candEn c then
      let s := { s with clk := { s.clk with lostOnce := setNth s.clk.lostOnce c true } }
      s.flag CLK_HIST 0
    else s

/-- The microsecond since which the conditions of candidate c hold. -/
def State.setOk (s : State) (c : Nat) (v : Option Nat) : State := { s with clk := { s.clk with okSince := setNth s.clk.okSince c v } }

/-- A condition of Table 4-4 has failed: QUALIFIED goes, and QUAL_TIME begins again. -/
def State.failCand (s : State) (c : Nat) : State := (s.setOk c none).loseCand c

/-- The conditions of candidate c hold: from now on, where they did not before. -/
def State.passCand (s : State) (c : Nat) : State := if (nth s.clk.okSince c none).isNone then s.setOk c (some s.tim.us) else s

/-- They have held for QUAL_TIME seconds without interruption (R92). -/
def State.candLong (s : State) (c : Nat) : Bool :=
  match nth s.clk.okSince c none with
  | some t => t + bitsOf (s.rd (CANDc_QTOL c)) 23 16 * 1000000 ≤ s.tim.us
  | none => false

/-- The measured frequency offset, in units of 2^−40, lies within TOL_PPB (Table 4-4). -/
def State.fofsOk (s : State) (c : Nat) (fofs : Int) : Bool :=
  fofs.natAbs * 1000000000 ≤ bitsOf (s.rd (CANDc_QTOL c)) 15 0 * 2 ^ 40

/-- The conditions of Table 4-4 that the state holds: a 1PPS input has had an edge within 1.000100 s; PTP needs its instance in SLAVE and
STEP_PENDING at 0; SE needs its port linked with RS-FEC lock and a QL other than 15. -/
def State.candHolds (s : State) (c : Nat) : Bool :=
  if c = 8 then
    let n := s.fd TIM_CTRL TIM_CTRL_PTP_SRC
    s.bit TIM_STATUS 1 == 0 && s.bit TIM_CTRL 0 == 1 && s.bit (PTPn_CFG n) 0 == 1 && s.fd (PTPn_STATE n) PTPn_STATE_PORT_STATE == 9
  else if c ≥ 9 then s.bit (ETHn_STATUS (c - 9)) 0 == 1 && s.bit (ETHn_STATUS (c - 9)) 6 == 1 && s.candQl c != 15
  else if s.candIsPps c then (match nth s.clk.edgeAt c none with | some t => s.tim.us ≤ t + 1000100 | none => false)
  else true

/-- CANDIDATE_QUALIFY (R92): the conditions of Table 4-4 have held for QUAL_TIME, the frequency offset being `fofs`. -/
def execCandidateQualify (c : Nat) (fofs : Int) (s : State) : Res :=
  if c ≥ 13 then .next s
  else
    let s := s.wr (CANDc_FOFS c) (unsigned 32 fofs)
    .next (if s.candLong c && s.candHolds c && (c = 8 || s.fofsOk c fofs) then s.qualifyCand c else s)

/-- CANDIDATE_LOSS (R92): a condition of Table 4-4 that is measured failed; `phaseFar` where only the phase condition of a 1PPS candidate
failed. The state holds every condition of PTP, so nothing fails there while they hold. -/
def execCandidateLoss (c : Nat) (phaseFar : Bool) (s : State) : Res :=
  if c ≥ 13 || (c = 8 && s.candHolds 8) then .next s
  else
    let s := s.when (phaseFar && s.candIsPps c && s.timeValid) (·.flag CLK_HIST 6)
    .next (s.failCand c)

/-- Distance of an instant from the nearest hive second, 2^−16 ns. -/
def fromSecond (t : Int) : Int :=
  let sec : Int := 65536000000000
  let d := t % sec
  if d * 2 > sec then d - sec else d

/-- WAIT_TO_RESTORE_EXPIRE (R99): the last tick of the wait of candidate c ends. -/
def execWaitToRestoreExpire (c : Nat) (s : State) : Res :=
  if c < 13 && s.candInWtr c && nth s.clk.wtrTicks c 0 ≤ 1 then .next (s.setWtr c 0) else .next s

/-- ESMC_TIMEOUT (R94): no PDU for 5 s. -/
def execEsmcTimeout (port : Nat) (s : State) : Res :=
  if port ≥ 4 || s.tim.us < nth s.clk.esmcAt port 0 + 5000000 then .next s else .next (s.setCandQl (9 + port) 15)

/-! ### Selection (R96 to R100) -/

/-- R97. -/
def State.selectable (s : State) (c : Nat) : Bool :=
  s.candEn c && s.fd (CANDc_CFG c) CANDc_CFG_LOCKOUT == 0 && s.candQualified c && s.candQl c != 15 && !s.candInWtr c

/-- Rank of R98: QL, then PRIO, then index. -/
def State.candRank (s : State) (c : Nat) : Nat := (s.candQl c * 16 + s.candPrio c) * 16 + c

/-- The best-ranked selectable candidate; 15 where there is none. -/
def State.bestCand (s : State) : Nat :=
  (List.range 13).foldl (fun b c => if s.selectable c && (b == 15 || s.candRank c < s.candRank b) then c else b) 15

/-- The reference R98 and R100 make active; 15 for none. -/
def State.chooseRef (s : State) : Nat :=
  if s.bit CLK_CTRL 0 = 0 then 15
  else match s.fd CLK_CTRL CLK_CTRL_MODE with
    | 0 =>
      let act := s.fd CLK_STATUS CLK_STATUS_ACTIVE
      let best := s.bestCand
      if act ≥ 13 || !s.selectable act then best
      else if s.candQl best < s.candQl act then best
      else if s.fd CLK_CTRL CLK_CTRL_REVERTIVE = 1 && s.candQl best = s.candQl act && s.candPrio best < s.candPrio act
        then best
      else act
    | 1 =>
      let c := s.fd CLK_CTRL CLK_CTRL_FORCE_SEL
      if c < 13 && s.candQualified c then c else 15
    | _ => 15

/-- DPLL state: 0 FREERUN, 1 ACQUIRE, 2 LOCKED, 3 HOLDOVER. -/
def State.dpll (s : State) : Nat := s.fd CLK_STATUS CLK_STATUS_STATE

/-- y of TIM_INCR set. -/
def State.setY (s : State) (y : Int) : State := s.wr TIM_INCR (unsigned 32 y)

/-- The mean of R105 over the log of y, one entry per tick, newest first: the AVG seconds that ended 2 s before the
loss; the LOCKED time before those 2 s where it was shorter; all of it where that is under 1 s. Rounded down. -/
def holdoverMean (avgS : Nat) (log : List Int) : Int :=
  let before := (log.drop 2000000).take (avgS * 1000000)
  let span := if before.length < 1000000 then log else before
  if span.length = 0 then 0 else span.foldl (· + ·) 0 / (span.length : Int)

/-- Bandwidth of Table 4-6 for the active reference, in mHz. -/
def State.refBw (s : State) (act : Nat) : Nat :=
  s.fd (if s.candIsPps act then CLK_LBW_PPS else if act = 8 then CLK_LBW_PTP else if act < 8 then CLK_LBW_CW else CLK_LBW_SE) ⟨16, 0⟩

/-- The outer loop of R103 runs: a frequency-only reference is active and PTP is QUALIFIED. -/
def State.outerLoop (s : State) (act : Nat) : Bool := act < 13 && !s.candHasPhase act && s.candQualified 8

/-- The phase difference of a reference that becomes active, or of the PTP candidate under the outer loop (R103, R106). -/
def State.refPhase (s : State) (act : Nat) : Int :=
  if s.candIsPps act then nth s.clk.edgeOfs act 0
  else if act = 8 || s.outerLoop act then s.clk.ptpOfs
  else 0

/-- A tick of slewing (R106): the difference shrinks by SLOPE ns per second, kept in steps of 2^−16 ns, and y moves by the same slope
against its sign. While TIME_VALID is 0 the loop aligns frequency only (R102). -/
def State.slew (s : State) : Int × State :=
  if s.clk.phase = 0 || !s.timeValid then (0, s)
  else
    let slope := s.fd CLK_PULL ⟨9, 0⟩
    let b := slope * 65536 + s.clk.slewRem
    let n := min (b / 1000000) s.clk.phase.natAbs
    let sg : Int := if s.clk.phase < 0 then -1 else 1
    let phase := s.clk.phase - sg * (n : Int)
    (-sg * (slope * 2 ^ 40 / 1000000000 : Nat), { s with clk := { s.clk with phase := phase, slewRem := if phase = 0 then 0 else b % 1000000 } })

/-- The loop output in ACQUIRE and LOCKED: what the loop filter gives at the bandwidth of the active reference (R104), and of PTP for the
outer loop (R103), with the slope of the phase still to be removed. The filter's numbers are free (log entry 3). -/
def State.loopY (s : State) : State :=
  let act := s.fd CLK_STATUS CLK_STATUS_ACTIVE
  let (v, s) := s.free
  let f := Config.loopFilter (s.refBw act) v + if s.outerLoop act then Config.loopFilter (s.refBw 8) v else 0
  let (g, s) := s.slew
  let y := satS 32 (f + g)
  let s := s.setY y
  if s.dpll = 2 then { s with clk := { s.clk with yLog := y :: s.clk.yLog } } else s

/-- The lock condition of R102: of a phase-bearing reference the phase error is within LOCK_THR; of a frequency-only one, and while TIME_VALID is 0,
the frequency error is within 1 ppb: y against the frequency measured of the reference, which before the first LOCKED is that against the local
oscillator (R92). -/
def State.lockHolds (s : State) (act : Nat) : Bool :=
  if s.candHasPhase act && s.timeValid then s.clk.phase.natAbs ≤ s.fd CLK_LOCK ⟨13, 0⟩ * 65536
  else (signed 32 (s.rd (CANDc_FOFS act)) - signed 32 (s.rd TIM_INCR)).natAbs * 1000000000 ≤ 2 ^ 40

/-- A tick of ACQUIRE counts towards LOCK_TIME while the condition holds. -/
def State.lockCount (s : State) (act : Nat) : State :=
  { s with clk := { s.clk with lockFor := if s.lockHolds act then s.clk.lockFor + 1 else 0 } }

/-- R101, R105: a DPLL transition at step 4 of R96, `act` being the reference now active, 15 for none. -/
def State.dpllUpdate (s : State) (act : Nat) : State :=
  let set (s : State) (v : Nat) : State := s.setFd CLK_STATUS CLK_STATUS_STATE v
  match s.dpll with
  | 0 => if act < 13 then ({ set s 1 with clk := { s.clk with lockFor := 0 } }).loopY else s.setY 0
  | 1 => if act < 13 then s.loopY.lockCount act else (set s 0).setY 0
  | 2 =>
    if act < 13 then s.loopY
    else
      let y := holdoverMean (s.fd CLK_HOLD CLK_HOLD_AVG) s.clk.yLog
      let s := ((set s 3).setY y).flag CLK_HIST 2
      { s with clk := { s.clk with yLog := [] } }
  | _ =>
    if act < 13 then
      let s := set s 2
      ({ s with clk := { s.clk with yLog := [] } }).loopY
    else s

/-- Makes `act` the active reference: SWITCH when it changes, and, in LOCKED or HOLDOVER, a phase pull towards the new
reference (R106 to R108), which starts whatever the difference is (log entry 82). -/
def State.activate (s : State) (act : Nat) : State :=
  let s := if s.fd CLK_STATUS CLK_STATUS_ACTIVE = act then s
    else
      let s := (s.setFd CLK_STATUS CLK_STATUS_ACTIVE act).flag CLK_HIST 1
      let s := { s with clk := { s.clk with ppsEdge := none, phase := s.refPhase act, slewRem := 0, lockFor := 0 } }
      if act < 13 && s.dpll ≥ 2 then (s.setBit CLK_STATUS 2 true).flag CLK_HIST 4
      else s.setBit CLK_STATUS 2 false
  let s := s.setFd CLK_STATUS CLK_STATUS_ACTIVE_QL (if act < 13 then s.candQl act else 0)
  s.setBit CLK_STATUS 3 (act < 13 && !s.candHasPhase act && !s.candQualified 8)

/-- QL of the PTP candidate (R95): that of the grandmaster the time-source instance follows; 15 where it hears none. -/
def State.ptpQl (s : State) : Nat :=
  match (nth s.tim.ptp (s.fd TIM_CTRL TIM_CTRL_PTP_SRC) PtpInst.reset).best with
  | some m => classQl m.cls
  | none => 15

/-- Step 1 of R96: the QLs, QUALIFIED of each candidate a condition of which has failed, and since when the conditions of the others hold;
those of a 1PPS input begin with an edge. -/
def State.candUpdate (s : State) : State :=
  let s := s.each (List.range 8) (fun s c => s.setCandQl c (s.fd (CANDc_CFG c) CANDc_CFG_STATIC_QL))
  let s := s.setCandQl 8 s.ptpQl
  s.each (List.range 13) (fun s c => if s.candHolds c then (if s.candIsPps c then s else s.passCand c) else s.failCand c)

/-- Step 2 of R96. -/
def State.wtrAdvance (s : State) : State :=
  s.each (List.range 13) (fun s c => if s.candInWtr c then s.setWtr c (nth s.clk.wtrTicks c 0 - 1) else s)

/-- Selection at the tick boundary, in the order of R96. -/
def State.clkTick (s : State) : State :=
  let s := s.candUpdate.wtrAdvance
  let act := s.chooseRef
  (s.activate act).dpllUpdate act

/-- DPLL_LOCK (R101, R102): the lock condition has held for LOCK_TIME. -/
def execDpllLock (s : State) : Res :=
  let act := s.fd CLK_STATUS CLK_STATUS_ACTIVE
  if s.dpll = 1 && act < 13 && s.fd CLK_LOCK ⟨23, 16⟩ * 1000000 ≤ s.clk.lockFor && s.lockHolds act then
    let s := (s.setFd CLK_STATUS CLK_STATUS_STATE 2).flag CLK_HIST 3
    .next ({ s with clk := { s.clk with yLog := [signed 32 (s.rd TIM_INCR)] } }).monLatch
  else .next s

/-- PULL_DONE (R107): the remaining difference has reached zero. -/
def execPullDone (s : State) : Res :=
  if s.bit CLK_STATUS 2 = 1 && s.clk.phase = 0 then .next ((s.setBit CLK_STATUS 2 false).flag CLK_HIST 5)
  else .next s

/-- REF_MODE taking effect (R100): MODE, FORCE_SEL and REVERTIVE of the CLK_CTRL image. -/
def State.setRefMode (s : State) (img : Nat) : State :=
  ((s.setFd CLK_CTRL CLK_CTRL_MODE (bitsOf img 3 2)).setFd CLK_CTRL CLK_CTRL_FORCE_SEL (bitsOf img 11 8)).setFd
    CLK_CTRL CLK_CTRL_REVERTIVE (bitOf img 4)

/-! ### Writes of the CLK registers -/

/-- The ranges of the CLK registers: a write outside leaves the register unchanged and sets RANGE_ERR (R100, R104,
R110, R112, R113 and the register tables of chapter 04). A FREQ_KHZ that would leave the present DLY at a period or more is outside; a DIV that
leaves the present TICK_OUT_WIDTH above DIV × 500 is not (log entry 92). -/
def clkInRange (a new : Nat) (s : State) : Bool :=
  let f (hi lo : Nat) := bitsOf new hi lo
  if a = CLK_CTRL then f 11 8 ≤ 12 && f 3 2 ≠ 3
  else if a = CLK_WTR then f 11 0 ≤ 3600
  else if a = CLK_PULL then 1 ≤ f 9 0 && f 9 0 ≤ 1000
  else if a = CLK_LBW_PPS then 1 ≤ f 16 0 && f 16 0 ≤ 100
  else if a = CLK_LBW_CW then 100 ≤ f 16 0 && f 16 0 ≤ 100000
  else if a = CLK_LBW_SE then 100 ≤ f 16 0 && f 16 0 ≤ 10000
  else if a = CLK_LBW_PTP then 1 ≤ f 16 0 && f 16 0 ≤ 1000
  else if a = CLK_LOCK then 1 ≤ f 23 16 && 1 ≤ f 13 0 && f 13 0 ≤ 10000
  else if a = CLK_HOLD then 1 ≤ f 9 0 && f 9 0 ≤ 1000
  else if 0x300100 ≤ a && a < 0x3002A0 then
    match (a - 0x300100) % 0x20 with
    | 4 => 1000 ≤ f 29 0 && f 29 0 ≤ 800000000
    | 8 => (signed 32 new).natAbs ≤ 2000000000
    | 12 => 1 ≤ f 23 16 && 1 ≤ f 15 0
    | _ => true
  else if 0x300400 ≤ a && a < 0x300440 then
    match (a - 0x300400) % 0x10 with
    | 0 => 10000 ≤ f 31 10 && f 31 10 ≤ 3200000 && bitsOf (s.rd (a + 4)) 11 0 * f 31 10 < 4000000
    | 4 => f 11 0 * bitsOf (s.rd (a - 4)) 31 10 < 4000000
    | _ => true
  else if 0x300440 ≤ a && a < 0x300480 then
    match (a - 0x300440) % 0x10 with
    | 4 => (signed 32 new).natAbs ≤ 2000000000
    | 8 => 4 ≤ new && new ≤ 900000000
    | _ => true
  else if a = TICK_OUT_CFG then 1 ≤ f 31 12 && f 31 12 ≤ 1000000
  else if a = TICK_OUT_WIDTH then 4 ≤ new && new ≤ s.fd TICK_OUT_CFG TICK_OUT_CFG_DIV * 500
  else true

def clkPre (a new : Nat) (s : State) : Option State :=
  if clkInRange a new s then none else some (s.flag CLK_HIST 7)

/-! ### Clock outputs (R110) -/

/-- Instant of hive time in 0.25 ns. -/
def State.quarters (s : State) : Nat := s.tim.now / 2 ^ 46

/-- Place of instant `t` in its output cycle, in units of 1 / (4,000,000 f) of the cycle's 4,000,000 / f quarter nanoseconds, for an output of
`f` kHz whose edges are aligned to whole milliseconds plus `dly`. -/
def clkPhase (f dly t : Nat) : Nat := (t + 4000000 - dly % 4000000) % 4000000 * f % 4000000

/-- Such an output is high in the first half of its cycle. -/
def clkHigh (f dly t : Nat) : Bool := 2 * clkPhase f dly t < 4000000

/-- The falling edge at or after `t`: `t` itself where the output is low. -/
def clkFall (f dly t : Nat) : Nat := if clkHigh f dly t then t + ceilDiv (2000000 - clkPhase f dly t) f else t

/-- The first aligned edge, a whole millisecond plus `dly`, after `t`. -/
def clkAligned (dly t : Nat) : Nat := t + 4000000 - (t + 4000000 - dly % 4000000) % 4000000

def State.clkOutCfg (s : State) (n : Nat) : ClkOut := nth s.clk.outs n ⟨10000, 0, 0, 0⟩

/-- Level of CLK_OUTn at instant `t` (R110): 0 with EN at 0; after a change of frequency, the rest of the high half in progress and then 0 up to the
next aligned edge. -/
def State.clkOutLevel (s : State) (n t : Nat) : Bool :=
  let o := s.clkOutCfg n
  let dly := s.rd (CLK_OUTn_DLY n) % 4096
  s.bit (CLK_OUTn_CFG n) 0 == 1
    && (if o.start ≤ t then clkHigh o.freq dly t else o.old != 0 && t < o.stop && clkHigh o.old dly t)

/-- CLK_OUTn_CFG has been written: a change of FREQ_KHZ stops the output low at the next falling edge and restarts it at the next aligned edge; EN
going to 1 starts it at the next aligned edge (log entry 83). -/
def State.clkOutWrite (s : State) (n old : Nat) : State :=
  let f := s.rd (CLK_OUTn_CFG n) / 1024
  let was := bitOf old 0 = 1
  if s.bit (CLK_OUTn_CFG n) 0 = 0 || (was && old / 1024 = f) then s
  else
    let dly := s.rd (CLK_OUTn_DLY n) % 4096
    let stop := if was && s.clkOutLevel n s.quarters then clkFall (old / 1024) dly s.quarters else s.quarters
    { s with clk := { s.clk with outs := setNth s.clk.outs n ⟨f, clkAligned dly stop, if was then old / 1024 else 0, stop⟩ } }

/-- After a write: CLK_CTRL.EN at 0 leaves no reference active, and the DPLL follows at once (R101); a candidate whose
EN went from 0 to 1 has its first qualification without a wait (R99); one whose TYPE changed has other conditions, which have not held yet
(log entry 84). -/
def clkPost (a old : Nat) (s : State) : State :=
  if a = CLK_CTRL then
    if s.bit CLK_CTRL 0 = 0 then (s.activate 15).dpllUpdate 15 else s
  else if 0x300100 ≤ a && a < 0x3002A0 && (a - 0x300100) % 0x20 = 0 then
    let c := (a - 0x300100) / 0x20
    let s := if s.candEn c && bitOf old 0 = 0 then { s with clk := { s.clk with lostOnce := setNth s.clk.lostOnce c false } } else s
    if c < 8 && bitOf old 1 ≠ s.bit a 1 then s.failCand c else s
  else if 0x300400 ≤ a && a < 0x300440 && (a - 0x300400) % 0x10 = 0 then s.clkOutWrite ((a - 0x300400) / 0x10) old
  else s

/-! ### Pulse pins (R112 to R115) -/

/-- PPS_OUTn and TICK_OUT are held inactive with SQUELCH at 1 while TIME_VALID is 0 or the DPLL is in FREERUN or
ACQUIRE (R114). -/
def State.squelched (s : State) (cfg : Nat) : Bool := s.bit cfg 2 == 1 && (!s.timeValid || s.dpll < 2)

/-- A pulse of a pin, its leading edge at `start` in units of 0.25 ns. During a keeper gap it is kept, and no edge is produced (R115, R556). -/
def State.pulse (s : State) (pin : Pin) (start : Int) (widthNs : Nat) (low : Bool) : State :=
  let s := { s with clk := { s.clk with pulses := (pin, start, start + 4 * (widthNs : Int)) :: s.clk.pulses.filter (·.1 != pin) } }
  if s.kpr.gap then s else s.emit (.pulse pin start widthNs low)

/-- The end of a keeper gap that began at instant `g` (R556): a pulse in progress at its start has stayed active to its end, and one whose leading
edge fell in it shows the rest of its level. -/
def State.releasePins (s : State) (g : Int) : State :=
  let now : Int := s.quarters
  s.each s.clk.pulses (fun s p =>
    if p.2.1 ≤ g && g < p.2.2 then (if p.2.2 < now then s.emit (.held p.1 g now) else s)
    else if g < p.2.1 && p.2.1 ≤ now && now < p.2.2 then s.emit (.held p.1 now p.2.2)
    else s)

/-- A leading edge is due: it falls in the microsecond in progress and has not been given yet. -/
def State.edgeDue (s : State) (pin : Pin) (start : Int) : Bool :=
  start / 4000 == ((s.quarters / 4000 : Nat) : Int) && !s.clk.pulses.any (fun p => p.1 == pin && p.2.1 == start)

/-- PPS_OUT_PULSE (R112, R114, R115): the pulse of PPS_OUTn for hive second `sec`. With SRC at 1 the alignment instant is the edge of the active 1PPS input,
which repeats each second; where none has been measured since the input became active, the hive second with FALLBACK (log entry 85). -/
def execPpsOutPulse (n sec : Nat) (s : State) : Res :=
  let cfg := PPS_OUTn_CFG n
  let second : Int := (sec * 4000000000 : Nat)
  let ref : Option Int := if s.bit cfg 1 = 1 && s.candIsPps (s.fd CLK_STATUS CLK_STATUS_ACTIVE) then s.clk.ppsEdge else none
  let start := second + (match ref with | some e => fromSecond e / 16384 | none => 0) + signed 32 (s.rd (PPS_OUTn_OFS n))
  if n ≥ 4 || s.bit cfg 0 = 0 || s.squelched cfg || !s.edgeDue (.ppsOut n) start then .next s
  else
    let s := s.setBit (PPS_OUTn_STATUS n) 0 (s.bit cfg 1 == 1 && ref.isNone)
    .next (s.pulse (.ppsOut n) start (s.rd (PPS_OUTn_WIDTH n)) (s.bit cfg 3 == 1))

/-- TICK_OUT_PULSE (R113 to R115): the pulse of tick k, on ticks whose number is a multiple of DIV. -/
def execTickOutPulse (k : Nat) (s : State) : Res :=
  let start : Int := (k * 4000 : Nat) + signed 32 (s.rd TICK_OUT_OFS)
  if s.bit TICK_OUT_CFG 0 = 0 || s.squelched TICK_OUT_CFG || k % s.fd TICK_OUT_CFG TICK_OUT_CFG_DIV ≠ 0 || !s.edgeDue .tickOut start then .next s
  else .next (s.pulse .tickOut start (s.rd TICK_OUT_WIDTH) (s.bit TICK_OUT_CFG 3 == 1))

end Sys2Proof.Machine
end

