-- ==== Sys2Proof/Machine/Ether.lean ====
section
/-!
DEFINITION. Ethernet ports (chapter 08): the receive checks, the fixed handlers and the classifier, transmit queues with
pre-emption, bulk-send segmentation, and the network services.
-/
namespace Sys2Proof.Machine

def State.port (s : State) (n : Nat) : EthPort := nth s.eth.ports n EthPort.reset
def State.modPort (s : State) (n : Nat) (f : EthPort → EthPort) : State :=
  { s with eth := { s.eth with ports := modNth s.eth.ports n f } }
def State.linkUp (s : State) (n : Nat) : Bool := s.bit (ETHn_STATUS n) 0 == 1
def State.ethOn (s : State) (n : Nat) : Bool := n < 32 && s.blockOn 9 && s.bit (ETHn_CFG n) 0 == 1
def State.preemptActive (s : State) (n : Nat) : Bool := s.bit (ETHn_STATUS n) 7 == 1
def State.mmState (s : State) (n : Nat) : Nat := s.fd (ETHn_STATUS n) ETHn_STATUS_MM_STATE
def State.setMm (s : State) (n v : Nat) : State := s.setFd (ETHn_STATUS n) ETHn_STATUS_MM_STATE v

/-! ### Transmit queues (R205 to R212) -/

/-- Microseconds of the local oscillator, which the timers of the ports count. -/
def State.us (s : State) : Nat := s.tim.us

/-- Frame `f` waits for its queue on port n: it goes there with FRAME_ENQUEUE. -/
def State.txWait (s : State) (n : Nat) (f : TxFrame) : State :=
  { s with eth := { s.eth with outbox := s.eth.outbox ++ [(n, f)] } }

/-- A producer hands a frame on in the tick in progress. -/
def State.txPut (s : State) (n : Nat) (f : TxFrame) : State := s.txWait n { f with age := s.tick }

/-- A frame of the network services, on pre-emptable queue 6 (Table 8-5): its bytes, without the padding to 60 and the FCS, which its
length counts. -/
def svcFrame (kind : FrameKind) (src : Nat) (bytes : List Byte) : TxFrame :=
  { kind := kind, src := src, sid := 0, queue := 6, len := max 64 (bytes.length + 4), age := 0, dst := 0, bytes := bytes, ptp := none }

/-- A verify or respond mPacket (R210): it goes out as queue 7 does, before any frame. -/
def mmFrame (kind : FrameKind) (src : Nat) : TxFrame :=
  { kind := kind, src := src, sid := 0, queue := 7, len := 64, age := 0, dst := 0, bytes := [], ptp := none }

/-- R209: a frame over 1,522 bytes uses queue 5 instead of queue 7. -/
def txQueue (f : TxFrame) : Nat := if f.queue = 7 && f.len > 1522 then 5 else f.queue % 8

/-- Bytes in a queue list. -/
def queueBytes (l : List TxFrame) : Nat := sumL (l.map (·.len))

/-- The port has room for the frame: 256 KiB, of which 48 KiB are reserved for queue 7 (R208). -/
def State.txRoom (s : State) (n : Nat) (f : TxFrame) : Bool :=
  let qs := (s.port n).queues
  let low := sumL ((qs.take 7).map queueBytes)
  let q7 := queueBytes (nth qs 7 [])
  if txQueue f = 7 then low + q7 + f.len ≤ 262144 else low + f.len ≤ 262144 - 49152 && low + q7 + f.len ≤ 262144

/-- R197: frames discarded because their port is not LINK_UP. -/
def State.txDropped (s : State) (n k : Nat) : State :=
  if k = 0 then s else (s.count (ETHn_TX_DROP n) k).flag (ETHn_HIST n) 5

/-- Four registers, the first most significant, as a 128-bit number. -/
def State.rd128 (s : State) (a : Nat) : Nat :=
  ((s.rd a * 2 ^ 32 + s.rd (a + 4)) * 2 ^ 32 + s.rd (a + 8)) * 2 ^ 32 + s.rd (a + 12)
def State.v4On (s : State) (n : Nat) : Bool := s.bit (ETHn_IP4_CFG n) 31 == 1
def State.v6On (s : State) (n : Nat) : Bool := s.bit (ETHn_IP6_CFG n) 31 == 1
def State.ip6 (s : State) (n : Nat) : Nat := s.rd128 (ETHn_IP6 n 0)

/-- Address a unicast destination is reached through from port n (R218): its own on the link, the port's gateway off it. An IPv6
address is above 2^32; a link-local one is always on the link. -/
def State.nextHop (s : State) (n dst : Nat) : Nat :=
  if dst < 2 ^ 32 then
    let sh := 32 - s.rd (ETHn_IP4_CFG n) % 64
    if dst / 2 ^ sh = s.rd (ETHn_IP4 n) / 2 ^ sh then dst else s.rd (ETHn_IP4_GW n)
  else
    let sh := 128 - s.rd (ETHn_IP6_CFG n) % 256
    if dst / 2 ^ 118 = 0x3FA || dst / 2 ^ sh = s.ip6 n / 2 ^ sh then dst else s.rd128 (ETHn_IP6_GW n 0)

/-- The MAC address the neighbour cache holds for a destination on a port; 0 for none. -/
def State.neighMac (s : State) (dst port : Nat) : Nat :=
  match s.eth.neigh.find? (fun e => e.ip == s.nextHop port dst && e.port == port) with
  | some e => e.mac.getD 0
  | none => 0

/-- The neighbour cache's answer for a frame's destination: 0 stands for an address that needs none. -/
def State.resolved (s : State) (n dst : Nat) : Bool :=
  dst == 0 || s.eth.neigh.any (fun e => e.ip == s.nextHop n dst && e.port == n && e.mac.isSome)

/-- Length of the Ethernet header of a template or frame, with its tag; its EtherType; whether it is IPv6. -/
def tmplL2 (t : List Byte) : Nat := if beAt t 12 2 = 0x8100 then 18 else 14
def tmplType (t : List Byte) : Nat := beAt t (tmplL2 t - 2) 2
def tmplV6 (t : List Byte) : Bool := tmplType t == 0x86DD

/-- Port n does not send on the frame's IP version (R215). -/
def State.ipOff (s : State) (n : Nat) (b : List Byte) : Bool :=
  (tmplType b == 0x0800 && !s.v4On n) || (tmplType b == 0x86DD && !s.v6On n)

/-- A queue 7 frame pre-empts a pre-emptable frame in progress while pre-emption is active (R206, R210, R211): the fragment cut off has at
least 64 × (1 + ADD_FRAG) bytes with its 4 of mCRC, and at least 64 stay. Where between the two the cut falls depends on the instant, a
free value (log entry 2); a frame too short to be cut goes on to its end. -/
def State.preempt (s : State) (n : Nat) : State :=
  let p := s.port n
  let lo := 60 + 64 * s.fd (ETHn_CFG n) ETHn_CFG_ADD_FRAG
  match p.cur, p.susp with
  | some c, none =>
    if txQueue c ≠ 7 && s.preemptActive n && lo + 64 ≤ p.left then
      let (v, s) := s.free
      let cut := lo + v % (p.left - 64 - lo + 1)
      let s := s.modPort n (fun p => { p with cur := none, susp := some c, left := p.left - cut })
      (s.count (ETHn_TX_PREEMPT n) 1).emit (.cut n cut)
    else s
  | _, _ => s

/-- Removes the first frame of the outbox for port n and queue q. -/
def takeOut (n q : Nat) : List (Nat × TxFrame) → Option TxFrame × List (Nat × TxFrame)
  | [] => (none, [])
  | (m, f) :: r =>
    if m = n && txQueue f = q then (some f, r)
    else
      let t := takeOut n q r
      (t.1, (m, f) :: t.2)

/-- 16-bit ones' complement sum of a byte string, odd ends padded with 0. -/
def ones16 : List Byte → Nat
  | [] => 0
  | [a] => a.toNat * 256
  | a :: b :: r => a.toNat * 256 + b.toNat + ones16 r

/-- The Internet checksum of a byte string. -/
def inetSum (l : List Byte) : Nat :=
  let s := ones16 l
  let s := s % 65536 + s / 65536
  let s := s % 65536 + s / 65536
  65535 - (s % 65536 + s / 65536) % 65536

/-- Bytes `v` put at position `i`. -/
def putBytes (l : List Byte) (i : Nat) (v : List Byte) : List Byte := l.take i ++ v ++ l.drop (i + v.length)

/-- An IPv4 header with its checksum computed. -/
def ip4Sealed (ip : List Byte) : List Byte := putBytes ip 10 (toBE 2 (inetSum (putBytes ip 10 [0, 0])))

/-- An IPv4 frame with the Identification it leaves with and the header checksum that goes with it (Table 8-6). -/
def withIdent (b : List Byte) (id : Nat) : List Byte :=
  let l := tmplL2 b
  let n := bitsOf (beAt b l 1) 3 0 * 4
  putBytes b l (ip4Sealed (putBytes (slice b l n) 4 (toBE 2 id)))

/-- A frame goes to the end of its queue; an IPv4 frame takes the port's next Identification (R214); a frame that finds the queue empty is its
head (R207). -/
def EthPort.push (p : EthPort) (q us : Nat) (f : TxFrame) : EthPort :=
  let v4 := tmplType f.bytes == 0x0800
  let f := if v4 then { f with bytes := withIdent f.bytes p.ident } else f
  { p with queues := modNth p.queues q (· ++ [f])
           ident := if v4 then (p.ident + 1) % 65536 else p.ident
           headAt := if (nth p.queues q []).isEmpty then setNth p.headAt q us else p.headAt }

/-- FRAME_ENQUEUE (R197, R205, R208, R215, R218): the first frame a producer holds for queue q of port n is placed on the queue;
without room it goes on waiting, and once its tick is over it waits for its abandonment only (R31); on a port that is not LINK_UP it is
accepted and discarded. A frame of an IP version the port does not send on has no destination it can reach (log entry 79). -/
def execFrameEnqueue (n q : Nat) (s : State) : Res :=
  let t := takeOut n q s.eth.outbox
  match t.1 with
  | none => .next s
  | some f =>
    let taken := { s with eth := { s.eth with outbox := t.2 } }
    if f.age < s.tick then .next s
    else if !s.ethOn n || !s.linkUp n then .next (if n < 32 then taken.txDropped n 1 else taken)
    else if s.ipOff n f.bytes || !s.resolved n f.dst then .next (taken.count (ETHn_TX_NO_NEIGH n) 1)
    else if !s.txRoom n f then .next s
    else
      let s := taken.modPort n (·.push q s.us f)
      .next (if q = 7 then s.preempt n else s)

/-- The queue the transmitter serves at a frame start (R206). Of several promoted queues the lowest goes first, also where they were promoted
in different cycles (log entry 80). -/
def txChoice (p : EthPort) : Option Nat :=
  if nth p.queues 7 [] ≠ [] then some 7
  else
    match (List.range 7).find? (fun q => p.promoted.contains q && nth p.queues q [] != []) with
    | some q => some q
    | none => (List.range 7).reverse.find? (fun q => nth p.queues q [] != [])

/-- TX_FRAME_START (R206, R210, R211): the frame in progress has ended; a suspended frame goes on once queue 7 is empty,
otherwise the chosen queue's head frame starts. -/
def execTxFrameStart (n : Nat) (s : State) : Res :=
  let p := s.port n
  if !s.ethOn n || !s.linkUp n then .next s
  else
    match txChoice p, p.susp with
    | some 7, _ | some _, none =>
      let q := (txChoice p).getD 0
      match nth p.queues q [] with
      | f :: r =>
        let us := s.us
        let s := s.modPort n (fun p => { p with queues := setNth p.queues q r, cur := some f,
                                                left := if q = 7 then p.left else f.len, headAt := setNth p.headAt q us,
                                                promoted := p.promoted.filter (· != q) })
        let s := (s.count (ETHn_TX_FRAMES n) 1).when (q = 7) (·.count (ETHn_TX_EXPRESS n) 1)
        .next (s.emit (.frame n f))
      | [] => .next s
    | _, some c => .next (s.modPort n (fun p => { p with cur := some c, susp := none }))
    | none, none => .next (s.modPort n (fun p => { p with cur := none }))

/-- QUEUE_AGE_PROMOTE (R207): the head frame of queue q has been its head for AGE_US. -/
def execQueueAgePromote (n q : Nat) (s : State) : Res :=
  if s.ethOn n && q < 7 && nth (s.port n).queues q [] ≠ []
      && nth (s.port n).headAt q 0 + s.fd ETH_AGE ⟨9, 0⟩ ≤ s.us then
    .next (s.modPort n (fun p => { p with promoted := addNew p.promoted q }))
  else .next s

/-! ### Bulk sends (R213, R214) -/

/-- The destination address of a template for the neighbour cache: 0 for a multicast one. -/
def tmplDst (t : List Byte) : Nat :=
  let l := tmplL2 t
  if tmplV6 t then (if beAt t (l + 24) 1 = 0xFF then 0 else beAt t (l + 24) 16)
  else (if 0xE0 ≤ beAt t (l + 16) 1 && beAt t (l + 16) 1 < 0xF0 then 0 else beAt t (l + 16) 4)

/-- UDP checksum over the pseudo-header; 0x0000 is sent as 0xFFFF. -/
def udpSum (v6 : Bool) (ip udp : List Byte) : Nat :=
  let addrs := if v6 then slice ip 8 32 else slice ip 12 8
  let pseudo := addrs ++ toBE 4 udp.length ++ toBE 4 17
  let c := inetSum (pseudo ++ udp)
  if c = 0 then 0xFFFF else c

/-- One frame: the template with the fields of Table 8-6, the hive header, the payload. The Identification of an IPv4 frame is the port's to
give (`EthPort.push`). -/
def frameBytes (tmpl body : List Byte) : List Byte :=
  let l := tmplL2 tmpl
  let eth := tmpl.take l
  let ulen := 8 + body.length
  if tmplV6 tmpl then
    let ip := putBytes (slice tmpl l 40) 4 (toBE 2 ulen)
    let udp := putBytes (slice tmpl (l + 40) 8) 4 (toBE 2 ulen) ++ body
    eth ++ ip ++ putBytes udp 6 (toBE 2 (udpSum true ip udp))
  else
    let ip := ip4Sealed (putBytes (putBytes (slice tmpl l 20) 2 (toBE 2 (20 + ulen))) 6 (toBE 2 0x4000))
    let udp := putBytes (slice tmpl (l + 20) 8) 4 (toBE 2 ulen) ++ body
    eth ++ ip ++ putBytes udp 6 (toBE 2 (udpSum false ip udp))

/-- Payload bytes of a full frame (R213): floor((MTU − IPH − 8 − H) / G) × G. -/
def segSize (mtu : Nat) (v6 : Bool) (h g : Nat) : Nat :=
  if g = 0 then 0 else (mtu - (if v6 then 40 else 20) - 8 - h) / g * g

/-- The hive header of the frame at payload offset `off`. -/
def Send.header (x : Send) (off : Nat) (last : Bool) : List Byte :=
  let h := putBytes x.hdr x.offAt (toBE 4 off)
  let b := beAt h x.lastAt 1
  putBytes h x.lastAt [BitVec.ofNat 8 (setBits b x.lastBit x.lastBit (if last then 1 else 0))]

/-- Payload bytes of a full frame of the send on its port, as MTU stands. -/
def State.segOf (s : State) (x : Send) : Nat := segSize (s.fd (ETHn_CFG2 x.port) ⟨13, 0⟩) (tmplV6 x.tmpl) x.hdr.length x.gran

/-- Cuts a send into frames on its port, in offset order. The frames are as old as the send. -/
def State.segment (s : State) (x : Send) : State :=
  let p := s.segOf x
  let parts := if p = 0 then [] else chunks (ceilDiv x.data.length p) p x.data
  s.each (List.zip (List.range parts.length) parts) (fun s (q : Nat × List Byte) =>
    let b := frameBytes x.tmpl (x.header (q.1 * p) (q.1 + 1 == parts.length) ++ q.2)
    s.txWait x.port { kind := x.kind, src := x.src, sid := x.sid, queue := x.queue, len := b.length + 4, age := x.age,
                      dst := tmplDst x.tmpl, bytes := b, ptp := none })

/-- The register with the producer's configuration error, at bit 0, of the producers of bulk sends. -/
def cfgErrReg : FrameKind → Option Nat
  | .brood => some CTN_ERR
  | .honey => some SUP_ERR
  | .waggle => some WAG_ERR
  | .event => some ACQ_ERR
  | .workerRecord => some WRK_ERR
  | _ => none

/-- A send the port refuses, for no granule fits a frame: the producer's configuration error (R213). -/
def State.sendRefused (s : State) (k : FrameKind) : State :=
  match cfgErrReg k with
  | some a => s.flag a 0
  | none => s

/-- A producer hands a bulk send to its port, which refuses it where P < G (R213). -/
def State.sendPut (s : State) (x : Send) : State :=
  if s.segOf x = 0 then s.sendRefused x.kind
  else { s with eth := { s.eth with sends := s.eth.sends ++ [{ x with age := s.tick, sid := s.eth.sidCtr + 1 }],
                                    sidCtr := s.eth.sidCtr + 1 } }

/-- BULK_SEND (R213, R214): the first bulk send that waits for port n is cut into frames; once its tick is over it waits for its
abandonment only (R31). An MTU lowered while it waited may leave no room for a granule: it is refused then (log entry 81). -/
def execBulkSend (n : Nat) (s : State) : Res :=
  match s.eth.sends.find? (·.port == n) with
  | some x =>
    if x.age < s.tick then .next s
    else
      let s := { s with eth := { s.eth with sends := s.eth.sends.erase x } }
      .next (if s.segOf x = 0 then s.sendRefused x.kind else s.segment x)
  | none => .next s

/-! ### Addresses (R215 to R220) -/

def State.portMac (s : State) (n : Nat) : Nat := s.rd64 (ETHn_MAC_LO n) (ETHn_MAC_HI n)

/-- The link-local address: fe80::/64 with the modified EUI-64 of the MAC address (R215). -/
def linkLocal (mac : Nat) : Nat :=
  let hi := Nat.xor (mac / 2 ^ 24) 0x020000
  0xfe80 * 2 ^ 112 + hi * 2 ^ 40 + 0xFFFE * 2 ^ 24 + mac % 2 ^ 24

/-- IPv6 addresses the port uses: an address that failed duplicate detection, or is still in it, is not used (R217). -/
def State.ip6Used (s : State) (n : Nat) : List Nat :=
  if !s.v6On n then []
  else [linkLocal (s.portMac n), s.ip6 n].filter (fun a => a != 0 && !(s.port n).v6Bad.contains a && !(s.port n).dad.any (·.1 == a))

/-- The 128-bit address of group g (an IPv4 one in its low 32 bits), and whether it is IPv6. -/
def State.grpV6 (s : State) (g : Nat) : Bool := s.bit (ETH_GRPg_CFG g) 30 == 1
def State.grpAddr (s : State) (g : Nat) : Nat :=
  if s.grpV6 g then s.rd128 (ETH_GRPg_ADDR g 0) else s.rd (ETH_GRPg_ADDR g 3)
def State.grpSrc (s : State) (g : Nat) : Nat :=
  if s.grpV6 g then s.rd128 (ETH_GRPg_SRC g 0) else s.rd (ETH_GRPg_SRC g 3)
def State.joined (s : State) (g n : Nat) : Bool := s.bit (ETH_GRPg_CFG g) 31 == 1 && s.bit (ETH_GRPg_PORTS g) n == 1

/-- The MAC address a multicast address maps to (RFC 1112, RFC 2464; R218). -/
def groupMac (v6 : Bool) (a : Nat) : Nat := if v6 then 0x3333 * 2 ^ 32 + a % 2 ^ 32 else 0x01005E * 2 ^ 24 + a % 2 ^ 23

/-- Port n is bound to an enabled PTP instance. -/
def State.ptpPort (s : State) (n : Nat) : Bool :=
  (List.range 8).any (fun i => s.bit (PTPn_CFG i) 0 == 1 && s.fd (PTPn_CFG i) PTPn_CFG_PORT == n)

/-- Multicast addresses the fixed handlers use on port n (R201, Table 3-2). -/
def State.handlerAddrs (s : State) (n : Nat) : List (Bool × Nat) :=
  (if s.ptpPort n then [(false, 0xE0000181), (false, 0xE000006B), (true, 0xFF0E * 2 ^ 112 + 0x181),
      (true, 0xFF02 * 2 ^ 112 + 0x6B)] else [])
  ++ [(false, 0xE0000001), (true, 0xFF02 * 2 ^ 112 + 1)]
  ++ ([linkLocal (s.portMac n), s.ip6 n].map (fun a => (true, 0xFF02 * 2 ^ 112 + 0x1FF000000 + a % 2 ^ 24)))

/-- Destination MAC check of Table 8-2. -/
def State.macOk (s : State) (n mac : Nat) : Bool :=
  mac == s.portMac n || mac == 2 ^ 48 - 1
  || [0x0180C2000001, 0x0180C2000002].contains mac
  || (s.ptpPort n && [0x011B19000000, 0x0180C200000E].contains mac)
  || (List.range 64).any (fun g => s.joined g n && groupMac (s.grpV6 g) (s.grpAddr g) == mac)
  || (s.handlerAddrs n).any (fun a => groupMac a.1 a.2 == mac)

/-- The joined group, if any, whose address and, for a source-specific one, source a frame has (R220). -/
def State.grpOf (s : State) (n : Nat) (v6 : Bool) (dst src : Nat) : Option Nat :=
  (List.range 64).find? (fun g => s.joined g n && s.grpV6 g == v6 && s.grpAddr g == dst
    && (s.bit (ETH_GRPg_CFG g) 29 == 0 || s.grpSrc g == src))

/-- The port's unicast addresses of an IP version. -/
def State.unicast (s : State) (n : Nat) (v6 : Bool) : List Nat :=
  if v6 then s.ip6Used n else if s.v4On n then [s.rd (ETHn_IP4 n)] else []

/-- Destination check of Table 8-2 for an IP frame. -/
def State.ipDstOk (s : State) (n : Nat) (v6 : Bool) (dst src : Nat) : Bool :=
  (s.unicast n v6).contains dst || (s.grpOf n v6 dst src).isSome || (s.handlerAddrs n).any (fun a => a == (v6, dst))

/-! ### Receive path (R196 to R204, R211) -/

/-- Passes a message to its handler. -/
def State.deliver (s : State) (x : RxItem) : State := { s with eth := { s.eth with inbox := s.eth.inbox ++ [x] } }

/-- Takes the first waiting message for a handler. -/
def State.takeRx (s : State) (p : RxItem → Bool) : Option RxItem × State :=
  match s.eth.inbox.find? p with
  | some x => (some x, { s with eth := { s.eth with inbox := s.eth.inbox.erase x } })
  | none => (none, s)

/-- A failed receive check: its counter and RX_DROP (Table 8-2). -/
def State.rxFail (s : State) (n counter : Nat) : State := (s.count counter 1).flag (ETHn_HIST n) 4

/-- Classifier entry e matches (R203). -/
def State.clsMatch (s : State) (e n : Nat) (v6 : Bool) (vid : Option Nat) (dst src port : Nat) : Bool :=
  let m := s.rd (ETH_CLSe_MATCH e)
  let u := s.rd (ETH_CLSe_UDP e)
  bitOf m 31 == 1 && s.bit (ETH_CLSe_PORTS e) n == 1
  && (bitsOf m 30 29 == 0 || bitsOf m 30 29 == (if v6 then 2 else 1))
  && (bitOf m 28 == 0 || vid == some (bitsOf m 27 16))
  && (match bitsOf m 15 14 with
      | 0 => true
      | 1 => (s.unicast n v6).contains dst
      | 2 => (s.grpOf n v6 dst src).isSome && s.grpV6 (bitsOf m 5 0) == v6 && s.grpAddr (bitsOf m 5 0) == dst
             && s.joined (bitsOf m 5 0) n
      | _ => false)
  && u % 65536 ≤ port && port ≤ u / 65536

/-- R204: the lowest matching entry acts. -/
def State.classify (s : State) (n : Nat) (v6 : Bool) (vid : Option Nat) (dst src port : Nat) (x : RxItem) : State :=
  let hits := (List.range 256).filter (fun e => s.clsMatch e n v6 vid dst src port)
  match hits with
  | [] => s.count ETH_CLS_NOMATCH 1
  | e :: more =>
    let s := (s.when (!more.isEmpty) (·.count ETH_CLS_MULTI 1)).count (ETH_CLSe_HITS e) 1
    let a := s.rd (ETH_CLSe_ACTION e)
    match a / 2 ^ 28 with
    | 1 => s.deliver { x with kind := .brood (a % 1024) }
    | 2 => s.deliver { x with kind := .host (a % 32) }
    | 3 => s.deliver { x with kind := .command }
    | _ => s

/-- IPv6 extension headers. -/
def v6Ext (nh : Nat) : Bool := [0, 43, 44, 50, 51, 60, 135, 139, 140].contains nh

/-- A frame that has passed every check of Table 8-2, as an IP datagram: fixed handlers first (Table 8-3), then the
classifier. `l3` is the protocol's own part. -/
def State.rxIp (s : State) (n : Nat) (v6 : Bool) (vid : Option Nat) (dst src proto : Nat) (l4 frame : List Byte) (stamp : Int) :
    State :=
  let item (k : RxKind) (b : List Byte) : RxItem := ⟨k, n, src, b, stamp, if proto = 17 then beAt l4 0 2 else 0, beAt frame 6 6⟩
  let ok := s.count (ETHn_RX_FRAMES n) 1
  if proto = 17 then
    let ulen := beAt l4 4 2
    let pay := slice l4 8 (ulen - 8)
    let port := beAt l4 2 2
    if port = 319 || port = 320 then (if s.ptpPort n then ok.deliver (item .ptp frame) else ok)
    else if port = s.rd ETH_UDP_FIX0 % 65536 then ok.deliver (item .command pay)
    else if port = s.rd ETH_UDP_FIX0 / 65536 then ok.deliver (item .announce pay)
    else if port = s.rd ETH_UDP_FIX1 % 65536 then ok.deliver (item .trigger pay)
    else ok.classify n v6 vid dst src port (item .command pay)
  else
    let ty := beAt l4 0 1
    if proto = 2 || (proto = 58 && [130, 131, 132, 143].contains ty) then ok.deliver (item .membership frame)
    else if (proto = 1 && ty = 8) || (proto = 58 && ty = 128) then ok.deliver (item .icmp frame)
    else if proto = 58 && (ty = 135 || ty = 136) then ok.deliver (item .neighbour frame)
    else if proto = 58 && (ty = 133 || ty = 134 || ty = 137) then ok
    else s.count (ETHn_RX_NON_UDP n) 1

/-- IPv4 checks of Table 8-2. -/
def State.rxV4 (s : State) (n : Nat) (vid : Option Nat) (ip frame : List Byte) (stamp : Int) : State :=
  let ihl := bitsOf (beAt ip 0 1) 3 0 * 4
  let dst := beAt ip 16 4
  let src := beAt ip 12 4
  let total := beAt ip 2 2
  let l4 := slice ip ihl (total - ihl)
  let proto := beAt ip 9 1
  if ihl < 20 || bitsOf (beAt ip 0 1) 7 4 ≠ 4 || total < ihl || inetSum (slice ip 0 ihl) ≠ 0 || beAt ip 6 2 % 0x4000 ≠ 0
    || !s.ipDstOk n false dst src then s.rxFail n (ETHn_RX_IP_ERR n)
  else if !([17, 1, 58, 2] : List Nat).contains proto then s.rxFail n (ETHn_RX_NON_UDP n)
  else if proto = 17 && (beAt l4 4 2 < 8 || (beAt l4 6 2 ≠ 0
      && inetSum (slice ip 12 8 ++ toBE 4 17 ++ toBE 4 (beAt l4 4 2) ++ slice l4 0 (beAt l4 4 2)) ≠ 0)) then
    s.rxFail n (ETHn_RX_IP_ERR n)
  else s.rxIp n false vid dst src proto l4 frame stamp

/-- IPv6 checks of Table 8-2. -/
def State.rxV6 (s : State) (n : Nat) (vid : Option Nat) (ip frame : List Byte) (stamp : Int) : State :=
  let dst := beAt ip 24 16
  let src := beAt ip 8 16
  let nh := beAt ip 6 1
  let l4 := slice ip 40 (beAt ip 4 2)
  if bitsOf (beAt ip 0 1) 7 4 ≠ 6 || v6Ext nh || !s.ipDstOk n true dst src then s.rxFail n (ETHn_RX_IP_ERR n)
  else if !([17, 1, 58, 2] : List Nat).contains nh then s.rxFail n (ETHn_RX_NON_UDP n)
  else if nh = 17 && (beAt l4 4 2 < 8 || beAt l4 6 2 = 0
      || inetSum (slice ip 8 32 ++ toBE 4 17 ++ toBE 4 (beAt l4 4 2) ++ slice l4 0 (beAt l4 4 2)) ≠ 0) then
    s.rxFail n (ETHn_RX_IP_ERR n)
  else s.rxIp n true vid dst src nh l4 frame stamp

/-- A whole frame goes through the checks of Table 8-2 from the length on, and the fixed handlers of Table 8-3. -/
def State.rxFrame (s : State) (n : Nat) (b : List Byte) (stamp : Int) : State :=
  let item (k : RxKind) : RxItem := ⟨k, n, beAt b 6 6, b, stamp, 0, beAt b 6 6⟩
  let t0 := beAt b 12 2
  let tagged := t0 == 0x8100
  let et := if tagged then beAt b 16 2 else t0
  let vid := if tagged && beAt b 14 2 % 4096 ≠ 0 then some (beAt b 14 2 % 4096) else none
  let l2 := if tagged then 18 else 14
  let ok := s.count (ETHn_RX_FRAMES n) 1
  if b.length < 64 || b.length > 9022 then s.rxFail n (ETHn_RX_OVERSIZE n)
  else if t0 = 0x88A8 || (tagged && (et = 0x8100 || et = 0x88A8)) then s.rxFail n (ETHn_RX_VLAN_DROP n)
  else if !s.macOk n (beAt b 0 6) then s.rxFail n (ETHn_RX_ADDR_DROP n)
  else
    let ip := (b.drop l2).take (b.length - l2 - 4)
    if et = 0x0800 then s.rxV4 n vid ip b stamp
    else if et = 0x86DD then s.rxV6 n vid ip b stamp
    else if et = 0x8808 then
      ok.when (beAt b l2 2 = 1 || beAt b l2 2 = 0x0101) (·.count (ETHn_RX_PAUSE n) 1)
    else if et = 0x8809 && beAt b l2 1 = 0x0A then (if n < 4 then ok.deliver (item .esmc) else ok)
    else if et = 0x0806 then ok.deliver (item .arp)
    else if et = 0x88F7 then (if s.ptpPort n then ok.deliver (item .ptp) else ok)
    else s.count (ETHn_RX_NON_UDP n) 1

/-- A pre-emptable frame's fragments (R211): the fragment count runs modulo 4. The check sequence of a frame's last fragment is its FCS, the
first check of Table 8-2; that of another fragment is the mCRC. -/
def State.rxFragment (s : State) (n : Nat) (f : RxFrame) : State :=
  let drop (s : State) (counter : Nat) : State := (s.modPort n (fun p => { p with rasm := none })).rxFail n counter
  let bad (s : State) : State := drop s (if f.last && !f.checkOk then ETHn_RX_FCS_ERR n else ETHn_RX_MM_ERR n)
  match f.mpkt with
  | .start k =>
    let s := if (s.port n).rasm.isSome then drop s (ETHn_RX_MM_ERR n) else s
    if !f.checkOk then bad s
    else if f.last then s.rxFrame n f.bytes f.stamp
    else s.modPort n (fun p => { p with rasm := some (k, 0, f.bytes) })
  | .cont k g =>
    match (s.port n).rasm with
    | some (k0, g0, b) =>
      if k = k0 && g = g0 && f.checkOk then
        if f.last then (s.modPort n (fun p => { p with rasm := none })).rxFrame n (b ++ f.bytes) f.stamp
        else s.modPort n (fun p => { p with rasm := some (k, (g + 1) % 4, b ++ f.bytes) })
      else bad s
    | none => bad s
  | _ => s

/-- FRAME_RECEIVE (R201): a frame or mPacket received on port n. A verify mPacket is answered; a respond mPacket answers a verify mPacket
sent, and ends the verification with SUCCEEDED (R210). -/
def execFrameReceive (n : Nat) (f : RxFrame) (s : State) : Res :=
  let f := { f with stamp := s.capture f.stamp }
  if !s.ethOn n || !s.linkUp n then .next s
  else match f.mpkt with
    | .verify => .next (if f.checkOk && !f.fecBad then s.txPut n (mmFrame .respond n) else s)
    | .respond =>
      if s.mmState n = 2 && f.checkOk && !f.fecBad then .next ((s.setMm n 3).setBit (ETHn_STATUS n) 7 true) else .next s
    | .express =>
      if f.fecBad then .next (((s.count (ETHn_FEC_UNCORR n) 1).flag (ETHn_HIST n) 3).flag (ETHn_HIST n) 4)
      else if !f.checkOk then .next (s.rxFail n (ETHn_RX_FCS_ERR n))
      else .next (s.rxFrame n f.bytes f.stamp)
    | _ =>
      if f.fecBad then
        let s := s.modPort n (fun p => { p with rasm := none })
        .next (((s.count (ETHn_FEC_UNCORR n) 1).flag (ETHn_HIST n) 3).flag (ETHn_HIST n) 4)
      else .next (s.rxFragment n f)

/-- The verify timer of port n has run: at once in INITIAL, VERIFY_MS after the last verify mPacket in VERIFYING. -/
def State.verifyDue (s : State) (n : Nat) : Bool :=
  s.mmState n == 1 || (s.mmState n == 2 && (s.port n).verAt + s.fd (ETHn_CFG n) ETHn_CFG_VERIFY_MS * 1000 ≤ s.us)

/-- MM_VERIFY_SEND (R210): the verify timer sends the next verify mPacket, or, after 3 without a response, ends in
FAILED. -/
def execMmVerifySend (n : Nat) (s : State) : Res :=
  if !s.ethOn n || !s.linkUp n || !s.verifyDue n then .next s
  else if (s.port n).tries < 3 then
    let us := s.us
    .next (((s.modPort n (fun p => { p with tries := p.tries + 1, verAt := us })).setMm n 2).txPut n (mmFrame .verify n))
  else .next ((s.setMm n 4).flag (ETHn_HIST n) 2)

/-! ### Network services (R216 to R220) -/

/-- Ethernet header of a frame of port n. -/
def State.ethHead (s : State) (n mac type : Nat) : List Byte := toBE 6 mac ++ toBE 6 (s.portMac n) ++ toBE 2 type

/-- An ARP packet of port n (RFC 826): op 1 a request, 2 a reply. -/
def State.arpFrame (s : State) (n op mac targetMac targetIp : Nat) : TxFrame :=
  svcFrame .arp n (s.ethHead n mac 0x0806 ++ toBE 2 1 ++ toBE 2 0x0800 ++ [6, 4] ++ toBE 2 op ++ toBE 6 (s.portMac n)
    ++ toBE 4 (s.rd (ETHn_IP4 n)) ++ toBE 6 targetMac ++ toBE 4 targetIp)

/-- An IPv6 message of ICMPv6 (RFC 4443) from `src` to `dst`, its checksum, bytes 2 and 3, computed; `opt` is a hop-by-hop header. -/
def State.icmp6 (s : State) (n mac src dst hops : Nat) (opt body : List Byte) : List Byte :=
  let addrs := toBE 16 src ++ toBE 16 dst
  let sum := inetSum (addrs ++ toBE 4 body.length ++ toBE 4 58 ++ putBytes body 2 [0, 0])
  s.ethHead n mac 0x86DD ++ toBE 4 0x60000000 ++ toBE 2 (opt.length + body.length) ++ toBE 1 (if opt.isEmpty then 58 else 0) ++ toBE 1 hops
    ++ addrs ++ opt ++ putBytes body 2 (toBE 2 sum)

/-- An IPv4 message of protocol `proto` that carries the Internet checksum at bytes 2 and 3 of its body (ICMP, IGMP); `opt` are header options. -/
def State.ip4Msg (s : State) (n mac dst ttl proto : Nat) (opt body : List Byte) : List Byte :=
  let head := toBE 1 (0x45 + opt.length / 4) ++ [0] ++ toBE 2 (20 + opt.length + body.length) ++ toBE 2 0 ++ toBE 2 0x4000 ++ toBE 1 ttl
    ++ toBE 1 proto ++ [0, 0] ++ toBE 4 (s.rd (ETHn_IP4 n)) ++ toBE 4 dst ++ opt
  s.ethHead n mac 0x0800 ++ ip4Sealed head ++ putBytes body 2 (toBE 2 (inetSum (putBytes body 2 [0, 0])))

/-- FF02::1, all nodes; the solicited-node address of an address. -/
def allNodes : Nat := 0xFF02 * 2 ^ 112 + 1
def solicited (a : Nat) : Nat := 0xFF02 * 2 ^ 112 + 0x1FF000000 + a % 2 ^ 24

/-- A neighbour solicitation for `target` (RFC 4861); from the unspecified address it is a probe of duplicate address detection and carries no
link-layer address. -/
def State.solicit (s : State) (n src target : Nat) : TxFrame :=
  let opt : List Byte := if src = 0 then [] else [1, 1] ++ toBE 6 (s.portMac n)
  let dst := solicited target
  svcFrame .neighbour n (s.icmp6 n (groupMac true dst) src dst 255 [] ([135, 0, 0, 0] ++ toBE 4 0 ++ toBE 16 target ++ opt))

/-- A neighbour advertisement of `target` to `dst`; where it answers no address it goes to all nodes, unsolicited. -/
def State.advertise (s : State) (n mac dst target : Nat) : TxFrame :=
  let none_ := dst = 0
  let flags := if none_ then 0x20000000 else 0x60000000
  let to_ := if none_ then allNodes else dst
  svcFrame .neighbour n (s.icmp6 n (if none_ then groupMac true allNodes else mac) target to_ 255 []
    ([136, 0, 0, 0] ++ toBE 4 flags ++ toBE 16 target ++ [2, 1] ++ toBE 6 (s.portMac n)))

/-- One gratuitous ARP for the port's address (R216). -/
def State.gratuitous (s : State) (n : Nat) : State :=
  if s.v4On n && s.linkUp n then s.txPut n (s.arpFrame n 1 (2 ^ 48 - 1) 0 (s.rd (ETHn_IP4 n))) else s

/-- Duplicate address detection of the port's link-local and global address starts, with one solicitation each (R217). -/
def State.startDad (s : State) (n : Nat) : State :=
  if s.v6On n && s.linkUp n then
    let l := [linkLocal (s.portMac n), s.ip6 n].filter (· != 0)
    let us := s.us
    (s.modPort n (fun p => { p with dad := l.map (fun a => (a, us)), v6Bad := [] })).each l (fun s a => s.txPut n (s.solicit n 0 a))
  else s

/-- The MM state at LINK_UP or a change of the pre-emption settings (R210). -/
def State.startMm (s : State) (n : Nat) : State :=
  let en := s.fd (ETHn_CFG n) ETHn_CFG_PREEMPT_EN = 1
  let skip := s.fd (ETHn_CFG n) ETHn_CFG_VERIFY_DIS = 1
  let s := s.modPort n (fun p => { p with tries := 0 })
  (s.setMm n (if en && !skip then 1 else 0)).setBit (ETHn_STATUS n) 7 (en && skip)

/-- LINK_UP (R197, R210, R216, R217): lanes locked, PCS aligned, RS-FEC locked and, where it is used, negotiation done. -/
def execLinkUp (n : Nat) (s : State) : Res :=
  if !s.ethOn n || s.linkUp n then .next s
  else
    let cfg := s.rd (ETHn_CFG n)
    let an := bitsOf cfg 3 1 < 2 && bitOf cfg 4 = 1
    let s := s.wr (ETHn_STATUS n) (if an then 0x7F else 0x7D)
    let s := s.flag (ETHn_HIST n) 1
    .next (((s.startMm n).gratuitous n).startDad n).monLatch

/-- The port leaves LINK_UP (R197): its queues, the frame in progress and the frames that wait for it are discarded. -/
def State.linkDrop (s : State) (n : Nat) : State :=
  if !s.linkUp n then s
  else
    let p := s.port n
    let k := sumL (p.queues.map List.length) + (s.eth.outbox.filter (·.1 == n)).length
    let s := s.wr (ETHn_STATUS n) 0
    let s := { s with eth := { s.eth with outbox := s.eth.outbox.filter (·.1 != n) } }
    let s := s.modPort n (fun p => { EthPort.reset with ident := p.ident, v6Bad := p.v6Bad, echoes := p.echoes })
    (s.txDropped n k).flag (ETHn_HIST n) 0

/-- ARP_REQUEST (R216): an ARP packet on port n: a request for the port's address is answered; a claim of it from another
MAC is a conflict. -/
def execArpRequest (n : Nat) (request : Bool) (senderIp senderMac targetIp : Nat) (s : State) : Res :=
  if !s.ethOn n || !s.v4On n then .next s
  else
    let s := (s.takeRx (fun x => x.kind == .arp && x.port == n)).2
    let s := s.when (senderIp == s.rd (ETHn_IP4 n) && senderMac != s.portMac n) (·.flag (ETHn_HIST n) 6)
    if request && targetIp = s.rd (ETHn_IP4 n) then .next (s.txPut n (s.arpFrame n 2 senderMac senderMac senderIp))
    else .next s

/-- NEIGHBOUR_SOLICITATION (R217): answered for an address the port uses, to the address it came from, or, where it was a probe, to all
nodes; another host's probe for an address under detection fails it. -/
def execNeighbourSolicitation (n target : Nat) (probe : Bool) (s : State) : Res :=
  if !s.ethOn n || !s.v6On n then .next s
  else
    let r := s.takeRx (fun x => x.kind == .neighbour && x.port == n)
    let s := r.2
    if probe && (s.port n).dad.any (·.1 == target) then
      .next ((s.modPort n (fun p => { p with v6Bad := addNew p.v6Bad target })).flag (ETHn_HIST n) 6)
    else if (s.ip6Used n).contains target then
      let src := match r.1 with | some x => if probe then 0 else x.src | none => 0
      let mac := match r.1 with | some x => x.smac | none => 0
      .next (s.txPut n (s.advertise n mac src target))
    else .next s

/-- DAD_COMPLETE (R217): the 1 s wait of the address longest under detection is over; `conflict` where another host answered. -/
def execDadComplete (n : Nat) (conflict : Bool) (s : State) : Res :=
  match (s.port n).dad with
  | (a, at_) :: r =>
    if !s.ethOn n || (s.us < at_ + 1000000 && !conflict) then .next s
    else
      let s := s.modPort n (fun p => { p with dad := r, v6Bad := if conflict then addNew p.v6Bad a else p.v6Bad })
      .next (s.when conflict (·.flag (ETHn_HIST n) 6))
  | [] => .next s

/-- NEIGHBOUR_REFRESH (R218): entry e of the neighbour cache is resolved again, to `mac` or to nothing: at once where it has no MAC
address yet, else every REACH_S seconds. -/
def execNeighbourRefresh (e : Nat) (mac : Option Nat) (s : State) : Res :=
  match s.eth.neigh[e]? with
  | some x =>
    if x.mac.isSome && s.us < x.at_ + s.fd ETH_NEIGH_CFG ⟨11, 0⟩ * 1000000 then .next s
    else
      let s := { s with eth := { s.eth with neigh := setNth s.eth.neigh e { x with mac := mac, at_ := s.us } } }
      .next (s.txPut x.port (if x.v6 then s.solicit x.port (s.ip6 x.port) x.ip else s.arpFrame x.port 1 (2 ^ 48 - 1) 0 x.ip))
  | none => .next s

/-- Puts the address a destination is reached through into the neighbour cache; `none` where it would exceed 1,024 entries (R218). -/
def State.addNeigh (s : State) (v6 : Bool) (ip port : Nat) : Option State :=
  let hop := s.nextHop port ip
  if ip = 0 || s.eth.neigh.any (fun e => e.ip == hop && e.port == port) then some s
  else if s.eth.neigh.length ≥ 1024 then none
  else some { s with eth := { s.eth with neigh := s.eth.neigh ++ [⟨v6, hop, port, none, s.us⟩] } }

/-- ICMP_ECHO_REQUEST (R219): the echo request that waits on port n, to the destination `dst`, is answered with what follows its type, code
and checksum unchanged, at most ETH_ICMP_RATE times in a second. -/
def execIcmpEchoRequest (n : Nat) (v6 : Bool) (dst : Nat) (payload : List Byte) (s : State) : Res :=
  if !s.ethOn n || !(s.unicast n v6).contains dst then .next s
  else
    let r := s.takeRx (fun x => x.kind == .icmp && x.port == n)
    match r.1 with
    | none => .next s
    | some x =>
      let s := r.2
      let b := if v6 then s.icmp6 n x.smac dst x.src (Config.ipTtl % 256) [] ([129, 0, 0, 0] ++ payload)
        else s.ip4Msg n x.smac x.src (Config.ipTtl % 256) 1 [] ([0, 0, 0, 0] ++ payload)
      if (s.port n).echoes < s.fd ETH_ICMP_RATE ⟨15, 0⟩ then
        .next ((s.modPort n (fun p => { p with echoes := p.echoes + 1 })).txPut n (svcFrame .icmp n b))
      else .next (s.count (ETHn_ICMP_LIMITED n) 1)

/-- MULTICAST_QUERY (R220): an IGMP or MLD query for `groups` (none: a general query) with its maximum response time in ms. The report is due at
n/32 of that time. -/
def execMulticastQuery (n : Nat) (kind : QueryKind) (groups : List Nat) (maxMs : Nat) (s : State) : Res :=
  if !s.ethOn n then .next s
  else
    let s := (s.takeRx (fun x => x.kind == .membership && x.port == n)).2
    let s := s.when kind.old (·.count (ETHn_RX_OLD_QUERY n) 1)
    let named := (List.range 64).filter (fun g => s.joined g n && s.grpV6 g == kind.v6 && (groups.isEmpty || groups.contains (s.grpAddr g)))
    let due := s.us + n * maxMs * 1000 / 32
    .next (s.modPort n (fun p => { p with queries := p.queries ++ [(due, named)] }))

/-- A group record of a report (RFC 3376, RFC 3810): its type, the group, its source where it is source-specific. -/
def State.grpRecord (s : State) (g type : Nat) : List Byte :=
  let w := if s.grpV6 g then 16 else 4
  let src : List Byte := if s.bit (ETH_GRPg_CFG g) 29 = 1 then toBE w (s.grpSrc g) else []
  toBE 1 type ++ [0] ++ toBE 2 (src.length / w) ++ toBE w (s.grpAddr g) ++ src

/-- Record types: of the current state MODE_IS_INCLUDE 1 and MODE_IS_EXCLUDE 2; of a change CHANGE_TO_INCLUDE 3 and CHANGE_TO_EXCLUDE 4 for
EXCLUDE {}, ALLOW_NEW_SOURCES 5 and BLOCK_OLD_SOURCES 6 for INCLUDE {SRC}. -/
def State.stateType (s : State) (g : Nat) : Nat := if s.bit (ETH_GRPg_CFG g) 29 = 1 then 1 else 2
def State.changeType (s : State) (g : Nat) (join : Bool) : Nat :=
  match s.bit (ETH_GRPg_CFG g) 29, join with
  | 1, true => 5
  | 1, false => 6
  | _, true => 4
  | _, false => 3

/-- Ethernet, IP and UDP headers of a hive's own message to `dst` (an IPv6 address where v6), the lengths and checksums
still 0. The time to live, which the manual does not give, is a free constant (log entry 11). -/
def State.ownTmpl (s : State) (port : Nat) (v6 : Bool) (mac dst udp : Nat) : List Byte :=
  let l2 := toBE 6 mac ++ toBE 6 (s.portMac port) ++ toBE 2 (if v6 then 0x86DD else 0x0800)
  let ttl := Config.ipTtl % 256
  let l3 := if v6 then toBE 4 0x60000000 ++ toBE 2 0 ++ toBE 1 17 ++ toBE 1 ttl ++ toBE 16 (s.ip6 port) ++ toBE 16 dst
    else toBE 4 0x45000000 ++ toBE 4 0 ++ toBE 1 ttl ++ toBE 1 17 ++ toBE 2 0 ++ toBE 4 (s.rd (ETHn_IP4 port)) ++ toBE 4 dst
  l2 ++ l3 ++ toBE 2 udp ++ toBE 2 udp ++ toBE 4 0

/-- A membership report of the records of one IP version: IGMPv3 to 224.0.0.22 or MLDv2 to FF02::16, with the router alert option. -/
def State.report (s : State) (n : Nat) (v6 : Bool) (recs : List (List Byte)) : State :=
  let body (type : Nat) : List Byte := toBE 1 type ++ [0, 0, 0, 0, 0] ++ toBE 2 recs.length ++ recs.flatten
  let dst6 := 0xFF02 * 2 ^ 112 + 0x16
  s.txPut n (svcFrame .membership n (if v6
    then s.icmp6 n (groupMac true dst6) (linkLocal (s.portMac n)) dst6 1 [58, 0, 5, 2, 0, 0, 1, 0] (body 143)
    else s.ip4Msg n (groupMac false 0xE0000016) 0xE0000016 1 2 [148, 4, 0, 0] (body 0x22)))

/-- The current-state report of groups of one IP version; none where there are no groups. -/
def State.stateReport (s : State) (n : Nat) (groups : List Nat) : State :=
  match groups with
  | [] => s
  | g :: _ => s.report n (s.grpV6 g) (groups.map (fun g => s.grpRecord g (s.stateType g)))

/-- The state-change report of one join or leave. -/
def State.changeReport (s : State) (g n : Nat) (join : Bool) : State :=
  s.report n (s.grpV6 g) [s.grpRecord g (s.changeType g join)]

/-- MULTICAST_REPORT_SEND (R220): the report of the first query that waits on port n, once it is due. -/
def execMulticastReportSend (n : Nat) (s : State) : Res :=
  match (s.port n).queries with
  | (due, gs) :: r =>
    if s.us < due then .next s else .next ((s.modPort n (fun p => { p with queries := r })).stateReport n gs)
  | [] => .next s

/-- GROUP_STATE_CHANGE (R220): the first join or leave not yet reported is reported, the repeat to follow after 1 s. -/
def execGroupStateChange (s : State) : Res :=
  match s.eth.grpPend with
  | (g, n, j) :: r =>
    let s := { s with eth := { s.eth with grpPend := r, grpRep := s.eth.grpRep ++ [(g, n, j, s.us)] } }
    .next (s.changeReport g n j)
  | [] => .next s

/-- STATE_CHANGE_REPORT_REPEAT (R220): 1 s after the first. -/
def execStateChangeReportRepeat (s : State) : Res :=
  match s.eth.grpRep with
  | (g, n, j, at_) :: r =>
    if s.us < at_ + 1000000 then .next s else .next ({ s with eth := { s.eth with grpRep := r } }.changeReport g n j)
  | [] => .next s

/-! ### Register writes -/

/-- The ranges of the ETH registers and the lock of ETHn_CFG while EN is 1 (chapter 08). -/
def ethPre (a new : Nat) (s : State) : Option State :=
  let bad := some (s.flag ETH_ERR 0)
  let f (hi lo : Nat) := bitsOf new hi lo
  if 0x901000 ≤ a && a < 0x903000 then
    match a % 0x100 with
    | 0 => if s.bit a 0 = 1 && s.rd a / 2 ≠ new / 2 then bad else if f 15 9 = 0 then bad else none
    | 0x18 => if f 5 0 > 32 then bad else none
    | 0x30 => if f 7 0 > 128 then bad else none
    | 0x44 => if f 13 0 < 1280 || f 13 0 > 9000 then bad else none
    | _ => none
  else if 0x904000 ≤ a && a < 0x906000 then
    match a % 0x20 with
    | 8 => if f 15 0 > f 31 16 then bad else none
    | 12 => if f 31 28 ≥ 4 then bad else none
    | _ => none
  else if a = ETH_AGE then (if f 9 0 < 1 || f 9 0 > 1000 then bad else none)
  else if a = ETH_NEIGH_CFG then (if f 11 0 < 10 || f 11 0 > 3600 then bad else none)
  else none

/-- After a write: a port disabled leaves LINK_UP; a change of address announces itself (R216, R217); a change of group
membership waits for its report (R220). -/
def ethPost (a old : Nat) (s : State) : State :=
  if a = ETH_CTRL then (if s.bit a 0 = 0 then s.each (List.range 32) State.linkDrop else s)
  else if 0x901000 ≤ a && a < 0x903000 then
    let n := (a - 0x901000) / 0x100
    match a % 0x100 with
    | 0 => if s.bit a 0 = 0 then s.linkDrop n else s
    | 0x0C | 0x10 => if s.rd a = old then s else (s.gratuitous n).startDad n
    | 0x14 | 0x18 => if s.rd a = old then s else s.gratuitous n
    | 0x20 | 0x24 | 0x28 | 0x2C | 0x30 => if s.rd a = old then s else s.startDad n
    | _ => s
  else if 0x906000 ≤ a && a < 0x907000 && a % 0x40 ≤ 4 then
    let g := (a - 0x906000) / 0x40
    let was (n : Nat) : Bool :=
      if a % 0x40 = 0 then bitOf old 31 == 1 && s.bit (ETH_GRPg_PORTS g) n == 1
      else s.bit (ETH_GRPg_CFG g) 31 == 1 && bitOf old n == 1
    let ch := (List.range 32).filter (fun n => was n != s.joined g n)
    { s with eth := { s.eth with grpPend := s.eth.grpPend ++ ch.map (fun n => (g, n, s.joined g n)) } }
  else s

end Sys2Proof.Machine
end

