-- ==== Sys2Proof/Machine/Time.lean ====
section
/-!
DEFINITION. Hive time and network time (chapter 03): the local clock, the snapshot, the time of day, PTP instances,
offset measurements and steps. The tick strobe itself, which reaches every block, is in Tick.lean.
-/
namespace Sys2Proof.Machine

/-- TIM_NOW_FRAC_READ (R67): the snapshot of one instant. `cycles` clock cycles have passed since the last command. -/
def execTimNowFracRead (cycles : Nat) (s : State) : Res :=
  let s := s.elapse cycles
  let k := s.tim.now / tickU
  .next (((((((s.wr TIM_NOW_FRAC s.fraction).wr TIM_NOW_NS s.nanoseconds).wr TIM_NOW_SEC_LO (s.seconds % 2 ^ 32)).wr
    TIM_NOW_SEC_HI (s.seconds / 2 ^ 32)).wr TIM_TICK_LO (k % 2 ^ 32)).wr TIM_TICK_HI (k / 2 ^ 32 % 2 ^ 32)))

/-! ### Time of day (R68 to R70) -/

/-- Hive time set directly, TIME_VALID to 1 (R68). -/
def State.setTime (s : State) (t : Nat) : State :=
  let s := s.setBit TIM_STATUS 0 true
  ({ s with tim := { s.tim with now := t, todPend := none, todEdge := false } }).monLatch

/-- The edge that loads a TIME_SET which executed at `at_` (R68): one of the active 1PPS reference since; without one, the hive second boundary in whose cycle
hive time stands. -/
def State.todDue (s : State) (at_ : Nat) : Bool :=
  if s.candIsPps (s.fd CLK_STATUS CLK_STATUS_ACTIVE) then s.tim.todEdge
  else s.tim.now % secU < s.clockStep && at_ < s.tim.now

/-- TIME_OF_DAY_LOAD (R68): the selected 1PPS edge, or the hive second boundary where no 1PPS reference is selected,
loads the SECONDS value of a pending TIME_SET. -/
def execTimeOfDayLoad (s : State) : Res :=
  match s.tim.todPend with
  | some (sec, at_) => if s.timeValid || !s.todDue at_ then .next s else .next (s.setTime (sec % 2 ^ 48 * secU))
  | none => .next s

/-- The body of TIME_SET (R68): TIME_SOURCE while TOD_SRC is 0 or TIME_VALID is 1; else SECONDS waits. -/
def timeSet (seconds : Nat) (s : State) : Nat × State :=
  if s.fd TIM_CTRL TIM_CTRL_TOD_SRC = 0 || s.timeValid then (0x0406, s)
  else (0, { s with tim := { s.tim with todPend := some (seconds, s.tim.now), todEdge := false } })

/-! ### References measured against hive time (R91, R92, R94) -/

/-- What an edge of 1PPS input c at `e` leaves: its distance from its second, and, where the input is the active reference, the alignment instant of
R112, the phase of the loop, and the edge a TIME_SET waits for. -/
def State.ppsMeasured (s : State) (c : Nat) (e off : Int) (far : Bool) : State :=
  let s := { s with clk := { s.clk with edgeAt := setNth s.clk.edgeAt c (some s.tim.us),
                                        edgeOfs := if far then s.clk.edgeOfs else setNth s.clk.edgeOfs c off } }
  if s.fd CLK_STATUS CLK_STATUS_ACTIVE = c then
    let after := match s.tim.todPend with | some p => decide ((p.2 : Int) < e * 2 ^ 32) | none => false
    { s with clk := { s.clk with ppsEdge := some e, phase := if far then s.clk.phase else off }
             tim := { s.tim with todEdge := s.tim.todEdge || after } }
  else s

/-- PPS_REF_EDGE (R91, R92): a rising edge of 1PPS candidate c at the instant `edge` (2^−16 ns), with the measured
frequency offset. An edge outside a condition of Table 4-4 loses QUALIFIED; where only the phase condition failed it sets PHASE_FAR. ACTIVITY is set by an edge
of a 1PPS input (log entry 86). -/
def execPpsRefEdge (c : Nat) (edge fofs : Int) (s : State) : Res :=
  if c ≥ 8 || !s.candIsPps c then .next s
  else
    let s := (s.wr (CANDc_FOFS c) (unsigned 32 fofs)).setBit (CANDc_STATUS c) 0 true
    let e := s.capture edge
    let off := fromSecond (e - signed 32 (s.rd (CANDc_DLY c)) * 16384)
    let far := s.timeValid && decide ((s.fd TIM_STEP_THR TIM_STEP_THR_THR * 65536 : Nat) < off.natAbs)
    let s := s.when (!s.candHolds c) (·.failCand c)
    let s := s.ppsMeasured c e off far
    let good := s.fofsOk c fofs
    .next (if !far && good then s.passCand c else (s.when (far && good) (·.flag CLK_HIST 6)).failCand c)

/-- ESMC_PDU_RECEIVE (R94): SSM code `ssm` of option 1 on ETH0 to ETH3, mapped through CLK_SSM_MAP as it stands now: a later write of the map
waits for the next PDU (log entry 87). -/
def execEsmcPduReceive (port ssm : Nat) (s : State) : Res :=
  if port ≥ 4 then .next s
  else
    let s := (s.takeRx (fun x => x.kind == .esmc && x.port == port)).2
    let s := { s with clk := { s.clk with esmcAt := setNth s.clk.esmcAt port s.tim.us } }
    .next (s.setCandQl (9 + port) (s.rd64 CLK_SSM_MAP_LO CLK_SSM_MAP_HI / 2 ^ (4 * (ssm % 16)) % 16))

/-! ### Steps (R81 to R86) -/

/-- TIM_STEP_THR in 2^−16 ns. -/
def State.stepThr (s : State) : Int := (s.fd TIM_STEP_THR TIM_STEP_THR_THR * 2 ^ 16 : Nat)

/-- TIM_STEP_OFS. -/
def State.stepOfs (s : State) : Int := signed 64 (s.rd64 TIM_STEP_OFS_LO TIM_STEP_OFS_HI)

/-- STEP_PENDING clears; a scheduled step is cancelled (R81, R84). -/
def State.clearStepPending (s : State) : State :=
  let s := s.setBit TIM_STATUS 1 false
  if s.bit TIM_STATUS 2 = 1 then
    let s := (s.setBit TIM_STATUS 2 false).flag TIM_HIST 3
    { s with tim := { s.tim with step := none } }
  else s

/-- Ends a run of 1 to 3 measurements above the threshold: its members were outliers (R81). -/
def State.endRun (s : State) : State :=
  let s := s.count TIM_OUTLIER_CNT s.tim.runLen
  { s with tim := { s.tim with runLen := 0 } }

/-- Latches an offset in TIM_STEP_OFS (R81). -/
def State.latchOfs (s : State) (off : Int) : State := s.wr64 TIM_STEP_OFS_LO TIM_STEP_OFS_HI (unsigned 64 off)

/-- An offset within the threshold goes to the DPLL: the phase to be slewed out where PTP is active, or steers the phase of a
frequency-only reference (R103, R106). -/
def State.toDpll (s : State) (off : Int) : State :=
  let act := s.fd CLK_STATUS CLK_STATUS_ACTIVE
  { s with clk := { s.clk with ptpOfs := off, phase := if act = 8 || s.outerLoop act then off else s.clk.phase } }

/-- A measured offset while TIME_VALID is 1 (R81). -/
def State.measured (s : State) (off : Int) : State :=
  let big := decide (s.stepThr < off) || decide (off < -s.stepThr)
  let neg := decide (off < 0)
  if s.bit TIM_STATUS 1 = 1 then
    if big then
      let s := s.latchOfs off
      { s with tim := { s.tim with within := 0 } }
    else
      let s := s.toDpll off
      if s.tim.within + 1 ≥ 4 then
        let s := s.clearStepPending
        { s with tim := { s.tim with within := 0, runLen := 0 } }
      else { s with tim := { s.tim with within := s.tim.within + 1 } }
  else if big then
    let s := if s.tim.runLen = 0 || s.tim.runNeg == neg then s else s.endRun
    let n := s.tim.runLen + 1
    if n ≥ 4 then
      let s := ((s.setBit TIM_STATUS 1 true).latchOfs off).flag TIM_HIST 1
      { s with tim := { s.tim with runLen := 0, within := 0 } }
    else { s with tim := { s.tim with runLen := n, runNeg := neg } }
  else
    s.endRun.toDpll off

/-- The body of TIME_ACCEPT_STEP (R83). Hive time has reached S − 1 s once the strobe at that second has been issued (R606). -/
def timeAcceptStep (delta : Int) (sec : Nat) (s : State) : Nat × State :=
  if sec = 0 || s.begun ((sec - 1) * 1000000) then (0x0401, s)
  else if s.bit TIM_STATUS 1 = 0 || decide (s.stepThr < delta + s.stepOfs) || decide (delta + s.stepOfs < -s.stepThr)
    then (0x0403, s)
  else if s.bit TIM_STATUS 2 = 1 then (0x0404, s)
  else
    let s := s.setBit TIM_STATUS 2 true
    (0, { s with tim := { s.tim with step := some (delta, sec) } })

/-- The scheduled step at its apply second: hive time becomes S seconds plus Δ in the cycle in which it would reach S
(R84); the ticks a forward step passes over are never issued (R85); the step interval is kept for R86. -/
def State.applyStep (s : State) : State :=
  match s.tim.step with
  | none => s
  | some (delta, sec) =>
    let at16 : Int := (sec * 1000000000 * 2 ^ 16 : Nat)
    let now' := ((at16 + delta) * (2 ^ 32 : Nat)).toNat
    let skip : List (Nat × Nat) :=
      match s.tim.lastTick with
      | some t => if ceilDiv now' tickU > t + 1 then [(t + 1, ceilDiv now' tickU - 1)] else []
      | none => []
    let ival := if delta < 0 then (at16 + delta, at16) else (at16, at16 + delta)
    let s := { s with tim := { s.tim with now := now', step := none, skipped := skip ++ s.tim.skipped,
                                          stepIvals := ival :: s.tim.stepIvals,
                                          stepSecs := sec :: s.tim.stepSecs } }
    ((s.setBit TIM_STATUS 1 false).setBit TIM_STATUS 2 false).flag TIM_HIST 2

/-- The scheduled step is due: hive time reaches its apply second by the next tick boundary. -/
def State.stepDue (s : State) : Bool :=
  match s.tim.step with
  | some st => decide (st.2 * secU ≤ s.nextTick * tickU)
  | none => false

/-- STEP_APPLY (R84): hive time would reach the apply second. Before that, and without a scheduled step, nothing happens. -/
def execStepApply (s : State) : Res := .next (if s.stepDue then s.applyStep else s)

/-- Was tick k passed over by a forward step (R85)? -/
def State.tickSkipped (s : State) (k : Nat) : Bool := s.tim.skipped.any (fun r => r.1 ≤ k && k ≤ r.2)

/-- Does the span [lo, hi) of hive time, 2^−16 ns, intersect a step interval (R86)? A span that needs a tick that was
never issued is marked too. -/
def State.spanStepped (s : State) (lo hi : Int) : Bool :=
  s.tim.stepIvals.any (fun r => decide (lo < r.2) && decide (r.1 < hi))

/-- The span of ticks a to b has TIME_STEP to mark (R86). -/
def State.ticksStepped (s : State) (a b : Nat) : Bool :=
  s.spanStepped ((a * 1000 * 2 ^ 16 : Nat)) (((b + 1) * 1000 * 2 ^ 16 : Nat))
  || s.tim.skipped.any (fun r => r.1 ≤ b && a ≤ r.2)

/-! ### PTP instances (R71 to R80) -/

/-- Instance n of a state. -/
def State.ptpInst (s : State) (n : Nat) : PtpInst := nth s.tim.ptp n PtpInst.reset

/-- The state with instance n changed. -/
def State.setPtp (s : State) (n : Nat) (p : PtpInst) : State := { s with tim := { s.tim with ptp := setNth s.tim.ptp n p } }

/-- portState of instance n: 1 INITIALIZING, 2 FAULTY, 3 DISABLED, 4 LISTENING, 6 MASTER, 7 PASSIVE, 9 SLAVE. -/
def State.portState (s : State) (n : Nat) : Nat := s.fd (PTPn_STATE n) PTPn_STATE_PORT_STATE

/-- Sets the portState of instance n. -/
def State.setPortState (s : State) (n v : Nat) : State := s.setFd (PTPn_STATE n) PTPn_STATE_PORT_STATE v

/-- The instance TIM_CTRL.PTP_SRC names (R74). -/
def State.timeSource (s : State) : Nat := s.fd TIM_CTRL TIM_CTRL_PTP_SRC

/-- clockClass an instance advertises in the present DPLL state (R75). -/
def State.advClass (s : State) (n : Nat) : Nat :=
  match s.fd CLK_STATUS CLK_STATUS_STATE with
  | 2 => s.fd (PTPn_CLASS n) PTPn_CLASS_LOCKED
  | 3 => s.fd (PTPn_CLASS n) PTPn_CLASS_HOLDOVER
  | _ => s.fd (PTPn_CLASS n) PTPn_CLASS_FREERUN

/-- The values a clock is ranked by in the best master clock algorithm of IEEE 1588-2019 9.3.4, first to last (log entry 8). -/
def ptpRank (m : PtpMsg) : List Nat := [m.prio1, m.cls, m.accuracy, m.variance, m.prio2, m.gmId, m.steps, m.source]

/-- Lexicographic order of ranks. -/
def rankLt : List Nat → List Nat → Bool
  | [], _ => false
  | _, [] => false
  | a :: as, b :: bs => a < b || (a == b && rankLt as bs)

/-- The class instance n stands for in the algorithm: 255 where it is slave-only. -/
def State.ownClass (s : State) (n : Nat) : Nat := if s.fd (PTPn_CFG n) PTPn_CFG_SLAVE_ONLY = 1 then 255 else s.advClass n

/-- The hive's own rank for instance n. -/
def State.ownRank (s : State) (n : Nat) : List Nat :=
  [s.fd (PTPn_PRIO n) PTPn_PRIO_PRIORITY1, s.ownClass n, Config.clockAccuracy, Config.clockVariance,
   s.fd (PTPn_PRIO n) PTPn_PRIO_PRIORITY2, Config.clockIdentity, 0, Config.clockIdentity]

/-- An interval of 2^v seconds in microseconds, v the signed value of a byte. -/
def logUs (v : Nat) : Nat :=
  let l := signed 8 v
  if l < 0 then 1000000 / 2 ^ l.natAbs else 1000000 * 2 ^ l.natAbs

/-- The announce, request and sync intervals of instance n. -/
def State.annUs (s : State) (n : Nat) : Nat := logUs (s.fd (PTPn_INTV n) ⟨23, 16⟩)
def State.reqUs (s : State) (n : Nat) : Nat := logUs (s.fd (PTPn_INTV n) ⟨15, 8⟩)
def State.syncUs (s : State) (n : Nat) : Nat := logUs (s.fd (PTPn_INTV n) ⟨7, 0⟩)

/-- Instance n uses the peer-to-peer mechanism. The high accuracy profile is a delay request-response profile (Table 3-2), whatever P2P holds (log
entry 90). -/
def State.ptpP2p (s : State) (n : Nat) : Bool := s.bit (PTPn_CFG n) 8 == 1 && s.bit (PTPn_CFG n) 12 == 0

/-- Instance n runs: PTP and the instance are enabled. -/
def State.ptpRuns (s : State) (n : Nat) : Bool := n < 8 && s.bit TIM_CTRL 0 == 1 && s.bit (PTPn_CFG n) 0 == 1

/-- Instance n follows, or is about to follow, a master: SLAVE 9 or UNCALIBRATED 8. -/
def State.ptpSlave (s : State) (n : Nat) : Bool := s.portState n == 9 || s.portState n == 8

/-- The best of the qualified masters heard. -/
def bestOf (l : List Foreign) : Option PtpMsg :=
  l.foldl (fun b f => if !f.qual then b else match b with
    | none => some f.msg
    | some m => if rankLt (ptpRank f.msg) (ptpRank m) then some f.msg else b) none

/-- A portState decision of the best master clock algorithm with `best` the best master heard (R71; log entry 8): a better master
makes the instance UNCALIBRATED, from which its first complete measurement makes it SLAVE, or PASSIVE where the hive's own class lies in 1 to 127;
otherwise it serves as MASTER, PRE_MASTER lasting no time on an ordinary clock. -/
def State.decidePort (s : State) (n : Nat) (old : Option PtpMsg) (best : PtpMsg) : State :=
  let better := rankLt (ptpRank best) (s.ownRank n)
  if s.fd (PTPn_CFG n) PTPn_CFG_MASTER_ONLY = 1 then s.setPortState n 6
  else if s.fd (PTPn_CFG n) PTPn_CFG_SLAVE_ONLY = 1 || (better && s.ownClass n ≥ 128) then
    let s := if s.ptpSlave n && old.map (·.source) == some best.source then s
      else (s.setPtp n { s.ptpInst n with syncT2 := none, ms := none, mpd := none, pd := none }).setPortState n 8
    s.setFd (PTPn_STATE n) PTPn_STATE_PARENT_CLASS best.cls
  else s.setPortState n (if better then 7 else 6)

/-- ptpTimescale as the time source announces it (R75). -/
def State.setTimescale (s : State) (arb : Bool) : State :=
  if (s.bit TIM_STATUS 3 == 1) == arb then s else (s.setBit TIM_STATUS 3 arb).flag TIM_HIST 0

/-- An Announce of another clock (IEEE 1588-2019 9.3.2.5): the second of a master within four announce intervals qualifies it. The best master the
time source follows gives the timescale and the UTC offset (R64, R75). -/
def State.announceHeard (s : State) (n : Nat) (m : PtpMsg) : State :=
  if m.source = Config.clockIdentity || m.steps ≥ 255 then s
  else
    let p := s.ptpInst n
    let fresh (f : Foreign) : Bool := s.tim.us ≤ f.at_ + 4 * s.annUs n
    let qual := p.foreign.any (fun f => f.msg.source == m.source && fresh f)
    let parent (f : Foreign) : Bool := p.best.map (·.source) == some f.msg.source
    let foreign := ⟨m, s.tim.us, qual⟩ :: p.foreign.filter (fun f => f.msg.source != m.source && (fresh f || parent f))
    let best := bestOf foreign
    let mine := best.map (·.source) == some m.source
    let s := s.setPtp n { p with foreign := foreign, best := best, since := if mine then s.tim.us else p.since }
    match best with
    | none => s
    | some b =>
      let s := s.decidePort n p.best b
      if n = s.timeSource && mine then
        { s.setTimescale (!b.ptpTimescale) with tim := { s.tim with utcOffset := b.utcOffset } }
      else s

/-- A complete offset measurement of instance n: it stands in the instance's registers; the first of an instance in UNCALIBRATED makes it SLAVE; one of
the time source in SLAVE sets the time of day (R68) or goes to the step logic (R74, R81). -/
def State.offsetMeasured (s : State) (n : Nat) (off : Int) : State :=
  let s := s.wr64 (PTPn_OFFSET_LO n) (PTPn_OFFSET_HI n) (unsigned 64 off)
  if s.portState n = 8 then s.setPortState n 9
  else if n = s.timeSource && s.portState n = 9 then
    if s.timeValid then s.measured off
    else if s.fd TIM_CTRL TIM_CTRL_TOD_SRC = 0 then s.setTime ((s.tim.now : Int) - off * (2 ^ 32 : Nat)).toNat
    else s
  else s

/-- PTPn_ASYM, signed (R80). -/
def State.ptpAsym (s : State) (n : Nat) : Int := signed 32 (s.rd (PTPn_ASYM n))

/-- ms of a complete Sync; with mpd known it is an offset measurement: offset = ms − mpd − asym (R80). -/
def State.ptpSync (s : State) (n : Nat) (ms : Int) : State :=
  let p := { s.ptpInst n with syncT2 := none, ms := some ms }
  let s := s.setPtp n p
  match p.mpd with
  | some mpd => s.offsetMeasured n (ms - mpd - s.ptpAsym n)
  | none => s

/-- A new mean path delay of instance n. -/
def State.setMpd (s : State) (n : Nat) (p : PtpInst) (mpd : Int) : State :=
  (s.setPtp n { p with mpd := some mpd }).wr (PTPn_MPD n) (unsigned 32 mpd)

/-- A PTP message an instance has accepted, its ingress timestamp capture − PTPn_RXLAT (R78); the formulas are those of R80. Sync, Follow_Up and
Delay_Resp count from the parent only, a response only to the instance's own request. -/
def State.ptpAccept (s : State) (n : Nat) (m : PtpMsg) : State :=
  let p := s.ptpInst n
  let t := m.capture - (s.rd (PTPn_RXLAT n) : Nat)
  let p2p := s.ptpP2p n
  let parent := s.ptpSlave n && p.best.map (·.source) == some m.source
  let mine := m.requester = Config.clockIdentity
  match m.kind with
  | .announce => s.announceHeard n m
  | .sync =>
    if !parent then s
    else if m.twoStep then s.setPtp n { p with syncT2 := some (m.seq, t, m.corr) }
    else s.ptpSync n (t - m.ts - m.corr)
  | .followUp =>
    match p.syncT2 with
    | some (q, t2, c) => if q = m.seq && parent then s.ptpSync n (t2 - m.ts - (c + m.corr)) else s
    | none => s
  | .delayReq => if s.portState n = 6 && !p2p then s.setPtp n { p with req := some ⟨m.seq, m.source, t, m.corr⟩ } else s
  | .delayResp =>
    match p.ms, p.t3 with
    | some ms, some (q, t3) =>
      if q = m.seq && !p2p && parent && mine then s.setMpd n p (asr (ms + ((m.ts - t3) - m.corr)) 1) else s
    | _, _ => s
  | .pdelayReq => if p2p then s.setPtp n { p with req := some ⟨m.seq, m.source, t, m.corr⟩ } else s
  | .pdelayResp =>
    match p.t3 with
    | some (q, t1) =>
      if q = m.seq && p2p && mine then
        if m.twoStep then s.setPtp n { p with pd := some (q, t - t1, m.ts - m.corr) }
        else s.setMpd n p (asr (t - t1 - m.corr) 1)
      else s
    | none => s
  | .pdelayRespFollowUp =>
    match p.pd with
    | some (q, span, t2) =>
      if q = m.seq && p2p && mine then s.setMpd n { p with pd := none } (asr (span - (m.ts - t2 + m.corr)) 1) else s
    | none => s
  | .management | .signaling => s

/-- PTP_MESSAGE_RECEIVE (R72, R77): management and signalling messages, those of another domain or majorSdoId and those
of an unsupported transport are discarded and counted; an instance that is not enabled, or FAULTY, takes nothing. The timestamp is the one captured with
the frame. -/
def execPtpMessageReceive (n : Nat) (m : PtpMsg) (s : State) : Res :=
  if !s.ptpRuns n then .next s
  else if m.kind = .management || m.kind = .signaling || m.domain ≠ s.fd (PTPn_CFG n) PTPn_CFG_DOMAIN
      || m.sdo ≠ s.fd (PTPn_CFG n) PTPn_CFG_MAJOR_SDO || m.transport ≠ s.fd (PTPn_CFG n) PTPn_CFG_TRANSPORT then
    .next (s.count (PTPn_DISCARD n) 1)
  else if s.portState n = 2 then .next s
  else
    let r := s.takeRx (fun x => x.kind == .ptp && x.port == s.fd (PTPn_CFG n) PTPn_CFG_PORT)
    let at_ := match r.1 with | some x => x.stamp | none => s.capture m.capture
    .next (r.2.ptpAccept n { m with capture := at_ })

/-- Egress timestamp (R78). -/
def State.egress (s : State) (n : Nat) (capture : Int) : Int := capture + (s.rd (PTPn_TXLAT n) : Nat)

/-- Which of the three intervals times a message: 0 Sync, 1 Announce, 2 the requests. The others follow a message of their own. -/
def timedKind : PtpKind → Option Nat
  | .sync => some 0
  | .announce => some 1
  | .delayReq | .pdelayReq => some 2
  | _ => none

/-- The interval of a timed message of instance n has passed since its last. -/
def State.ptpDue (s : State) (n i : Nat) : Bool :=
  let us := if i = 0 then s.syncUs n else if i = 1 then s.annUs n else s.reqUs n
  match nth (s.ptpInst n).sent i none with
  | none => true
  | some t => t + us ≤ s.tim.us

/-- Instance n is in a state that sends the message, and has what the message answers or completes. Sync, Follow_Up, Announce and Delay_Resp go out in
MASTER; the messages of the delay mechanism the instance uses while it follows a master, those of the peer mechanism in every working state. -/
def State.ptpMay (s : State) (n : Nat) (kind : PtpKind) : Bool :=
  let st := s.portState n
  let p := s.ptpInst n
  let due := match timedKind kind with | some i => s.ptpDue n i | none => true
  due && match kind with
  | .sync | .announce => st == 6
  | .followUp => st == 6 && p.syncTx.isSome
  | .delayResp => st == 6 && !s.ptpP2p n && p.req.isSome
  | .delayReq => s.ptpSlave n && !s.ptpP2p n
  | .pdelayReq => s.ptpP2p n && 4 ≤ st
  | .pdelayResp => s.ptpP2p n && 4 ≤ st && p.req.isSome
  | .pdelayRespFollowUp => s.ptpP2p n && 4 ≤ st && p.respTx.isSome
  | .management | .signaling => false

/-- Whole nanoseconds of a timestamp, rounded down, in 2^−16 ns (R79). -/
def wholeNs (t : Int) : Int := t - t % 65536

/-- Sequence id, timestamp field, correction and requester of the message instance n sends, its predicted egress timestamp being `e`. In one-step operation the
whole nanoseconds of `e` go into the timestamp and the remaining fraction into the correction; a Follow_Up has those of its Sync (R79). The answers are those of
IEEE 1588-2019 11.3 and 11.4 (log entry 8). -/
def State.ptpFields (s : State) (n : Nat) (kind : PtpKind) (e : Int) : Nat × Int × Int × Nat :=
  let p := s.ptpInst n
  let two := s.bit (PTPn_CFG n) 9 == 1
  let rq := p.req.getD ⟨0, 0, 0, 0⟩
  let rx := p.respTx.getD ⟨0, 0, 0, 0⟩
  match kind with
  | .sync => if two then (nth p.seqs 0 0, 0, 0, 0) else (nth p.seqs 0 0, wholeNs e, e % 65536, 0)
  | .followUp => let q := p.syncTx.getD (0, 0); (q.1, wholeNs q.2, q.2 % 65536, 0)
  | .announce => (nth p.seqs 1 0, 0, 0, 0)
  | .delayReq | .pdelayReq => (nth p.seqs 2 0, 0, 0, 0)
  | .delayResp => (rq.seq, wholeNs rq.ts, rq.corr - rq.ts % 65536, rq.who)
  | .pdelayResp => if two then (rq.seq, wholeNs rq.ts, -(rq.ts % 65536), rq.who) else (rq.seq, 0, rq.corr + (e - rq.ts), rq.who)
  | .pdelayRespFollowUp => (rx.seq, wholeNs rx.ts, rx.corr + rx.ts % 65536, rx.who)
  | .management | .signaling => (0, 0, 0, 0)

/-- The message instance n sends, its predicted crossing of the boundary of R77 at `at_`. An Announce gives the class of the DPLL state, the time source and the UTC offset received (R64, R75). -/
def State.ptpMsgOut (s : State) (n : Nat) (kind : PtpKind) (at_ : Int) : PtpMsg :=
  let f := s.ptpFields n kind (s.egress n at_)
  { kind := kind, sdo := s.fd (PTPn_CFG n) PTPn_CFG_MAJOR_SDO, domain := s.fd (PTPn_CFG n) PTPn_CFG_DOMAIN,
    transport := s.fd (PTPn_CFG n) PTPn_CFG_TRANSPORT, source := Config.clockIdentity, seq := f.1,
    corr := f.2.2.1, ts := f.2.1, twoStep := (kind == .sync || kind == .pdelayResp) && s.bit (PTPn_CFG n) 9 == 1, capture := at_,
    prio1 := s.fd (PTPn_PRIO n) PTPn_PRIO_PRIORITY1, cls := s.advClass n, accuracy := Config.clockAccuracy, variance := Config.clockVariance,
    prio2 := s.fd (PTPn_PRIO n) PTPn_PRIO_PRIORITY2, gmId := Config.clockIdentity, steps := 0,
    ptpTimescale := true, utcOffset := s.tim.utcOffset, timeSource := if s.dpll = 0 then 0xA0 else 0x40, requester := f.2.2.2 }

/-- messageType and controlField of IEEE 1588-2019. -/
def ptpCodes : PtpKind → Nat × Nat
  | .sync => (0, 0) | .delayReq => (1, 1) | .pdelayReq => (2, 5) | .pdelayResp => (3, 5) | .followUp => (8, 2) | .delayResp => (9, 3)
  | .pdelayRespFollowUp => (10, 5) | .announce => (11, 5) | .signaling => (12, 5) | .management => (13, 4)

/-- A timestamp field: 6 bytes of seconds, 4 of nanoseconds. -/
def ptpStamp (t : Int) : List Byte := toBE 6 (unsigned 48 (t / 65536000000000)) ++ toBE 4 (t / 65536 % 1000000000).toNat

/-- A port identity: the clock identity and port 1. -/
def ptpIdent (id : Nat) : List Byte := toBE 8 id ++ toBE 2 1

/-- A message as bytes, the layout of IEEE 1588-2019 chapter 13 (log entry 8); `logi` is the logMessageInterval byte. -/
def ptpBytes (m : PtpMsg) (logi : Nat) : List Byte :=
  let body := match m.kind with
    | .delayResp | .pdelayResp | .pdelayRespFollowUp => ptpStamp m.ts ++ ptpIdent m.requester
    | .pdelayReq => ptpStamp m.ts ++ List.replicate 10 0
    | .announce => ptpStamp m.ts ++ toBE 2 (unsigned 16 m.utcOffset) ++ [0] ++ toBE 1 m.prio1 ++ toBE 1 m.cls ++ toBE 1 m.accuracy
        ++ toBE 2 m.variance ++ toBE 1 m.prio2 ++ toBE 8 m.gmId ++ toBE 2 m.steps ++ toBE 1 m.timeSource
    | _ => ptpStamp m.ts
  let flags := (if m.twoStep then 0x0200 else 0) + (if m.ptpTimescale then 8 else 0)
  toBE 1 (m.sdo % 16 * 16 + (ptpCodes m.kind).1) ++ [0x12] ++ toBE 2 (34 + body.length) ++ toBE 1 m.domain ++ [0] ++ toBE 2 flags
    ++ toBE 8 (unsigned 64 m.corr) ++ toBE 4 0 ++ ptpIdent m.source ++ toBE 2 m.seq ++ toBE 1 (ptpCodes m.kind).2 ++ toBE 1 logi ++ body

/-- A message of the peer delay mechanism, which has multicast addresses of its own (Table 3-2). -/
def ptpPeer : PtpKind → Bool
  | .pdelayReq | .pdelayResp | .pdelayRespFollowUp => true
  | _ => false

/-- Event messages (R76): Sync, Delay_Req, Pdelay_Req, Pdelay_Resp. -/
def ptpEvent : PtpKind → Bool
  | .sync | .delayReq | .pdelayReq | .pdelayResp => true
  | _ => false

/-- The frame of a message on the transport of its instance (Table 3-2), UDP checksum and all (R79). -/
def State.ptpFrame (s : State) (port : Nat) (m : PtpMsg) (logi : Nat) : List Byte :=
  let b := ptpBytes m logi
  let udp := if ptpEvent m.kind then 319 else 320
  let v4 := if ptpPeer m.kind then 0xE000006B else 0xE0000181
  let v6 := if ptpPeer m.kind then 0xFF02 * 2 ^ 112 + 0x6B else 0xFF0E * 2 ^ 112 + 0x181
  match m.transport with
  | 1 => frameBytes (s.ownTmpl port false (groupMac false v4) v4 udp) b
  | 2 => frameBytes (s.ownTmpl port true (groupMac true v6) v6 udp) b
  | _ => s.ethHead port (if ptpPeer m.kind then 0x0180C200000E else 0x011B19000000) 0x88F7 ++ b

/-- logMessageInterval of a message of instance n: its interval, the request interval in Delay_Resp, 0x7F in the rest. -/
def State.ptpLog (s : State) (n : Nat) : PtpKind → Nat
  | .sync | .followUp => s.fd (PTPn_INTV n) ⟨7, 0⟩
  | .announce => s.fd (PTPn_INTV n) ⟨23, 16⟩
  | .delayResp => s.fd (PTPn_INTV n) ⟨15, 8⟩
  | _ => 0x7F

/-- What sending leaves in the instance: the sequence id used, the instant, and the egress timestamp the exchange needs. -/
def PtpInst.sentMsg (p : PtpInst) (kind : PtpKind) (two : Bool) (e : Int) (us : Nat) : PtpInst :=
  let q := match timedKind kind with
    | some i => { p with sent := setNth p.sent i (some us), seqs := setNth p.seqs i ((nth p.seqs i 0 + 1) % 65536) }
    | none => p
  match kind with
  | .sync => { q with syncTx := if two then some (nth p.seqs 0 0, e) else none }
  | .followUp => { q with syncTx := none }
  | .delayReq | .pdelayReq => { q with t3 := some (nth p.seqs 2 0, e) }
  | .delayResp => { q with req := none }
  | .pdelayResp => { q with req := none, respTx := if two then p.req.map (fun r => ⟨r.seq, r.who, e, r.corr⟩) else none }
  | .pdelayRespFollowUp => { q with respTx := none }
  | _ => q

/-- PTP_MESSAGE_SEND (R76, R79): an enabled instance whose message is due hands it to its port, event
messages on express queue 7, general messages on pre-emptable queue 6. The message carries the egress timestamp predicted; the instance keeps the one
captured. -/
def execPtpMessageSend (n : Nat) (kind : PtpKind) (predicted capture : Int) (s : State) : Res :=
  if !s.ptpRuns n || !s.ptpMay n kind then .next s
  else
    let port := s.fd (PTPn_CFG n) PTPn_CFG_PORT
    let m := s.ptpMsgOut n kind (s.capture predicted)
    let b := s.ptpFrame port m (s.ptpLog n kind)
    let f : TxFrame := { kind := if ptpEvent kind then .ptpEvent else .ptpGeneral, src := n, sid := 0, queue := if ptpEvent kind then 7 else 6,
                         len := max 64 (b.length + 4), age := 0, dst := 0, bytes := b, ptp := some m }
    .next ((s.setPtp n ((s.ptpInst n).sentMsg kind (s.bit (PTPn_CFG n) 9 == 1) (s.egress n (s.capture capture)) s.tim.us)).txPut port f)

/-- ANNOUNCE_RECEIPT_TIMEOUT (R92, IEEE 1588): no Announce of the parent for announceReceiptTimeout announce intervals: it is forgotten, and the instance
becomes MASTER, or listens where it is slave-only. The PTP candidate fails with the time source (Table 4-4). -/
def execAnnounceReceiptTimeout (n : Nat) (s : State) : Res :=
  let p := s.ptpInst n
  if !s.ptpRuns n || !([4, 7, 8, 9] : List Nat).contains (s.portState n)
      || s.tim.us < p.since + s.fd (PTPn_INTV n) ⟨27, 24⟩ * s.annUs n then .next s
  else
    let s := s.setPtp n { p with best := none, syncT2 := none, since := s.tim.us
                                 foreign := p.foreign.filter (fun f => p.best.map (·.source) != some f.msg.source) }
    let s := s.setPortState n (if s.fd (PTPn_CFG n) PTPn_CFG_SLAVE_ONLY = 1 then 4 else 6)
    .next (if n = s.timeSource then s.failCand 8 else s)

/-- A running instance leaves INITIALIZING for LISTENING (IEEE 1588-2019 9.2.5; log entry 8). -/
def State.ptpTick (s : State) : State :=
  s.each (List.range 8) (fun s n =>
    if s.ptpRuns n && s.portState n = 1 then (s.setPtp n { s.ptpInst n with since := s.tim.us }).setPortState n 4 else s)

/-! ### Writes of the TIM registers -/

/-- The intervals of PTPn_INTV lie in the ranges of Table 3-2. -/
def intvOk (new : Nat) : Bool :=
  let f (hi lo : Nat) : Int := signed 8 (bitsOf new hi lo)
  2 ≤ bitsOf new 27 24 && -3 ≤ f 23 16 && f 23 16 ≤ 4 && -7 ≤ f 15 8 && f 15 8 ≤ 4 && -7 ≤ f 7 0 && f 7 0 ≤ 4

/-- R82: a TIM_STEP_THR outside 100 to 1,000,000,000 leaves the register unchanged and sets RANGE_ERR. A PTPn_INTV outside Table 3-2
is ignored; no flag names it (log entry 88). -/
def timPre (a new : Nat) (s : State) : Option State :=
  if a = TIM_STEP_THR && !(100 ≤ new && new ≤ 1000000000) then some (s.flag TIM_HIST 4)
  else if 0x400100 ≤ a && a < 0x400300 && a % 0x40 = 4 && !intvOk new then some s
  else none

/-- R73: of two enabled instances on one port that share a domainNumber the higher index is FAULTY, and stays so until its own PTPn_CFG is written
(log entry 89). -/
def State.ptpConflicts (s : State) : State :=
  s.each (List.range 8) (fun s m =>
    if s.bit (PTPn_CFG m) 0 = 1 && (List.range m).any (fun j => s.bit (PTPn_CFG j) 0 == 1
        && s.fd (PTPn_CFG j) PTPn_CFG_PORT == s.fd (PTPn_CFG m) PTPn_CFG_PORT
        && s.fd (PTPn_CFG j) PTPn_CFG_DOMAIN == s.fd (PTPn_CFG m) PTPn_CFG_DOMAIN)
    then s.setPortState m 2 else s)

/-- A write to PTPn_CFG restarts instance n in INITIALIZING, or leaves it DISABLED where EN is 0 (chapter 03). -/
def timPost (a : Nat) (s : State) : State :=
  if 0x400100 ≤ a && a < 0x400300 && a % 0x40 = 0 then
    let n := (a - 0x400100) / 0x40
    ((s.setPtp n PtpInst.reset).setPortState n (if s.bit a 0 = 1 then 1 else 3)).ptpConflicts
  else s

end Sys2Proof.Machine
end

