-- ==== Sys2Proof/Machine/Nectar.lean ====
section
/-!
DEFINITION. Nectar links (chapter 05): lane states and markers, alignment and rejoin, the DFE, parity rebuild, the port
stream, nectar blocks and their discard causes, absence, and the measurements of a second.
-/
namespace Sys2Proof.Machine

/-! ### Lanes -/

def State.necLane (s : State) (b u : Nat) : NecLane := nth s.nec.lanes (17 * b + u) NecLane.reset
def State.setNecLane (s : State) (b u : Nat) (l : NecLane) : State :=
  { s with nec := { s.nec with lanes := setNth s.nec.lanes (17 * b + u) l } }
def State.laneState (s : State) (b u : Nat) : Nat := s.fd (NEC_LANE_STATUS b u) NEC_LANE_STATUS_STATE
def State.laneExcluded (s : State) (b u : Nat) : Bool := s.bit (NEC_LANE_STATUS b u) 3 == 1

/-- Sets the lane's state; the LOCKED bit of its bundle follows. -/
def State.setLaneState (s : State) (b u v : Nat) : State :=
  (s.setFd (NEC_LANE_STATUS b u) NEC_LANE_STATUS_STATE v).setBit (NEC_BUNDLEb_STATUS b) u (v == 2)

/-- Port n is enabled. -/
def State.portEn (s : State) (n : Nat) : Bool := s.bit (NEC_PORTn_CFG n) 0 == 1

/-- The data lanes of the enabled ports of bundle b (R117). -/
def State.usedLanes (s : State) (b : Nat) : List Nat := (List.range 16).filter (fun u => s.portEn (4 * b + u / 4))

def State.bundleAligned (s : State) (b : Nat) : Bool := s.bit (NEC_BUNDLEb_STATUS b) 31 == 1

/-- The position fields a marker of lane u of bundle b carries (R117, Table 5-1). -/
def markerPosOk (b u m : Nat) : Bool :=
  bitsOf m 27 24 == b && (if u = 16 then bitOf m 32 == 1 && bitsOf m 31 28 == 0
    else bitOf m 32 == 0 && bitsOf m 29 28 == u / 4 && bitsOf m 31 30 == u % 4)

/-- SYNC and CRC of a marker (R122, R123, R128); the reserved bits lie under the CRC. -/
def markerSound (m : Nat) : Bool := bitsOf m 23 0 == 0x59E61A && bitsOf m 63 56 == crc8 (m % 2 ^ 56)

/-- Lane u of bundle b is received (R118): its bundle is enabled, and its port, or for the parity lane PAR_EN. The lanes of disabled ports are
ignored. -/
def State.laneOn (s : State) (b u : Nat) : Bool :=
  s.bit (NEC_BUNDLEb_CFG b) 0 == 1 && (if u = 16 then s.bit (NEC_BUNDLEb_CFG b) 1 == 1 else s.portEn (4 * b + u / 4))

/-- The lanes the receiver uses of a bundle. -/
def State.heldLanes (s : State) (b : Nat) : List Nat :=
  s.usedLanes b ++ (if s.bit (NEC_BUNDLEb_CFG b) 1 = 1 then [16] else [])

/-- R126: the destuffed bits of a stretch of line stream, and the violations met: the bit after a run of 24 is removed and counts as a
run of 1; it is a violation where it equals the run. -/
def destuff (run : Nat) (last : Bool) : List Bool → List Bool × Nat
  | [] => ([], 0)
  | x :: r =>
    if run = 24 then
      match destuff 1 x r with
      | (bs, v) => (bs, v + if x == last then 1 else 0)
    else
      match destuff (if x == last then run + 1 else 1) x r with
      | (bs, v) => (x :: bs, v)

/-- Bits, least significant first, as a number. -/
def bitsNat : List Bool → Nat
  | [] => 0
  | x :: r => (if x then 1 else 0) + 2 * bitsNat r

/-- The 64 bits of a stretch of line stream once it is destuffed, and its violations. -/
def LaneBits.word (l : LaneBits) : Nat := bitsNat (destuff l.run l.last l.bits).1 % 2 ^ 64
def LaneBits.viol (l : LaneBits) : Nat := (destuff l.run l.last l.bits).2

/-- Violations of lane u are counted (R126). -/
def State.stuffed (s : State) (b u n : Nat) : State :=
  if n = 0 then s else (s.count (NEC_LANE_STUFF_CNT b u) n).flag (NEC_BUNDLEb_HIST b) 1

/-- R129: a bundle that is not ALIGNED becomes so when enough lanes are LOCKED and the markers of equal SEQ on them lie
within 2,048 UI; the receiver deskews to the latest of them. -/
def State.tryAlign (s : State) (b : Nat) : State :=
  let used := s.usedLanes b
  let parEn := s.bit (NEC_BUNDLEb_CFG b) 1 = 1
  let locked := used.filter (fun u => s.laneState b u == 2)
  let enough := if parEn then s.laneState b 16 = 2 && locked.length + 1 ≥ used.length else locked.length = used.length
  let lanes := if parEn then 16 :: locked else locked
  match lanes with
  | [] => s
  | u0 :: _ =>
    let seq := (s.necLane b u0).seq
    let arr := lanes.map (fun u => (s.necLane b u).arrival)
    let hi := arr.foldl max ((s.necLane b u0).arrival)
    let lo := arr.foldl min ((s.necLane b u0).arrival)
    let same := lanes.all (fun u => (s.necLane b u).seq == seq)
    if s.bundleAligned b || !enough || !same || used.length = 0 || s.bit (NEC_BUNDLEb_CFG b) 0 = 0 then s
    else if hi - lo ≤ 2048 then
      let s := s.setBit (NEC_BUNDLEb_STATUS b) 31 true
      let s := { s with nec := { s.nec with alignSeq := setNth s.nec.alignSeq b seq, alignAt := setNth s.nec.alignAt b hi,
                                            skewMax := modNth s.nec.skewMax b (max (hi - lo).toNat) } }
      s.each (List.range 17) (fun s u => s.setBit (NEC_LANE_STATUS b u) 3 false)
    else s

/-- R129: the bundle leaves ALIGNED only when no lane is LOCKED or SLIPPING; lanes that are ignored do not count. -/
def State.tryUnalign (s : State) (b : Nat) : State :=
  if s.bundleAligned b && (s.heldLanes b).all (fun u => s.laneState b u < 2) then
    let s := s.setBit (NEC_BUNDLEb_STATUS b) 31 false
    { s with nec := { s.nec with wholeSec := setNth s.nec.wholeSec b false } }
  else s

/-- R130: an excluded LOCKED lane is held against the alignment point of its bundle: it rejoins where its marker carries the bundle's SEQ
and lies within 2,048 UI, else SKEW_ERR is set and it stays excluded. A marker of the next SEQ waits for the alignment point of its
period. -/
def State.judge (s : State) (b u : Nat) : State :=
  let l := s.necLane b u
  if !s.laneExcluded b u || s.laneState b u ≠ 2 || l.judged || l.seq = (nth s.nec.alignSeq b 0 + 1) % 65536 then s
  else
    let s := s.setNecLane b u { l with judged := true }
    if l.seq = nth s.nec.alignSeq b 0 && (l.arrival - nth s.nec.alignAt b 0).natAbs ≤ 2048 then s.setBit (NEC_LANE_STATUS b u) 3 false
    else s.flag (NEC_BUNDLEb_HIST b) 4

/-- A lane that is not excluded moves the alignment point of its bundle on to the period it has reached: the latest of its markers
(R129). -/
def State.alignOn (s : State) (b u : Nat) : State :=
  let l := s.necLane b u
  if s.laneExcluded b u then s
  else
    let same := l.seq = nth s.nec.alignSeq b 0
    let at' := if same then max l.arrival (nth s.nec.alignAt b 0) else l.arrival
    let skew := if same then (l.arrival - nth s.nec.alignAt b 0).natAbs else 0
    { s with nec := { s.nec with alignSeq := setNth s.nec.alignSeq b l.seq, alignAt := setNth s.nec.alignAt b at',
                                 skewMax := modNth s.nec.skewMax b (max skew) } }

/-- Every lane of the bundle that is LOCKED and not excluded has reached the period of the alignment point. -/
def State.pointKnown (s : State) (b : Nat) : Bool :=
  (s.heldLanes b).all (fun u => s.laneState b u != 2 || s.laneExcluded b u || (s.necLane b u).seq == nth s.nec.alignSeq b 0)

/-- A period boundary of lane u in an ALIGNED bundle: once the alignment point of the period is known, the excluded lanes are held against
it. -/
def State.rejoin (s : State) (b u : Nat) : State :=
  if !s.bundleAligned b then s
  else
    let s := s.alignOn b u
    if s.pointKnown b then s.each (s.heldLanes b) (fun s v => s.judge b v) else s

/-- A good marker of a lane (Table 5-2). -/
def State.goodMarker (s : State) (b u seq : Nat) (arrival : Int) : State :=
  let st := s.laneState b u
  let l := s.necLane b u
  let s := (s.setNecLane b u { l with verified := if st = 1 then l.verified + 1 else 0, seq := seq, arrival := arrival, judged := false }).setFd
    (NEC_LANE_STATUS b u) NEC_LANE_STATUS_MISSES 0
  match st with
  | 0 => s.setLaneState b u 1
  | 1 =>
    if l.verified + 1 ≥ 3 then
      let s := s.setLaneState b u 2
      -- a lane that reaches LOCKED while its bundle is ALIGNED has to rejoin, from the next period boundary on (R130, Table 5-3)
      if s.bundleAligned b then
        (s.setBit (NEC_LANE_STATUS b u) 3 true).setNecLane b u { s.necLane b u with judged := true }
      else s.tryAlign b
    else s
  | _ => ((s.setLaneState b u 2).rejoin b u).tryAlign b

/-- A miss (R127, R128): counted; the third in a row in SLIPPING, or any in VERIFY, goes back to HUNT. After a miss the previous SEQ of
R128 is the one that was expected (DEDUCED: SEQ goes on by 1 with every period, log entry 96). -/
def State.missMarker (s : State) (b u : Nat) (idErr : Bool) : State :=
  let st := s.laneState b u
  if st = 0 then s
  else
    let s := (s.count (NEC_LANE_MISS_CNT b u) 1).flag (NEC_BUNDLEb_HIST b) 2
    let s := s.when idErr (·.flag (NEC_BUNDLEb_HIST b) 3)
    let l := s.necLane b u
    let s := s.setNecLane b u { l with seq := (l.seq + 1) % 65536 }
    let parLost := u = 16 && st = 2 && s.bit (NEC_BUNDLEb_CFG b) 1 = 1
    let s := s.when parLost (·.flag (NEC_BUNDLEb_HIST b) 7)
    let misses := s.fd (NEC_LANE_STATUS b u) NEC_LANE_STATUS_MISSES
    match st with
    | 1 => s.setLaneState b u 0
    | 2 => (s.setLaneState b u 3).setFd (NEC_LANE_STATUS b u) NEC_LANE_STATUS_MISSES 1
    | _ =>
      if misses ≥ 2 then
        ((((s.setLaneState b u 0).setFd (NEC_LANE_STATUS b u) NEC_LANE_STATUS_MISSES 0).flag
          (NEC_BUNDLEb_HIST b) 0).tryUnalign b)
      else s.setFd (NEC_LANE_STATUS b u) NEC_LANE_STATUS_MISSES (misses + 1)

/-- LANE_MARKER_CHECK (R126 to R131): the line bits at a marker position of lane u of bundle b, that is at any bit offset while in HUNT
and 32,832 destuffed bits after the previous one otherwise, and the marker's arrival at the balls in UI. In HUNT `ctle` is the CTLE
setting of the eye-margin search, unless CTLE_FIX holds it. -/
def execLaneMarkerCheck (b u : Nat) (line : LaneBits) (arrival : Int) (ctle : Nat) (s : State) : Res :=
  if !s.blockOn 5 || b ≥ 16 || u ≥ 17 || !s.laneOn b u then .next s
  else
    let word := line.word
    let st := s.laneState b u
    let s := s.stuffed b u line.viol
    let s := if s.bit (NEC_BUNDLEb_CFG b) 12 = 1 then
        s.setFd (NEC_LANE_STATUS b u) NEC_LANE_STATUS_CTLE_DB (s.fd (NEC_BUNDLEb_CFG b) NEC_BUNDLEb_CFG_CTLE_DB)
      else if st = 0 then s.setFd (NEC_LANE_STATUS b u) NEC_LANE_STATUS_CTLE_DB ctle else s
    let seq := bitsOf word 55 40
    let sound := markerSound word
    let pos := markerPosOk b u word
    let inOrder := st = 0 || seq = ((s.necLane b u).seq + 1) % 65536
    if sound && pos && inOrder then .next (s.goodMarker b u seq arrival).monLatch
    else .next (s.missMarker b u (sound && inOrder && !pos))

/-- One DFE tap after a step of sign-sign LMS, clamped (R131). A tap is 6 bits, signed, in 1/64 of the main cursor, so
+0.5 is held as its largest value. -/
def dfeTap (k : Nat) (tap sgn : Int) : Int :=
  let v := tap + sgn
  if k = 0 then satS 6 v else if v > 16 then 16 else if v < -16 then -16 else v

/-- DFE_ADAPT (R131): `sgns` are sgn(e) × sgn(d[n − k]) for taps h1 to h5. A lane that is not received adapts nothing (R118). -/
def execDfeAdapt (b u : Nat) (sgns : List Int) (s : State) : Res :=
  if !s.blockOn 5 || b ≥ 16 || u ≥ 17 || !s.laneOn b u then .next s
  else
    let r := s.rd (NEC_LANE_DFE b u)
    let r' := (List.range 5).foldl (fun r k =>
      let sg := nth sgns k 0
      let sg := if sg > 0 then 1 else if sg < 0 then -1 else 0
      setBits r (6 * k + 5) (6 * k) (unsigned 6 (dfeTap k (signed 6 (r / 2 ^ (6 * k))) sg))) r
    .next (s.wr (NEC_LANE_DFE b u) r')

/-! ### Rebuild (R132 to R134) -/

/-- The line bits of lane u, and its payload word q descrambled. -/
def NecWord.lane (x : NecWord) (u : Nat) : LaneBits := nth x.lanes u ⟨0, false, []⟩
def NecWord.data (x : NecWord) (b u q : Nat) : Nat := descramble b u q (x.lane u).word

/-- FORCE_EN names lane u. -/
def State.forceNames (s : State) (b u : Nat) : Bool :=
  s.fd (NEC_BUNDLEb_CFG b) NEC_BUNDLEb_CFG_FORCE_EN == 1 && s.fd (NEC_BUNDLEb_CFG b) NEC_BUNDLEb_CFG_FORCE_LANE == u

/-- The lane of port n that the word at position w of a marker period travels on (R135). -/
def wordLane (n w : Nat) : Nat := 4 * (n % 4) + w % 4

/-- What a word changes whether or not its bundle is ALIGNED: its violations are counted, those of PAR with the words of the first data lane in
use, which come once for each word of PAR (R126); at a period boundary its lane is forced or not until the next. -/
def State.wordMet (s : State) (n w : Nat) (x : NecWord) : State :=
  let b := n / 4
  let u := wordLane n w
  let s := s.stuffed b u (x.lane u).viol
  let s := s.when (s.bit (NEC_BUNDLEb_CFG b) 1 = 1 && (s.usedLanes b).head? == some u) (·.stuffed b 16 (x.lane 16).viol)
  if w / 4 % 512 = 0 then s.setNecLane b u { s.necLane b u with forced := s.forceNames b u } else s

/-- One word of the stream of port n, at position w of its marker period, after descrambling and, where it is needed and can be done, the
parity rebuild: the XOR of PAR and of the other data lanes of the enabled ports, those of disabled ports being 0 (R132, R133). The word comes
with its lost mark. An episode ends with the first word of the lane that needs no rebuild; a word that cannot be rebuilt does not end it
(DESIGN CHOICE: R133 does not say what ends one, log entry 95). -/
def State.necWord (s : State) (n w : Nat) (x : NecWord) : (Nat × Bool) × State :=
  let b := n / 4
  let u := wordLane n w
  let q := w / 4 % 512
  let own := x.data b u q
  let s := s.wordMet n w x
  let forced := (s.necLane b u).forced && s.forceNames b u
  let need := s.laneState b u ≠ 2 || s.laneExcluded b u || (x.lane u).viol ≠ 0 || forced
  if !need then
    let st := NEC_BUNDLEb_STATUS b
    let s := if s.bit st 30 = 1 && s.fd st NEC_BUNDLEb_STATUS_REBUILD_LANE = u then
        (s.setBit st 30 false).setFd st NEC_BUNDLEb_STATUS_REBUILD_LANE 0x1F else s
    ((own, false), s)
  else
    let others := (s.usedLanes b).filter (· != u)
    let parOk := s.bit (NEC_BUNDLEb_CFG b) 1 = 1 && s.laneState b 16 = 2 && (x.lane 16).viol = 0
    let othersOk := others.all (fun v => s.laneState b v == 2 && !s.laneExcluded b v && (x.lane v).viol == 0)
    if parOk && othersOk then
      let st := NEC_BUNDLEb_STATUS b
      let s := if s.bit st 30 = 1 && s.fd st NEC_BUNDLEb_STATUS_REBUILD_LANE = u then s
        else ((s.setBit st 30 true).setFd st NEC_BUNDLEb_STATUS_REBUILD_LANE u).flag (NEC_BUNDLEb_HIST b) 5
      let s := { s with kpr := { s.kpr with rebuildSec := Nat.lor s.kpr.rebuildSec (2 ^ b) } }
      ((others.foldl (fun acc v => Nat.xor acc (x.data b v q)) (x.data b 16 q), false), s)
    else
      let s := s.flag (NEC_BUNDLEb_HIST b) 6
      let s := { s with kpr := { s.kpr with lostSec := Nat.lor s.kpr.lostSec (2 ^ b) } }
      ((own, true), s)

/-! ### Blocks (R136 to R144) -/

/-- The fields of Table 5-4. -/
structure NecHeader where
  phase  : Nat
  count  : Nat
  spi    : Nat
  start  : Nat
  format : Nat
  length : Nat
  tick   : Nat
  rsv    : Nat
  deriving DecidableEq, Repr

def necHeader (w0 w1 : Nat) : NecHeader where
  phase := bitsOf w0 63 32
  count := bitsOf w0 31 28 + 1
  spi := bitsOf w0 27 16 + 4096 * bitOf w1 62 + 1
  start := bitsOf w0 15 0
  format := bitsOf w1 61 59
  length := bitsOf w1 58 48 + 1
  tick := bitsOf w1 47 0
  rsv := bitOf w1 63

/-- Bits per sample (Table 5-4). -/
def necBits (format : Nat) : Nat := 8 + 2 * format

/-- R141. -/
def NecHeader.ok (h : NecHeader) : Bool :=
  h.start == 0xB7E5 && h.format ≤ 4 && h.spi ≤ 4097 && h.rsv == 0
  && h.length == ceilDiv (h.count * h.spi * necBits h.format) 64

/-- R142: the 64-bit tick with the given low 48 bits in the range a − 2^47 to a + 2^47 − 1. Where the only such number is below 0, the
result is 0 (DESIGN CHOICE, log entry 97). -/
def extendTick48 (t a : Nat) : Nat :=
  let base : Int := (a : Int) - 2 ^ 47
  (base + ((t : Int) - base) % (2 ^ 48 : Nat)).toNat

/-- Sample i of block input j out of the payload words (R139). -/
def necSamples (words : List Nat) (bw spi j : Nat) : List Int :=
  let big := words.foldr (fun w acc => w % 2 ^ 64 + 2 ^ 64 * acc) 0
  (List.range spi).map (fun i => signed bw (big / 2 ^ ((j * spi + i) * bw)))

/-- The bytes the CRC covers (R140). -/
def necBytes (words : List Nat) : List Byte := words.flatMap (toLE 8)

/-- R143: the first matching cause of Table 5-5 for a block whose header passed, `a` being the tick in which its CRC
word leaves the deskew stage. -/
def State.necCause (s : State) (n a : Nat) (h : NecHeader) (lost : Bool) (words : List Nat) (crc : Nat) : NecCause :=
  let k := extendTick48 h.tick a
  if lost then .laneLost
  else if crc ≠ (crc32c (necBytes words)).toNat then .crcErr
  else if h.count ≠ s.fd (NEC_PORTn_CFG n) NEC_PORTn_CFG_INPUTS_M1 + 1
      || h.format ≠ s.fd (NEC_PORTn_CFG n) NEC_PORTn_CFG_FORMAT then .mismatch
  else if s.tickSkipped k then .stepped
  else if a < k then .early
  else if a > k + 1 then .late
  else if (nth s.nec.ports n NecPort.reset).accepted.contains k then .dup
  else .none

/-- The counter of a cause (Table 5-5). -/
def necCounter (n : Nat) : NecCause → Nat
  | .none => NEC_PORTn_ACCEPTED n
  | .hdrErr => NEC_PORTn_HDR_ERR n
  | .laneLost => NEC_PORTn_LOST n
  | .crcErr => NEC_PORTn_CRC_ERR n
  | .mismatch => NEC_PORTn_MISMATCH n
  | .stepped => NEC_PORTn_STEPPED n
  | .early => NEC_PORTn_EARLY n
  | .late => NEC_PORTn_LATE n
  | .dup => NEC_PORTn_DUP n
  | .noneReceived => NEC_PORTn_NONE n

/-- The inputs of port n, as blocks bring them. -/
def State.portTicks (s : State) (n : Nat) (f : Nat → NativeTick) : List NativeTick :=
  (List.range (s.fd (NEC_PORTn_CFG n) NEC_PORTn_CFG_INPUTS_M1 + 1)).map (fun j => f (s.fd (NEC_PORTn_CFG n) NEC_PORTn_CFG_INPUT_BASE + j))

/-- Changes port n of a state. -/
def State.modNecPort (s : State) (n : Nat) (f : NecPort → NecPort) : State :=
  { s with nec := { s.nec with ports := modNth s.nec.ports n f } }

/-- Native samples, or their absence, on their way to the filter slots. -/
def State.deliverNative (s : State) (t : NativeTick) : State :=
  { s with ing := { s.ing with inbox := s.ing.inbox ++ [t] }, acq := { s.acq with native := (t :: s.acq.native).take 65536 } }

/-- The port whose lowest unsettled tick is settled. -/
def NecPort.pop (p : NecPort) : NecPort :=
  match p.todo with
  | (a, b) :: r => { p with todo := if a < b then (a + 1, b) :: r else r }
  | [] => p

/-- Blocks that waited for an earlier tick go on once their tick is the lowest unsettled one (R144). -/
def State.necFlush : Nat → Nat → State → State
  | 0, _, s => s
  | fuel + 1, n, s =>
    let p := nth s.nec.ports n NecPort.reset
    match p.todo with
    | [] => s
    | r :: _ =>
      match p.wait.find? (fun w => w.1 == r.1) with
      | some w => State.necFlush fuel n ((s.modNecPort n (fun p => { p.pop with wait := p.wait.erase w })).each w.2 State.deliverNative)
      | none => s

/-- The inputs of port n have their samples for tick k. They are delivered in tick order (R144): a block whose tick is not the lowest
unsettled one waits. -/
def State.necDeliver (s : State) (n k : Nat) (l : List NativeTick) : State :=
  let p := nth s.nec.ports n NecPort.reset
  if p.todo.any (fun r => r.1 ≤ k && k ≤ r.2) then
    State.necFlush (p.wait.length + 1) n (s.modNecPort n (fun p => { p with wait := p.wait ++ [(k, l)] }))
  else s.each l State.deliverNative

/-- A complete block: accepted and delivered to its inputs (R144), or discarded with its cause. -/
def State.necBlock (s : State) (n a : Nat) (h : NecHeader) (lost : Bool) (words : List Nat) (crc : Nat) : State :=
  let k := extendTick48 h.tick a
  let cause := s.necCause n a h lost words crc
  let s := s.count (necCounter n cause) 1
  if cause = .none then
    let s := s.modNecPort n (fun p => { p with accepted := k :: p.accepted.take 3, sps := p.sps + h.spi })
    let base := s.fd (NEC_PORTn_CFG n) NEC_PORTn_CFG_INPUT_BASE
    s.necDeliver n k ((List.range h.count).map (fun j =>
      ⟨base + j, k, h.phase, necBits h.format, necSamples (words.drop 2) (necBits h.format) h.spi j, .none⟩))
  else s.modNecPort n (fun p => { p with causes := (k, cause) :: p.causes })

/-- Assembles blocks out of the words of port n that have arrived (R136, R138): idle words are skipped, a word with the
START value begins a header, any other is a stray word; after a header that fails R141 the search goes on at the word
after header word 0. The words of an unfinished block wait. A failed header is the cause for the tick its TICK field names (DEDUCED, log
entry 98). -/
def State.necScan : Nat → Nat → State → List (Nat × Bool) → State
  | 0, n, s, buf => s.modNecPort n (fun p => { p with buf := buf })
  | fuel + 1, n, s, buf =>
    match buf with
    | [] => s.modNecPort n (fun p => { p with buf := [] })
    | (w0, l0) :: rest =>
      if w0 % 2 ^ 16 ≠ 0xB7E5 then
        State.necScan fuel n (if w0 = 0 then s else s.count (NEC_PORTn_STRAY n) 1) rest
      else
        match rest with
        | [] => s.modNecPort n (fun p => { p with buf := buf })
        | (w1, l1) :: body =>
          let h := necHeader w0 w1
          if !h.ok then
            let k := extendTick48 h.tick s.tick
            let s := (s.count (NEC_PORTn_HDR_ERR n) 1).modNecPort n
              (fun p => { p with causes := (k, .hdrErr) :: p.causes })
            State.necScan fuel n s rest
          else
            match body.drop h.length with
            | [] => s.modNecPort n (fun p => { p with buf := buf })
            | (crc, lc) :: more =>
              let pay := body.take h.length
              let lost := l0 || l1 || lc || pay.any (·.2)
              State.necScan fuel n (s.necBlock n s.tick h lost (w0 :: w1 :: pay.map (·.1)) crc) more

/-- NECTAR_BLOCK_RECEIVE (R126, R132 to R144): the next words of the port stream of port n leave the deskew stage, the first at position
`w0` of its marker period. While the bundle is not ALIGNED its lanes are received, but no stream is assembled. -/
def execNectarBlockReceive (n w0 : Nat) (words : List NecWord) (s : State) : Res :=
  if n ≥ 64 || !s.blockOn 5 || !s.portEn n || s.bit (NEC_BUNDLEb_CFG (n / 4)) 0 = 0 then .next s
  else if !s.bundleAligned (n / 4) then .next (s.each words.zipIdx (fun s q => s.wordMet n (w0 + q.2) q.1))
  else
    let r := words.foldl (fun (acc : State × List (Nat × Bool) × Nat) x =>
      let o := acc.1.necWord n acc.2.2 x
      (o.2, acc.2.1 ++ [o.1], acc.2.2 + 1)) (s, (nth s.nec.ports n NecPort.reset).buf, w0)
    .next (State.necScan r.2.1.length n r.1 r.2.1)

/-- The cause of the absence of port n in tick k (R143): STEPPED where a forward step passed over the tick, else that of the last discarded
block for it, else NONE_RECEIVED. -/
def State.absenceCause (s : State) (n k : Nat) : NecCause :=
  if s.tickSkipped k then .stepped
  else match (nth s.nec.ports n NecPort.reset).causes.find? (fun c => c.1 == k) with
    | some (_, c) => c
    | none => .noneReceived

/-- Tick k of port n is settled, the lowest that was not: the block that waits for its turn is delivered, or the inputs are absent. -/
def State.necSettle (s : State) (n k : Nat) : State :=
  match (nth s.nec.ports n NecPort.reset).wait.find? (fun w => w.1 == k) with
  | some w => (s.modNecPort n (fun p => { p.pop with wait := p.wait.erase w })).each w.2 State.deliverNative
  | none =>
    let cause := s.absenceCause n k
    let s := (s.when (cause == .noneReceived) (·.count (NEC_PORTn_NONE n) 1)).modNecPort n (fun p =>
      { p.pop with causes := p.causes.filter (fun c => k < c.1) })
    s.each (s.portTicks n (fun i => ⟨i, k, 0, 8, [], cause⟩)) State.deliverNative

/-- No block can be accepted for tick k any more: tick k + 1 has ended, or a forward step passed over it and a tick has been issued
since. -/
def State.tickClosed (s : State) (k : Nat) : Bool := s.begun (k + 2) || (s.tickSkipped k && s.begun (k + 1))

/-- NECTAR_PORT_ABSENT (R143): port n has no accepted block for tick k, and none can come. Its inputs are absent for tick k, as they are
for the earlier ticks not settled yet. -/
def execNectarPortAbsent (n k : Nat) (s : State) : Res :=
  let p := nth s.nec.ports n NecPort.reset
  if n ≥ 64 || s.bit GLB_DOMAINS 4 = 0 || !s.portEn n || !s.tickClosed k || !p.todo.any (fun r => r.1 ≤ k && k ≤ r.2) then .next s
  else
    let ks := (p.todo.flatMap (fun r => (List.range (r.2 + 1 - r.1)).map (r.1 + ·))).filter (· ≤ k)
    .next (State.necFlush p.wait.length n (s.each ks (fun s j => s.necSettle n j)))

/-! ### Ticks and seconds (R143, R147) -/

/-- A tick has been issued for which no block can be accepted on port n any more and none was: it is missing in the second it was issued
in. Where that second's count is latched already, the latched count takes it. -/
def State.necMiss (s : State) (k n : Nat) : State :=
  if k / 1000000 = s.tick / 1000000 then s.modNecPort n (fun p => { p with missing := p.missing + 1 })
  else if s.nec.due then s.modNecPort n (fun p => { p with missEnd := p.missEnd + 1 })
  else s.count (NEC_PORTn_MISSING n) 1

/-- A hive second has ended: its sums wait to be latched (R147). -/
def State.necSecond (s : State) : State :=
  { s with nec := { s.nec with
      ended := List.zip s.nec.wholeSec s.nec.skewMax, wholeSec := (List.range 16).map s.bundleAligned, skewMax := List.replicate 16 0
      ports := s.nec.ports.map (fun (p : NecPort) => { p with spsEnd := p.sps, missEnd := p.missing, sps := 0, missing := 0 }), due := true } }

/-- The nectar part of the boundary that begins the tick in progress, t being the last tick before it: each enabled port has the tick to
settle, with those a forward step has passed over; ticks for which no block can come any more are counted where none was accepted. -/
def State.necTick (s : State) (t : Nat) : State :=
  let s := s.when (t / 1000000 != s.tick / 1000000) State.necSecond
  let ks := (if t + 1 < s.tick && s.tickSkipped (t + 1) then [(t + 1, s.tick - 1)] else []) ++ [(s.tick, s.tick)]
  let gone := s.nec.fresh.filter s.tickClosed
  let s := s.each gone (fun s k => s.each ((List.range 64).filter (fun n => !(nth s.nec.ports n NecPort.reset).accepted.contains k)) (fun s n => s.necMiss k n))
  { s with nec := { s.nec with
      ports := s.nec.ports.zipIdx.map (fun q => if s.portEn q.2 then { q.1 with todo := q.1.todo ++ ks } else q.1)
      fresh := s.tick :: s.nec.fresh.filter (fun k => !s.tickClosed k) } }

/-- RATE_MEASUREMENT_LATCH (R147): at a second boundary; `ckofs` are the measured offsets of CK of the 16 bundles. -/
def execRateMeasurementLatch (ckofs : List Int) (s : State) : Res :=
  if !s.nec.due || s.bit GLB_DOMAINS 4 = 0 then .next s
  else
    let s := s.each (List.range 16) (fun s b =>
      let e := nth s.nec.ended b (false, 0)
      (s.wr (NEC_BUNDLEb_CKOFS b) (if e.1 then unsigned 32 (nth ckofs b 0) else 0x80000000)).wr (NEC_BUNDLEb_SKEW b) (min e.2 0xFFF))
    let s := s.each (List.range 64) (fun s n =>
      let p := nth s.nec.ports n NecPort.reset
      ((s.wr (NEC_PORTn_SPS_LO n) (p.spsEnd % 2 ^ 32)).wr (NEC_PORTn_SPS_HI n) (p.spsEnd / 2 ^ 32 % 2)).wr (NEC_PORTn_MISSING n) p.missEnd)
    .next { s with nec := { s.nec with due := false } }

/-! ### Register writes -/

/-- The hive inputs a port configuration claims. -/
def portInputs (cfg : Nat) : List Nat := (List.range (bitsOf cfg 7 4 + 1)).map (· + bitsOf cfg 15 8)

/-- The port configuration rule (chapter 05): a write that would extend a port past input 255, or give one input to two
enabled ports, leaves NEC_PORTn_CFG unchanged and sets CFG_ERR. -/
def necPre (a new : Nat) (s : State) : Option State :=
  if 0x503000 ≤ a && a < 0x504000 && a % 0x40 = 0 then
    let n := (a - 0x503000) / 0x40
    let mine := portInputs new
    let past := mine.any (· > 255)
    let shared := bitOf new 0 = 1 && (List.range 64).any (fun m => m != n && s.portEn m
      && (portInputs (s.rd (NEC_PORTn_CFG m))).any mine.contains)
    if past || shared then some (s.flag NEC_ERR 0) else none
  else none

/-- After a write: a port that is enabled begins with the tick in progress; one that is disabled hands on what waits. A bundle none of whose
lanes in use is LOCKED or SLIPPING any more leaves ALIGNED (R129). -/
def necPost (a old : Nat) (s : State) : State :=
  if 0x503000 ≤ a && a < 0x504000 && a % 0x40 = 0 then
    let n := (a - 0x503000) / 0x40
    let p := nth s.nec.ports n NecPort.reset
    let s := if bitOf old 0 = s.bit a 0 then s
      else if s.portEn n then s.modNecPort n (fun p =>
        { p with todo := (match s.tim.lastTick with | some t => [(t, t)] | none => []), causes := [], buf := [] })
      else (s.modNecPort n (fun p => { p with todo := [], wait := [] })).each (p.wait.flatMap (·.2)) State.deliverNative
    s.tryUnalign (n / 4)
  else if 0x500100 ≤ a && a < 0x500500 && a % 0x40 = 0 then s.tryUnalign ((a - 0x500100) / 0x40)
  else s

end Sys2Proof.Machine
end

