-- ==== Sys2Proof/Machine/Ingest.lean ====
section
/-!
DEFINITION. Ingest conditioning and the common time grid (chapter 06): filter slots, native time, the delay model, the
resampler, absence and taint, hit comparators.
-/
namespace Sys2Proof.Machine

/-! ### Slots and their settings -/

def State.slot (s : State) (i : Nat) : Slot := nth s.ing.slots i Slot.reset
def State.setSlot (s : State) (i : Nat) (t : Slot) : State := { s with ing := { s.ing with slots := setNth s.ing.slots i t } }

def State.slotStatus (s : State) (i b : Nat) : Bool := s.bit (ING_Ii_STATUS i) b == 1
def State.slotRunning (s : State) (i : Nat) : Bool := s.slotStatus i 31
def State.slotHalted (s : State) (i : Nat) : Bool := s.slotStatus i 30
def State.slotTainted (s : State) (i : Nat) : Bool := s.slotStatus i 29
def State.slotReplay (s : State) (i : Nat) : Bool := s.bit (ING_Ii_CFG i) 5 == 1

/-- Samples per grid tick of a canonical rate code (Table 6-3). -/
def canonNs (code : Nat) : Nat := nth [3200, 2560, 1600, 1280, 800, 400, 200, 100] code 3200

/-- FIR stage j (1 to 3) of a FIR and SHIFT register pair: taps, decimation, shift (R153). -/
def firTaps (fir j : Nat) : Nat :=
  1 + (match j with | 1 => bitsOf fir 6 0 | 2 => bitsOf fir 15 9 | _ => bitsOf fir 24 18)
def firDec (fir j : Nat) : Nat :=
  pow2Code (match j with | 1 => bitsOf fir 8 7 | 2 => bitsOf fir 17 16 | _ => bitsOf fir 26 25)
def firShift (sh j : Nat) : Nat := match j with | 1 => bitsOf sh 4 0 | 2 => bitsOf sh 12 8 | _ => bitsOf sh 20 16
def firStages (fir : Nat) : Nat := bitsOf fir 28 27

/-- M_1 × … × M_j. -/
def firM (fir : Nat) : Nat → Nat
  | 0 => 1
  | j + 1 => firM fir j * firDec fir (j + 1)

/-- 2 × G_fir (R155). -/
def firG2 (fir : Nat) : Nat := sumL ((List.range (firStages fir)).map (fun j => (firTaps fir (j + 1) - 1) * firM fir j))

/-- First coefficient of stage j inside a set (Table 6-2). -/
def firBase (j : Nat) : Nat := match j with | 1 => 0 | 2 => 128 | _ => 192

/-- Coefficient c_j[t] of set `set` of engine e, 18-bit two's complement. -/
def State.coefAt (s : State) (e addr : Nat) : Int := signed 18 (spGet zeroNat s.ing.coef (e * 32768 + addr))

/-- CFG and HIT of slot i in force at tick k (R171). -/
def State.slotCfgAt (s : State) (i k : Nat) : Nat × Nat :=
  tlAt (s.rd (ING_Ii_CFG i), s.rd (ING_Ii_HIT i)) (s.slot i).cfgLog k

/-- ING_Ii_GDELAY (R150): G_fir at RATE_KSPS plus the skew of slot i & 31, in 2^−16 ns. -/
def gdelay (i rate fir : Nat) : Nat :=
  let skew := i % 32 * 81920
  if rate = 0 then skew
  else (divHalfEven ((firG2 fir * 500000 * 65536 + skew * rate : Nat) : Int) rate).toNat

/-- A counter field of ING_Ii_SAT_CNT advanced by n, wrapping at its width. -/
def State.satCount (s : State) (i : Nat) (f : Fld) (n : Nat) : State :=
  s.setFd (ING_Ii_SAT_CNT i) f (s.fd (ING_Ii_SAT_CNT i) f + n)

def satFir : Fld := ⟨31, 16⟩
def satRs : Fld := ⟨15, 8⟩
def satDly : Fld := ⟨7, 0⟩

/-- ING_ROYAL.COUNT: armed slots with ROYAL at 1 (R154). -/
def State.royalCount (s : State) : Nat :=
  ((List.range 256).filter (fun i => s.rd (ING_Ii_CFG i) % 4 == 3)).length

/-! ### Delay model (R160, R161) -/

/-- Has tick k begun for slot i? A replay slot counts the ticks of its recorded blocks as its ticks (R170), those of the replay it runs. -/
def State.slotBegun (s : State) (i k : Nat) : Bool :=
  if s.slotReplay i then
    (s.slotRunning i && match (s.slot i).ticks with | t :: _ => k ≤ t.tick | [] => false)
    || (match s.ing.replayIn.find? (·.input == i) with | some b => k ≤ b.tick | none => false)
  else s.begun k

/-- The pending model takes effect once its tick has begun. -/
def State.applyModel (s : State) (i : Nat) : State :=
  let t := s.slot i
  match t.pend with
  | some m =>
    if s.slotBegun i m.kr then
      (s.setSlot i { t with pend := none, models := m :: t.models.take 7 }).setBit (ING_Ii_STATUS i) 26 false
    else s
  | none => s

/-- DLY_MODEL_APPLY (R161). -/
def execDlyModelApply (i : Nat) (s : State) : Res := if i < 256 then .next (s.applyModel i) else .next s

/-- A commit of the pending model registers (R161). An armed slot that waits for a model starts at its k_r (R157). -/
def State.commitModel (s : State) (i : Nat) : State :=
  let kr := s.rd64 (ING_Ii_DLY_REF_LO i) (ING_Ii_DLY_REF_HI i)
  if s.slotBegun i kr then s.flag ING_ERR 2
  else
    let s := s.applyModel i
    let t := s.slot i
    let m : DlyModel :=
      { d0 := signed 48 (s.rd (ING_Ii_DLY_D0_LO i) + s.rd (ING_Ii_DLY_D0_HI i) * 2 ^ 32)
        d1 := signed 32 (s.rd (ING_Ii_DLY_D1 i)), d2 := signed 32 (s.rd (ING_Ii_DLY_D2 i)), kr := kr }
    let start := if s.bit (ING_Ii_CFG i) 0 = 1 && (!s.slotRunning i || t.stopAt.isSome) then some kr else t.startAt
    (s.setSlot i { t with pend := some m, startAt := start }).setBit (ING_Ii_STATUS i) 26 true

/-- The model in force at tick k: the newest whose reference tick is at most k. -/
def Slot.modelAt (t : Slot) (k : Nat) : Option DlyModel :=
  (t.pend.toList ++ t.models).find? (fun m => m.kr ≤ k)

/-- R160: δ at tick k in 2^−16 ns, with whether it was clamped and whether the model is stale. -/
def dlyAt (m : DlyModel) (k : Nat) : Nat × Bool × Bool :=
  let stale := k - m.kr ≥ 2 ^ 32
  let dk : Int := (min (k - m.kr) (2 ^ 32 - 1) : Nat)
  let d := m.d0 + (m.d1 * dk).fdiv 65536 + (m.d2 * dk * dk).fdiv (2 ^ 33 : Nat)
  let hi : Int := 16000 * 65536
  (if d < 0 then 0 else if d > hi then hi.toNat else d.toNat, decide (d < 0) || decide (d > hi), stale)

/-- δ of slot i at tick k, 0 where no model is in force. -/
def Slot.delta (t : Slot) (k : Nat) : Nat × Bool × Bool :=
  match t.modelAt k with
  | some m => dlyAt m k
  | none => (0, false, false)

/-! ### Starting and stopping (R157, R171) -/

/-- What an earlier replay through slot i left behind: canonical ticks and spectra under grid indices that the next one may repeat. -/
def State.dropReplay (s : State) (i : Nat) : State :=
  { s with ing := { s.ing with canon := s.ing.canon.filter (fun c => !(c.input == i && c.replay)) }
           chn := { s.chn with spectra := s.chn.spectra.filter (fun x => !(x.input == i && x.replay)) } }

/-- SLOT_START (R157): an armed slot starts at the reference tick of its pending model. -/
def execSlotStart (i : Nat) (s : State) : Res :=
  let t := s.slot i
  match t.startAt with
  | some kr =>
    if i < 256 && s.blockOn 6 && s.bit (ING_Ii_CFG i) 0 = 1 && !s.slotRunning i && s.slotBegun i kr then
      let s := s.applyModel i
      let t := s.slot i
      let s := s.setSlot i { Slot.reset with kStart := kr, pend := t.pend, models := t.models,
                                             cfgLog := [(kr, s.rd (ING_Ii_CFG i), s.rd (ING_Ii_HIT i))] }
      let s := s.when (s.slotReplay i) (·.dropReplay i)
      .next (((s.setBit (ING_Ii_STATUS i) 31 true).setBit (ING_Ii_STATUS i) 30 false).setBit (ING_Ii_STATUS i) 29 false)
    else .next s
  | none => .next s

/-- SLOT_STOP (R171): a slot whose EN was cleared stops at the tick boundary that follows. -/
def execSlotStop (i : Nat) (s : State) : Res :=
  let t := s.slot i
  match t.stopAt with
  | some b =>
    if i < 256 && s.begun b then .next ((s.setSlot i { t with stopAt := none }).setBit (ING_Ii_STATUS i) 31 false)
    else .next s
  | none => .next s

/-! ### Intake (R151 to R159, R168) -/

/-- One FIR output: the convolution of `taps` coefficients with the newest inputs, rounded and clamped (R153). A tap that
has no input reads 0 and is absent as a sample before the slot's start. -/
def firOut (coef : Nat → Int) (taps sh : Nat) (royal : Bool) (hist : List Smp) : Smp × Bool :=
  let span := (List.range taps).map (fun t => (coef t, nth hist t ⟨0, .noneReceived, true⟩))
  let acc := sumI (span.map (fun p => p.1 * p.2.v))
  let v := if royal then shrConv acc sh else shrTrunc acc sh
  let cause := match span.find? (fun p => p.2.c != .none) with | some p => p.2.c | none => .none
  (⟨satS 18 v, cause, cause != .none⟩, satHit 18 v)

/-- Longest history a stage keeps. -/
def firMax (j : Nat) : Nat := match j with | 1 => 128 | 2 => 64 | _ => 32

/-- A sample enters stage j + 1 and what leaves the chain, if this ordinal makes an output, comes with the clamps. -/
def firChain (s : State) (i ord : Nat) : Nat → Nat → Smp → List (List Smp) → Option Smp × List (List Smp) × Nat
  | 0, _, x, hist => (some x, hist, 0)
  | left + 1, j, x, hist =>
    let fir := s.rd (ING_Ii_FIR i)
    let cfg := s.rd (ING_Ii_CFG i)
    let h := x :: (nth hist j []).take (firMax (j + 1) - 1)
    let hist := setNth hist j h
    if ord % firM fir (j + 1) = 0 then
      let o := firOut (fun t => s.coefAt (i / 32) (bitsOf cfg 18 16 * 256 + firBase (j + 1) + t)) (firTaps fir (j + 1))
        (firShift (s.rd (ING_Ii_SHIFT i)) (j + 1)) (bitOf cfg 1 == 1) h
      let r := firChain s i ord left (j + 1) o.1 hist
      (r.1, r.2.1, r.2.2 + (if o.2 then 1 else 0))
    else (none, hist, 0)

/-- Decimated samples a slot keeps: those the delay store of R166 can still be asked for. -/
def decKeep : Nat := 131072

/-- A native sample, after the DC blocker, goes through the FIR stages into the resampler's input. -/
def State.slotSample (s : State) (i : Nat) (x : Smp) : State :=
  let t := s.slot i
  let r := firChain s i t.nextOrd (firStages (s.rd (ING_Ii_FIR i))) 0 x t.hist
  let t := { t with hist := r.2.1, nextOrd := t.nextOrd + 1 }
  let t := match r.1 with
    | some y => { t with dec := (y :: t.dec).take decKeep, decTop := t.decTop + 1 }
    | none => t
  (s.setSlot i t).satCount i satFir r.2.2

/-- One present native sample: sign extension and the DC blocker (R151, R152). -/
def State.slotNative (s : State) (i k bw : Nat) (x : Int) : State :=
  let cfg := (s.slotCfgAt i k).1
  let x16 := x * (2 ^ (16 - bw) : Nat)
  if bitOf cfg 2 = 0 then s.slotSample i ⟨x16, .none, false⟩
  else
    let t := s.slot i
    let y := x16 - asr t.dc 24
    let dc := if bitOf cfg 3 = 1 then t.dc else t.dc + asr (x16 * 2 ^ 24 - t.dc) (bitsOf cfg 12 8)
    (s.setSlot i { t with dc := dc }).slotSample i ⟨y, .none, false⟩

/-- HALTED with GRID_LOST (R159). -/
def State.haltSlot (s : State) (i : Nat) : State := (s.setBit (ING_Ii_STATUS i) 30 true).flag ING_ERR 3

/-- The absent native samples of a gap, which enter the FIR stages as 0 (R167): `n` of them from the ordinal that follows
block `j`, each with the cause of the tick it falls in. -/
def State.slotGap (s : State) (i : Nat) (j : SlotTick) (c : Int) (n : Nat) : State :=
  s.each (List.range n) (fun s _ =>
    let t := s.slot i
    let pos : Int := ((t.nextOrd - j.o : Nat) : Int) * 2 ^ 32 + j.phase
    let q := j.tick + (if c ≤ 0 then 0 else (pos / c).toNat)
    let cause := match t.ticks.find? (fun b => b.tick == q && b.cause != .none) with
      | some b => b.cause
      | none => t.lastCause
    s.slotSample i ⟨0, cause, true⟩)

/-- R159: the ordinal after a gap, `none` where the recovery fails. -/
def recoverOrd (j : SlotTick) (c : Option Int) (k phase : Nat) : Option Nat :=
  match c with
  | none => none
  | some c =>
    if k - j.tick > 65536 then none
    else
      let u : Int := (phase : Int) - j.phase + ((k - j.tick : Nat) : Int) * c
      let r := (u + 2 ^ 31) / 2 ^ 32
      let d := u - r * 2 ^ 32
      if d.natAbs ≤ 2 ^ 30 && 0 ≤ (j.o : Int) + r then some ((j.o : Int) + r).toNat else none

/-- Native ticks a slot keeps: a gap of 65,536 ticks can be bridged (R159). -/
def slotKeep : Nat := 65538

/-- An accepted native tick: ordinals, the gap before it, its samples (R157, R159). -/
def State.slotAccept (s : State) (i : Nat) (b : NativeTick) : State :=
  let t := s.slot i
  let put (s : State) (o : Nat) : State :=
    let t := s.slot i
    let s := s.setSlot i { t with ticks := ⟨b.tick, o, b.phase, b.samples.length, .none⟩ :: t.ticks.take slotKeep }
    s.each b.samples (fun s x => s.slotNative i b.tick b.bits x)
  match t.ticks.find? (fun e => e.cause == .none) with
  | none => if b.tick = t.kStart then put s 0 else s.haltSlot i
  | some j =>
    if b.tick = j.tick + 1 then
      put (s.setSlot i { t with cStar := some ((j.spi : Int) * 2 ^ 32 + j.phase - b.phase) }) (j.o + j.spi)
    else match recoverOrd j t.cStar b.tick b.phase with
      | some o => put (s.slotGap i j (t.cStar.getD 0) (o - t.nextOrd)) o
      | none => s.haltSlot i

/-- An absent native tick: the start tick's absence halts the slot (R159); the DC blocker's estimate is tainted where it
runs unfrozen (R168). -/
def State.slotMiss (s : State) (i : Nat) (b : NativeTick) : State :=
  let t := s.slot i
  let cfg := (s.slotCfgAt i b.tick).1
  let s := s.setSlot i { t with ticks := ⟨b.tick, 0, 0, 0, b.cause⟩ :: t.ticks.take slotKeep, lastCause := b.cause }
  let s := if bitOf cfg 2 = 1 && bitOf cfg 3 = 0 && !s.slotTainted i then
      let t := s.slot i
      ((s.setSlot i { t with taintFrom := some (t.nextOrd, b.cause) }).setBit (ING_Ii_STATUS i) 29 true).flag ING_ERR 4
    else s
  if b.tick = t.kStart then s.haltSlot i else s

/-- The block slot i takes next: of those that wait for it, the one of the lowest tick. -/
def nextBlock (l : List NativeTick) (i : Nat) : Option NativeTick :=
  l.foldl (fun m b => if b.input = i && (match m with | some x => b.tick < x.tick | none => true) then some b else m) none

/-- Native samples engine e can take in one tick beyond those of its armed live slots at their nominal rates (R149, R170). -/
def State.engineIdle (s : State) (e : Nat) : Nat :=
  51200 - sumL (((List.range 32).map (· + 32 * e)).map (fun i =>
    if s.bit (ING_Ii_CFG i) 0 = 1 && !s.slotReplay i then ceilDiv (s.fd (ING_Ii_RATE i) ING_Ii_RATE_RATE_KSPS) 1000 else 0))

/-- The engine of slot i has idle cycles for a recorded block: what replay blocks have taken is worked off (R170; in whole blocks, DESIGN CHOICE,
log entry 100). -/
def State.replayTurn (s : State) (i : Nat) : Bool := nth s.ing.debt (i / 32) 0 < s.engineIdle (i / 32)

/-- A replay slot's DCB_FREEZE changes at the next tick of its own ticks (R170, R171). -/
def State.replayCfg (s : State) (i k : Nat) : State :=
  let t := s.slot i
  let now := (s.rd (ING_Ii_CFG i), s.rd (ING_Ii_HIT i))
  if s.slotReplay i && tlAt (0, 0) t.cfgLog k != now then s.setSlot i { t with cfgLog := (tlPut t.cfgLog k now).take 64 } else s

/-- SLOT_BLOCK_INTAKE (R157): slot i takes its next native tick, from its port or, with REPLAY, from the recording as its engine has idle
cycles (R170). A slot that has not started, is stopped or HALTED takes the block and leaves it without effect; while
ING_CTRL.EN is 0 the tick counts as absent (R607). -/
def execSlotBlockIntake (i : Nat) (s : State) : Res :=
  let replay := s.slotReplay i
  let queue := if replay then s.ing.replayIn else s.ing.inbox
  match nextBlock queue i with
  | none => .next s
  | some b =>
    let rest := queue.erase b
    if s.bit GLB_DOMAINS 4 = 0 || (replay && !s.replayTurn i) then .next s
    else
    let s := { s with ing := if replay then { s.ing with replayIn := rest, debt := modNth s.ing.debt (i / 32) (· + b.samples.length) }
                             else { s.ing with inbox := rest } }
    if i ≥ 256 || !s.slotRunning i || s.slotHalted i || b.tick < (s.slot i).kStart then .next s
    else
    let s := s.replayCfg i b.tick
    if !s.blockOn 6 then .next (s.slotMiss i { b with cause := .noneReceived, samples := [] })
    else if b.cause = .none then .next (s.slotAccept i b)
    else .next (s.slotMiss i b)

/-! ### Resampler (R157, R158, R162 to R169) -/

/-- The native tick q of slot t's log. -/
def Slot.tickAt (t : Slot) (q : Int) : Option SlotTick := t.ticks.find? (fun b => (b.tick : Int) == q)

/-- The position of grid time tp (2^−16 ns) in units of 2^−32 native samples (R157), or the cause for which the mapping
cannot be formed (R167). At the start of tick q it needs no c_q. -/
def Slot.nativePos (t : Slot) (tp : Int) : NecCause × Int :=
  let q := tp.fdiv 65536000
  let f := tp - q * 65536000
  if q < t.kStart then (.noneReceived, 0)
  else match t.tickAt q, t.tickAt (q + 1) with
    | some a, b =>
      if a.cause ≠ .none then (a.cause, 0)
      else if f = 0 then (.none, (a.o : Int) * 2 ^ 32 - a.phase)
      else match b with
      | none => (.noneReceived, 0)
      | some b =>
      if b.cause ≠ .none then (b.cause, 0)
      else
        let c : Int := (a.spi : Int) * 2 ^ 32 + a.phase - b.phase
        (.none, (a.o : Int) * 2 ^ 32 - a.phase + (f * c).fdiv 65536000)
    | _, _ => (.noneReceived, 0)

/-- R158: the decimated position. -/
def decPos (nat : Int) (g2 m : Nat) : Int := (nat + (g2 : Int) * 2 ^ 31).fdiv m

/-- The 16 taps of a resampler phase (Table 6-2). -/
def State.rsTaps (s : State) (i ph : Nat) : List Int :=
  (List.range 16).map (fun t => s.coefAt (i / 32) (0x4000 + s.fd (ING_Ii_CFG i) ING_Ii_CFG_RBANK * 4096 + ph * 16 + t))

/-- One canonical sample at decimated position a, with whether it was clamped. -/
def State.rsSample (s : State) (i : Nat) (t : Slot) (a : Int) : Smp × Bool :=
  let ph := (a % 2 ^ 32 + 0x800000) / 2 ^ 24
  let p := a.fdiv (2 ^ 32) + (if ph = 256 then 1 else 0)
  let ph := if ph = 256 then 0 else ph.toNat
  if p < 7 || (t.decTop : Int) ≤ p + 8 then (⟨0, .noneReceived, true⟩, false)
  else
    let span := ((t.dec.drop (t.decTop - 1 - (p.toNat + 8))).take 16).reverse
    match span.find? (fun x => x.c != .none) with
    | some x => (⟨0, x.c, true⟩, false)
    | none =>
      let acc := sumI ((List.zip (s.rsTaps i ph) span).map (fun q => q.1 * q.2.v))
      let v := shrConv acc (s.fd (ING_Ii_SHIFT i) ING_Ii_SHIFT_RSH)
      let mark := match t.taintFrom with
        | some (o, c) => if (o : Int) ≤ p * firM (s.rd (ING_Ii_FIR i)) (firStages (s.rd (ING_Ii_FIR i))) then c else .none
        | none => .none
      (⟨satS 16 v, mark, false⟩, satHit 16 v)

/-- R169: the hit bits of a run of samples, from the bit before them. -/
def hitBits (en : Bool) (thrOn thrOff : Nat) : Bool → List Smp → List Bool
  | _, [] => []
  | h, x :: r =>
    let b := en && !x.gap
      && (if thrOn ≤ x.v.natAbs then true else if x.v.natAbs < min thrOn thrOff then false else h)
    b :: hitBits en thrOn thrOff b r

/-- Canonical ticks the hive keeps for the units that read them: a window of 16 × 65,536 samples at 100 samples a tick spans 10,487 ticks
(R176, Table 6-3), of 256 live and 256 replayed inputs. -/
def canonKeep : Nat := 6000000

/-- Delivers a canonical tick (R166) and counts it when it holds an absent sample. -/
def State.deliverCanon (s : State) (c : CanonTick) : State :=
  let s := s.when (c.samples.any (·.gap)) (·.count (ING_Ii_ABSENT_CNT c.input) 1)
  { s with ing := { s.ing with canon := (c :: s.ing.canon).take canonKeep } }

/-- The canonical samples of grid tick k (R162): the state that counts and reports, and the samples. -/
def State.resample (s : State) (i k : Nat) : State × List Smp :=
  let t := s.slot i
  let cfg := s.rd (ING_Ii_CFG i)
  let fir := s.rd (ING_Ii_FIR i)
  let ns := canonNs (bitsOf cfg 26 24)
  let absent (c : NecCause) : List Smp := List.replicate ns ⟨0, c, true⟩
  if s.slotHalted i then (s, absent (if t.lastCause = .none then .noneReceived else t.lastCause))
  else
    let d0 := t.delta k
    let d1 := t.delta (k + 1)
    let s := s.when d0.2.1 (·.satCount i satDly 1)
    let s := (s.setBit (ING_Ii_STATUS i) 27 d0.2.1).setBit (ING_Ii_STATUS i) 28 d0.2.2
    let p0 := t.nativePos ((k * 65536000 : Nat) - (d0.1 : Int))
    let p1 := t.nativePos (((k + 1) * 65536000 : Nat) - (d1.1 : Int))
    if p0.1 ≠ .none then (s, absent p0.1)
    else if p1.1 ≠ .none then (s, absent p1.1)
    else
      let m := firM fir (firStages fir)
      let a0 := decPos p0.2 (firG2 fir) m
      let a1 := decPos p1.2 (firG2 fir) m
      let rr := (a1 - a0).fdiv ns
      let s := (s.wr (ING_Ii_RATIO i) (unsigned 32 rr)).setFd (ING_Ii_STATUS i) ING_Ii_STATUS_RATIO_INT
        (unsigned 34 rr / 2 ^ 32)
      if rr * 1000 < 499 * 2 ^ 32 || 2001 * 2 ^ 32 < rr * 1000 then
        (s, absent (if t.lastCause = .laneLost then .laneLost else .noneReceived))
      else
        let ys := (List.range ns).map (fun (n : Nat) => s.rsSample i t (a0 + n * rr))
        (s.satCount i satRs (ys.filter (·.2)).length, ys.map (·.1))

/-- RESAMPLE_GRID_TICK (R162): once its native data are present, slot i computes the canonical samples of grid tick k,
with their hit bits, and delivers them, those of a live slot by the end of tick k + 4 (R166). A grid tick the slot does not produce is not delivered and reads as absent
(R167). -/
def execResampleGridTick (i k : Nat) (s : State) : Res :=
  let t := s.slot i
  let have1 := match t.ticks with | b :: _ => k + 1 ≤ b.tick | [] => false
  if i ≥ 256 || !s.blockOn 6 || !s.slotRunning i || k < t.kStart || !(have1 || s.slotHalted i) || (!s.slotReplay i && s.begun (k + 5))
    || s.ing.canon.any (fun c => c.input == i && c.tick == k && c.replay == s.slotReplay i) then .next s
  else
    let r := s.resample i k
    let s := r.1
    let set := s.slotCfgAt i k
    let hits := hitBits (bitOf set.1 4 == 1 && !s.slotReplay i) (bitsOf set.2 15 0) (bitsOf set.2 31 16) t.hit r.2
    let s := s.setSlot i { s.slot i with hit := hits.getLastD t.hit }
    .next (s.deliverCanon ⟨i, k, s.slotReplay i, r.2, hits⟩)

/-- The canonical samples of input i in grid tick k, absent where the slot did not deliver them (R167). -/
def State.canonOf (s : State) (replay : Bool) (i k : Nat) : List Smp :=
  match s.ing.canon.find? (fun c => c.input == i && c.tick == k && c.replay == replay) with
  | some c => c.samples
  | none => List.replicate (canonNs (s.fd (ING_Ii_CFG i) ING_Ii_CFG_CANON)) ⟨0, .noneReceived, true⟩

/-- The ingest part of the tick boundary: DCB_FREEZE, HIT_EN and the thresholds take effect (R171); the idle cycles of the tick that ends have worked
off what replay slots took (R170). -/
def State.ingTick (s : State) : State :=
  let s := { s with ing := { s.ing with debt := (List.range 8).map (fun e => nth s.ing.debt e 0 - s.engineIdle e) } }
  s.each (List.range 256) (fun s i =>
    let t := s.slot i
    let now := (s.rd (ING_Ii_CFG i), s.rd (ING_Ii_HIT i))
    if s.slotRunning i && !s.slotReplay i && tlAt (0, 0) t.cfgLog s.tick != now then
      s.setSlot i { t with cfgLog := (tlPut t.cfgLog s.tick now).take 64 } else s)

/-! ### Register writes -/

/-- R164: may slot i be armed with configuration `cfg`? -/
def State.slotArmable (s : State) (i cfg : Nat) : Bool :=
  let fir := s.rd (ING_Ii_FIR i)
  let rate := s.fd (ING_Ii_RATE i) ING_Ii_RATE_RATE_KSPS
  let st := firStages fir
  let m := firM fir st
  let rc := canonNs (bitsOf cfg 26 24) * 1000
  let royals := ((List.range 256).filter (fun j => j != i && s.rd (ING_Ii_CFG j) % 4 == 3)).length
  m * rc ≤ 2 * rate && rate ≤ 2 * m * rc
  && (firG2 fir + 16 * m) * 100000 ≤ 2 * 99 * rate
  && (st < 2 || firTaps fir 2 ≤ 64) && (st < 3 || firTaps fir 3 ≤ 32)
  && (bitOf cfg 1 = 0 || royals < 8)

/-- Fields of ING_Ii_CFG locked while the slot is armed (R171). -/
def ingLocked : Nat := 0x7371F26

/-- The slot configuration rules (R156, R164, R171) and the advance of a coefficient address on an ignored write. -/
def ingPre (a new : Nat) (s : State) : Option State :=
  if 0x601000 ≤ a && a < 0x605000 then
    let i := (a - 0x601000) / 0x40
    let old := s.rd a
    let en := s.bit (ING_Ii_CFG i) 0 = 1
    match (a - 0x601000) % 0x40 with
    | 0 =>
      if en && Nat.land (Nat.xor old new) ingLocked ≠ 0 then some (s.flag ING_ERR 0)
      else if bitOf new 0 = 1 && !s.slotArmable i new then some (s.flag ING_ERR 0)
      else none
    | 4 | 8 | 12 => if en && old ≠ new then some (s.flag ING_ERR 0) else none
    | _ => none
  else none

/-- The coefficient store at `addr` of engine e is selected by an enabled slot of the engine (R156). -/
def State.coefBusy (s : State) (e addr : Nat) : Bool :=
  (List.range 32).any (fun n =>
    let c := s.rd (ING_Ii_CFG (e * 32 + n))
    bitOf c 0 == 1 && (if addr < 0x800 then bitsOf c 18 16 == addr / 256 else bitsOf c 21 20 == (addr - 0x4000) / 4096))

/-- Reserved coefficient addresses (Table 6-2). -/
def coefReserved (addr : Nat) : Bool := (addr < 0x800 && addr % 256 ≥ 224) || (0x800 ≤ addr && addr < 0x4000)

/-- A change of DCB_FREEZE, HIT_EN or ING_Ii_HIT without an effective tick: the next product of every session that produces from input i is
CONFIG_UNTIMED (R171, R56). -/
def State.inputUntimed (s : State) (i : Nat) : State :=
  s.each (s.ctn.ses.filter (fun p => bitOf p.2.cfg 1 == 1 && bitsOf p.2.cfg2 7 0 ≤ i && i ≤ bitsOf p.2.cfg2 7 0 + bitsOf p.2.cfg2 15 8))
    (fun s p => s.markUntimed p.1)

/-- After a write (R150, R154, R156, R161, R171). -/
def ingPost (a old : Nat) (s : State) : State :=
  if 0x601000 ≤ a && a < 0x605000 then
    let i := (a - 0x601000) / 0x40
    let s := if (a - 0x601000) % 0x40 ≤ 8 then
        s.wr (ING_Ii_GDELAY i) (gdelay i (s.fd (ING_Ii_RATE i) ING_Ii_RATE_RATE_KSPS) (s.rd (ING_Ii_FIR i)))
      else s
    match (a - 0x601000) % 0x40 with
    | 0 =>
      let s := s.setFd ING_ROYAL ING_ROYAL_COUNT s.royalCount
      let t := s.slot i
      if bitOf old 0 = 0 && s.bit a 0 = 1 then
        let s := (s.setBit (ING_Ii_STATUS i) 30 false).setBit (ING_Ii_STATUS i) 29 false
        s.setSlot i { t with startAt := t.pend.map (·.kr), stopAt := if s.slotRunning i then t.stopAt else none }
      else if bitOf old 0 = 1 && s.bit a 0 = 0 then
        s.setSlot i { t with stopAt := if s.slotRunning i then some (s.tick + 1) else none, startAt := none }
      else if s.bit a 0 = 1 && (bitOf old 3 ≠ bitOf (s.rd a) 3 || bitOf old 4 ≠ bitOf (s.rd a) 4) then s.inputUntimed i
      else s
    | 0x24 => s.commitModel i
    | 0x28 => if s.bit (ING_Ii_CFG i) 0 = 1 && s.rd a ≠ old then s.inputUntimed i else s
    | _ => s
  else if 0x608000 ≤ a && a < 0x608080 && a % 0x10 = 4 then
    let e := (a - 0x608000) / 0x10
    let addr := s.fd (ING_FEe_COEF_ADDR e) ING_FEe_COEF_ADDR_ADDR
    let v := s.fd a ING_FEe_COEF_DATA_COEF
    let s := s.wr a 0
    let s := if coefReserved addr then s
      else if s.coefBusy e addr then s.flag ING_ERR 1
      else { s with ing := { s.ing with coef := spSet zeroNat s.ing.coef (e * 32768 + addr) v } }
    s.setFd (ING_FEe_COEF_ADDR e) ING_FEe_COEF_ADDR_ADDR (addr + 1)
  else s

/-- A read of COEF_DATA returns the stored value and does not advance the address (R156). -/
def State.coefRead (s : State) (e : Nat) : Nat :=
  let addr := s.fd (ING_FEe_COEF_ADDR e) ING_FEe_COEF_ADDR_ADDR
  if coefReserved addr then 0 else spGet zeroNat s.ing.coef (e * 32768 + addr)

end Sys2Proof.Machine
end

