-- ==== Sys2Proof/Machine/Channel.lean ====
section
/-!
DEFINITION. The channeliser (chapter 07): profiles, spectrum numbering, the polyphase stage, the FFT, the split, gains
and requantisation, and the hand-off to the corner turn.
-/
namespace Sys2Proof.Machine

/-! ### Profiles (R172 to R179) -/

def State.cpCfg (s : State) (p : Nat) : Nat := s.rd (CHN_CPp_CFG p)

/-- L = 2^LOG2L, P, hop, NS of profile configuration `cfg` (Tables 6-3, 7-1; R177). -/
def cpL (cfg : Nat) : Nat := 2 ^ bitsOf cfg 15 11
def cpP (cfg : Nat) : Nat := 4 * (bitsOf cfg 10 9 + 1)
def cpHop (cfg : Nat) : Nat := if bitOf cfg 8 = 1 then 3 * cpL cfg / 4 else cpL cfg
def cpNs (cfg : Nat) : Nat := canonNs (bitsOf cfg 18 16)
def State.cpFirst (s : State) (p : Nat) : Nat := bitsOf (s.rd (CHN_CPp_RANGE p)) 30 16
def State.cpCount (s : State) (p : Nat) : Nat := bitsOf (s.rd (CHN_CPp_RANGE p)) 14 0 + 1
def State.cpEpoch (s : State) (p : Nat) : Nat := s.rd64 (CHN_CPp_EPOCH_LO p) (CHN_CPp_EPOCH_HI p)
def State.inputProfile (s : State) (i : Nat) : Nat := s.fd (CHN_Ii_CFG i) CHN_Ii_CFG_PROFILE

/-- s0(n) of R177. -/
def specStart (cfg n : Nat) : Int := ((n + 1) * cpHop cfg : Nat) - ((cpP cfg * cpL cfg : Nat) : Int)

/-- h(n) of R178. -/
def homeTick (epoch cfg n : Nat) : Nat := epoch + ((n + 1) * cpHop cfg - 1) / cpNs cfg

/-- Does spectrum n lie at or after the first that input i produces (R179)? -/
def State.specExists (s : State) (i n : Nat) : Bool :=
  let p := s.inputProfile i
  let kStart := s.rd64 (CHN_Ii_START_LO i) (CHN_Ii_START_HI i)
  decide ((((kStart : Int) - s.cpEpoch p) * cpNs (s.cpCfg p)) ≤ specStart (s.cpCfg p) n)

/-! ### Window, fold, FFT, split (R180 to R185) -/

/-- R180: the coefficient of window position u. -/
def State.win (s : State) (p u : Nat) : Int :=
  let cfg := s.cpCfg p
  let h := cpP cfg * cpL cfg / 2
  signed 18 (spGet zeroNat s.chn.win (s.rd (CHN_CPp_WBASE p) + (if u < h then u else cpP cfg * cpL cfg - 1 - u)))

/-- R182: twiddle components of scale 2^17. -/
def twr (l j : Nat) : Int := satS 18 (roundAt (cos128 j l) 17)
def twi (l j : Nat) : Int := satS 18 (roundAt (-(sin128 j l)) 17)

/-- R182: the complex product by twiddle j. -/
def cmulTw (l j : Nat) (b : Cx) : Cx :=
  ⟨shrConv (b.re * twr l j - b.im * twi l j) 17, shrConv (b.re * twi l j + b.im * twr l j) 17⟩

/-- R181: the folded values v[0] to v[L − 1] before clamping, out of the window's samples, oldest first. -/
def State.fold (s : State) (p n : Nat) (x : List Int) : List Int :=
  let cfg := s.cpCfg p
  let l := cpL cfg
  let s0 := specStart cfg n
  (List.range l).map (fun (j : Nat) =>
    let t := (((j : Int) - s0) % l).toNat
    let acc := sumI ((List.range (cpP cfg)).map (fun q => s.win p (q * l + t) * nth x (q * l + t) 0))
    shrConv acc (bitsOf cfg 23 19))

/-- Every second element, from the first. -/
def evens {α : Type} : List α → List α
  | [] => []
  | [x] => [x]
  | x :: _ :: r => x :: evens r

/-- Every second element, from the second. -/
def odds {α : Type} : List α → List α
  | [] => []
  | [_] => []
  | _ :: y :: r => y :: odds r

/-- Both components clamped to 24 bits, with the clamps that acted. -/
def sat24c (z : Cx) : Cx × Nat :=
  (⟨satS 24 z.re, satS 24 z.im⟩, (if satHit 24 z.re then 1 else 0) + (if satHit 24 z.im then 1 else 0))

/-- The butterflies of stage s (R183): `span` points out of two halves; the clamps that acted. -/
def butterflies (l hpts s shift : Nat) (a b : List Cx) : List Cx × Nat :=
  let sh := bitOf shift (s - 1)
  let span := 2 ^ s
  let r := (List.zip (List.range (span / 2)) (List.zip a b)).map (fun p =>
    let t := cmulTw l (2 * p.1 * (hpts / span)) p.2.2
    (sat24c ⟨shrConv (p.2.1.re + t.re) sh, shrConv (p.2.1.im + t.im) sh⟩,
     sat24c ⟨shrConv (p.2.1.re - t.re) sh, shrConv (p.2.1.im - t.im) sh⟩))
  (r.map (·.1.1) ++ r.map (·.2.1), sumL (r.map (fun q => q.1.2 + q.2.2)))

/-- R183: the complex FFT up to stage s, decimation in time; the clamps of every stage, stage 1 first. -/
def fftCx (l hpts shift : Nat) : Nat → List Cx → List Cx × List Nat
  | 0, z => (z, [])
  | s + 1, z =>
    let e := fftCx l hpts shift s (evens z)
    let o := fftCx l hpts shift s (odds z)
    let r := butterflies l hpts (s + 1) shift e.1 o.1
    (r.1, List.zipWith (· + ·) e.2 o.2 ++ [r.2])

/-- R184: the split that forms channels 0 to H − 1. -/
def splitReal (l fsh : Nat) (z : List Cx) : List (Cx × Nat) :=
  let h := z.length
  (List.range h).map (fun c =>
    let a := nth z c ⟨0, 0⟩
    let b0 := nth z ((h - c) % h) ⟨0, 0⟩
    let b : Cx := ⟨b0.re, -b0.im⟩
    let e : Cx := ⟨a.re + b.re, a.im + b.im⟩
    let t := cmulTw l c ⟨a.re - b.re, a.im - b.im⟩
    sat24c ⟨shrConv (e.re + t.im) (1 + fsh), shrConv (e.im - t.re) (1 + fsh)⟩)

/-- Pairs of folded values as complex points: z[m] = (v[2m], v[2m + 1]). -/
def pairUp : List Int → List Cx
  | a :: b :: r => ⟨a, b⟩ :: pairUp r
  | _ => []

/-- The channels of spectrum n of profile p from its window's samples, with the clamps counted (R181 to R185). -/
def State.transform (s : State) (p n : Nat) (x : List Int) : List Cx × State :=
  let cfg := s.cpCfg p
  let v := s.fold p n x
  let pfb := (v.filter (satHit 24)).length
  let h := cpL cfg / 2
  let f := fftCx (cpL cfg) h (s.rd (CHN_CPp_SHIFT p)) (bitsOf cfg 15 11 - 1) (pairUp (v.map (satS 24)))
  let sp := splitReal (cpL cfg) (bitsOf cfg 25 24) f.1
  let spc := sumL (sp.map (·.2))
  let stg := sumL ((List.zip (List.range f.2.length) f.2).map (fun q => if q.2 > 0 then 2 ^ q.1 else 0))
    + (if spc > 0 then 2 ^ 15 else 0)
  let s := (s.count (CHN_CPp_PFB_SAT p) pfb).count (CHN_CPp_OVF_CNT p) (sumL f.2 + spc)
  let s := s.wr (CHN_CPp_OVF_STG p) (Nat.lor (s.rd (CHN_CPp_OVF_STG p)) stg)
  (sp.map (·.1), s.when (pfb > 0 || sumL f.2 + spc > 0) (·.flag CHN_ERR 4))

/-! ### Gains and requantisation (R187 to R189) -/

/-- The gain bank of spectra with home tick h (R188): that of the last switch whose k_eff is at most h. -/
def State.gainBank (s : State) (h : Nat) : Nat :=
  match s.chn.gainEff with
  | some k => if !s.chn.switched && k ≤ h then 1 - s.bit CHN_GAIN_STATUS 0 else tlAt 0 s.chn.banks h
  | none => tlAt 0 s.chn.banks h

/-- R189: one channel requantised with gain g, and the clamps that acted. -/
def requant (qsh lim : Nat) (x g : Cx) : (Int × Int) × Nat :=
  let cl (v : Int) : Int × Nat := if (lim : Int) < v then (lim, 1) else if v < -(lim : Int) then (-(lim : Int), 1) else (v, 0)
  let r := cl (shrConv (x.re * g.re - x.im * g.im) qsh)
  let i := cl (shrConv (x.re * g.im + x.im * g.re) qsh)
  ((r.1, i.1), r.2 + i.2)

/-- Gain entry e of a bank. -/
def State.gainAt (s : State) (bank e : Nat) : Cx :=
  let w := spGet zeroNat s.chn.gain (bank * 2 ^ 22 + e)
  ⟨signed 16 (w / 2 ^ 16), signed 16 w⟩

/-! ### Spectra (R190, R191, R194) -/

/-- Input i reads recorded samples: its own REPLAY bit, or that of its slot (R170, R194). -/
def State.inputReplay (s : State) (i : Nat) : Bool := s.bit (CHN_Ii_CFG i) 1 == 1 || s.slotReplay i

/-- Grid tick k of input i has come, or can come no more: delivered, past its deadline of R166, of a slot that does not run, or passed over
by the recording. -/
def State.canonDue (s : State) (i : Nat) (k : Int) : Bool :=
  let r := s.inputReplay i
  decide (k < 0) || s.ing.canon.any (fun c => c.input == i && c.replay == r && ((c.tick : Int) == k || (r && decide (k < c.tick))))
  || (!r && (s.begun (k.toNat + 5) || (!s.slotRunning i && s.begun k.toNat)))

/-- The canonical samples with indices s0 to s0 + len − 1 of input i under profile p (R176). -/
def State.windowOf (s : State) (i p : Nat) (s0 : Int) (len : Nat) : List Smp :=
  let ns := cpNs (s.cpCfg p)
  let t0 := s0.fdiv ns
  let span := ((s0 + len - 1).fdiv ns - t0 + 1).toNat
  let all := (List.range span).flatMap (fun (q : Nat) =>
    let k : Int := (s.cpEpoch p : Int) + t0 + q
    if k < 0 then List.replicate ns ⟨0, .noneReceived, true⟩ else s.canonOf (s.inputReplay i) i k.toNat)
  (all.drop (s0 - t0 * ns).toNat).take len

/-- R190: the cause a mark carries: LANE_LOST if any marked sample has it, else that of the lowest index. -/
def markCause (w : List Smp) : NecCause :=
  if w.any (·.c == .laneLost) then .laneLost
  else match w.find? (·.c != .none) with | some x => x.c | none => .none

/-- Spectra the corner turn keeps for its sends: at L = 64 a tick has up to 6,400 (R193), and they wait for at most 4 ticks; as many again of
replays. -/
def specKeep : Nat := 65536

/-- In the hand-off order of one tick (R191) x comes before y: profile, spectrum number, input. -/
def Spectrum.before (x y : Spectrum) : Bool :=
  x.profile < y.profile || (x.profile == y.profile && (x.n < y.n || (x.n == y.n && x.input < y.input)))

/-- A spectrum among those handed on, newest first: behind those of its home tick that the order of R191 puts after it. -/
def putSpectrum (x : Spectrum) : List Spectrum → List Spectrum
  | [] => [x]
  | y :: r => if y.home = x.home && x.before y then y :: putSpectrum x r else x :: y :: r

/-- Hands a spectrum to the corner turn (R191): the highest spectrum number handed on is reported. One of the same labels from before a
change of the profile's epoch goes. -/
def State.handOff (s : State) (x : Spectrum) : State :=
  let others := s.chn.spectra.filter (fun y => !(y.input == x.input && y.n == x.n && y.profile == x.profile && y.replay == x.replay))
  let s := { s with chn := { s.chn with spectra := (putSpectrum x others).take specKeep } }
  let p := x.profile
  if s.rd64 (CHN_CPp_LAST_LO p) (CHN_CPp_LAST_HI p) < x.n then s.wr64 (CHN_CPp_LAST_LO p) (CHN_CPp_LAST_HI p) x.n else s

/-- Input i is channelised for home tick h: EN, or stopped at a later boundary (R179). A replay input, whose home ticks are past, goes on
until the boundary. -/
def State.inputOn (s : State) (i h : Nat) : Bool :=
  s.bit (CHN_Ii_CFG i) 0 == 1 || s.chn.stopAt.any (fun e => e.1 == i && (if s.inputReplay i then !s.begun e.2 else decide (h < e.2)))

/-- Samples per tick that the enabled live inputs leave idle (R193, R194): each takes o × R_c, which is L for each hop. -/
def State.chnIdle (s : State) : Nat :=
  409600 - sumL ((List.range 256).map (fun i =>
    let cfg := s.cpCfg (s.inputProfile i)
    if s.bit (CHN_Ii_CFG i) 0 = 1 && !s.inputReplay i then ceilDiv (cpNs cfg * cpL cfg) (cpHop cfg) else 0))

/-- Idle capacity of the tick that ends has worked off replay spectra. -/
def State.chnTick (s : State) : State := { s with chn := { s.chn with debt := s.chn.debt - s.chnIdle } }

/-- Spectrum n of input i has been formed under the present epoch. -/
def State.specDone (s : State) (i n : Nat) : Bool :=
  let p := s.inputProfile i
  s.chn.spectra.any (fun x => x.input == i && x.n == n && x.profile == p && x.replay == s.inputReplay i
    && x.home == homeTick (s.cpEpoch p) (s.cpCfg p) n)

/-- SPECTRUM_COMPUTE (R181): spectrum n of input i, formed once the samples of its window have come: of a live input by the end of tick
h(n) + 2 (R178), of a replay input as live inputs leave idle capacity (R194; in whole spectra, DESIGN CHOICE, log entry 100). -/
def execSpectrumCompute (i n : Nat) (s : State) : Res :=
  let p := s.inputProfile i
  let cfg := s.cpCfg p
  let h := homeTick (s.cpEpoch p) cfg n
  let s0 := specStart cfg n
  let len := cpP cfg * cpL cfg
  let ns := cpNs cfg
  let k0 : Int := (s.cpEpoch p : Int) + s0.fdiv ns
  let due := (List.range (h + 1 - k0.toNat)).all (fun q => s.canonDue i (k0 + q))
  if i ≥ 256 || !s.blockOn 7 || bitOf cfg 0 = 0 || !s.inputOn i h || !s.specExists i n || !due || s.specDone i n
    || (if s.inputReplay i then s.chnIdle ≤ s.chn.debt else s.begun (h + 3)) then .next s
  else
    let s := s.when (s.inputReplay i) (fun t => { t with chn := { t.chn with debt := t.chn.debt + cpL cfg } })
    let w := s.windowOf i p s0 len
    let gone := w.any (·.gap)
    let mark := markCause (if gone then w.filter (·.gap) else w)
    let zeros : List (Int × Int) := List.replicate (s.cpCount p) (0, 0)
    let out (s : State) (vals : List (Int × Int)) : State :=
      s.handOff ⟨i, n, h, p, s.inputReplay i, gone, mark, s.cpFirst p, vals⟩
    if gone then .next (out s zeros)
    else
      let r := s.transform p n (w.map (·.v))
      let s := r.2
      let lim := if bitOf cfg 7 = 1 then 127 else 7
      let bank := s.gainBank h
      let base := s.fd (CHN_Ii_CFG i) CHN_Ii_CFG_GBASE
      let qs := (List.range (s.cpCount p)).map (fun l =>
        requant (bitsOf cfg 31 26) lim (nth r.1 (s.cpFirst p + l) ⟨0, 0⟩) (s.gainAt bank (base + l)))
      .next (out (s.count (CHN_Ii_CLIP i) (sumL (qs.map (·.2)))) (qs.map (·.1)))

/-- CHN_INPUT_STOP (R179): an input whose EN was cleared has stopped at the tick boundary that followed; its spectra with home ticks before it
are complete two ticks later (R178). -/
def execChnInputStop (i : Nat) (s : State) : Res :=
  .next { s with chn := { s.chn with stopAt := s.chn.stopAt.filter (fun e => !(e.1 == i && s.begun (e.2 + 2))) } }

/-- The spectra with home tick h of profile p, by number (R178). -/
def State.specsAt (s : State) (p h : Nat) : List Nat :=
  let cfg := s.cpCfg p
  if h < s.cpEpoch p then []
  else
    let t := (h - s.cpEpoch p) * cpNs cfg
    let lo := ceilDiv (t + 1) (cpHop cfg)
    (List.range ((t + cpNs cfg) / cpHop cfg + 1 - lo)).map (· + lo - 1)

/-- Live spectra with home tick k that were not formed: none is handed on any more (R43, R45). -/
def State.chnAbandon (s : State) (k : Nat) (off : Bool) : State × Bool :=
  (s, !off && (List.range 256).any (fun i =>
    let p := s.inputProfile i
    bitOf (s.cpCfg p) 0 == 1 && !s.inputReplay i && s.inputOn i k && (s.specsAt p k).any (fun n => s.specExists i n && !s.specDone i n)))

/-! ### Gain switches (R188) -/

/-- A commit of a bank switch at k_eff. -/
def State.gainCommit (s : State) (k : Nat) : Nat × State :=
  if s.begun k then (0x0401, s.flag CHN_ERR 3)
  else if s.chn.gainEff.any s.begun then (0x0404, s.flag CHN_ERR 2)
  else (0, ({ s with chn := { s.chn with gainEff := some k } }).setBit CHN_GAIN_STATUS 1 true)

/-- GAIN_BANK_SWITCH (R188): at tick k_eff ACTIVE names the new bank. -/
def execGainBankSwitch (s : State) : Res :=
  match s.chn.gainEff with
  | some k =>
    if s.begun k && !s.chn.switched then
      .next (({ s with chn := { s.chn with switched := true, banks := tlPut s.chn.banks k (1 - s.bit CHN_GAIN_STATUS 0) } }).setBit CHN_GAIN_STATUS 0 (s.bit CHN_GAIN_STATUS 0 == 0))
    else .next s
  | none => .next s

/-- GAIN_SWITCH_DONE (R188): at the end of tick k_eff + 1 the switch is no longer pending. -/
def execGainSwitchDone (s : State) : Res :=
  match s.chn.gainEff with
  | some k =>
    if s.begun (k + 2) && s.chn.switched then
      .next (({ s with chn := { s.chn with gainEff := none, switched := false } }).setBit CHN_GAIN_STATUS 1 false)
    else .next s
  | none => .next s

/-! ### Register writes -/

/-- R173: may profile p be enabled with configuration `cfg`? -/
def State.cpArmable (s : State) (p cfg : Nat) : Bool :=
  let lg := bitsOf cfg 15 11
  6 ≤ lg && lg ≤ 16 && bitsOf cfg 31 26 ≤ 47
  && s.rd (CHN_CPp_WBASE p) + cpP cfg * cpL cfg / 2 ≤ 1048576
  && s.cpFirst p + s.cpCount p ≤ cpL cfg / 2

/-- R174, R194: may input i be enabled with configuration `cfg`? -/
def State.inputArmable (s : State) (i cfg : Nat) : Bool :=
  let p := bitsOf cfg 5 4
  bitOf (s.cpCfg p) 0 == 1
  && bitsOf (s.cpCfg p) 18 16 == s.fd (ING_Ii_CFG i) ING_Ii_CFG_CANON
  && bitsOf cfg 30 10 + s.cpCount p ≤ 2097152

def chnPre (a new : Nat) (s : State) : Option State :=
  let bad := some (s.flag CHN_ERR 0)
  if 0x700100 ≤ a && a < 0x700200 then
    let p := (a - 0x700100) / 0x40
    let old := s.rd a
    let en := bitOf (s.cpCfg p) 0 = 1
    let used := (List.range 256).any (fun i => s.bit (CHN_Ii_CFG i) 0 == 1 && s.inputProfile i == p)
    match (a - 0x700100) % 0x40 with
    | 0 =>
      if en && old / 2 ≠ new / 2 then bad
      else if en && bitOf new 0 = 0 && used then bad
      else if bitOf new 0 = 1 && !s.cpArmable p new then bad
      else none
    | 0x04 | 0x08 | 0x0C | 0x10 | 0x14 => if en && old ≠ new then bad else none
    | _ => none
  else if 0x701000 ≤ a && a < 0x702000 then
    let i := (a - 0x701000) / 0x10
    let old := s.rd a
    let en := s.bit (CHN_Ii_CFG i) 0 = 1
    match (a - 0x701000) % 0x10 with
    | 0 =>
      if en && old / 2 ≠ new / 2 then bad
      else if bitOf new 1 = 1 && s.bit (ING_Ii_CFG i) 0 = 1 then bad
      else if bitOf new 0 = 1 && !s.inputArmable i new then bad
      else none
    | 4 | 8 => if en && old ≠ new then bad else none
    | _ => none
  else none

/-- A word of the window store lies in the range of an enabled profile (R180). -/
def State.winBusy (s : State) (w : Nat) : Bool :=
  (List.range 4).any (fun p => bitOf (s.cpCfg p) 0 == 1 && s.rd (CHN_CPp_WBASE p) ≤ w
    && w < s.rd (CHN_CPp_WBASE p) + cpP (s.cpCfg p) * cpL (s.cpCfg p) / 2)

/-- After a write: the data windows (R180, R187, R188), a gain commit, an input stopped (R179). -/
def chnPost (a old : Nat) (s : State) : State :=
  if a = CHN_WIN_DATA then
    let w := s.rd CHN_WIN_ADDR
    let v := s.rd a
    let s := s.wr a 0
    let s := if s.winBusy w then s.flag CHN_ERR 1
      else { s with chn := { s.chn with win := spSet zeroNat s.chn.win w v } }
    s.wr CHN_WIN_ADDR ((w + 1) % 2 ^ 20)
  else if a = CHN_GAIN_DATA then
    let w := s.rd CHN_GAIN_ADDR
    let v := s.rd a
    let s := s.wr a 0
    let bank := bitOf w 22
    let s := if w % 2 ^ 22 ≥ 2097152 then s.flag CHN_ERR 0
      else if s.bit CHN_GAIN_STATUS 1 = 1 || (s.blockOn 7 && bank = s.bit CHN_GAIN_STATUS 0) then s.flag CHN_ERR 2
      else { s with chn := { s.chn with gain := spSet zeroNat s.chn.gain w v } }
    s.wr CHN_GAIN_ADDR ((w + 1) % 2 ^ 23)
  else if a = CHN_GAIN_EFF_HI then (s.gainCommit (s.rd64 CHN_GAIN_EFF_LO CHN_GAIN_EFF_HI)).2
  else if 0x701000 ≤ a && a < 0x702000 && (a - 0x701000) % 0x10 = 0 then
    let i := (a - 0x701000) / 0x10
    if bitOf old 0 = 1 && s.bit a 0 = 0 then
      { s with chn := { s.chn with stopAt := (i, s.tick + 1) :: s.chn.stopAt } }
    else s
  else s

/-- Reads of the store windows. -/
def State.winRead (s : State) : Nat := spGet zeroNat s.chn.win (s.rd CHN_WIN_ADDR)
def State.gainRead (s : State) : Nat :=
  let w := s.rd CHN_GAIN_ADDR
  if w % 2 ^ 22 ≥ 2097152 then 0 else spGet zeroNat s.chn.gain w

end Sys2Proof.Machine
end

