-- ==== Sys2Proof/Machine/Corner.lean ====
section
/-!
DEFINITION. Corner turn and brood assembly (chapter 09): session grids and maps, brood sends, brood memory and its
arrival bits, presence, hive announces and the peer table.
-/
namespace Sys2Proof.Machine

/-! ### Session grids (R608, R177, R178) -/

def State.ctnOf (s : State) (x : Nat) : Option CtnSes := (s.ctn.ses.find? (·.1 == x)).map (·.2)
def State.setCtn (s : State) (x : Nat) (c : CtnSes) : State :=
  { s with ctn := { s.ctn with ses := spPut s.ctn.ses x c } }

/-- The window of dwell d is assigned to it. -/
def CtnSes.assigned (c : CtnSes) (d : Nat) : Bool := nth c.win (d % 2) none == some d

/-- The enable of session x that dwell d belongs to: one that has ended and still holds d's window, else the present one (R238). -/
def State.ctnFor (s : State) (x d : Nat) : Option CtnSes :=
  match s.ctn.ending.find? (fun e => e.1 == x && e.2.assigned d) with
  | some e => some e.2
  | none => s.ctnOf x

def CtnSes.d (c : CtnSes) : Nat := bitsOf c.cfg 24 8
def CtnSes.w (c : CtnSes) : Nat := bitsOf c.cfg2 29 16
def CtnSes.own (c : CtnSes) : Bool := bitOf c.cfg 2 == 1
def CtnSes.produce (c : CtnSes) : Bool := bitOf c.cfg 1 == 1
def CtnSes.wide (c : CtnSes) : Bool := bitOf c.cfg 3 == 1
def CtnSes.bytes (c : CtnSes) : Nat := if c.wide then 2 else 1
def CtnSes.inLo (c : CtnSes) : Nat := bitsOf c.cfg2 7 0
def CtnSes.inCount (c : CtnSes) : Nat := bitsOf c.cfg2 15 8 + 1

/-- h(n) of the session's own grid. The grid register places CANON, LOG2L and OVS as CHN_CPp_CFG does. -/
def CtnSes.home (c : CtnSes) (n : Nat) : Nat := homeTick c.epoch c.grid n

/-- The smallest n with h(n) ≥ k. -/
def CtnSes.firstSpec (c : CtnSes) (k : Nat) : Nat :=
  if k ≤ c.epoch then 0 else ceilDiv ((k - c.epoch) * cpNs c.grid + 1) (cpHop c.grid) - 1

/-- The spectra whose home tick is k. -/
def CtnSes.specsOf (c : CtnSes) (k : Nat) : List Nat :=
  if k < c.epoch then []
  else
    let a := c.firstSpec k
    (List.range (c.firstSpec (k + 1) - a)).map (· + a)

/-- The first dwell whose first spectrum has a home tick at or after k. -/
def CtnSes.dwellFrom (c : CtnSes) (k : Nat) : Nat := ceilDiv (c.firstSpec k) c.d

/-- The last spectrum of dwell d, and its home tick. -/
def CtnSes.lastSpec (c : CtnSes) (d : Nat) : Nat := (d + 1) * c.d - 1
def CtnSes.endTick (c : CtnSes) (d : Nat) : Nat := c.home (c.lastSpec d)

/-- The maps in force for dwell d (R229). -/
def CtnSes.mapsAt (c : CtnSes) (d : Nat) : CtnMaps :=
  match c.pend with
  | some (_, d0, m) => if d0 ≤ d then m else tlAt ⟨0, 0, 0⟩ c.maps d
  | none => tlAt ⟨0, 0, 0⟩ c.maps d

/-! ### Maps (R224 to R229) -/

/-- A slice-map entry. -/
structure SliceEnt where
  first : Nat
  count : Nat
  owner : Nat
  standby : Nat
  sbEn : Bool
  grp : Nat
  deriving DecidableEq, Repr

def State.sliceEnt (s : State) (e : Nat) : SliceEnt :=
  let lo := s.rd (CTN_SLICEe_LO e)
  let hi := s.rd (CTN_SLICEe_HI e)
  ⟨bitsOf lo 14 0, bitsOf lo 30 16 + 1, bitsOf hi 9 0, bitsOf hi 19 10, bitOf hi 20 == 1, bitsOf hi 26 21⟩

/-- The entries a MAP register names. -/
def State.slices (s : State) (map : Nat) : List SliceEnt :=
  (List.range (bitsOf map 26 16)).map (fun j => s.sliceEnt (bitsOf map 12 0 + j))

/-- The entries an INMAP register names: hive, first session input, count. -/
def State.inputs (s : State) (inmap : Nat) : List (Nat × Nat × Nat) :=
  (List.range (bitsOf inmap 26 16)).map (fun j =>
    let e := bitsOf inmap 13 0 + j
    let hi := s.rd (CTN_INMAPe_HI e)
    (bitsOf hi 9 0, s.rd (CTN_INMAPe_LO e) % 2 ^ 18, bitsOf hi 23 16 + 1))

/-- N_x: the inputs an input map numbers. -/
def State.numInputs (s : State) (inmap : Nat) : Nat := sumL ((s.inputs inmap).map (fun e => e.2.2))

def State.hiveId (s : State) : Nat := s.rd CTN_ID % 1024

/-- This hive owns the entry (R226). -/
def State.ownsEnt (s : State) (e : SliceEnt) : Bool := e.owner == s.hiveId || (e.sbEn && e.standby == s.hiveId)

/-- Puts `x` into an ascending list. -/
def insAsc (x : Nat) : List Nat → List Nat
  | [] => [x]
  | a :: r => if x < a then x :: a :: r else if x = a then a :: r else a :: insAsc x r

/-- The channels this hive owns under a map, ascending: a channel's place is its local index l (R228). -/
def State.owned (s : State) (map : Nat) : List Nat :=
  ((s.slices map).filter s.ownsEnt).foldl (fun acc e => (List.range e.count).foldl (fun a j => insAsc (e.first + j) a) acc) []

def State.numOwned (s : State) (map : Nat) : Nat := (s.owned map).length

/-- R225: the entries cover the indices 0 to N − 1 exactly once. -/
def State.inmapOk (s : State) (inmap : Nat) : Bool :=
  let es := s.inputs inmap
  let n := s.numInputs inmap
  1 ≤ bitsOf inmap 26 16 && bitsOf inmap 26 16 ≤ 1024 && n ≤ 262144
  && es.all (fun e => e.2.2 ≤ 256 && e.2.1 + e.2.2 ≤ n)
  && es.all (fun e => (es.filter (fun f => f.2.1 < e.2.1 + e.2.2 && e.2.1 < f.2.1 + f.2.2)).length == 1)

/-- R226: no channel in two entries. -/
def State.mapOk (s : State) (map : Nat) : Bool :=
  let es := s.slices map
  1 ≤ bitsOf map 26 16 && bitsOf map 26 16 ≤ 1024
  && es.all (fun e => (es.filter (fun f => f.first < e.first + e.count && e.first < f.first + f.count)).length == 1)

/-- The local inputs of a session configuration. -/
def localInputs (cfg2 : Nat) : List Nat := (List.range (bitsOf cfg2 15 8 + 1)).map (· + bitsOf cfg2 7 0)

/-- R227: every channel of the map lies in the range of every profile its local inputs use. -/
def State.mapInRange (s : State) (cfg cfg2 map : Nat) : Bool :=
  bitOf cfg 1 == 0 || (localInputs cfg2).all (fun i =>
    let p := s.inputProfile i
    (s.slices map).all (fun e => s.cpFirst p ≤ e.first && e.first + e.count ≤ s.cpFirst p + s.cpCount p))

/-- The session configuration registers as an enable takes them, EN apart. -/
def State.ctnRead (s : State) (x cfg : Nat) : CtnSes :=
  { cfg := cfg, cfg2 := s.rd (CTN_SESx_CFG2 x), sibase := s.rd (CTN_SESx_SIBASE x), brood := s.rd (CTN_SESx_BROOD x),
    udp := s.rd (CTN_SESx_UDP x), epoch := s.rd64 (CTN_SESx_EPOCH_LO x) (CTN_SESx_EPOCH_HI x), grid := s.rd (CTN_SESx_GRID x),
    maps := [(0, ⟨s.rd (CTN_SESx_MAP x), s.rd (CTN_SESx_INMAP x), s.rd (CTN_SESx_VERSION x)⟩)], pend := none,
    first := 0, last := none, win := [none, none], since := s.tick }

/-- R249: the dwell range. -/
def dwellOk (cfg : Nat) : Bool :=
  let d := bitsOf cfg 24 8
  d ≤ 65536 && (if bitOf cfg 4 = 1 then 16 ≤ d && d % 16 == 0 else 1024 ≤ d && d % 256 == 0)

/-- R40: the range of W. -/
def wRangeOk (cfg2 : Nat) : Bool := 1 ≤ bitsOf cfg2 29 16 && bitsOf cfg2 29 16 ≤ 10000

/-- May session x be enabled with configuration `cfg` (R40, R225 to R227, R249, R608)? -/
def State.ctnArmable (s : State) (x cfg : Nat) : Bool :=
  let grid := s.rd (CTN_SESx_GRID x)
  let cfg2 := s.rd (CTN_SESx_CFG2 x)
  let lg := bitsOf grid 15 11
  6 ≤ lg && lg ≤ 16 && dwellOk cfg && wRangeOk cfg2
  && (bitOf cfg 1 == 0 || (localInputs cfg2).all (fun i =>
      let p := s.inputProfile i
      i < 256 && s.cpEpoch p == s.rd64 (CTN_SESx_EPOCH_LO x) (CTN_SESx_EPOCH_HI x)
      && Nat.land (Nat.xor (s.cpCfg p) grid) 0x7F900 == 0))
  && (bitOf cfg 2 == 0 || s.inmapOk (s.rd (CTN_SESx_INMAP x)))
  && s.mapOk (s.rd (CTN_SESx_MAP x)) && s.mapInRange cfg cfg2 (s.rd (CTN_SESx_MAP x))

/-- Two enables of a session number their dwells alike. -/
def CtnSes.sameGrid (a b : CtnSes) : Bool := a.epoch == b.epoch && a.grid == b.grid && a.d == b.d

/-- A hive that holds no entry of a map has C_x = 0 and sets OWN to 0 (R228). -/
def State.clearOwn (s : State) (x map : Nat) : State :=
  s.when (s.bit (CTN_SESx_CFG x) 2 = 1 && s.numOwned map = 0) (·.setBit (CTN_SESx_CFG x) 2 false)

/-- The first dwell that takes no spectrum of the last dwell of an enable that has ended. -/
def CtnSes.follows (c o : CtnSes) : Nat :=
  match o.last with
  | some l => if o.epoch = c.epoch && o.grid = c.grid then ceilDiv ((l + 1) * o.d) c.d else c.dwellFrom (o.endTick l + 1)
  | none => 0

/-- The session starts (R237): its windows go to its first two dwells; a window that dwells of an earlier enable still hold follows at their
release. A replay session's windows go to the dwells of the recording as they arrive (log entry 101). -/
def State.ctnStart (s : State) (x : Nat) : State :=
  let s := s.clearOwn x (s.rd (CTN_SESx_MAP x))
  let c := s.ctnRead x (s.rd (CTN_SESx_CFG x))
  let s := match s.ctnOf x with
    | some o => { s with ctn := { s.ctn with ending := (x, o) :: s.ctn.ending } }
    | none => s
  let olds := (s.ctn.ending.filter (fun e => e.1 == x)).map (·.2)
  let held (p : Nat) : Bool := olds.any (fun o => (nth o.win p none).isSome)
  let d := if s.sesReplay x then 0 else maxL (c.dwellFrom s.tick :: olds.map c.follows)
  let one (p : Nat) : Option Nat := if s.sesReplay x || held p then none else some (if d % 2 = p then d else d + 1)
  let maps := match olds with
    | o :: _ => if o.sameGrid c then tlPut o.maps d (tlAt ⟨0, 0, 0⟩ c.maps d) else c.maps
    | [] => c.maps
  s.setCtn x { c with first := d, win := [one 0, one 1], maps := maps }

/-- The dwell in progress at tick k. -/
def CtnSes.dwellAt (c : CtnSes) (k : Nat) : Nat := if c.d = 0 then 0 else (c.firstSpec (k + 1) - 1) / c.d

/-- No dwell after d of an enable is assigned a window. -/
def CtnSes.upTo (c : CtnSes) (d : Nat) : CtnSes :=
  { c with last := some d, win := c.win.map (fun w => match w with
      | some e => if e ≤ d then some e else none
      | none => none) }

/-- A write of EN to 0 (R238): no dwell after the one in progress is assigned a window. With none in progress the session ends at once. -/
def State.ctnStop (s : State) (x : Nat) : State :=
  match s.ctnOf x with
  | some c =>
    let rep := s.sesReplay x
    if (if rep then c.win.all (·.isNone) else decide (c.firstSpec (s.tick + 1) ≤ c.first * c.d)) then
      { s with ctn := { s.ctn with ses := spDel s.ctn.ses x } }
    else s.setCtn x (c.upTo (if rep then maxL (c.win.filterMap id) else c.dwellAt s.tick))
  | none => s

/-- The enable ends with the last dwell that has begun before tick k, for one with other parameters to follow at that boundary (R55). -/
def State.ctnRenew (s : State) (x k : Nat) : State :=
  match s.ctnOf x with
  | some c =>
    if c.dwellFrom k ≤ c.first then { s with ctn := { s.ctn with ses := spDel s.ctn.ses x } }
    else s.setCtn x (c.upTo (c.dwellFrom k - 1))
  | none => s

/-! ### Brood sends (R230 to R236) -/

/-- Spectrum n, of home tick k, of hive input i, if the channeliser handed it on. -/
def State.spectrumOf (s : State) (i n k : Nat) : Option Spectrum :=
  s.chn.spectra.find? (fun x => x.input == i && x.n == n && x.home == k && x.replay == s.inputReplay i)

/-- The bits of Table 9-2 for one spectrum of an input. -/
def markBits : Option Spectrum → Nat
  | none => 1
  | some x =>
    let spare := if x.mark = .laneLost then 4 else 0
    if x.absent then 1 + spare else if x.mark = .none then 0 else 2 + spare

/-- A sample packed as R189 sets. -/
def packSample (wide : Bool) (v : Int × Int) : List Byte :=
  if wide then [BitVec.ofNat 8 (unsigned 8 v.1), BitVec.ofNat 8 (unsigned 8 v.2)]
  else [BitVec.ofNat 8 (unsigned 4 v.1 * 16 + unsigned 4 v.2)]

/-- The sample of channel ch in a spectrum, zero where it is absent. -/
def specVal (x : Option Spectrum) (ch : Nat) : Int × Int :=
  match x with
  | some x => if x.absent || ch < x.first then (0, 0) else nth x.vals (ch - x.first) (0, 0)
  | none => (0, 0)

/-- The 64-byte brood header (Table 9-1). -/
def broodHeader (flags x src dst chCount chFirst inCount inFirst specCount specFirst tick off bytes swarm version : Nat) :
    List Byte :=
  toBE 2 0xB70D ++ toBE 1 1 ++ toBE 1 flags ++ toBE 2 x ++ toBE 2 src ++ toBE 2 dst ++ toBE 2 chCount ++ toBE 2 chFirst
  ++ toBE 2 inCount ++ toBE 4 inFirst ++ toBE 2 specCount ++ toBE 2 0 ++ toBE 8 specFirst ++ toBE 8 tick ++ toBE 4 off
  ++ toBE 4 bytes ++ toBE 4 swarm ++ toBE 4 version ++ toBE 8 0

/-- The ports of peer h's set, ascending (R246). -/
def State.peerPorts (s : State) (h : Nat) : List Nat :=
  ((s.ctn.members.filter (·.hive == h)).map (·.port)).foldl (fun a p => insAsc p a) []

/-- Where a send of entry e goes (R232, R233): the port and its header template, `none` where the set is empty. -/
def State.broodPath (s : State) (c : CtnSes) (x k : Nat) (e : SliceEnt) : Option (Nat × List Byte) :=
  let h := if e.sbEn && (s.peerPorts e.owner).isEmpty then e.standby else e.owner
  let set := s.peerPorts h
  if set.isEmpty then none
  else
    let port := nth set ((k + x) % set.length) 0
    if e.sbEn then
      some (port, s.ownTmpl port (s.grpV6 e.grp) (groupMac (s.grpV6 e.grp) (s.grpAddr e.grp)) (s.grpAddr e.grp) c.udp)
    else
      let ip := match s.ctn.members.find? (fun m => m.hive == h && m.port == port) with | some m => m.ip | none => 0
      some (port, s.ownTmpl port (2 ^ 32 ≤ ip) (s.neighMac ip port) ip c.udp)

/-- The spectra of a send, by spectrum number and input. -/
def State.sendSpectra (s : State) (c : CtnSes) (k : Nat) (ns : List Nat) : List (List (Option Spectrum)) :=
  ns.map (fun n => (localInputs c.cfg2).map (fun i => s.spectrumOf i n k))

/-- R236: the mark byte of each input of a send. -/
def markBytes (ins : Nat) (sp : List (List (Option Spectrum))) : List Nat :=
  (List.range ins).map (fun j => sp.foldl (fun a r => Nat.lor a (markBits (nth r j none))) 0)

/-- One send: spectra `ns` (of one dwell) of channels ch to ch + cnt − 1 of entry e (R231 to R236). -/
def State.broodOne (s : State) (c : CtnSes) (x k : Nat) (e : SliceEnt) (ns : List Nat) (ch cnt version : Nat) : State :=
  let ins := localInputs c.cfg2
  let sp := s.sendSpectra c k ns
  let mb := markBytes ins.length sp
  let marked := mb.any (· != 0)
  let g := ins.length * c.bytes
  let mrec : List Byte := if marked then mb.flatMap (fun m => BitVec.ofNat 8 m :: (if c.wide then [0] else [])) else []
  let body := (List.range cnt).flatMap (fun a => sp.flatMap (fun r => r.flatMap (fun q => packSample c.wide (specVal q (ch + a)))))
  let total := g * ((if marked then 1 else 0) + cnt * ns.length)
  let fl := (if marked then 64 else 0) + (if c.wide then 32 else 0)
  let hdr (last : Nat) := broodHeader (fl + last * 128) x s.hiveId e.owner cnt ch ins.length c.sibase ns.length (ns.headD 0) k 0
    total (s.rd CTN_SWARM_ID) version
  let internal (s : State) : State :=
    (s.deliver ⟨.brood x, 32, 0, hdr 1 ++ mrec ++ body, s.time16, 0, 0⟩).count CTN_TX_LOCAL 1
  let s := if s.ownsEnt e then internal s else s
  if s.ownsEnt e && !e.sbEn then s
  else match s.broodPath c x k e with
    | some (port, tmpl) =>
      (s.sendPut { kind := .brood, src := x, sid := 0, port := port, queue := 4, age := 0, tmpl := tmpl, hdr := hdr 0, offAt := 40,
                   lastAt := 3, lastBit := 7, gran := g, data := mrec ++ body }).count CTN_TX_SENDS 1
    | none => (s.count CTN_TX_NO_PATH 1).flag CTN_ERR 4

/-- Whole channels of a send that fit in 4,194,304 bytes beside its mark record, if it has one (R230). -/
def chansPerSend (g marks ns : Nat) : Nat := max 1 ((4194304 / max 1 g - marks) / max 1 ns)

/-- The sends of the spectra `ns`, all of dwell d, for entry number e of the map in force: split by channel where a send
would exceed 4,194,304 bytes (R230). -/
def State.broodDwell (s : State) (c : CtnSes) (x k e d : Nat) (ns : List Nat) : State :=
  let m := c.mapsAt d
  match (s.slices m.map)[e]? with
  | none => s
  | some en =>
    let marks := if (markBytes c.inCount (s.sendSpectra c k ns)).any (· != 0) then 1 else 0
    let per := chansPerSend (c.inCount * c.bytes) marks ns.length
    s.each (List.range (ceilDiv en.count per)) (fun s q =>
      s.broodOne c x k en ns (en.first + q * per) (min per (en.count - q * per)) m.version)

/-- The enable of session x in force for home tick k: one that has ended, up to its last dwell, else the present one, from the tick in which EN
was written 1. -/
def State.ctnAt (s : State) (x k : Nat) : Option (CtnSes × List Nat) :=
  let specs (c : CtnSes) : List Nat :=
    (c.specsOf k).filter (fun n => match c.last with | some d => n / c.d ≤ d | none => true)
  let all := ((s.ctn.ending.filter (·.1 == x)).map (·.2)) ++ (s.ctnOf x).toList
  (all.map (fun c => (c, specs c))).find? (fun q => !q.2.isEmpty && q.1.d != 0 && (s.sesReplay x || q.1.since ≤ k))

/-- The channeliser has handed on the spectra `ns` of home tick k, or can do so no more: past its deadline, or, for recorded samples, with a
later spectrum of the input handed on. -/
def State.specsReady (s : State) (c : CtnSes) (x k : Nat) (ns : List Nat) : Bool :=
  (!s.sesReplay x && s.begun (k + 3)) || ns.all (fun n => (localInputs c.cfg2).all (fun i => (s.spectrumOf i n k).isSome
    || (s.sesReplay x && s.chn.spectra.any (fun y => y.input == i && y.replay && y.profile == s.inputProfile i && decide (n < y.n)))))

/-- A dwell of a replay session waits for the window that this hive still holds for an earlier one (log entry 101). -/
def CtnSes.waits (c : CtnSes) (d : Nat) : Bool := match nth c.win (d % 2) none with | some e => decide (e < d) | none => false

/-- BROOD_SEND (R230): the send of session x and slice-map entry e for home tick k, split at a dwell boundary. It is formed once the channeliser
has handed on the tick's spectra or its deadline has passed, by the end of tick k + 3 (R45). -/
def execBroodSend (x e k : Nat) (s : State) : Res :=
  match s.ctnAt x k with
  | none => .next s
  | some (c, ns) =>
    if !s.worksOn 8 k || !c.produce || !s.begun k || !s.specsReady c x k ns || s.ctn.sent.contains (x, e, k)
        || (if s.sesReplay x then ns.any (fun n => c.waits (n / c.d)) else s.begun (k + 4)) then .next s
    else
      let s := { s with ctn := { s.ctn with sent := ((x, e, k) :: s.ctn.sent).take 65536 } }
      let ds := ns.foldl (fun l n => addNew l (n / c.d)) []
      .next (s.each ds (fun s d => s.broodDwell c x k e d (ns.filter (fun n => n / c.d == d))))

/-- The sends of home tick k that were not formed by the end of tick k + 3 are given up (R43) and, while the block is on, counted with those of
R233 (DEDUCED, log entry 103). The answer tells whether any was left
for a cause that R44 does not list. -/
def State.ctnAbandon (s : State) (k : Nat) (off : Bool) : State × Bool :=
  ((s.ctn.ses ++ s.ctn.ending).map (·.1)).eraseDups.foldl (fun (acc : State × Bool) x =>
    match acc.1.ctnAt x k with
    | none => acc
    | some (c, ns) =>
      if acc.1.sesReplay x || !c.produce then acc
      else
        let m := c.mapsAt (ns.headD 0 / c.d)
        let left := (List.range (acc.1.slices m.map).length).filter (fun e => !acc.1.ctn.sent.contains (x, e, k))
        let s := { acc.1 with ctn := { acc.1.ctn with sent := (left.map (fun e => (x, e, k)) ++ acc.1.ctn.sent).take 65536 } }
        (s.when (!off) (·.count CTN_TX_ABANDON left.length), acc.2 || (!off && !left.isEmpty))) (s, false)

/-! ### Brood memory and receive checks (R237 to R241) -/

/-- Byte offset of a sample record in brood memory, with its window (R237). -/
def CtnSes.place (c : CtnSes) (nx l n i : Nat) : Nat :=
  n / c.d % 2 * 2 ^ 26 + (bitsOf c.brood 25 9 * 512) + ((l * c.d + n % c.d) * nx + i) * c.bytes

/-- The place of channel ch in the list of owned channels. -/
def idxOf (l : List Nat) (ch : Nat) : Option Nat := l.findIdx? (· == ch)

/-- The tick of a receive time in 2^−16 ns. -/
def tickOfStamp (t : Int) : Nat := (t / 65536000).toNat

/-- The receive time lies after the end of tick h + W (R40). What a replay session receives is never late (log entry 101). -/
def State.isLate (s : State) (c : CtnSes) (x h rt : Nat) : Bool := !s.sesReplay x && decide (h + c.w < rt)

/-- This hive owns channels of the session in dwell d (R228). -/
def State.ownsAt (s : State) (c : CtnSes) (d : Nat) : Bool := c.own && s.numOwned (c.mapsAt d).map != 0

/-- A replay session's window goes to the first dwell of the recording that arrives after the last one released (log entry 101). -/
def State.replayWindow (s : State) (c : CtnSes) (x d : Nat) : CtnSes × State :=
  if s.sesReplay x && nth c.win (d % 2) none == none && c.first ≤ d then
    let c := { c with win := setNth c.win (d % 2) (some d) }
    (c, s.setCtn x c)
  else (c, s)

/-- One sample record of a frame: checks 7 to 9 and the store (R237, R240). -/
def State.broodRecord (s : State) (c : CtnSes) (x nx : Nat) (own : List Nat) (id : SendId) (marks : Bool) (ch n : Nat)
    (rt : Nat) (data : List Byte) : State :=
  let d := n / c.d
  let l := (idxOf own ch).getD 0
  let key : Arrival := ⟨x, d, l, n, id.si⟩
  if s.isLate c x (c.home n) rt then (s.count CTN_RX_LATE 1).count (CTN_SESx_LATE x) 1
  else if !c.assigned d then s.count CTN_RX_EARLY 1
  else if s.ctn.arrived.contains key then (s.count CTN_RX_DUP 1).count (CTN_SESx_DUP x) 1
  else
    { s with ctn := { s.ctn with arrived := key :: s.ctn.arrived,
                                 marked := if marks then addNew s.ctn.marked id else s.ctn.marked,
                                 bad := s.ctn.bad.filter (fun a => !(c.place nx l n id.si ≤ a && a < c.place nx l n id.si + data.length)),
                                 brood := spSetAll zeroByte s.ctn.brood (c.place nx l n id.si) data } }

/-- A mark record: its lateness is tested against TICK + W; its arrival bit is one per send (R240, R241). -/
def State.broodMark (s : State) (c : CtnSes) (id : SendId) (rt : Nat) (bytes : List Nat) : State :=
  if s.isLate c id.x id.tick rt then (s.count CTN_RX_LATE 1).count (CTN_SESx_LATE id.x) 1
  else if !c.assigned id.d then s.count CTN_RX_EARLY 1
  else if s.ctn.marks.any (·.1 == id) then (s.count CTN_RX_DUP 1).count (CTN_SESx_DUP id.x) 1
  else { s with ctn := { s.ctn with marks := (id, bytes) :: s.ctn.marks } }

/-- The enable of session x that spectrum n belongs to. -/
def State.ctnForSpec (s : State) (x n : Nat) : Option CtnSes :=
  match s.ctn.ending.find? (fun e => e.1 == x && e.2.d != 0 && e.2.assigned (n / e.2.d)) with
  | some e => some e.2
  | none => s.ctnOf x

/-- A brood frame goes through the checks of Table 9-3 in row order, its records one by one. -/
def State.broodFrame (s : State) (target : Nat) (b : List Byte) (stamp : Int) : State :=
  let f (i k : Nat) := beAt b i k
  let fl := f 3 1
  let x := f 4 2
  let chCount := f 10 2
  let chFirst := f 12 2
  let inCount := f 14 2
  let specCount := f 20 2
  let specFirst := f 24 8
  let marks := bitOf fl 6
  let pay := b.drop 64
  if b.length < 64 || f 0 2 ≠ 0xB70D || f 2 1 ≠ 1 || bitsOf fl 4 0 ≠ 0 || f 22 2 ≠ 0 || f 56 8 ≠ 0 || x ≠ target then
    s.count CTN_RX_HDR_ERR 1
  else if f 48 4 ≠ s.rd CTN_SWARM_ID then s.count CTN_RX_SWARM 1
  else
    let mapErr := (s.count CTN_RX_MAP_ERR 1).flag CTN_ERR 3
    match s.ctnForSpec x specFirst with
    | none => mapErr
    | some c =>
      let m := c.mapsAt (specFirst / max 1 c.d)
      let own := s.owned m.map
      if !s.ownsAt c (specFirst / max 1 c.d) || c.d = 0 || (bitOf fl 5 == 1) != c.wide || f 52 4 ≠ m.version
        || !(List.range chCount).all (fun j => own.contains (chFirst + j)) then mapErr
      else if !(s.inputs m.inmap).contains (f 6 2, f 16 4, inCount) then s.count CTN_RX_INPUT_ERR 1
      else
        let g := inCount * c.bytes
        let off := f 40 4
        let total := f 44 4
        if inCount = 0 || chCount = 0 || specCount = 0 || total ≠ g * (marks + chCount * specCount) || off % g ≠ 0
          || total < off + pay.length || pay.length % g ≠ 0 then s.count CTN_RX_HDR_ERR 1
        else if specFirst / c.d ≠ (specFirst + specCount - 1) / c.d then s.count CTN_RX_HDR_ERR 1
        else
          let id : SendId := ⟨x, specFirst / c.d, f 32 8, chFirst, specFirst, f 16 4, inCount⟩
          let rt := tickOfStamp stamp
          let nx := s.numInputs m.inmap
          let w := s.replayWindow c x id.d
          let c := w.1
          let s := w.2
          let recs := chunks (pay.length / g) g pay
          s.each (List.zip (List.range recs.length) recs) (fun s q =>
            let r := off / g + q.1
            if r < marks then
              let mb := if c.wide then evens q.2 else q.2
              s.broodMark c id rt (mb.map (·.toNat))
            else
              let a := r - marks
              s.broodRecord c x nx own id (marks == 1) (chFirst + a / specCount) (specFirst + a % specCount) rt q.2)

/-- BROOD_FRAME_RECEIVE (R240): the first brood frame that waits is delivered to the brood writer. -/
def execBroodFrameReceive (s : State) : Res :=
  let isBrood (k : RxKind) : Bool := match k with | .brood _ => true | _ => false
  let t := s.takeRx (fun x => isBrood x.kind)
  match t.1 with
  | some ⟨.brood x, _, _, b, stamp, _, _⟩ =>
    if !s.blockOn 8 then .next (t.2.count CTN_RX_OFF 1) else .next (t.2.broodFrame x b stamp)
  | _ => .next s

/-- The address of the sample of local channel l, spectrum n, session input i in brood memory, and its bytes. -/
def State.broodAddr (s : State) (c : CtnSes) (l n i : Nat) : Nat × Nat :=
  (c.place (s.numInputs (c.mapsAt (n / c.d)).inmap) l n i, c.bytes)

/-- Byte a of brood memory meets an uncorrectable error. The spec does not state what a read gives then: free; what draws on it is flagged
(Table 2-5, log entry 102). -/
def State.broodError (s : State) (a : Nat) : State :=
  if s.ctn.bad.contains a then s
  else
    let v := s.free
    { v.2 with ctn := { v.2.ctn with bad := a :: v.2.ctn.bad, brood := spSet zeroByte v.2.ctn.brood a (BitVec.ofNat 8 v.1) } }

/-- The sample record has such a byte. -/
def State.broodBad (s : State) (c : CtnSes) (l n i : Nat) : Bool :=
  !s.ctn.bad.isEmpty && (let a := s.broodAddr c l n i
    (List.range a.2).any (fun j => s.ctn.bad.contains (a.1 + j)))

/-- The sample of local channel l, spectrum n, session input i: zeros where its record has not arrived (R238). -/
def State.broodRead (s : State) (c : CtnSes) (x l n i : Nat) : Int × Int :=
  let m := c.mapsAt (n / c.d)
  let es := s.inputs m.inmap
  match es.find? (fun e => e.2.1 ≤ i && i < e.2.1 + e.2.2) with
  | none => (0, 0)
  | some e =>
    if s.ctn.arrived.contains ⟨x, n / c.d, l, n, e.2.1⟩ then
      let a := (s.broodAddr c l n i).1
      let b (j : Nat) := (spGet zeroByte s.ctn.brood (a + j)).toNat
      if c.wide then (signed 8 (b 0), signed 8 (b 1)) else (signed 4 (b 0 / 16), signed 4 (b 0))
    else (0, 0)

/-! ### Presence (R241 to R243) -/

/-- The OR of the mark bytes accepted for an input in a dwell; a reserved bit counts as ABSENT (R236). A send of which
sample records but no mark record were accepted in time makes its inputs ABSENT (R241). -/
def State.markOr (s : State) (x d i : Nat) : Nat :=
  let byte (b : Nat) : Nat := if b ≥ 8 then Nat.lor (b % 8) 1 else b
  let a := s.ctn.marks.foldl (fun acc p =>
    if p.1.x = x && p.1.d = d && p.1.si ≤ i && i < p.1.si + p.1.cnt then Nat.lor acc (byte (nth p.2 (i - p.1.si) 0)) else acc) 0
  let lost := s.ctn.marked.any (fun q => q.x == x && q.d == d && q.si ≤ i && i < q.si + q.cnt
    && !s.ctn.marks.any (·.1 == q))
  if lost then Nat.lor a 1 else a

/-- The presence code of input i in dwell d (R242). -/
def State.presenceCode (s : State) (c : CtnSes) (x d i : Nat) : Nat :=
  let m := c.mapsAt d
  let cx := s.numOwned m.map
  let mk := s.markOr x d i
  match (s.inputs m.inmap).find? (fun e => e.2.1 ≤ i && i < e.2.1 + e.2.2) with
  | none => 0
  | some e =>
    let all := (s.ctn.arrived.filter (fun a => a.x == x && a.d == d && a.si == e.2.1)).length == cx * c.d
    (if all && mk % 2 = 0 then 1 else 0) + bitOf mk 1 * 2 + bitOf mk 2 * 4

/-- Dwell d of a replay session takes no more records: all have come, a later dwell has begun to arrive, or the recording has ended (log
entry 101). -/
def State.replayOver (s : State) (c : CtnSes) (x d : Nat) : Bool :=
  s.ctn.arrived.any (fun a => a.x == x && decide (d < a.d)) || !s.acq.replay.any (·.1 == x)
  || (s.ctn.arrived.filter (fun a => a.x == x && a.d == d)).length
      == (s.inputs (c.mapsAt d).inmap).length * s.numOwned (c.mapsAt d).map * c.d

/-- The end of tick h(n) + W of dwell d's last spectrum has come (R41, R242). -/
def State.presenceDue (s : State) (c : CtnSes) (x d : Nat) : Bool :=
  s.ownsAt c d && c.assigned d && (if s.sesReplay x then s.replayOver c x d else s.begun (c.endTick d + c.w + 1))

/-- The codes of dwell d have become final. -/
def State.presenceFinal (s : State) (x d : Nat) : Bool := s.ctn.final.any (fun f => f.1 == x && f.2.1 == d)

/-- The codes of dwell d become final, if they are due. -/
def State.finalise (s : State) (x d : Nat) : State :=
  match s.ctnFor x d with
  | none => s
  | some c =>
    if !s.presenceDue c x d || s.presenceFinal x d then s
    else
      let codes := (List.range (s.numInputs (c.mapsAt d).inmap)).map (s.presenceCode c x d)
      let s := { s with ctn := { s.ctn with final := (x, d, codes) :: s.ctn.final } }
      s.count (CTN_SESx_ABSENT x) (codes.filter (fun v => v % 2 == 0)).length

/-- PRESENCE_FINALISE (R41, R242): at the end of tick h(n) + W of the dwell's last spectrum the codes become final. -/
def execPresenceFinalise (x d : Nat) (s : State) : Res := .next (s.finalise x d)

/-- The final presence code of input i; 0 where brood assigned the dwell no window (R238, R242). -/
def State.presence (s : State) (x d i : Nat) : Nat :=
  match s.ctn.final.find? (fun f => f.1 == x && f.2.1 == d) with
  | some f => nth f.2.2 i 0
  | none => 0

/-- The reason a presence code gives a product (R243). -/
def presenceReason (code : Nat) : List Nat :=
  if code % 2 = 0 || bitOf code 1 = 1 then (if bitOf code 2 = 1 then [rSpare] else [rBroodAbsent]) else []

/-- The arrival bits of dwell d are cleared (R238). -/
def State.clearArrivals (s : State) (x d : Nat) : State :=
  { s with ctn := { s.ctn with
    arrived := s.ctn.arrived.filter (fun a => !(a.x == x && a.d == d))
    marked := s.ctn.marked.filter (fun a => !(a.x == x && a.d == d))
    marks := s.ctn.marks.filter (fun a => !(a.1.x == x && a.1.d == d))
    final := s.ctn.final.filter (fun f => !(f.1 == x && f.2.1 + 8 ≤ d)) } }

def State.wagE (s : State) (x : Nat) : Nat := bitsOf (s.rd (WAG_SESx_CFG x)) 31 16 + 1
def State.wagKe (s : State) (x : Nat) : Nat := s.rd64 (WAG_SESx_EPOCH_LO x) (WAG_SESx_EPOCH_HI x)

/-- The weight epoch of a home tick (R314). -/
def State.wagEpoch (s : State) (x h : Nat) : Nat := (h - s.wagKe x) / s.wagE x

/-- The session forms beams of home tick h: its first commit names that epoch or an earlier one (R327), and it has not stopped. -/
def State.beamsAt (s : State) (x : Nat) (t : WagSes) (h : Nat) : Bool :=
  t.stop.isNone && s.wagKe x ≤ h && (match t.first with | some f => decide (f ≤ s.wagEpoch x h) | none => false)

/-- The combs and the waggle engine have no more work of dwell d of a replay session (log entry 101): the dump is issued and the beams of its home
ticks are delivered. -/
def State.replayRead (s : State) (c : CtnSes) (x d : Nat) : Bool :=
  (match s.cmb.ses.find? (·.1 == x) with
    | some p => (match p.2.dumped with | some e => decide (d ≤ e) | none => decide (d < p.2.first))
    | none => true)
  && (match s.wag.ses.find? (·.1 == x) with
    | some p => (List.range (c.endTick d + 1 - c.home (d * c.d))).all (fun j =>
        !s.beamsAt x p.2 (c.home (d * c.d) + j) || s.wag.fin.contains (x, c.home (d * c.d) + j + c.w))
    | none => true)

/-- The end of tick h(n) + W + 4 of dwell d's last spectrum has come (R238). -/
def State.releaseDue (s : State) (c : CtnSes) (x d : Nat) : Bool :=
  c.assigned d && (if s.sesReplay x then s.replayOver c x d && s.replayRead c x d else s.begun (c.endTick d + c.w + 5))

/-- The window that dwell d of an earlier enable held goes to the present one. -/
def State.passWindow (s : State) (x d : Nat) : State :=
  match s.ctnOf x with
  | some c =>
    let e := if c.first % 2 = d % 2 then c.first else c.first + 1
    let ok := match c.last with | some l => decide (e ≤ l) | none => true
    s.when (nth c.win (d % 2) none == none && ok && !s.sesReplay x) (·.setCtn x { c with win := setNth c.win (d % 2) (some e) })
  | none => s

/-- BROOD_WINDOW_RELEASE (R238): at the end of tick h(n) + W + 4 the window of dwell d goes to dwell d + 2, its arrival
bits cleared; after the session's last dwell it goes to none. -/
def execBroodWindowRelease (x d : Nat) (s : State) : Res :=
  match s.ctnFor x d with
  | none => .next s
  | some c =>
    if !s.releaseDue c x d then .next s
    else
      let s := (s.finalise x d).clearArrivals x d
      let next := if s.sesReplay x then none
        else match c.last with | some e => if d + 2 ≤ e then some (d + 2) else none | none => some (d + 2)
      let c' := { c with win := setNth c.win (d % 2) next, first := if s.sesReplay x then max c.first (d + 1) else c.first }
      let done := c.last.isSome && c'.win.all (·.isNone)
      if s.ctn.ending.any (fun e => e.1 == x && e.2 == c) then
        let l := s.ctn.ending.filter (fun e => !(e.1 == x && e.2 == c))
        .next (({ s with ctn := { s.ctn with ending := if done then l else (x, c') :: l } }).passWindow x d)
      else if done then .next { s with ctn := { s.ctn with ses := spDel s.ctn.ses x } }
      else .next (s.setCtn x c')

/-! ### Map switches (R229) -/

/-- The maps a commit names, and the dwell they would take effect with. -/
def State.nextMaps (s : State) (x : Nat) : CtnMaps :=
  ⟨s.rd (CTN_SESx_NEXT_MAP x), s.rd (CTN_SESx_NEXT_INMAP x), s.rd (CTN_SESx_NEXT_VERSION x)⟩

/-- The maps of a commit keep R225 and R226. -/
def State.nextMapsOk (s : State) (m : CtnMaps) : Bool := s.inmapOk m.inmap && s.mapOk m.map

/-! ### Time spans of products (R86) -/

/-- Taps of the window of a session's spectra: those of the profile its local inputs use; a hive that produces none takes the longest window a
profile can have (DESIGN CHOICE, log entry 104). -/
def State.sesTaps (s : State) (c : CtnSes) : Nat := if c.produce then cpP (s.cpCfg (s.inputProfile c.inLo)) else 16

/-- The time span of what is formed from spectra n0 to n1 meets a step interval, or a tick it needs was never issued (R86). -/
def State.specsStepped (s : State) (c : CtnSes) (n0 n1 : Nat) : Bool :=
  let ns : Int := cpNs c.grid
  let s0 : Int := (((n0 + 1) * cpHop c.grid : Nat) : Int) - ((s.sesTaps c * cpL c.grid : Nat) : Int)
  let at_ (q : Int) : Int := ((c.epoch * tickU : Nat) : Int) + (q * (tickU : Nat)).fdiv ns
  let lo : Int := (c.epoch : Int) + s0.fdiv ns
  s.spanStepped (at_ s0) (at_ (((n1 + 1) * cpHop c.grid : Nat) : Int))
  || s.tim.skipped.any (fun r => decide (lo ≤ (r.2 : Int)) && r.1 ≤ c.home n1 || c.home n0 + c.w ≤ r.2 && r.1 ≤ c.home n1 + c.w)

/-! ### Announces and peers (R244 to R247) -/

def State.annPeriod (s : State) : Nat := bitsOf (s.rd CTN_ANN_CFG) 9 0
def State.annMiss (s : State) : Nat := bitsOf (s.rd CTN_ANN_CFG) 19 16
def State.annGrp (s : State) : Nat := bitsOf (s.rd CTN_ANN_CFG) 29 24

/-- The 32-byte hive announce message (Table 9-4). -/
def annBytes (swarm hive port seq tick : Nat) : List Byte :=
  toBE 2 0xB7A0 ++ toBE 1 1 ++ toBE 1 0 ++ toBE 4 swarm ++ toBE 2 hive ++ toBE 1 port ++ toBE 1 0 ++ toBE 4 seq ++ toBE 8 tick
  ++ toBE 8 0

/-- HIVE_ANNOUNCE_SEND (R244): at a tick boundary where hive time is a multiple of the period, on a port that is LINK_UP. -/
def execHiveAnnounceSend (n : Nat) (s : State) : Res :=
  let q := nth s.ctn.annSeq n (0, none)
  if !s.blockOn 8 || n ≥ 32 || s.bit CTN_ANN_PORTS n = 0 || !s.linkUp n || s.tick % (s.annPeriod * 1000) ≠ 0
    || q.2 = some s.tick then .next s
  else
    let v6 := s.grpV6 s.annGrp
    let dst := s.grpAddr s.annGrp
    let tmpl := s.ownTmpl n v6 (groupMac v6 dst) dst (s.rd ETH_UDP_FIX0 / 65536)
    let b := frameBytes tmpl (annBytes (s.rd CTN_SWARM_ID) s.hiveId n q.1 s.tick)
    let s := { s with ctn := { s.ctn with annSeq := setNth s.ctn.annSeq n ((q.1 + 1) % 2 ^ 32, some s.tick) } }
    .next (s.txPut n { kind := .announce, src := n, sid := 0, queue := 6, len := b.length + 4, age := 0, dst := 0, bytes := b, ptp := none })

/-- HIVE_ANNOUNCE_RECEIVE (R245): the first announce that waits; it is applied at the tick boundary. -/
def execHiveAnnounceReceive (s : State) : Res :=
  let t := s.takeRx (·.kind == .announce)
  match t.1 with
  | none => .next s
  | some a =>
    let s := t.2
    let h := beAt a.bytes 8 2
    if !s.blockOn 8 then .next (s.count CTN_RX_OFF 1)
    else if beAt a.bytes 0 2 ≠ 0xB7A0 || beAt a.bytes 2 1 ≠ 1 || beAt a.bytes 4 4 ≠ s.rd CTN_SWARM_ID || h > 1023
        || h = s.hiveId || s.bit (CTN_PEERh_MASK h) a.port = 0 then .next (s.count CTN_ANN_DROP 1)
    else .next { s with ctn := { s.ctn with annIn := s.ctn.annIn ++ [(a.port, h, a.src)] } }

/-- CTN_PEERh_STATUS of a set. -/
def peerStatus (ports : List Nat) : Nat :=
  if ports.isEmpty then 0
  else 2 ^ 31 + ports.length % 8 * 2 ^ 20
    + sumL ((List.zip (List.range 4) ports).map (fun p => p.2 % 32 * 2 ^ (5 * p.1)))

/-- The members changed, the status of peer h shown. -/
def State.setMembers (s : State) (h : Nat) (l : List Member) : State :=
  let s := { s with ctn := { s.ctn with members := l } }
  s.wr (CTN_PEERh_STATUS h) (peerStatus (s.peerPorts h))

/-- One announce applied (R246). -/
def State.applyAnnounce (s : State) (port h ip : Nat) : State :=
  let s := s.count CTN_ANN_RX 1
  let s := match s.addNeigh (2 ^ 32 ≤ ip) ip port with | some t => t | none => s.flag ETH_ERR 1
  let mine := s.ctn.members.filter (·.hive == h)
  let new : Member := ⟨h, port, ip, s.tick⟩
  if mine.any (·.port == port) then
    s.setMembers h (s.ctn.members.map (fun m => if m.hive = h && m.port = port then new else m))
  else
    let cap := if s.bit (CTN_PEERh_CFG h) 0 = 1 then 4 else 1
    if mine.length < cap then (s.setMembers h (s.ctn.members ++ [new])).flag (CTN_PEERh_HIST h) 1
    else (s.flag (CTN_PEERh_HIST h) 0).flag CTN_ERR 1

/-- The announces of the tick just ended, in ascending port order and in order of arrival (R246). -/
def State.peerLearn (s : State) : State :=
  let l := (List.range 33).flatMap (fun p => s.ctn.annIn.filter (·.1 == p))
  let s := { s with ctn := { s.ctn with annIn := [] } }
  s.each l (fun s a => s.applyAnnounce a.1 a.2.1 a.2.2)

/-- A member that R247 removes: no announce for MISS × PERIOD_MS, or its port left LINK_UP. -/
def State.memberGone (s : State) (m : Member) : Bool :=
  m.last + s.annMiss * s.annPeriod * 1000 ≤ s.tick || !s.linkUp m.port

/-- PEER_AGE (R247): at a tick boundary peer h loses the members that have gone. -/
def execPeerAge (h : Nat) (s : State) : Res :=
  if s.ctn.members.any (fun m => m.hive == h && s.memberGone m) then
    let s := s.setMembers h (s.ctn.members.filter (fun m => !(m.hive == h && s.memberGone m)))
    .next ((s.flag (CTN_PEERh_HIST h) 2).flag CTN_ERR 2)
  else .next s

/-! ### Register writes -/

/-- Entry e of a store lies in the part a MAP or INMAP register names. -/
def inPart (base count e : Nat) : Bool := base ≤ e && e < base + count

/-- An enabled session's current or pending map names slice entry e, or input-map entry e (R229). -/
def State.sliceUsed (s : State) (e : Nat) : Bool :=
  s.ctn.ses.any (fun p => (p.2.maps.take 1 |>.map (·.2)).any (fun m => inPart (bitsOf m.map 12 0) (bitsOf m.map 26 16) e)
    || (match p.2.pend with | some (_, _, m) => inPart (bitsOf m.map 12 0) (bitsOf m.map 26 16) e | none => false))
def State.inmapUsed (s : State) (e : Nat) : Bool :=
  s.ctn.ses.any (fun p => (p.2.maps.take 1 |>.map (·.2)).any (fun m => inPart (bitsOf m.inmap 13 0) (bitsOf m.inmap 26 16) e)
    || (match p.2.pend with | some (_, _, m) => inPart (bitsOf m.inmap 13 0) (bitsOf m.inmap 26 16) e | none => false))

def ctnPre (a new : Nat) (s : State) : Option State :=
  let bad := some (s.flag CTN_ERR 0)
  if 0x810000 ≤ a && a < 0x820000 then
    let x := (a - 0x810000) / 0x40
    let en := s.bit (CTN_SESx_CFG x) 0 = 1
    match a % 0x40 with
    | 0 =>
      if en && s.rd a / 2 ≠ new / 2 then bad
      else if !en && bitOf new 0 = 1 && !s.ctnArmable x new then bad
      else none
    | 0x04 | 0x08 | 0x0C | 0x24 | 0x28 | 0x2C | 0x30 => if en && s.rd a ≠ new then bad else none
    | _ => none
  else if 0x880000 ≤ a && a < 0x884000 then
    if s.bit (CTN_SESx_CFG ((a - 0x880000) / 0x10)) 0 = 1 && s.rd a ≠ new then bad else none
  else if 0x820000 ≤ a && a < 0x830000 then
    if s.rd a ≠ new && s.sliceUsed ((a - 0x820000) / 8) then bad else none
  else if 0x840000 ≤ a && a < 0x860000 then
    if s.rd a ≠ new && s.inmapUsed ((a - 0x840000) / 8) then bad else none
  else none

def ctnPost (a old : Nat) (s : State) : State :=
  if 0x810000 ≤ a && a < 0x820000 && a % 0x40 = 0 then
    let x := (a - 0x810000) / 0x40
    if bitOf old 0 = 0 && s.bit a 0 = 1 then s.ctnStart x
    else if bitOf old 0 = 1 && s.bit a 0 = 0 then s.ctnStop x
    else s
  else s

end Sys2Proof.Machine
end

