-- ==== Sys2Proof/Machine/Comb.lean ====
section
/-!
DEFINITION. The comb correlator (chapter 10): input lists and placement, the product, the work of a reference tick, dumps,
the witness comb and the states of the combs.
-/
namespace Sys2Proof.Machine

/-! ### Placement (R256 to R260) -/

def blocksOf (nx : Nat) : Nat := let k := ceilDiv nx 128; k * (k + 1) / 2

/-- Block pairs (a, b) in the order of R259. -/
def blockPairs (nx : Nat) : List (Nat × Nat) :=
  let k := ceilDiv nx 128
  (List.range k).flatMap (fun a => (List.range (k - a)).map (fun j => (a, a + j)))

/-- The comb of block g of session x. -/
def combOf (x g : Nat) : Nat := (g + x) % 16

def CtnSes.mCycles (c : CtnSes) : Nat := if c.wide then 4 else 1

/-- q_x: the largest number of spectra that share a home tick (R261). -/
def CtnSes.qx (c : CtnSes) : Nat := ceilDiv (cpNs c.grid) (cpHop c.grid)

def State.slotBase (s : State) (x : Nat) : Nat := s.fd (CMB_SESx_CFG x) CMB_SESx_CFG_SLOT_BASE

/-- G_x under a map and an input map. -/
def State.gx (s : State) (m : CtnMaps) : Nat := s.numOwned m.map * blocksOf (s.numInputs m.inmap)

def State.cmbOf (s : State) (x : Nat) : Option CmbSes := (s.cmb.ses.find? (·.1 == x)).map (·.2)
def State.setCmb (s : State) (x : Nat) (c : CmbSes) : State := { s with cmb := { s.cmb with ses := spPut s.cmb.ses x c } }

/-- The session's grid: corner turn's while it holds the session, else as the comb work was enabled with; once it is to stop, that of its last
dwell. -/
def State.cmbGrid (s : State) (x : Nat) (m : CmbSes) : CtnSes := if m.last.isSome then m.grid else (s.ctnOf x).getD m.grid

/-- The list positions' inputs: entry p of the session's input list (R255). -/
def State.inputList (s : State) (x nx : Nat) : List Nat := spGetN zeroNat s.cmb.list (s.rd (CMB_SESx_LIST x) % 2 ^ 18) nx

/-- R255: the entries are a permutation of 0 to N − 1 inside the list store. -/
def State.listOk (s : State) (x nx : Nat) : Bool :=
  let base := s.rd (CMB_SESx_LIST x) % 2 ^ 18
  base + nx ≤ 262144
  && (let l := s.inputList x nx
      (List.range nx).all (fun i => l.contains i))

/-! ### Dwell stores (R252, R258, R269) -/

def dsKey (comb slot bank : Nat) : Nat := (comb * 512 + slot) * 2 + bank

def zeroBlock : List (Int × Int) := List.replicate 16384 (0, 0)

/-- The 16,384 entries of a slot's bank; a bank never written holds zeros. -/
def State.dsGet (s : State) (key : Nat) : List (Int × Int) :=
  match s.cmb.dstore.find? (·.1 == key) with | some b => b.2 | none => zeroBlock

/-- R252: the product of a row and a column sample. -/
def cellProd (a b : Int × Int) : Int × Int := (a.1 * b.1 + a.2 * b.2, a.2 * b.1 - a.1 * b.2)

/-- One block-spectrum added into a slot (R254, R256): rows of group a, columns of group b. -/
def State.addBlock (s : State) (c : CtnSes) (x key l n a b nx : Nat) : State :=
  let lst := s.inputList x nx
  let smp (p : Nat) : Int × Int := if p < nx then s.broodRead c x l n (nth lst p 0) else (0, 0)
  let rows := (List.range 128).map (fun r => smp (a * 128 + r))
  let cols := (List.range 128).map (fun q => smp (b * 128 + q))
  let add := rows.flatMap (fun r => cols.map (cellProd r))
  let new := List.zipWith (fun u v => (u.1 + v.1, u.2 + v.2)) (s.dsGet key) add
  { s with cmb := { s.cmb with dstore := spPut s.cmb.dstore key new } }

/-- An error met by a store read (R269): counted once per entry and dwell. Kind 3 is an uncorrectable byte of brood memory, `cell` its address. -/
def State.dsError (s : State) (e : DstoreErr) : State :=
  let key := dsKey e.comb e.slot (e.bank % 2)
  let p := (key, e.cell)
  match e.kind with
  | 0 =>
    if s.cmb.seen.contains p then s
    else ({ s with cmb := { s.cmb with seen := p :: s.cmb.seen } }).count CMB_DSTORE_CORR 1
  | 1 =>
    if s.cmb.bad.contains p then s
    else (({ s with cmb := { s.cmb with bad := p :: s.cmb.bad, seen := p :: s.cmb.seen } }).count CMB_DSTORE_UNCORR 1).flag
      CMB_ERR 2
  | 3 => s.broodError e.cell
  | _ =>
    let new := modNth (s.dsGet key) e.cell (fun v => (v.1 + e.dre, v.2 + e.dim))
    { s with cmb := { s.cmb with dstore := spPut s.cmb.dstore key new } }

/-! ### Comb states (R271 to R281) -/

/-- The states in force now, and those of dwell d of a session with grid c: the latest change no later than the end of the
tick before its first block-spectrum (R273). -/
def State.cmbMode (s : State) : CmbMode := match s.cmb.modes with | (_, m) :: _ => m | [] => CmbMode.reset
def State.modeAt (s : State) (c : CtnSes) (d : Nat) : CmbMode := tlAt CmbMode.reset s.cmb.modes (c.home (d * c.d) + c.w)

/-- The comb CW witnesses in dwell d of session x (R271, R275). -/
def State.witnessed (s : State) (x d : Nat) : Nat :=
  match s.cmb.rewit.find? (fun r => r.1 == x && r.2.1 == d) with | some r => r.2.2 | none => d % 16

def State.combState (s : State) (c : Nat) : Nat := s.fd (CMB_Cc_STATE c) CMB_Cc_STATE_STATE
def State.setCombState (s : State) (c v : Nat) : State := s.setFd (CMB_Cc_STATE c) CMB_Cc_STATE_STATE v

/-- The lowest RETIRED comb. -/
def lowestOf (l : List Nat) : Option Nat := (List.range 16).find? l.contains

/-- Shows a new set of states, in force from the end of tick t. -/
def State.setMode (s : State) (t : Nat) (m : CmbMode) : State :=
  let s := { s with cmb := { s.cmb with modes := (tlPut s.cmb.modes t m).take 64 } }
  let s := s.setFd CMB_STATUS CMB_STATUS_RETIRED (sumL ((List.range 16).map (fun c => if m.retired.contains c then 2 ^ c else 0)))
  let s := s.setFd CMB_STATUS CMB_STATUS_STANDIN_FOR (m.standin.getD 0x1F)
  (s.setFd CMB_STATUS CMB_STATUS_CW_STATE m.cw).setCombState 16 m.cw

/-- Every PENDING comb returns to ACTIVE (R275). -/
def State.unpend (s : State) : State :=
  s.each (List.range 16) (fun s c => if s.combState c = 1 then s.setCombState c 0 else s)

/-- A working comb becomes RETIRED (R276, R280) at the end of tick t. -/
def State.retire (s : State) (t c : Nat) : State :=
  let m := s.cmbMode
  let m' : CmbMode := { m with retired := addNew m.retired c }
  let s := (s.setCombState c 2).flag CMB_ERR 4
  if m.cw = 0 then s.unpend.setMode t { m' with cw := 1, standin := some c } else s.setMode t m'

/-- CW's state on RESTORE from FAULT or with WIT_EN back at 1 (Table 10-5). -/
def cwBack (m : CmbMode) : CmbMode :=
  match lowestOf m.retired with
  | some c => { m with cw := 1, standin := some c }
  | none => { m with cw := 0, standin := none }

/-- RESTORE of a RETIRED working comb, or of CW in FAULT (R281), at the end of tick t. -/
def State.restore (s : State) (t c : Nat) : State :=
  let m := s.cmbMode
  if c = 16 then (if m.cw = 2 then s.setMode t (cwBack m) else s)
  else
    let m' : CmbMode := { m with retired := m.retired.filter (· != c) }
    let s := s.setCombState c 0
    match m.cw, m.standin, lowestOf m'.retired with
    | 1, some b, some e => s.setMode t (if b = c then { m' with standin := some e } else m')
    | _, _, _ => s.setMode t m'

/-- CW goes OFF, or comes back, with CMB_CTRL.WIT_EN (Table 10-5). -/
def State.witnessSwitch (s : State) (t : Nat) (on : Bool) : State :=
  let m := s.cmbMode
  if !on then (if m.cw = 3 then s else s.unpend.setMode t { m with cw := 3, standin := none })
  else if m.cw = 3 then s.setMode t (cwBack m)
  else s

/-- A comparison agreed on comb c: PENDING returns to ACTIVE (Table 10-4); only while CW is in WITNESS (R275). -/
def State.agreed (s : State) (c : Nat) : State :=
  if s.combState c = 1 && s.cmbMode.cw = 0 then (s.setCombState c 0).count (CMB_Cc_TRANSIENT c) 1 else s

/-- A comparison disagreed on comb c for dwell d of session x (R273, R275); only while CW is in WITNESS. -/
def State.disagreed (s : State) (t x d c : Nat) : State :=
  let m := s.cmbMode
  let other := (List.range 16).any (fun e => e != c && s.combState e == 1)
  if m.cw ≠ 0 then s
  else if other then ((s.unpend).setMode t { m with cw := 2 }).flag CMB_ERR 5
  else if s.combState c = 1 then s.retire t c
  else if s.combState c = 0 then
    let s := (s.setCombState c 1).setFd (CMB_Cc_STATE c) CMB_Cc_STATE_PENDING_SES x
    { s with cmb := { s.cmb with rewit := (x, d + 2, c) :: s.cmb.rewit.take 1023 } }
  else s

/-- One state change takes effect at the end of tick t (R273). -/
def State.combEvent (s : State) (t : Nat) : CombEvent → State
  | .retire c => if s.combState c < 2 then s.retire t c else s
  | .restore c => if c = 16 || s.combState c = 2 then s.restore t c else s
  | .witness on => s.witnessSwitch t on
  | .agree c => s.agreed c
  | .mismatch x d c => s.disagreed t x d c

/-- A change of state that waits for the end of the tick. -/
def State.combDefer (s : State) (e : CombEvent) : State := { s with cmb := { s.cmb with todo := s.cmb.todo ++ [e] } }

/-- CMB_RETIRE_CMD (R281): 0 RETIRE, 1 RESTORE. -/
def State.retireCmd (s : State) (img : Nat) : State :=
  let c := img % 32
  let ok := if bitOf img 8 = 0 then decide (c < 16) && decide (s.combState c < 2)
    else (decide (c < 16) && s.combState c == 2) || (c == 16 && s.cmbMode.cw == 2)
  if ok then s.combDefer (if bitOf img 8 = 0 then .retire c else .restore c) else s.flag CMB_ERR 0

/-- A session has passed its next dwell after a change at the end of tick t: the first block-spectrum of that dwell has begun in a tick that has
ended. -/
def State.passed (s : State) (x : Nat) (m : CmbSes) (t : Nat) : Bool :=
  let c := s.cmbGrid x m
  let d := c.dwellFrom (t - c.w)
  s.begun (c.home (d * c.d) + c.w + 2)

/-- At the end of tick t the state changes of the tick take effect (R273), and CW leaves STANDIN once no comb is RETIRED and every session has passed
its next dwell. -/
def State.cmbTick (s : State) (t : Nat) : State :=
  let l := s.cmb.todo
  let s := ({ s with cmb := { s.cmb with todo := [] } }).each l (fun s e => s.combEvent t e)
  let m := s.cmbMode
  let t0 := match s.cmb.modes with | (t, _) :: _ => t | [] => 0
  if m.cw = 1 && m.retired.isEmpty && s.cmb.ses.all (fun p => s.sesReplay p.1 || s.passed p.1 p.2 t0) then
    s.setMode t { m with cw := 0, standin := none }
  else s

/-! ### The work of a reference tick (R262 to R265, R270) -/

/-- The blocks of dwell d of a session on working comb w: block, slot, local channel, pair. -/
def State.combBlocks (s : State) (x : Nat) (c : CtnSes) (d w : Nat) : List (Nat × Nat × Nat × Nat × Nat) :=
  let m := c.mapsAt d
  let nx := s.numInputs m.inmap
  let prs := blockPairs nx
  let all := (List.range (s.numOwned m.map)).flatMap (fun l =>
    (List.zip (List.range prs.length) prs).map (fun q => (l * prs.length + q.1, l, q.2.1, q.2.2)))
  (all.filter (fun g => combOf x g.1 == w)).map (fun g => (g.1, s.slotBase x + g.1 / 16, g.2.1, g.2.2.1, g.2.2.2))

/-- The spectra of reference tick k: those with h(n) + W = k, in dwells the session works on. -/
def CmbSes.specs (m : CmbSes) (c : CtnSes) (k : Nat) : List Nat :=
  if k < c.w || c.d = 0 then []
  else (c.specsOf (k - c.w)).filter (fun n => m.first ≤ n / c.d && (match m.last with | some e => n / c.d ≤ e | none => true))

/-- The dwell of a replay session that the combs work on: the earliest whose records are in and whose dump has not been issued (log entry 101). -/
def State.replayDwell (s : State) (x : Nat) (m : CmbSes) : Option Nat :=
  let ds := (s.ctn.final.filter (fun f => f.1 == x)).map (·.2.1)
  let open_ (d : Nat) : Bool := decide (m.first ≤ d) && (match m.dumped with | some e => decide (e < d) | none => true)
    && (match m.last with | some e => decide (d ≤ e) | none => true)
  (ds.filter open_).foldl (fun a d => match a with | some b => some (min b d) | none => some d) none

/-- The working comb whose blocks comb `cb` computes in dwell d of session x: itself, or, for CW, the comb it witnesses or
stands in for (R270, R276, R280). -/
def State.serves (s : State) (x : Nat) (c : CtnSes) (d cb : Nat) : Option Nat :=
  let m := s.modeAt c d
  if cb < 16 then (if m.retired.contains cb then none else some cb)
  else if m.cw = 0 && s.sesReplay x then none
  else match m.cw, m.standin with
    | 0, _ => some (s.witnessed x d)
    | 1, some e => if m.retired.contains e then some e else none
    | _, _ => none

/-- The block-spectra of reference tick k of session x on comb `cb`, in the order of R263: spectrum, working comb served,
block, slot, channel, pair. -/
def State.combItems (s : State) (x : Nat) (m : CmbSes) (cb k : Nat) : List (Nat × Nat × (Nat × Nat × Nat × Nat × Nat)) :=
  let c := s.cmbGrid x m
  let rd := s.replayDwell x m
  ((m.specs c k).filter (fun n => !s.sesReplay x || decide (rd = some (n / c.d)))).flatMap (fun n =>
    match s.serves x c (n / c.d) cb with
    | none => []
    | some w => (s.combBlocks x c (n / c.d) w).map (fun g => (n, w, g)))

/-- Comb cycles of the tick's grant that session x has on comb `cb` (R537): an equal share, the remainder to the lowest
combs; CW has its own row while it witnesses and the replaced comb's share while it stands in. The second number is the same without thermal control. -/
def State.combShare (s : State) (x : Nat) (c : CtnSes) (cb w want : Nat) : Nat × Nat :=
  if cb = 16 && (s.modeAt c (c.dwellAt (s.tick - c.w))).cw = 0 then s.granted 4 x want
  else match s.grants.find? (fun g => g.x == x && g.unit == 0) with
    | none => (want, want)
    | some g =>
      let share (n : Nat) : Nat := n / 16 + if w < n % 16 then 1 else 0
      if g.want ≤ g.got then (want, want) else (share g.got, share g.cool)

/-- Block-spectra of reference tick k of session x that comb `cb` has done, and why it did no more in its last tick, 0 where nothing held it back;
of those withheld the ones below `cool` are so for THERMAL (R541). -/
def State.combWorkOf (s : State) (x cb k : Nat) : CmbWork :=
  (s.cmb.work.find? (fun e => e.x == x && e.comb == cb && e.k == k)).getD ⟨x, cb, k, 0, 0, 0⟩
def State.combDone (s : State) (x cb k : Nat) : Nat × Nat := ((s.combWorkOf x cb k).done, (s.combWorkOf x cb k).why)

/-- The block-spectra of reference tick k of session x that comb `cb` has still to do. -/
def State.combLeft (s : State) (x : Nat) (m : CmbSes) (cb k : Nat) : List (Nat × Nat × (Nat × Nat × Nat × Nat × Nat)) :=
  (s.combItems x m cb k).drop (s.combDone x cb k).1

/-- The comb cycle of the tick in progress that comb `cb` has come to. -/
def State.combPos (s : State) (cb : Nat) : Nat :=
  match s.cmb.busy.find? (fun u => u.1 == s.tick && u.2.1 == cb) with | some u => u.2.2 | none => 0

/-- The comb cycle of tick k + 1 in which comb `cb` starts the work of reference tick k (R262). -/
def combStart (cb : Nat) : Nat := 200 + 16 * cb

/-- Comb cycles of a tick. -/
def combCycles : Nat := 1000

/-- A session of a higher class has taken cycles of comb `cb` in this tick (R264). -/
def State.combTaken (s : State) (x cb : Nat) : Bool :=
  s.cmb.used.any (fun u => u.1 == s.tick && u.2.2.1 == cb && u.2.2.2 != 0 && decide (s.classRank u.2.1 < s.classRank x))

/-- Records with an uncorrectable byte that a block-spectrum draws on flag its slot's products (Table 2-5). -/
def State.noteBrood (s : State) (c : CtnSes) (x n w slot l a b nx : Nat) : State :=
  if s.ctn.bad.isEmpty then s
  else
    let lst := s.inputList x nx
    let hit := ((List.range 128).flatMap (fun r => [a * 128 + r, b * 128 + r])).any (fun p => decide (p < nx) && s.broodBad c l n (nth lst p 0))
    s.when hit (fun s => { s with cmb := { s.cmb with noted := addNew s.cmb.noted (x, n / c.d, w, slot, rMemUncorr) } })

/-- Session x's part of the work of reference tick k on comb `cb`, up to the grant and the end of the tick. The work of reference tick k begins in
tick k + 1 at the comb's stagger (R262). -/
def State.combSession (s : State) (cb k x : Nat) : State :=
  match s.cmbOf x with
  | none => s
  | some m =>
    let c := s.cmbGrid x m
    let left := s.combLeft x m cb k
    let old := (s.combDone x cb k).1
    let w := match left with | i :: _ => i.2.1 | [] => cb
    let used := match s.cmb.used.find? (fun u => u.1 == s.tick && u.2.1 == x && u.2.2.1 == cb) with | some u => u.2.2.2 | none => 0
    let want := left.length * c.mCycles
    let sh := s.combShare x c cb w (used + want)
    let at_ := if s.sesReplay x || s.begun (k + 2) then s.combPos cb else max (s.combPos cb) (combStart cb)
    let fit := (combCycles - at_) / c.mCycles
    let grant := (sh.1 - used) / c.mCycles
    let n := min left.length (min grant fit)
    let s := s.each (left.take n) (fun s it =>
      let dc := (s.ctnFor x (it.1 / c.d)).getD c
      let nx := s.numInputs (c.mapsAt (it.1 / c.d)).inmap
      (s.addBlock dc x (dsKey cb it.2.2.2.1 (it.1 / c.d % 2)) it.2.2.2.2.1 it.1 it.2.2.2.2.2.1 it.2.2.2.2.2.2 nx).noteBrood
        dc x it.1 it.2.1 it.2.2.2.1 it.2.2.2.2.1 it.2.2.2.2.2.1 it.2.2.2.2.2.2 nx)
    let held := grant < min left.length fit
    let why := if left.length ≤ n then 0 else if held then rPowerBudget else if s.combTaken x cb then rClass else 0
    { s with cmb := { s.cmb with
        work := (⟨x, cb, k, old + n, why, if held then old + (sh.2 - used) / c.mCycles else 0⟩ :: s.cmb.work.filter (fun e => !(e.x == x && e.comb == cb && e.k == k)))
        busy := if n = 0 then s.cmb.busy
          else (s.tick, cb, at_ + n * c.mCycles) :: s.cmb.busy.filter (fun u => u.1 == s.tick && u.2.1 != cb)
        used := (s.tick, x, cb, used + n * c.mCycles)
                :: s.cmb.used.filter (fun u => u.1 == s.tick && !(u.2.1 == x && u.2.2.1 == cb)) } }

/-- Sessions with comb work in the order of R263: class, then index. -/
def State.combOrder (s : State) : List Nat :=
  (List.range 4).flatMap (fun r => ((s.cmb.ses.map (·.1)).filter (fun x => s.classRank x == r)))

/-- The live sessions' part of reference tick k, due in the tick after it and the one after that. -/
def State.combLive (s : State) (cb k : Nat) : State :=
  if !s.begun (k + 1) || s.begun (k + 3) || !s.worksOn 10 k then s
  else s.each (s.combOrder.filter (fun x => !s.sesReplay x)) (fun s x => s.combSession cb k x)

/-- The reference ticks of the dwell a replay session is in, and whether comb `cb` has work left in one of them. -/
def State.replayTicks (s : State) (x : Nat) (m : CmbSes) : List Nat :=
  let c := s.cmbGrid x m
  match s.replayDwell x m with
  | some d => (List.range (c.endTick d + 1 - c.home (d * c.d))).map (· + c.home (d * c.d) + c.w)
  | none => []

/-- The replay sessions' part of reference tick k: in cycles that comb `cb` has left once the live work of the tick is done, after the work of
earlier reference ticks (R265). -/
def State.combReplay (s : State) (cb k : Nat) : State :=
  let live := (s.cmb.ses.filter (fun p => !s.sesReplay p.1)).any (fun p =>
    (List.range 2).any (fun j => decide (j < s.tick) && !(s.combLeft p.1 p.2 cb (s.tick - 1 - j)).isEmpty && (s.combDone p.1 cb (s.tick - 1 - j)).2 == 0))
  if live then s
  else s.each (s.combOrder.filter s.sesReplay) (fun s x =>
    match s.cmbOf x with
    | some m => s.when ((s.replayTicks x m).contains k && (s.replayTicks x m).all (fun e => decide (k ≤ e) || (s.combLeft x m cb e).isEmpty))
        (·.combSession cb k x)
    | none => s)

/-- COMB_TICK_WORK (R263): comb c (16 for CW) takes the block-spectra of reference tick k, in the tick after it or the one after that, up to its
grants; what is left of reference tick k − 1 comes first. `errs` are the errors its dwell store meets (R269). -/
def execCombTickWork (c k : Nat) (errs : List DstoreErr) (s : State) : Res :=
  if c > 16 || !s.blockOn 10 || !s.begun (k + 1) then .next s
  else
    let s := s.each (errs.filter (·.comb == c)) State.dsError
    .next (((s.when (k != 0) (·.combLive c (k - 1))).combLive c k).combReplay c k)

/-- What comb `cb` has left of the work of reference tick k of session x is abandoned (R264): counted and marked per slot and dwell with its reason.
Work that CW does as witness is no product's: withheld, it leaves the comparison SKIPPED, else INCONCLUSIVE (R272), which a mark of comb 16 stands for.
The answer tells whether any was left for a cause that R44 does not list. -/
def State.combGiveUp (acc : State × Bool) (x : Nat) (m : CmbSes) (k : Nat) (off : Bool) (cb : Nat) : State × Bool :=
  let s := acc.1
  let c := s.cmbGrid x m
  let left := s.combLeft x m cb k
  if left.isEmpty then acc
  else
    let witness := cb == 16 && (match left with | it :: _ => (s.modeAt c (it.1 / c.d)).cw == 0 | [] => false)
    let all := (s.combItems x m cb k).length
    let work := s.combWorkOf x cb k
    let kept := s.cmb.work.filter (fun e => !(e.x == x && (e.k + 4 < k || (e.comb == cb && e.k == k))))
    let s := { s with cmb := { s.cmb with work := ((⟨x, cb, k, all, 0, 0⟩ :: kept) : List CmbWork) } }
    let reason (i : Nat) : Nat := if off then rUntimed else if work.why = 0 then rTickAbandoned else if work.done + i < work.cool then rThermal else work.why
    let s := (s.count (CMB_SESx_ABANDON x) left.length).flag CMB_ERR 1
    if witness && !off && work.why = rPowerBudget then
      ({ s with cmb := { s.cmb with skip := left.foldl (fun l it => addNew l (x, it.1 / c.d)) s.cmb.skip } }, acc.2)
    else
      let lost := left.zipIdx.foldl (fun l q => addNew l (x, q.1.1 / c.d, (if witness then 16 else q.1.2.1), q.1.2.2.2.1, reason q.2)) s.cmb.lost
      ({ s with cmb := { s.cmb with lost := lost } }, acc.2 || reason 0 == rTickAbandoned)

/-- Session x passes the deadlines of its reference ticks up to k. -/
def State.combJudge (acc : State × Bool) (x k : Nat) (off : Bool) : State × Bool :=
  match acc.1.cmbOf x with
  | none => acc
  | some m =>
    if acc.1.sesReplay x || k < m.judged then acc
    else
      let r := (List.range (k + 1 - m.judged)).foldl (fun (acc : State × Bool) j =>
        let e := m.judged + j
        (List.range 17).foldl (fun acc cb => State.combGiveUp acc x m e (off || !acc.1.worksOn 10 e) cb) acc) acc
      (r.1.setCmb x { m with judged := k + 1 }, r.2)

/-- At the end of tick k + 2 what is left of the work of reference tick k is abandoned (R264). Replay work is kept (R265). -/
def State.combAbandon (s : State) (k : Nat) (off : Bool) : State × Bool :=
  (s.cmb.ses.map (·.1)).foldl (fun acc x => State.combJudge acc x k off) (s, false)

/-! ### Load (R261) -/

/-- Sessions that the sums of R261 run over. -/
def State.loadSessions (s : State) : List Nat := (s.cmb.ses.map (·.1)).filter s.sesCounts

/-- ρ_W × 3 × 2^16 × 1,000 of session x: hop divides 3 × 2^16. -/
def State.loadOf (s : State) (x : Nat) : Nat :=
  match s.cmbOf x with
  | some m =>
    let c := s.cmbGrid x m
    ceilDiv (s.gx (c.mapsAt (c.dwellAt s.tick))) 16 * c.mCycles * cpNs c.grid * (196608 / cpHop c.grid)
  | none => 0

/-- P of session x. -/
def State.peakOf (s : State) (x : Nat) : Nat :=
  match s.cmbOf x with
  | some m => let c := s.cmbGrid x m; ceilDiv (s.gx (c.mapsAt (c.dwellAt s.tick))) 16 * c.mCycles * c.qx
  | none => 0

/-- CMB_LOAD and CMB_PEAK of the admitted configuration. -/
def State.showLoad (s : State) : State :=
  let slots := sumL ((s.cmb.ses.map (·.1)).map (fun x =>
    match s.cmbOf x with
    | some m => let c := s.cmbGrid x m; ceilDiv (s.gx (c.mapsAt (c.dwellAt s.tick))) 16
    | none => 0))
  let rho := sumL (s.loadSessions.map s.loadOf) * 65536 / 196608000
  (s.wr CMB_LOAD (slots % 1024 * 2 ^ 16 + rho % 65536)).wr CMB_PEAK (sumL (s.loadSessions.map s.peakOf) % 2048)

/-! ### Dumps (R266 to R269) -/

/-- The comb whose store holds working comb w's slots of dwell d: itself, CW standing in, or none (R280). -/
def State.sourceComb (s : State) (c : CtnSes) (d w : Nat) : Option Nat :=
  let m := s.modeAt c d
  if !m.retired.contains w then some w
  else if m.cw = 1 && m.standin = some w then some 16 else none

/-- Zeros in the cells of the rows and columns listed (R267). -/
def maskCells (rows cols : List Nat) (vals : List (Int × Int)) : List (Int × Int) :=
  if rows.isEmpty && cols.isEmpty then vals
  else (List.zip (List.range vals.length) vals).map (fun q =>
    if rows.contains (q.1 / 128) || cols.contains (q.1 % 128) then ((0 : Int), (0 : Int)) else q.2)

/-- Comb w has been RETIRED since dwell d began: its dump is SUSPECT (R278, R279). -/
def State.retiredSince (s : State) (c : CtnSes) (d w : Nat) : Bool :=
  s.combState w == 2 || s.cmb.modes.any (fun e => decide (c.home (d * c.d) + c.w < e.1) && e.2.retired.contains w)

/-- The reasons of a list of marks that concern a slot of a dump. -/
def slotReasons (l : List (Nat × Nat × Nat × Nat × Nat)) (x d w slot : Nat) : List Nat :=
  ((l.filter (fun e => e.1 == x && e.2.1 == d && e.2.2.1 == w && e.2.2.2.1 == slot)).map (·.2.2.2.2)).foldl addNew []

/-- One slot of the dump of dwell d on working comb w; `out` are the list positions whose input has PRESENT at 0 (R267). -/
def State.dumpBlock (s : State) (x : Nat) (c : CtnSes) (d w : Nat) (out : List Nat) (g : Nat × Nat × Nat × Nat × Nat) : DumpBlock :=
  let ex (grp : Nat) : List Nat := (out.filter (fun p => p / 128 == grp)).map (· % 128)
  let rows := ex g.2.2.2.1
  let cols := ex g.2.2.2.2
  match s.sourceComb c d w with
  | none => { g := g.1, comb := w, slot := g.2.1, vals := zeroBlock, reasons := [], uncorr := [], suspect := false, withheld := true
              exRows := rows, exCols := cols }
  | some cb =>
    let key := dsKey cb g.2.1 (d % 2)
    let bad := (s.cmb.bad.filter (·.1 == key)).map (·.2)
    let vals := bad.foldl (fun l i => setNth l i ((0 : Int), (0 : Int))) (s.dsGet key)
    { g := g.1, comb := w, slot := g.2.1, vals := maskCells rows cols vals, reasons := slotReasons s.cmb.lost x d w g.2.1, uncorr := bad
      suspect := cb == w && s.retiredSince c d w, withheld := false, exRows := rows, exCols := cols
      noted := slotReasons s.cmb.noted x d w g.2.1 }

/-- The comparison a dump leaves to be made (R272). -/
def State.witnessOf (s : State) (x : Nat) (c : CtnSes) (d : Nat) : List WitPend :=
  let m := s.modeAt c d
  if m.cw ≠ 0 || s.sesReplay x then []
  else
    let w := s.witnessed x d
    let slots := (s.combBlocks x c d w).map (·.2.1)
    let ent (cb : Nat) := slots.map (fun sl => (sl, s.dsGet (dsKey cb sl (d % 2))))
    let bad := s.cmb.bad.any (fun b => slots.any (fun sl => b.1 == dsKey w sl (d % 2) || b.1 == dsKey 16 sl (d % 2)))
    let lost := s.cmb.lost.any (fun e => e.1 == x && e.2.1 == d && (e.2.2.1 == w || e.2.2.1 == 16))
    [⟨x, d, w, s.cmb.skip.contains (x, d), bad || lost, ent w, ent 16⟩]

/-- The dump of dwell d of session x is due: at the end of tick h(n_last) + W + 2 (R266); of a replay session, once every comb has done the dwell's
work (R265). -/
def State.dumpDue (s : State) (x : Nat) (m : CmbSes) (d : Nat) : Bool :=
  let c := s.cmbGrid x m
  let next := match m.dumped with | some e => e + 1 | none => m.first
  let ended := match m.last with | some e => d ≤ e | none => true
  ended && c.d != 0 && (if s.sesReplay x then
      decide (s.replayDwell x m = some d) && (s.replayTicks x m).all (fun k => (List.range 17).all (fun cb => (s.combLeft x m cb k).isEmpty))
    else d == next && s.begun (c.endTick d + c.w + 3))

/-- Comb work starts anew with dwell `first`: the super drains from there, and an integration left open by comb work that stopped is not drained
(R308). -/
def State.superRestart (s : State) (x first : Nat) : State :=
  { s with sup := { s.sup with ses := s.sup.ses.map (fun p =>
      if p.1 = x then (x, { p.2 with start := first, lays := p.2.lays.filter (fun l => p.2.pres.any (·.1 == l.j * l.i + l.i - 1)) }) else p) } }

/-- Comb work of session x begins with dwell `first` of grid c. -/
def State.combStartAt (s : State) (x : Nat) (c : CtnSes) (first : Nat) : State :=
  let s := s.setCmb x { grid := c, first := first, last := none, dumped := none, judged := c.home (first * c.d) + c.w }
  let s := s.superRestart x first
  let n := ceilDiv (s.gx (c.mapsAt first)) 16
  let w := if (s.modeAt c first).cw = 0 && !s.sesReplay x then s.witnessed x first else 0x1F
  (s.wr (CMB_SESx_STATUS x) (2 ^ 31 + n * 2 ^ 16 + w)).showLoad

/-- The comb work of session x has issued its last dump; work with other parameters follows it (R55, log entry 105). -/
def State.combEnd (s : State) (x : Nat) : State :=
  let t := ({ s with cmb := { s.cmb with ses := spDel s.cmb.ses x } }).wr (CMB_SESx_STATUS x) 0x1F
  match (s.cmbOf x).bind (·.renew), s.ctnOf x with
  | some r, some c => (t.each r.2 (fun s q => s.wr q.1 q.2)).combStartAt x c r.1
  | _, _ => t.showLoad

/-- Comb work with the registers `regs` and the session's present enable follows, from tick k, the one that runs on grid `old` (R55). -/
def State.combRenew (s : State) (x k : Nat) (old : CtnSes) (regs : List (Nat × Nat)) : State :=
  match s.cmbOf x, s.ctnOf x with
  | some m, some c =>
    let first := max c.first (c.dwellFrom k)
    if old.dwellFrom k ≤ m.first || (match m.dumped with | some e => decide (old.dwellFrom k ≤ e + 1) | none => false) then
      (s.each regs (fun s q => s.wr q.1 q.2)).combStartAt x c first
    else s.setCmb x { m with grid := old, last := some (old.dwellFrom k - 1), renew := some (first, regs) }
  | _, _ => s

/-- The dump of dwell d is read and its bank cleared. What the combs had left of the dwell's work has been given up by then. -/
def State.combDump (s : State) (x d : Nat) (errs : List DstoreErr) (m0 : CmbSes) : State × Bool :=
  let c := s.cmbGrid x m0
  let r := State.combJudge (s, false) x (c.endTick d + c.w) false
  let s := r.1.finalise x d
  let m := (s.cmbOf x).getD m0
  let s := s.each (errs.filter (fun e => e.kind == 3 || e.bank % 2 == d % 2)) State.dsError
  let maps := c.mapsAt d
  let nx := s.numInputs maps.inmap
  let codes := (List.range nx).map (fun i => s.presence x d i)
  let lst := s.inputList x nx
  let out := (List.range nx).filter (fun p => nth codes (nth lst p 0) 0 % 2 == 0)
  let blocks := (List.range 16).flatMap (fun w => (s.combBlocks x c d w).map (s.dumpBlock x c d w out))
  let wit := s.witnessOf x c d
  let n := ceilDiv (s.gx maps) 16
  let keys := (List.range 17).flatMap (fun cb => (List.range n).map (fun j => dsKey cb (s.slotBase x + j) (d % 2)))
  let s := { s with cmb := { s.cmb with
    dstore := s.cmb.dstore.filter (fun b => !keys.contains b.1)
    bad := s.cmb.bad.filter (fun b => !keys.contains b.1)
    seen := s.cmb.seen.filter (fun b => !keys.contains b.1)
    lost := s.cmb.lost.filter (fun e => !(e.1 == x && e.2.1 == d))
    noted := s.cmb.noted.filter (fun e => !(e.1 == x && e.2.1 == d))
    work := s.cmb.work.filter (fun e => !(s.sesReplay x && e.x == x))
    skip := s.cmb.skip.filter (· != (x, d))
    wit := s.cmb.wit ++ wit
    dumps := s.cmb.dumps ++ ([⟨x, d, nx, lst, s.numOwned maps.map, c, codes, blocks⟩] : List Dump) } }
  let s := (s.wr (CMB_SESx_DWELL_LO x) (d % 2 ^ 32)).when (blocks.any (·.suspect)) (·.count (CMB_SESx_SUSPECT x) 1)
  let s := s.setFd (CMB_SESx_STATUS x) ⟨4, 0⟩ (if (s.modeAt c (d + 1)).cw = 0 && !s.sesReplay x then s.witnessed x (d + 1) else 0x1F)
  if m.last = some d then (s.combEnd x, r.2)
  else (s.setCmb x { m with dumped := some d, grid := c }, r.2)

/-- COMB_DUMP (R266): at the end of tick h(n_last) + W + 2 every comb reads and clears the bank of dwell d of session x.
`errs` are the errors the read meets. -/
def execCombDump (x d : Nat) (errs : List DstoreErr) (s : State) : Res :=
  match s.cmbOf x with
  | none => .next s
  | some m => if s.dumpDue x m d then .next (raiseFault 10 (s.combDump x d errs m)) else .next s

/-! ### The comparison (R272 to R275) -/

/-- The entries that differ: slot and cell. -/
def diffs (w : WitPend) : List (Nat × Nat) :=
  (List.zip w.work w.cw).flatMap (fun p =>
    ((List.zip (List.range 16384) (List.zip p.1.2 p.2.2)).filter (fun q => q.2.1 != q.2.2)).map (fun q => (p.1.1, q.1)))

/-- Marks the dump of a comb SUSPECT. -/
def State.suspectDump (s : State) (x d w : Nat) : State :=
  let s := s.count (CMB_SESx_SUSPECT x) 1
  { s with cmb := { s.cmb with dumps := s.cmb.dumps.map (fun p =>
      if p.x = x && p.d = d then { p with blocks := p.blocks.map (fun b : DumpBlock => if b.comb = w then { b with suspect := true } else b) }
      else p) } }

/-- A MISMATCH (R273 to R275). The state of the comb changes at the end of the tick. -/
def State.mismatch (s : State) (p : WitPend) (ds : List (Nat × Nat)) : State :=
  let s := ((s.count (CMB_Cc_MISMATCH p.comb) 1).count CMB_WIT_MISMATCH 1).flag CMB_ERR 3
  let s := (s.wr CMB_WIT_LAST0 (p.comb * 2 ^ 16 + p.x)).wr CMB_WIT_LAST1 (p.d % 2 ^ 32)
  let f := ds.headD (0, 0)
  let s := (s.wr CMB_WIT_LAST2 ds.length).wr CMB_WIT_LAST3 (f.1 * 2 ^ 16 + f.2)
  (s.suspectDump p.x p.d p.comb).combDefer (.mismatch p.x p.d p.comb)

/-- The comparison that comes next: of those that wait, the one of the lowest session. -/
def nextWit (l : List WitPend) : Option WitPend :=
  l.foldl (fun m p => match m with | some q => if p.x < q.x then some p else m | none => some p) none

/-- WITNESS_COMPARE (R272): results of one tick are applied in ascending session order. -/
def execWitnessCompare (s : State) : Res :=
  match nextWit s.cmb.wit with
  | none => .next s
  | some p =>
    let s := { s with cmb := { s.cmb with wit := s.cmb.wit.erase p } }
    if p.skipped then .next (s.count CMB_WIT_SKIPPED 1)
    else if p.inconc then .next (s.count CMB_WIT_INCONC 1)
    else
      let s := s.count (CMB_Cc_WITNESSED p.comb) 1
      let ds := diffs p
      if ds.isEmpty then
        .next ((s.count CMB_WIT_AGREE 1).combDefer (.agree p.comb))
      else .next (s.mismatch p ds)

/-! ### Register writes -/

/-- Two slot ranges meet. -/
def meets (a n b m : Nat) : Bool := a < b + m && b < a + n

/-- May the session's comb work be enabled with configuration `cfg` (R255, R259, the CFG table)? -/
def State.cmbArmable (s : State) (x cfg : Nat) : Bool :=
  let t := s.rd (CTN_SESx_CFG x)
  match s.ctnOf x with
  | none => false
  | some c =>
    let m := c.mapsAt (c.dwellAt s.tick)
    let n := ceilDiv (s.gx m) 16
    let base := bitsOf cfg 24 16
    bitOf t 0 == 1 && bitOf t 2 == 1 && bitOf t 4 == 0 && s.listOk x (s.numInputs m.inmap) && base + n ≤ 512
    && (s.cmbOf x).isNone
    && s.cmb.ses.all (fun p =>
        let o := s.cmbGrid p.1 p.2
        !meets base n (s.slotBase p.1) (ceilDiv (s.gx (o.mapsAt (o.dwellAt s.tick))) 16))

/-- An entry of the list store belongs to an enabled session's list. -/
def State.listUsed (s : State) (e : Nat) : Bool :=
  s.cmb.ses.any (fun p =>
    let c := s.cmbGrid p.1 p.2
    inPart (s.rd (CMB_SESx_LIST p.1) % 2 ^ 18) (s.numInputs (c.mapsAt (c.dwellAt s.tick)).inmap) e)

def cmbPre (a new : Nat) (s : State) : Option State :=
  let bad := some (s.flag CMB_ERR 0)
  if 0xA10000 ≤ a && a < 0xA18000 then
    let x := (a - 0xA10000) / 0x20
    let en := s.bit (CMB_SESx_CFG x) 0 = 1
    match a % 0x20 with
    | 0 =>
      if en && s.rd a / 2 ≠ new / 2 then bad
      else if !en && bitOf new 0 = 1 && !s.cmbArmable x new then bad
      else none
    | 4 | 8 | 12 => if en && s.rd a ≠ new then bad else none
    | _ => none
  else none

/-- After a write: comb work starts or stops (Table 10-9), the retire command, WIT_EN, the list window. -/
def cmbPost (a old : Nat) (s : State) : State :=
  if 0xA10000 ≤ a && a < 0xA18000 && a % 0x20 = 0 then
    let x := (a - 0xA10000) / 0x20
    if bitOf old 0 = 0 && s.bit a 0 = 1 then
      match s.ctnOf x with
      | some c =>
        s.combStartAt x c (max c.first (c.dwellFrom (s.rd64 (CMB_SESx_START_LO x) (CMB_SESx_START_HI x))))
      | none => s
    else if bitOf old 0 = 1 && s.bit a 0 = 0 then
      match s.cmbOf x with
      | some m =>
        let c := s.cmbGrid x m
        let d := if s.sesReplay x then (s.replayDwell x m).getD (match m.dumped with | some e => e | none => 0) else c.dwellAt (s.tick - c.w)
        if d < m.first || (s.sesReplay x && (s.replayDwell x m).isNone) then
          (({ s with cmb := { s.cmb with ses := spDel s.cmb.ses x } }).wr (CMB_SESx_STATUS x) 0x1F).showLoad
        else s.setCmb x { m with last := some d, grid := c }
      | none => s
    else s
  else if a = CMB_RETIRE_CMD then
    let img := s.rd a
    (s.wr a 0).retireCmd img
  else if a = CMB_CTRL then
    if bitOf old 1 != s.bit a 1 then s.combDefer (.witness (s.bit a 1 == 1)) else s
  else if a = CMB_LIST_DATA then
    let e := s.rd CMB_LIST_ADDR
    let v := s.rd a
    let s := s.wr a 0
    let s := if s.listUsed e then s.flag CMB_ERR 0
      else { s with cmb := { s.cmb with list := spSet zeroNat s.cmb.list e v } }
    s.wr CMB_LIST_ADDR ((e + 1) % 2 ^ 18)
  else s

/-- A read of the list window. -/
def State.listRead (s : State) : Nat := spGet zeroNat s.cmb.list (s.rd CMB_LIST_ADDR)

end Sys2Proof.Machine
end

