-- ==== Sys2Proof/Machine/Deliver.lean ====
section
/-!
DEFINITION. Where products go: an Ethernet stream under its installed template (R304, R491), a ring in DDR memory (R304,
R443, R457), host memory through a forager channel (R470). The memory itself is reached through the operations here.
-/
namespace Sys2Proof.Machine

/-! ### DDR memory (R443, R457) -/

/-- The controller serves requests: READY is 1 and the DDR domain is not stopped (R11, R443, log entry 111). -/
def State.ddrReady (s : State) : Bool := s.bit DDR_STATUS 31 == 1 && s.bit GLB_DOMAINS (s.blockDomain 15) == 1

/-- Bytes the devices hold (Table 17-1): 512 GiB, doubled by the density and by the ranks. -/
def State.ddrCapacity (s : State) : Nat := 2 ^ (39 + s.bit DDR_CFG 4 + s.bit DDR_CFG 5)

/-- A request the controller cannot serve completes at once (R443). -/
def State.ddrNotReady (s : State) (lines : Nat) : State := (s.count DDR_NOTREADY lines).flag DDR_ERR 4

/-- Lines a byte range touches. -/
def linesOf (addr len : Nat) : Nat := if len = 0 then 0 else (addr + len - 1) / 64 - addr / 64 + 1

/-- Channel of a line (R444). -/
def lineChannel (line : Nat) : Nat := line / 8 % 16

/-- An uncorrectable line is met (R453, R457). -/
def State.ddrUncorr (s : State) (line : Nat) : State :=
  let s := (s.count (DDR_CHc_UNCORR (lineChannel line)) 1).flag DDR_ERR 3
  if s.bit DDR_ELOG_HI 31 = 1 then s
  else (s.wr DDR_ELOG_LO (line * 64 % 2 ^ 32)).wr DDR_ELOG_HI (2 ^ 31 + line * 64 / 2 ^ 32 % 512)

/-- A write of bytes: discarded while READY is 0 or above the capacity (R443, R444). It replaces bytes the write queue still
holds; a write of a whole line ends its uncorrectable mark, one of a part keeps it (R453). -/
def State.ddrWrite (s : State) (addr : Nat) (b : List Byte) : State :=
  let n := b.length
  if !s.ddrReady then s.ddrNotReady (linesOf addr n)
  else if s.ddrCapacity < addr + n then (s.ddrNotReady (linesOf addr n)).flag DDR_ERR 0
  else
    let part := s.ddr.bad.filter (fun l => addr < l * 64 + 64 && l * 64 < addr + n && !(addr ≤ l * 64 && l * 64 + 64 ≤ addr + n))
    let s := { s with ddr := { s.ddr with
      mem := spSetAll zeroByte s.ddr.mem addr b
      wq := s.ddr.wq.map (fun e : Nat × List (Nat × Byte) => (e.1, e.2.filter (fun o => !(addr ≤ e.1 * 64 + o.1 && e.1 * 64 + o.1 < addr + n))))
      bad := s.ddr.bad.filter (fun l => !(addr ≤ l * 64 && l * 64 + 64 ≤ addr + n)) } }
    s.each part State.ddrUncorr

/-- The byte at an address, the write queue before memory (R454). -/
def State.ddrByte (s : State) (a : Nat) : Byte :=
  match s.ddr.wq.find? (fun e => e.1 == a / 64 && e.2.any (fun o => o.1 == a % 64)) with
  | some e => spGet zeroByte e.2 (a % 64)
  | none => spGet zeroByte s.ddr.mem a

/-- A read of bytes, with whether any line of it is uncorrectable; zeros marked so while READY is 0 (R443). A line the write
queue covers whole is served from there (R454). -/
def State.ddrRead (s : State) (addr len : Nat) : (List Byte × Bool) × State :=
  if !s.ddrReady then ((List.replicate len 0, true), s.ddrNotReady (linesOf addr len))
  else if s.ddrCapacity < addr + len then ((List.replicate len 0, true), (s.ddrNotReady (linesOf addr len)).flag DDR_ERR 0)
  else
    let bad := s.ddr.bad.filter (fun l => addr < l * 64 + 64 && l * 64 < addr + len
      && !s.ddr.wq.any (fun e => e.1 == l && e.2.length == 64))
    (((List.range len).map (fun i => s.ddrByte (addr + i)), !bad.isEmpty), s.each bad State.ddrUncorr)

/-- A byte range lies in partition p (R446, R447). -/
def State.inPartition (s : State) (p addr len : Nat) : Bool :=
  let base := s.rd (DDR_PARTp_BASE p) % 2 ^ 25 * 65536
  base ≤ addr && addr + len ≤ base + s.rd (DDR_PARTp_SIZE p) % 2 ^ 26 * 65536

/-- A ring given by its BASE and SIZE registers lies in its partition (R446). -/
def State.ringOk (s : State) (p rBase rSize : Nat) : Bool :=
  s.rd rSize != 0 && s.inPartition p (s.rd rBase * 65536) (s.rd rSize * 65536)

/-! ### Rings (R304) -/

/-- The bytes padded with zeros to a multiple of 64. -/
def pad64 (b : List Byte) : List Byte := b ++ List.replicate ((64 - b.length % 64) % 64) 0

/-- Does a record of `units` 64-byte units fit in a ring of `size` units, one unit always staying free, so that RING_WR
equal to RING_RD means an empty ring? -/
def ringFits (wr rdp size units : Nat) : Bool :=
  size != 0 && units + (wr + size - rdp % size) % size < size

/-- Bytes written to a ring at a unit offset, wrapping at its size. -/
def State.ringWrite (s : State) (base size wr : Nat) (b : List Byte) : State :=
  let room := (size - wr) * 64
  (s.ddrWrite (base + wr * 64) (b.take room)).when (room < b.length) (fun t => t.ddrWrite base (b.drop room))

/-- A record for the ring whose BASE, SIZE, WR and RD registers are given (units of 64 KiB and of 64 bytes): written whole
and RING_WR advanced, or not written for want of space. -/
def State.ringPut (s : State) (rBase rSize rWr rRd : Nat) (b : List Byte) : State × Bool :=
  let size := s.rd rSize * 1024
  let wr := s.rd rWr
  let p := pad64 b
  let n := p.length / 64
  if ringFits wr (s.rd rRd) size n then
    ((s.ringWrite (s.rd rBase * 65536) size wr p).wr rWr ((wr + n) % size), true)
  else (s, false)

/-! ### Streams and channels (R470, R491) -/

/-- The template of a session's stream of a kind (0 honey, 1 waggle, 2 events, 3 worker records) in force at tick k. -/
def State.streamOf (s : State) (x kind k : Nat) : Option Stream :=
  s.eth.streams.find? (fun t => t.session == x && t.kind == kind && t.tick ≤ k)

/-- The queue of a session's product stream (Table 8-5): `high` for classes A and B. -/
def State.productQueue (s : State) (x high : Nat) : Nat :=
  let cfg := s.rd (CMD_SESx_CFG x)
  if bitOf cfg 1 = 1 then 0 else if bitsOf cfg 5 4 ≥ 2 then 1 else high

/-- A template with its UDP destination port replaced. -/
def tmplPort (t : List Byte) (udp : Nat) : List Byte :=
  putBytes t (tmplL2 t + (if tmplV6 t then 40 else 20) + 2) (toBE 2 udp)

/-- A product as a bulk send on an Ethernet port, `src` its producer's mark. Without an installed template its destination is unresolved (R218). -/
def State.streamSend (s : State) (fk : FrameKind) (src x kind k port queue udp : Nat) (hdr : List Byte) (offAt lastAt lastBit gran : Nat)
    (data : List Byte) : State :=
  match s.streamOf x kind k with
  | some t => s.sendPut { kind := fk, src := src, sid := 0, port := port, queue := queue, age := 0, tmpl := tmplPort t.tmpl udp,
                          hdr := hdr, offAt := offAt, lastAt := lastAt, lastBit := lastBit, gran := gran, data := data }
  | none => s.count (ETHn_TX_NO_NEIGH port) 1

/-- A unit for a forager channel. -/
def State.unitPut (s : State) (ch : Nat) (fk : FrameKind) (x : Nat) (b : List Byte) : State :=
  { s with units := s.units ++ [⟨ch, fk, x, s.tick, b⟩] }

/-- Ethernet bytes of a bulk send as R223 counts them: every frame with its headers, FCS and 20 bytes of preamble and
gap. -/
def countedEth (tmpl : List Byte) (h s p : Nat) : Nat :=
  let per := tmplL2 tmpl + (if tmplV6 tmpl then 40 else 20) + 8 + h + 4 + 20
  if p = 0 then 0 else s + ceilDiv s p * per

end Sys2Proof.Machine
end

