-- ==== Sys2Proof/Machine/Super.lean ====
section
/-!
DEFINITION. The supers and the honey drain (chapter 11): the word formats and stochastic rounding, dumps into the filling
super, loss lists, and the sends of an integration's drain.
-/
namespace Sys2Proof.Machine

def State.supOf (s : State) (x : Nat) : Option SupSes := (s.sup.ses.find? (·.1 == x)).map (·.2)
def State.setSup (s : State) (x : Nat) (t : SupSes) : State := { s with sup := { s.sup with ses := spPut s.sup.ses x t } }
def State.modSup (s : State) (x : Nat) (f : SupSes → SupSes) : State :=
  match s.supOf x with | some t => s.setSup x (f t) | none => s

/-! ### Rounding (R286 to R290) -/

/-- R288: `mix`, multiplications modulo 2^32. -/
def mix (x : Nat) : Nat :=
  let x := x % 2 ^ 32
  let x := Nat.xor x (x / 2 ^ 16) * 0x6C8E9CF5 % 2 ^ 32
  let x := Nat.xor x (x / 2 ^ 15) * 0xA3B195E3 % 2 ^ 32
  Nat.xor x (x / 2 ^ 16)

/-- R288: the random bits of component `comp` of visibility t in dwell d. -/
def rbits (seed d t comp : Nat) : Nat := mix (Nat.xor (seed % 2 ^ 32) (mix (Nat.xor (d % 2 ^ 32) (mix (2 * t + comp)))))

/-- R289: the integer an HF32 word stands for. -/
def hfValue (h : Nat) : Int :=
  let e := bitsOf h 30 23
  if e = 0 then 0
  else
    let m := bitsOf h 22 0 + 2 ^ 23
    let v : Nat := if e ≥ 150 then m * 2 ^ (e - 150) else m / 2 ^ (150 - e)
    if bitOf h 31 = 1 then -(v : Int) else (v : Int)

/-- R289: `hf_add`. -/
def hfAdd (h : Nat) (a : Int) (first : Bool) (rnd : Nat) : Nat :=
  if !first && bitsOf h 30 23 == 255 then h
  else
    let e : Int := (if first then 0 else hfValue h) + a
    if e = 0 then 0
    else
      let sg : Nat := if e < 0 then 2 ^ 31 else 0
      let mag := e.natAbs
      if 2 ^ 56 ≤ mag then sg + 0x7F800000
      else
        let k := Nat.log2 mag - 23
        let kept := asr (e + ((rnd % 2 ^ k : Nat) : Int)) k
        let m0 := kept.natAbs
        let m := if m0 = 2 ^ 24 then 2 ^ 23 else m0
        let k := if m0 = 2 ^ 24 then k + 1 else k
        if 32 < k then sg + 0x7F800000
        else
          let lb := Nat.log2 m
          sg + (127 + lb + k) * 2 ^ 23 + m * 2 ^ (23 - lb) % 2 ^ 23

/-- R290: an I64 component. -/
def exactAdd (h : Nat) (a : Int) (first : Bool) : Nat := unsigned 64 ((if first then 0 else signed 64 h) + a)

/-! ### Layout (R282 to R285) -/

def triOf (n : Nat) : Nat := n * (n + 1) / 2

/-- o(p, q) of R285. -/
def visOfs (n p q : Nat) : Nat := p * n - p * (p - 1) / 2 + (q - p)

def Layout.wx (l : Layout) : Nat := if l.exact then 2 else 1
def Layout.sup (l : Layout) : Nat := l.j % 2

/-- Key of word w of super p in the store. -/
def supKey (p w : Nat) : Nat := p * 2 ^ 26 + w

def State.supWord (s : State) (k : Nat) : Nat := spGet zeroNat s.sup.words k
def State.putWord (s : State) (k v : Nat) : State := { s with sup := { s.sup with words := spSet zeroNat s.sup.words k v } }

/-- Keys of the words of visibility t. -/
def Layout.keys (l : Layout) (t : Nat) : List Nat :=
  (List.range l.wx).map (fun i => supKey l.sup (l.base + t * l.wx + i))

def State.poisoned (s : State) (l : Layout) (t : Nat) : Bool := (l.keys t).any s.sup.poison.contains

/-- SUP_SESx_CFG and SEED in force for dwell d (R311). -/
def State.supCfg (s : State) (x d : Nat) : Nat × Nat :=
  tlAt (s.rd (SUP_SESx_CFG x), s.rd (SUP_SESx_SEED x)) (match s.supOf x with | some t => t.cfgs | none => []) d

/-- Words the range of session x takes in each super, with N_x and C_x as they are now (R282). -/
def State.supWords (s : State) (x cfg : Nat) : Nat :=
  match s.cmbOf x with
  | some m =>
    let c := s.cmbGrid x m
    let mp := c.mapsAt (c.dwellAt s.tick)
    s.numOwned mp.map * triOf (s.numInputs mp.inmap) * (if bitOf cfg 1 = 1 then 2 else 1)
  | none => 0

/-- Words the range of session x holds: the largest of the layouts in use, or what an enable takes. -/
def State.supHeld (s : State) (x : Nat) : Nat :=
  let lays := match s.supOf x with | some t => t.lays ++ (match t.drain with | some d => [d.lay] | none => []) | none => []
  maxL (s.supWords x (s.rd (SUP_SESx_CFG x)) :: lays.map (fun l => l.cx * triOf l.nx * l.wx))

/-! ### Loss entries (R301) -/

/-- Puts a loss entry of integration j, local channel l, into session x's list, or counts it as not stored. -/
def State.addLoss (s : State) (x : Nat) (e : LossEnt) : State :=
  match s.supOf x with
  | none => s
  | some t =>
    let n := (t.loss.filter (fun f => f.j == e.j && f.l == e.l)).length
    let all := sumL (s.sup.ses.map (fun p => (p.2.loss.filter (fun f => f.j % 2 == e.j % 2)).length))
    let tot := match t.tot.find? (fun f => f.1 == e.j && f.2.1 == e.l) with | some f => f.2.2 | none => 0
    let t := { t with tot := (e.j, e.l, tot + 1) :: t.tot.filter (fun f => !(f.1 == e.j && f.2.1 == e.l)) }
    let s := s.count (SUP_SESx_LOSS x) 1
    if n < 1024 && all < 262144 then s.setSup x { t with loss := t.loss ++ [e] }
    else ((s.setSup x t).count SUP_LOSS_DROP 1).flag SUP_ERR 2

/-- Notes a reason for the flags of channel l in integration j. -/
def State.supFlag (s : State) (x j l r : Nat) : State :=
  s.modSup x (fun t => { t with flags := addNew t.flags (j, l, r) })

/-- The list positions of visibility index o. -/
def visPos (n o : Nat) : Nat × Nat :=
  match (List.range n).reverse.find? (fun p => visOfs n p p ≤ o) with
  | some p => (p, p + (o - visOfs n p p))
  | none => (0, 0)

/-- An uncorrectable word of a visibility (R292). `ofs` is the dwell concerned. -/
def State.poison (s : State) (x : Nat) (l : Layout) (t key ofs : Nat) : State :=
  let s := (s.count SUP_ECC_UNCORR 1).flag SUP_ERR 1
  if s.poisoned l t then { s with sup := { s.sup with poison := addNew s.sup.poison key } }
  else
    let s := { s with sup := { s.sup with poison := addNew s.sup.poison key } }
    let tri := triOf l.nx
    let ch := if tri = 0 then 0 else t / tri
    let pq := visPos l.nx (if tri = 0 then 0 else t % tri)
    ((s.count (SUP_SESx_POISON x) 1).supFlag x l.j ch rMemUncorr).addLoss x ⟨l.j, ch, rMemUncorr, ofs, 2, pq.1, pq.2⟩

/-- The errors the check of R292 meets in the visibilities of index `lo` to `hi − 1`: corrected words are counted. -/
def State.supErrors (s : State) (x : Nat) (l : Layout) (lo hi ofs : Nat) (errs : List WordErr) : State :=
  s.each (errs.filter (fun e => l.base + lo * l.wx ≤ e.addr && e.addr < l.base + hi * l.wx)) (fun s e =>
    if e.uncorr then s.poison x l ((e.addr - l.base) / l.wx) (supKey l.sup e.addr) ofs else s.count SUP_ECC_CORR 1)

/-! ### Dumps (R284, R291, R293) -/

/-- One visibility takes the dwell sum `a` (R284, R289, R290, R292). -/
def State.addVis (s : State) (l : Layout) (seed d t : Nat) (a : Int × Int) : State :=
  let first := d % l.i == 0
  let ks := l.keys t
  let s := if first then { s with sup := { s.sup with poison := s.sup.poison.filter (fun p => !ks.contains p) } } else s
  if s.poisoned l t then s
  else if l.exact then
    let k := nth ks 0 0
    (s.putWord k (exactAdd (s.supWord k) a.1 first)).putWord (k + 1) (exactAdd (s.supWord (k + 1)) a.2 first)
  else
    let k := nth ks 0 0
    let w := s.supWord k
    let re := hfAdd (w / 2 ^ 32) a.1 first (rbits seed d t 0)
    let im := hfAdd (w % 2 ^ 32) a.2 first (rbits seed d t 1)
    let sat := (if bitsOf re 30 23 = 255 && (first || bitsOf w 62 55 ≠ 255) then 1 else 0)
      + (if bitsOf im 30 23 = 255 && (first || bitsOf w 30 23 ≠ 255) then 1 else 0)
    ((s.putWord k (re * 2 ^ 32 + im)).count SUP_SAT_CNT sat).when (sat != 0) (·.flag SUP_ERR 5)

/-- One slot of a dump enters the filling super (Table 11-3). With a reason of its own the dump enters as abandoned (R43, R607). -/
def State.addDumpBlock (s : State) (x : Nat) (l : Layout) (seed d : Nat) (given : List Nat) (b : DumpBlock) : State :=
  let prs := blockPairs l.nx
  let ch := if prs.length = 0 then 0 else b.g / prs.length
  let ab := nth prs (b.g % prs.length) (0, 0)
  let ofs := d % l.i
  let rs := addReasons b.reasons given
  let none0 := b.withheld || !rs.isEmpty
  let s := s.each (addReasons rs b.noted) (fun s r => s.supFlag x l.j ch r)
  let s := s.when (!rs.isEmpty) (·.addLoss x ⟨l.j, ch, lowest rs, ofs, 0, ab.1 * 128, ab.2 * 128⟩)
  let s := s.when b.withheld (fun s => (s.supFlag x l.j ch rSpare).addLoss x ⟨l.j, ch, rSpare, ofs, 0, ab.1 * 128, ab.2 * 128⟩)
  let s := s.when b.suspect (·.supFlag x l.j ch rWitness)
  let s := s.each (b.uncorr.filter (fun i => ab.1 * 128 + i / 128 ≤ ab.2 * 128 + i % 128 && ab.2 * 128 + i % 128 < l.nx))
    (fun s i => (s.supFlag x l.j ch rMemUncorr).addLoss x ⟨l.j, ch, rMemUncorr, ofs, 1, ab.1 * 128 + i / 128, ab.2 * 128 + i % 128⟩)
  let rows := (List.range 128).map (· + ab.1 * 128)
  let cols := (List.range 128).map (· + ab.2 * 128)
  let cells := rows.flatMap (fun p => cols.map (fun q => (p, q)))
  s.each ((List.zip cells b.vals).filter (fun c => c.1.1 ≤ c.1.2 && c.1.2 < l.nx)) (fun s c =>
    s.addVis l seed d (ch * triOf l.nx + visOfs l.nx c.1.1 c.1.2) (if none0 then (0, 0) else c.2))

/-- The layout dwell d of a dump falls into; a new one where none is open for its integration. -/
def State.layoutOf (s : State) (x : Nat) (t : SupSes) (p : Dump) : Layout :=
  let cfg := (s.supCfg x p.d).1
  let i := bitsOf cfg 31 16 + 1
  match t.lays.find? (fun l => l.j == p.d / i && p.d % i != 0) with
  | some l => l
  | none => ⟨p.d / i, p.d, p.nx, p.cx, s.rd (SUP_SESx_BASE x) % 2 ^ 26, bitOf cfg 1 == 1, i, p.grid.d,
             s.owned (p.grid.mapsAt p.d).map⟩

def State.supRingPut (s : State) (x : Nat) (b : List Byte) : State × Bool :=
  s.ringPut (SUP_SESx_RING_BASE x) (SUP_SESx_RING_SIZE x) (SUP_SESx_RING_WR x) (SUP_SESx_RING_RD x) b

/-! ### The plan of a drain (R297) -/

/-- A send of the plan: its kind (Table 11-5), local channel, first record and count. -/
structure HoneySend where
  kind  : Nat
  l     : Nat
  first : Nat
  count : Nat
  deriving DecidableEq, Repr

/-- Records of `g` bytes cut into sends of at most 4,194,304 bytes. -/
def cutSends (kind l n g : Nat) : List HoneySend :=
  let per := if g = 0 then 1 else 4194304 / g
  if per = 0 then []
  else (List.range (ceilDiv n per)).map (fun i => ⟨kind, l, i * per, min per (n - i * per)⟩)

def presBytes (n : Nat) : Nat := 8 * ceilDiv n 64

/-- The sends before END, in order. -/
def Layout.plan (l : Layout) : List HoneySend :=
  cutSends 1 0 l.i (presBytes l.nx)
  ++ (List.range l.cx).flatMap (fun c =>
      cutSends 2 c (triOf l.nx) (8 * l.wx) ++ cutSends 3 c l.nx 16 ++ [⟨4, c, 0, 1⟩])

def honeyGran (l : Layout) (kind : Nat) : Nat :=
  match kind with | 1 => presBytes l.nx | 2 => 8 * l.wx | 3 => 16 | _ => 8

/-! ### Records (R298 to R301) -/

/-- The components of visibility t as drained: 0 where it is poisoned. -/
def State.visWord (s : State) (l : Layout) (t : Nat) : Nat × Nat :=
  if s.poisoned l t then (0, 0)
  else
    let k := supKey l.sup (l.base + t * l.wx)
    if l.exact then (s.supWord k, s.supWord (k + 1)) else (s.supWord k / 2 ^ 32, s.supWord k % 2 ^ 32)

/-- A non-negative binary32 with an integer value, `none` for infinity, after rounding to nearest even. -/
def f32Round (n : Nat) : Option Nat :=
  let k := Nat.log2 n - 23
  let q := n / 2 ^ k
  let r := n % 2 ^ k
  let q := if 2 ^ k < 2 * r || (2 * r == 2 ^ k && k != 0 && q % 2 == 1) then q + 1 else q
  if 2 ^ 128 ≤ q * 2 ^ k then none else some (q * 2 ^ k)

/-- The bits of such a value. -/
def f32Bits : Option Nat → Nat
  | none => 0x7F800000
  | some 0 => 0
  | some n => let lb := Nat.log2 n; (127 + lb) * 2 ^ 23 + (if lb ≤ 23 then n * 2 ^ (23 - lb) else n / 2 ^ (lb - 23)) % 2 ^ 23

def f32Add (a b : Option Nat) : Option Nat := match a, b with | some x, some y => f32Round (x + y) | _, _ => none
def f32Max (a b : Option Nat) : Option Nat := match a, b with | some x, some y => some (max x y) | _, _ => none

/-- The magnitude of a component as binary32. -/
def Layout.mag (l : Layout) (w : Nat) : Option Nat :=
  if l.exact then f32Round (signed 64 w).natAbs
  else if bitsOf w 30 23 = 255 then none else some (hfValue w).natAbs

/-- The component's binary32 bits. -/
def Layout.bits32 (l : Layout) (w : Nat) : Nat :=
  if l.exact then (if signed 64 w < 0 then 2 ^ 31 else 0) + f32Bits (l.mag w) else w

def f32Sq (a : Option Nat) : Option Nat := match a with | some x => f32Round (x * x) | none => none

/-- pw of R299. -/
def Layout.pw (l : Layout) (v : Nat × Nat) : Option Nat := f32Add (f32Sq (l.mag v.1)) (f32Sq (l.mag v.2))

/-- The PRESENT bits of dwell offset o by list position. -/
def SupSes.codes (t : SupSes) (l : Layout) (o : Nat) : List Nat :=
  match t.pres.find? (fun p => p.1 == l.j * l.i + o) with
  | some p => p.2
  | none => List.replicate l.nx 0

/-- The presence record of dwell offset o (R300). -/
def presRecord (n : Nat) (codes : List Nat) : List Byte :=
  (List.range (ceilDiv n 64)).flatMap (fun w =>
    toBE 8 (sumL ((List.range 64).map (fun i => if w * 64 + i < n && nth codes (w * 64 + i) 0 % 2 = 1 then 2 ^ i else 0))))

/-- The row record of list position p of local channel c (R299): the visibilities with p in drain order. -/
def State.rowRecord (s : State) (t : SupSes) (l : Layout) (c p : Nat) : List Byte :=
  let base := c * triOf l.nx
  let vs := (List.range p).map (fun a => visOfs l.nx a p) ++ (List.range (l.nx - p - 1)).map (fun j => visOfs l.nx p (p + 1 + j))
  let pws := vs.map (fun o => l.pw (s.visWord l (base + o)))
  let valid := ((List.range l.i).filter (fun o => nth (t.codes l o) p 0 % 2 == 1)).length
  toBE 4 (f32Bits (pws.foldl f32Max (some 0))) ++ toBE 4 (f32Bits (pws.foldl f32Add (some 0)))
  ++ toBE 4 (l.bits32 (s.visWord l (base + visOfs l.nx p p)).1) ++ toBE 4 valid

def lossKey (e : LossEnt) : Nat := ((e.ofs * 4 + e.kind) * 2 ^ 14 + e.p) * 2 ^ 14 + e.q

/-- Puts a loss entry in the order of R301. -/
def insLoss (e : LossEnt) : List LossEnt → List LossEnt
  | [] => [e]
  | a :: r => if lossKey e < lossKey a then e :: a :: r else a :: insLoss e r

/-- The stored loss entries of channel c. -/
def SupSes.lossOf (t : SupSes) (l : Layout) (c : Nat) : List LossEnt :=
  (t.loss.filter (fun e => e.j == l.j && e.l == c)).foldl (fun acc e => insLoss e acc) []

/-- A loss entry's bits (Table 11-7). -/
def lossBits (e : LossEnt) : Nat :=
  e.reason * 2 ^ 56 + e.ofs % 2 ^ 16 * 2 ^ 40 + e.kind * 2 ^ 38 + e.p % 2 ^ 14 * 2 ^ 14 + e.q % 2 ^ 14

/-- The payload of a send. -/
def State.honeyData (s : State) (t : SupSes) (d : Drain) (h : HoneySend) : List Byte :=
  let l := d.lay
  let recs := (List.range h.count).map (· + h.first)
  match h.kind with
  | 1 => recs.flatMap (fun o => presRecord l.nx (t.codes l o))
  | 2 => recs.flatMap (fun o =>
      let v := s.visWord l (h.l * triOf l.nx + o)
      toBE (4 * l.wx) v.1 ++ toBE (4 * l.wx) v.2)
  | 3 => recs.flatMap (s.rowRecord t l h.l)
  | 4 =>
    let es := t.lossOf l h.l
    let tot := match t.tot.find? (fun f => f.1 == l.j && f.2.1 == h.l) with | some f => f.2.2 | none => 0
    toBE 4 tot ++ toBE 4 es.length ++ es.flatMap (fun e => toBE 8 (lossBits e))
  | _ => toBE 4 l.plan.length ++ toBE 4 d.lost

/-! ### Flags (R303) -/

/-- Reasons of channel c's visibility set. -/
def SupSes.chanReasons (t : SupSes) (d : Drain) (c : Nat) : List Nat :=
  let l := d.lay
  let pres := (List.range l.i).foldl (fun acc o => (t.codes l o).foldl (fun a v => addReasons a (presenceReason v)) acc) []
  let mk := (t.flags.filter (fun f => f.1 == l.j && f.2.1 == c)).map (·.2.2)
  addReasons (addReasons d.extra pres) mk

/-- Reasons of a send of kind `kind`. -/
def SupSes.sendReasons (t : SupSes) (d : Drain) (kind c : Nat) : List Nat :=
  let all := (List.range d.lay.cx).foldl (fun a c => addReasons a (t.chanReasons d c)) []
  match kind with
  | 1 => all
  | 5 => if d.lost = 0 then all else addReasons all [rTickAbandoned]
  | _ => t.chanReasons d c

/-- The honey header (Table 11-4), FRAME_OFFSET 0. -/
def State.honeyHeader (s : State) (x : Nat) (d : Drain) (h : HoneySend) (flags bytes : Nat) (last : Bool) : List Byte :=
  let l := d.lay
  let count := if h.kind = 4 then bytes / 8 else h.count
  let ch := if h.kind = 1 || h.kind = 5 then 0xFFFF else nth l.chans h.l 0
  toBE 2 0xB70E ++ [1, BitVec.ofNat 8 h.kind] ++ toBE 2 x ++ toBE 2 s.hiveId ++ toBE 2 flags
  ++ [BitVec.ofNat 8 ((if last then 128 else 0) + (if l.exact then 64 else 0)), 0] ++ toBE 2 ch ++ toBE 2 0
  ++ toBE 8 l.j ++ toBE 4 h.first ++ toBE 4 count ++ toBE 8 (l.j * l.i * l.d) ++ toBE 4 0 ++ toBE 4 bytes
  ++ toBE 4 d.next ++ toBE 4 l.nx ++ toBE 4 l.i ++ toBE 4 l.d

/-! ### Sends (R304, R305, R307) -/

/-- The mark of a send of integration j of session x, by which its loss is counted to its integration. -/
def honeySrc (x j : Nat) : Nat := x + 1024 * j

/-- A send that is lost (R307): it counts in the END record of the integration it belongs to. -/
def State.honeyLost (s : State) (src : Nat) : State :=
  let x := src % 1024
  (s.modSup x (fun t => { t with drain := t.drain.map (fun d => if d.lay.j = src / 1024 then { d with lost := d.lost + 1 } else d) })).count
    (SUP_SESx_LOST x) 1 |>.flag SUP_ERR 4

/-- Counted bytes of a send of an integration that starts at tick k (R305). -/
def State.honeyCounted (s : State) (x k gran bytes : Nat) : Nat :=
  let cfg := s.rd (SUP_SESx_CFG x)
  if bitsOf cfg 13 12 = 0 then
    let tmpl := match s.streamOf x 0 k with | some t => t.tmpl | none => []
    countedEth tmpl 64 bytes (segSize (s.rd (ETHn_CFG2 (bitsOf cfg 8 4))) (tmplV6 tmpl) 64 gran)
  else (64 + bytes + 63) / 64 * 64

/-- Hands a send to its destination. -/
def State.honeyOut (s : State) (x : Nat) (t : SupSes) (d : Drain) (h : HoneySend) : State :=
  let cfg := s.rd (SUP_SESx_CFG x)
  let target := bitsOf cfg 8 4
  let data := s.honeyData t d h
  let rs := t.sendReasons d h.kind h.l
  let g := honeyGran d.lay h.kind
  let src := honeySrc x d.lay.j
  let s := s.when (h.kind = 5) (·.noteProduct x rs)
  let head := s.honeyHeader x d h (flagWord rs false) data.length
  let s := match bitsOf cfg 13 12 with
    | 0 => s.streamSend .honey src x 0 d.home target (s.productQueue x 3) (s.rd (SUP_SESx_UDP x) % 65536) (head false) 40 10 7 g data
    | 1 => let r := s.supRingPut x (head true ++ data)
           if r.2 then r.1 else r.1.honeyLost src
    | 2 => s.unitPut target .honey src (pad64 (head true ++ data))
    | _ => s.honeyLost src
  s.modSup x (fun t => { t with drain := t.drain.map (fun e =>
    { e with next := e.next + 1, bytes := e.bytes + s.honeyCounted x d.home g data.length }) })

/-- SUP_USE: words per super in the ranges of enabled sessions. -/
def State.showSupUse (s : State) : State :=
  s.wr SUP_USE (sumL ((s.sup.ses.map (·.1)).map s.supHeld) % 2 ^ 27)

/-- The session's super work ends and its range is free (R308). -/
def State.supFree (s : State) (x : Nat) : State :=
  let s := { s with sup := { s.sup with ses := spDel s.sup.ses x } }
  ((s.setBit (SUP_SESx_STATUS x) 31 false).setBit (SUP_SESx_STATUS x) 30 false).showSupUse

/-- The END send and the end of the drain. -/
def State.honeyEnd (s : State) (x : Nat) : State :=
  match s.supOf x with
  | none => s
  | some t =>
    match t.drain with
    | none => s
    | some d =>
      let s := s.honeyOut x t d ⟨5, 0, 0, 1⟩
      let s := s.modSup x (fun t => { t with
        drain := none
        loss := t.loss.filter (fun e => e.j != d.lay.j)
        tot := t.tot.filter (fun e => e.1 != d.lay.j)
        flags := t.flags.filter (fun e => e.1 != d.lay.j)
        pres := t.pres.filter (fun p => d.lay.j * d.lay.i + d.lay.i ≤ p.1) })
      let s := (s.wr (SUP_SESx_INTEG_LO x) (d.lay.j % 2 ^ 32)).setBit (SUP_SESx_STATUS x) 30 false
      if t.stop then s.supFree x else s

/-- R306: the drain stops; its sends not yet handed on are never produced. `off` where the block was disabled (R607). -/
def State.drainStop (s : State) (x : Nat) (off : Bool) : State :=
  match s.supOf x with
  | none => s
  | some t =>
    match t.drain with
    | none => s
    | some d =>
      let n := d.lay.plan.length - d.next
      let s := s.modSup x (fun t => { t with drain := some { d with
        lost := d.lost + n, next := d.lay.plan.length, extra := if off then addReasons d.extra [rUntimed] else d.extra } })
      let s := (s.count (SUP_SESx_OVERRUN x) n).when (n != 0) (·.flag SUP_ERR 3)
      let s := if off then s else s.honeyEnd x
      if off || n = 0 then s else { s.fault 11 with kpr := { (s.fault 11).kpr with badTick := true } }

/-- The grid of the session's dwells. -/
def State.supGrid (s : State) (x : Nat) : Option CtnSes :=
  match s.ctnOf x with | some c => some c | none => (s.cmbOf x).map (fun m => m.grid)

/-- An integration whose last dwell has been applied and that R308 lets drain. -/
def SupSes.whole (t : SupSes) (l : Layout) : Bool :=
  l.first == l.j * l.i && t.start ≤ l.j * l.i && t.pres.any (·.1 == l.j * l.i + l.i - 1)

/-- The drain of the integration of layout l begins (R296): its pace counts from tick h(n_L) + W + 5, of a replay session from now. -/
def State.drainBegin (s : State) (x : Nat) (t : SupSes) (l : Layout) : State :=
  let last := l.j * l.i + l.i - 1
  let u := s.takeUntimed x
  let g := s.supGrid x
  let step := match g with
    | some c => u.2.specsStepped c (l.j * l.i * l.d) ((last + 1) * l.d - 1)
    | none => false
  let t0 := match g with | some c => if s.sesReplay x then s.tick else c.endTick last + c.w + 5 | none => s.tick
  let start := match g with | some c => c.home (l.j * l.i * l.d) | none => s.tick
  let d : Drain := ⟨l, start, t0, 0, 0, 0, u.1 ++ (if step then [rTimeStep] else [])⟩
  (u.2.setSup x { t with lays := t.lays.filter (fun m => m.j != l.j), drain := some d }).setBit (SUP_SESx_STATUS x) 30 true

/-- The integration that the first dump p of a later one in the same super would overwrite: its drain, in progress or yet to begin, has not handed on
every send (R306, R310). -/
def SupSes.clash (t : SupSes) (lay : Layout) (p : Dump) : Bool :=
  (match t.drain with
    | some d => lay.sup == d.lay.sup && d.lay.j * d.lay.i + d.lay.i ≤ p.d
    | none => false)
  || t.lays.any (fun l => t.whole l && l.sup == lay.sup && l.j != lay.j)

/-- R306: what of session x stands in the way of a dump is never produced: a drain not yet begun begins and stops. -/
def State.drainGiveUp (s : State) (x : Nat) (lay : Layout) (off : Bool) : State :=
  let s := match s.supOf x with
    | some t => (match t.drain with
        | some d => s.when (lay.sup == d.lay.sup) (·.drainStop x off)
        | none => s)
    | none => s
  match s.supOf x with
  | some t => (match t.drain, t.lays.find? (fun l => t.whole l && l.sup == lay.sup && l.j != lay.j) with
      | none, some l => (s.drainBegin x t l).drainStop x off
      | _, _ => s)
  | none => s

/-- DRAIN_OVERRUN (R306): the first dump of integration j + 2 is about to be applied. -/
def execDrainOverrun (x : Nat) (s : State) : Res :=
  match s.supOf x with
  | some t =>
    match t.drain, s.cmb.dumps.find? (·.x == x) with
    | some d, some p =>
      if !s.sesReplay x && (d.lay.j + 2) * d.lay.i ≤ p.d then .next (s.drainStop x false) else .next s
    | _, _ => .next s
  | none => .next s

/-! ### The rows -/

/-- Applies a dump to the filling super; as abandoned where a reason for it is given. The check of R292 meets the words of every dump; the first of
an integration takes their values as zero and clears their poison. -/
def State.applyDump (s : State) (p : Dump) (errs : List WordErr) (given : List Nat) : State :=
  match s.supOf p.x with
  | none => s
  | some t =>
    let lay := s.layoutOf p.x t p
    let seed := (s.supCfg p.x p.d).2
    let byPos := p.list.map (fun i => nth p.codes i 0)
    let s := s.setSup p.x { t with lays := lay :: (t.lays.filter (fun l => l.j != lay.j)).take 1, pres := (p.d, byPos) :: t.pres }
    let met := errs.filter (fun e => lay.base ≤ e.addr && e.addr < lay.base + lay.cx * triOf lay.nx * lay.wx)
    let un := (met.filter (·.uncorr)).length
    let s := if p.d % lay.i = 0 then
        ((s.count SUP_ECC_CORR (met.length - un)).count SUP_ECC_UNCORR un).when (un != 0) (·.flag SUP_ERR 1)
      else s.supErrors p.x lay 0 (lay.cx * triOf lay.nx) (p.d % lay.i) errs
    let s := s.each p.blocks (fun s b => s.addDumpBlock p.x lay seed p.d given b)
    (s.wr (SUP_SESx_STATUS p.x) ((s.rd (SUP_SESx_STATUS p.x)) / 2 ^ 30 * 2 ^ 30 + lay.sup * 2 ^ 29 + p.d % lay.i)).showSupUse

/-- A dump has been taken from those that wait. -/
def State.takeDump (s : State) (p : Dump) : State := { s with cmb := { s.cmb with dumps := s.cmb.dumps.erase p } }

/-- The deadline of a dump's application, the end of tick h(n_last) + W + 4, has passed (R293). -/
def State.dumpLate (s : State) (p : Dump) : Bool := !s.sesReplay p.x && s.begun (p.grid.endTick p.d + p.grid.w + 5)

/-- SUPER_DUMP_APPLY (R291, R293, R310): the oldest dump of session x enters the filling super, once the comparison that
may mark it has been made, by the end of tick h(n_last) + W + 4. `errs` are the errors the check of R292 meets. A dump of a session without super work
is not kept. While the block is off a dump enters as abandoned (R607). -/
def execSuperDumpApply (x : Nat) (errs : List WordErr) (s : State) : Res :=
  match s.cmb.dumps.find? (·.x == x) with
  | none => .next s
  | some p =>
    if s.cmb.wit.any (fun w => w.x == x && w.d == p.d) || s.dumpLate p then .next s
    else
      match s.supOf x with
      | none => .next (s.takeDump p)
      | some t =>
        let lay := s.layoutOf x t p
        let clash := t.clash lay p
        if clash && s.sesReplay x then .next s
        else .next (((s.when clash (·.drainGiveUp x lay false)).takeDump p).applyDump p errs (if s.blockOn 11 then [] else [rUntimed]))

/-- Dumps issued at the end of tick k, or due then and not issued, that no super took by the end of tick k + 2 enter as abandoned (R43, R293). The answer
tells whether any was left for a cause that R44 does not list. -/
def State.supAbandon (s : State) (k : Nat) (off : Bool) : State × Bool :=
  let unissued := s.cmb.ses.filter (fun q => !s.sesReplay q.1
    && (let c := s.cmbGrid q.1 q.2
        let d := match q.2.dumped with | some e => e + 1 | none => q.2.first
        c.d != 0 && s.dumpDue q.1 q.2 d && c.endTick d + c.w + 2 == k))
  let r := unissued.foldl (fun (acc : State × Bool) q =>
    let d := match q.2.dumped with | some e => e + 1 | none => q.2.first
    let t := acc.1.combDump q.1 d [] q.2
    (t.1, acc.2 || t.2)) (s, false)
  let late := r.1.cmb.dumps.filter (fun p => !r.1.sesReplay p.x && p.grid.endTick p.d + p.grid.w + 2 ≤ k)
  late.foldl (fun (acc : State × Bool) p =>
    let s := { acc.1 with cmb := { acc.1.cmb with wit := acc.1.cmb.wit.filter (fun w => !(w.x == p.x && w.d == p.d)) } }
    match s.supOf p.x with
    | none => (s.takeDump p, acc.2)
    | some t =>
      let lay := s.layoutOf p.x t p
      let s := (s.when (t.clash lay p) (·.drainGiveUp p.x lay off)).takeDump p
      (s.applyDump p [] [if off then rUntimed else rTickAbandoned], acc.2 || !off)) r

/-- HONEY_DRAIN_START (R296, R308): the drain of integration j begins in tick h(n_L) + W + 5, of a replay session once its last dump is applied. -/
def execHoneyDrainStart (x j : Nat) (s : State) : Res :=
  match s.supOf x with
  | none => .next s
  | some t =>
    match t.lays.find? (·.j == j), t.drain with
    | some l, none =>
      let last := l.j * l.i + l.i - 1
      let due := match s.supGrid x with | some c => s.sesReplay x || s.begun (c.endTick last + c.w + 5) | none => true
      if !t.whole l || !due || !s.blockOn 11 then .next s else .next (s.drainBegin x t l)
    | _, _ => .next s

/-- The cycle of the memory clock (1,200 a tick) in which the next send of session x is due (R305), if its drain is in progress. -/
def State.honeyCycle (s : State) (x : Nat) : Option Nat :=
  match s.supOf x with
  | some t => t.drain.map (fun d =>
      let rate := s.rd (SUP_SESx_RATE x) % 2 ^ 17
      d.t0 * 1200 + (if rate = 0 then 0 else ceilDiv (8 * d.bytes * 1200) rate))
  | none => none

/-- Session x is served next: no session has a send due in an earlier cycle, no lower one in the same cycle (R296). -/
def State.honeyTurn (s : State) (x : Nat) : Bool :=
  match s.honeyCycle x with
  | some c => s.sup.ses.all (fun p => p.1 == x || (match s.honeyCycle p.1 with
      | some e => decide (c < e) || (decide (c = e) && decide (x < p.1))
      | none => true))
  | none => false

/-- HONEY_SEND (R297, R305, R307): the next send of the drain of session x, at its paced time; `errs` are the errors the
check of R292 meets in the visibilities it reads. The dwell a WORD entry found by the drain names is not stated: free. -/
def execHoneySend (x : Nat) (errs : List WordErr) (s : State) : Res :=
  match s.supOf x with
  | none => .next s
  | some t =>
    match t.drain with
    | none => .next s
    | some d =>
      let rate := s.rd (SUP_SESx_RATE x) % 2 ^ 17
      if !s.blockOn 11 || !s.honeyTurn x || (rate ≠ 0 && !s.begun (d.t0 + 8 * d.bytes / rate)) then .next s
      else match d.lay.plan[d.next]? with
        | none => .next (s.honeyEnd x)
        | some h =>
          let v := s.free
          let hit := h.kind == 2 && errs.any (·.uncorr)
          let s := if hit then v.2 else s
          let s := if h.kind = 2 then
              let lo := h.l * triOf d.lay.nx + h.first
              s.supErrors x d.lay lo (lo + h.count) (v.1 % d.lay.i) errs
            else s
          .next (s.honeyOut x ((s.supOf x).getD t) d h)

/-! ### Register writes -/

/-- May super work of session x be enabled with configuration `cfg` (R282, R446)? -/
def State.supArmable (s : State) (x cfg : Nat) : Bool :=
  let base := s.rd (SUP_SESx_BASE x) % 2 ^ 26
  let n := s.supWords x cfg
  base + n ≤ 2 ^ 26 && s.bit (CMB_SESx_CFG x) 0 == 1 && s.rd (SUP_SESx_RATE x) % 2 ^ 17 != 0
  && (s.supOf x).isNone
  && (bitsOf cfg 13 12 != 1 || s.ringOk 3 (SUP_SESx_RING_BASE x) (SUP_SESx_RING_SIZE x))
  && s.sup.ses.all (fun p => !meets base n (s.rd (SUP_SESx_BASE p.1) % 2 ^ 26) (s.supHeld p.1))

def supPre (a new : Nat) (s : State) : Option State :=
  let bad := some (s.flag SUP_ERR 0)
  if 0xB10000 ≤ a && a < 0xB20000 then
    let x := (a - 0xB10000) / 0x40
    let en := s.bit (SUP_SESx_CFG x) 0 = 1
    match a % 0x40 with
    | 0 =>
      if en && s.rd a / 2 ≠ new / 2 then bad
      else if !en && bitOf new 0 = 1 && !s.supArmable x new then bad
      else none
    | 4 | 8 | 12 | 16 | 20 | 24 => if en && s.rd a ≠ new then bad else none
    | _ => none
  else none

/-- After a write of SUP_SESx_CFG: super work starts, or stops when the drain in progress ends (R308). -/
def supPost (a old : Nat) (s : State) : State :=
  if 0xB10000 ≤ a && a < 0xB20000 && a % 0x40 = 0 then
    let x := (a - 0xB10000) / 0x40
    if bitOf old 0 = 0 && s.bit a 0 = 1 then
      let start := match s.cmbOf x with
        | some m => (match m.dumped with | some e => max m.first (e + 1) | none => m.first)
        | none => 0
      let s := s.setSup x ⟨start, false, [], [], [], [], [], [], none⟩
      (s.wr (SUP_SESx_STATUS x) (2 ^ 31)).showSupUse
    else if bitOf old 0 = 1 && s.bit a 0 = 0 then
      match s.supOf x with
      | some t => if t.drain.isSome then s.setSup x { t with stop := true } else s.supFree x
      | none => s
    else s
  else s

/-- R311, R55: I_M1, EXACT and the seed change at the first integration boundary at or after tick k. -/
def State.supChange (s : State) (x k cfg seed : Nat) : State :=
  match s.supOf x, s.cmbOf x with
  | some t, some m =>
    let d0 := match m.renew with | some r => r.1 | none => (s.cmbGrid x m).dwellFrom k
    let i := bitsOf (s.supCfg x d0).1 31 16 + 1
    let b := ceilDiv d0 i * i
    let base := if t.cfgs.isEmpty then [(0, s.rd (SUP_SESx_CFG x), s.rd (SUP_SESx_SEED x))] else t.cfgs
    s.setSup x { t with cfgs := (tlPut base b (cfg, seed)).take 8 }
  | _, _ => s

end Sys2Proof.Machine
end

