-- ==== Sys2Proof/Machine/Window.lean ====
section
/-!
DEFINITION. Worker stream windows (R363, R364): where they lie in a worker's Y memory, and how a source fills one.
-/
namespace Sys2Proof.Machine

/-- Key of address `a` in the X or Y memory of worker n. -/
def xyKey (n a : Nat) : Nat := n * 65536 + a % 65536

def State.ymGet (s : State) (n a : Nat) : Nat := spGet zeroNat s.wrk.ym (xyKey n a)
def State.ymPut (s : State) (n a v : Nat) : State :=
  { s with wrk := { s.wrk with ym := spSet zeroNat s.wrk.ym (xyKey n a) (v % 2 ^ 24) } }
def State.xmGet (s : State) (n a : Nat) : Nat := spGet zeroNat s.wrk.xm (xyKey n a)
def State.xmPut (s : State) (n a v : Nat) : State :=
  { s with wrk := { s.wrk with xm := spSet zeroNat s.wrk.xm (xyKey n a) (v % 2 ^ 24) } }

def State.winOn (s : State) (w : Nat) : Bool := w < 64 && s.bit (WRK_WINw_CFG w) 31 == 1
def State.winWorker (s : State) (w : Nat) : Nat := bitsOf (s.rd (WRK_WINw_CFG w)) 29 24
def State.winSize (s : State) (w : Nat) : Nat := (bitsOf (s.rd (WRK_WINw_CFG w)) 23 16 + 1) * 64
/-- First address of half h of window w. -/
def State.winBase (s : State) (w h : Nat) : Nat := bitsOf (s.rd (WRK_WINw_CFG w)) 9 0 * 64 + h * s.winSize w

/-- Reasons of the data in half h of window w. -/
def State.winReasons (s : State) (w h : Nat) : List Nat := spGet (fun _ => []) s.wrk.winRs (w * 2 + h)

/-- The hive writes the product flag word of a half (word 1). -/
def State.winFlag (s : State) (w h : Nat) (rs : List Nat) : State :=
  let all := addReasons (s.winReasons w h) rs
  let s := { s with wrk := { s.wrk with winRs := spSet (fun _ => []) s.wrk.winRs (w * 2 + h) all } }
  s.ymPut (s.winWorker w) (s.winBase w h + 1) (flagWord all false)

/-- Data words that complete now go to half t & 1 of an enabled window; what exceeds its capacity is discarded (R364). -/
def State.winPut (s : State) (w : Nat) (words rs : List Nat) (replay : Bool) : State :=
  if !s.winOn w then s
  else
    let h := s.tick % 2
    let s := s.when (replay && !words.isEmpty) (fun s => { s with wrk := { s.wrk with winRep := addNew s.wrk.winRep (w * 2 + h) } })
    let n := s.winWorker w
    let base := s.winBase w h
    let cnt := s.ymGet n base
    let room := s.winSize w - 2 - cnt
    let put := words.take room
    let s := s.when (cnt == 0 && put.length != 0) (·.count (WRK_WINw_FILLS w) 1)
    let s := (s.each (List.zip (List.range put.length) put) (fun s q => s.ymPut n (base + 2 + cnt + q.1) q.2)).ymPut n base
      (cnt + put.length)
    let s := s.winFlag w h rs
    if room < words.length then
      ((s.count (WRK_WINw_OVF w) (words.length - room)).flag WRK_ERR 5).winFlag w h [rTickAbandoned]
    else s

/-- At the start of tick t words 0 and 1 of half t & 1 become 0 (R363). -/
def State.winTick (s : State) : State :=
  s.each ((List.range 64).filter s.winOn) (fun s w =>
    let h := s.tick % 2
    let s := { s with wrk := { s.wrk with winRs := spSet (fun _ => []) s.wrk.winRs (w * 2 + h) []
                                          winRep := s.wrk.winRep.filter (· != w * 2 + h) } }
    (s.ymPut (s.winWorker w) (s.winBase w h) 0).ymPut (s.winWorker w) (s.winBase w h + 1) 0)

/-- Address `a` of worker n's Y memory lies in a half of this enabled window. -/
def State.inWindow (s : State) (n a w : Nat) : Bool :=
  s.winOn w && s.winWorker w == n && s.winBase w 0 ≤ a && a < s.winBase w 0 + 2 * s.winSize w

/-! ### Reports to the trigger unit (R391, R392, R400) -/

/-- A hive applies a time step in second S: event ticks of seconds S and S + 1 are marked (R400). -/
def State.stepNear (s : State) (tick : Nat) : Bool :=
  s.tim.stepSecs.any (fun sec => tick / 1000000 = sec || tick / 1000000 = sec + 1)

def State.stepReasons (s : State) (tick : Nat) : List Nat := if s.stepNear tick then [rTimeStep] else []

/-- Lag E of condition c, and whether it lists source `src` among its sources or vetoes. -/
def State.tcLag (s : State) (c : Nat) : Nat := bitsOf (s.rd (TRG_TCc_CFG c)) 31 24
def State.tcOn (s : State) (c : Nat) : Bool := s.bit (TRG_TCc_CFG c) 0 == 1
def State.tcSources (s : State) (c : Nat) : List Nat :=
  (List.range (bitsOf (s.rd (TRG_TCc_CFG c)) 20 16)).map (fun i => bitsOf (s.rd (TRG_TCc_SRC c (i / 4))) (8 * (i % 4) + 7) (8 * (i % 4)))
def State.tcVetoes (s : State) (c : Nat) : List Nat :=
  (List.range (bitsOf (s.rd (TRG_TCc_CFG c)) 3 1)).map (fun i => bitsOf (s.rd (TRG_TCc_VETO c)) (8 * i + 7) (8 * i))
def State.tcUses (s : State) (c src : Nat) : Bool := s.tcOn c && ((s.tcSources c).contains src || (s.tcVetoes c).contains src)

/-- The arrival index of something that reaches the trigger unit now. -/
def State.trgNow (s : State) (last : Option Nat) : Nat := 2 * s.tick + (if last = some s.tick then 1 else 0)

/-- A contribution of event tick j that arrives at `arr` is on time for a condition of lag e (R392). -/
def onTime (arr j e : Nat) : Bool := arr ≤ 2 * (j + e + 1)

/-- The first evaluation of condition c that requires the report `idx` of source `src` (R397), as the tick it falls in. -/
def State.firstNeed (s : State) (c src idx : Nat) : Nat :=
  let e := s.tcLag c
  if 0x80 ≤ src && src < 0xC0 then idx + 3 else idx - (3999 + s.rd (TRG_TCc_VPOST c) % 65536) / 4000 + e + 1

/-- A report reaches the trigger unit, no earlier than arrival index `first`; what is late for a condition that uses it is counted (R392). -/
def State.trgReportAt (s : State) (first : Nat) (r : TrgRep) : State :=
  if !s.blockOn 14 then s
  else
    let arr := max first (s.trgNow s.trg.lastEval)
    let cs := (List.range 64).filter (fun c => s.tcUses c r.src)
    let excl := (r.cons.filter (fun a => cs.any (fun c => !onTime arr a.1 (s.tcLag c)))).length
    let late := if r.src < 0xC0 && cs.any (fun c => 2 * s.firstNeed c r.src r.idx < arr) then 1 else 0
    let s := { s with trg := { s.trg with reps := { r with at_ := arr } :: s.trg.reps } }
    if excl + late = 0 then s else (s.count TRG_LATE_CNT (excl + late)).flag TRG_ERR 1

/-- A report that reaches the trigger unit now. -/
def State.trgReport (s : State) (r : TrgRep) : State := s.trgReportAt 0 r

end Sys2Proof.Machine
end

