-- ==== Sys2Proof/Machine/WorkerDecode.lean ====
section
/-!
DEFINITION. Worker instructions (chapter 14): what a 48-bit PM word spells. A word of a reserved class, operation code or
non-zero reserved field, or one that breaks a static rule of the chapter, spells none. After it, the word of an instruction, written from the same tables.
-/
namespace Sys2Proof.Machine

/-- A parallel move (Table 14-4). -/
structure WMove where
  kind : Nat
  reg  : Nat
  pn   : Nat
  pmod : Nat
  deriving DecidableEq, Repr

/-- A decoded instruction: classes P and I, M, R, B and L. `imm` is set in class I. -/
inductive WInsn where
  | alu (op : Nat) (imm : Option Nat) (sat rnd : Bool) (d s1 s2 : Nat) (xm ym : WMove)
  | mem (mop reg addr pn pmod imm : Nat)
  | reg (rop rd rs rt sh : Nat) (sat rnd : Bool)
  | ctl (bop cond reg target : Nat)
  | rep (lop bot count : Nat)
  deriving DecidableEq, Repr

def noMove : WMove := ⟨0, 0, 0, 0⟩

/-- How an ALU operation uses S1: 0 not at all, 1 a data register, 2 an accumulator. -/
def s1Use (op : Nat) : Nat :=
  if [1, 2, 3, 4, 5, 6, 7, 10, 16, 17, 22].contains op then 1 else if [8, 9, 11, 15, 20, 21].contains op then 2 else 0

/-- S2 is a data register, or the shift count of ASR and ASL. -/
def s2Use (op : Nat) : Bool := [1, 2, 3, 4, 5, 18, 19].contains op

/-- SAT is used (Table 14-5). -/
def satUse (op : Nat) : Bool := [1, 2, 3, 4, 5, 6, 7, 8, 9, 12, 13, 15, 19].contains op

/-- The operation writes D. -/
def dWrites (op : Nat) : Bool := !([0, 10, 11] : List Nat).contains op

/-- A move field (R371). -/
def wMove (f : Nat) : Option WMove :=
  let m : WMove := ⟨bitsOf f 13 11, bitsOf f 10 7, bitsOf f 6 4, bitsOf f 3 2⟩
  if bitsOf f 1 0 ≠ 0 || 5 ≤ m.kind || (m.kind = 0 && m.reg ≠ 0) || (3 ≤ m.kind && 4 ≤ m.reg) then none else some m

/-- The moves together keep R372. -/
def movesOk (d op : Nat) (x y : WMove) : Bool :=
  !(x.kind == 1 && y.kind == 1 && x.reg == y.reg) && !(x.kind == 4 && y.kind == 4 && x.reg == y.reg)
  && !(x.pmod != 0 && y.pmod != 0 && x.pn == y.pn)
  && !(op != 0 && ((x.kind == 4 && x.reg == d) || (y.kind == 4 && y.reg == d)))

/-- Class P (R370). -/
def decodeP (w : Nat) : Option WInsn :=
  let op := bitsOf w 44 40
  let sat := bitOf w 39 == 1
  let rnd := bitOf w 38 == 1
  let d := bitsOf w 37 36
  let s1 := bitsOf w 35 32
  let s2 := bitsOf w 31 28
  match wMove (bitsOf w 27 14), wMove (bitsOf w 13 0) with
  | some x, some y =>
    let mk3 := x.kind == 3 || y.kind == 3
    if 22 < op || (s1Use op = 0 && s1 ≠ 0) || (s1Use op = 2 && 4 ≤ s1) || (!s2Use op && s2 ≠ 0) || (op = 0 && d ≠ 0)
      || (sat && !satUse op && !mk3) || (rnd && !mk3) || !movesOk d op x y then none
    else some (.alu op none sat rnd d s1 s2 x y)
  | _, _ => none

/-- Class I (R376). -/
def decodeI (w : Nat) : Option WInsn :=
  let op := bitsOf w 44 40
  let sat := bitOf w 39 == 1
  let s2 := bitsOf w 31 28
  let imm := bitsOf w 23 0
  let sh := op == 18 || op == 19
  if !([1, 2, 3, 4, 5, 6, 7, 10, 16, 17, 18, 19] : List Nat).contains op || bitsOf w 35 32 ≠ 0 || bitsOf w 27 24 ≠ 0
    || ((!s2Use op || sh) && s2 ≠ 0) || (sat && !satUse op) || bitOf w 38 = 1 || (sh && 64 ≤ imm) then none
  else some (.alu op (some imm) sat false (bitsOf w 37 36) 0 s2 noMove noMove)

/-- A register code that can be written (Table 14-2). -/
def regWritable (c : Nat) : Bool := !([56, 57, 59, 60, 61, 62, 63].contains c) && c < 64

/-- Class M (R377). -/
def decodeM (w : Nat) : Option WInsn :=
  let mop := bitsOf w 44 41
  let reg := bitsOf w 40 35
  let load := [0, 1, 5, 6].contains mop
  if 8 < mop || reg = 63 || (load && (!regWritable reg || [52, 53, 54, 55, 58].contains reg)) || (mop = 4 && !regWritable reg) then none
  else if mop = 4 then (if bitsOf w 34 24 ≠ 0 then none else some (.mem mop reg 0 0 0 (bitsOf w 23 0)))
  else if mop < 4 then (if bitsOf w 34 16 ≠ 0 then none else some (.mem mop reg (bitsOf w 15 0) 0 0 0))
  else if bitsOf w 34 7 ≠ 0 || bitsOf w 1 0 ≠ 0 || (bitsOf w 3 2 ≠ 0 && reg = 28 + bitsOf w 6 4) then none
  else some (.mem mop reg 0 (bitsOf w 6 4) (bitsOf w 3 2) 0)

/-- Class R (R378). -/
def decodeR (w : Nat) : Option WInsn :=
  let rop := bitsOf w 44 40
  let rd := bitsOf w 39 34
  let rs := bitsOf w 33 28
  let rt := bitsOf w 27 22
  let sh := bitsOf w 21 17
  let sat := bitOf w 16 == 1
  let rnd := bitOf w 15 == 1
  let two := [1, 2, 3, 5, 6, 7].contains rop
  let shifts := 8 ≤ rop && rop ≤ 10
  if 11 < rop || bitsOf w 14 0 ≠ 0 || rs = 63 || (two && rt = 63) || (!two && rt ≠ 0) || (!shifts && sh ≠ 0) || 23 < sh
    || (sat && !([5, 6, 11] : List Nat).contains rop) || (rnd && rop ≠ 11) || rd = 63
    || (rop ≠ 7 && !regWritable rd) || (rop = 11 && (16 ≤ rd || rs < 16 || 19 < rs)) then none
  else some (.reg rop rd rs rt sh sat rnd)

/-- Class B (R379). -/
def decodeB (w : Nat) : Option WInsn :=
  let bop := bitsOf w 44 40
  let cond := bitsOf w 39 36
  let reg := bitsOf w 35 30
  let target := bitsOf w 14 0
  if 4 < bop || bitsOf w 29 15 ≠ 0 || 12 < cond || (bop = 1 && reg = 63)
    || (2 ≤ bop && (cond ≠ 0 || reg ≠ 0 || target ≠ 0)) then none
  else some (.ctl bop cond reg target)

/-- Class L (R381). -/
def decodeL (w : Nat) : Option WInsn :=
  let lop := bitsOf w 44 41
  let bot := bitsOf w 38 24
  let count := bitsOf w 23 0
  if 2 < lop || bitsOf w 40 39 ≠ 0 || (lop = 1 && 16 ≤ count) || (lop = 2 && (bot ≠ 0 || count ≠ 0)) then none
  else some (.rep lop bot count)

/-- The instruction a PM word spells (R366, Table 14-1). -/
def wDecode (w : Nat) : Option WInsn :=
  match bitsOf w 47 45 with
  | 0 => decodeP w
  | 1 => decodeI w
  | 2 => decodeM w
  | 3 => decodeB w
  | 4 => decodeL w
  | 5 => decodeR w
  | _ => none

/-! ### The words of instructions (Tables 14-3, 14-4, 14-6) -/

/-- The values Table 14-4 admits. -/
def WMove.ok (m : WMove) : Bool :=
  m.kind ≤ 4 && m.pn < 8 && m.pmod < 4 && (if m.kind = 0 then m.reg == 0 else if m.kind ≤ 2 then m.reg < 16 else m.reg < 4)

/-- The move's 14 bits. -/
def WMove.encode (m : WMove) : Nat := m.kind * 2 ^ 11 + m.reg * 2 ^ 7 + m.pn * 2 ^ 4 + m.pmod * 2 ^ 2

/-- The fields of an instruction hold values its encoding admits (R369 to R381). -/
def WInsn.ok (i : WInsn) : Bool :=
  match i with
  | .alu op none sat rnd d s1 s2 x y =>
    op ≤ 22 && d < 4 && s1 < 16 && s2 < 16 && x.ok && y.ok
    && (s1Use op == 1 || (s1Use op == 2 && s1 < 4) || s1 == 0) && (s2Use op || s2 == 0) && (op != 0 || d == 0)
    && (!sat || satUse op || x.kind == 3 || y.kind == 3) && (!rnd || x.kind == 3 || y.kind == 3) && movesOk d op x y
  | .alu op (some imm) sat rnd d s1 s2 x y =>
    ([1, 2, 3, 4, 5, 6, 7, 10, 16, 17, 18, 19] : List Nat).contains op && d < 4 && s1 == 0 && imm < 2 ^ 24 && x == noMove && y == noMove
    && !rnd && (!sat || satUse op) && s2 < 16 && ((1 ≤ op && op ≤ 5) || s2 == 0) && (op < 18 || imm < 64)
  | .mem mop rg addr pn pmod imm =>
    mop ≤ 8 && rg < 63 && (mop < 4 && addr < 65536 || addr == 0) && (mop == 4 && imm < 2 ^ 24 || imm == 0)
    && (5 ≤ mop && pn < 8 && pmod < 4 && (pmod == 0 || rg != 28 + pn) || (pn == 0 && pmod == 0 && mop < 5))
    && (!([0, 1, 5, 6] : List Nat).contains mop || (regWritable rg && !([52, 53, 54, 55, 58] : List Nat).contains rg))
    && (mop != 4 || regWritable rg)
  | .reg rop rd rs rt sh sat rnd =>
    rop ≤ 11 && rd < 63 && rs < 63 && rt < 63 && sh ≤ 23 && (([1, 2, 3, 5, 6, 7] : List Nat).contains rop || rt == 0)
    && ((8 ≤ rop && rop ≤ 10) || sh == 0) && (!sat || ([5, 6, 11] : List Nat).contains rop) && (!rnd || rop == 11)
    && (rop == 7 || regWritable rd) && (rop != 11 || (rd < 16 && 16 ≤ rs && rs ≤ 19))
  | .ctl bop cond rg target =>
    bop ≤ 4 && cond ≤ 12 && rg < 64 && target < 2 ^ 15 && (bop != 1 || rg != 63)
    && (bop < 2 || (cond == 0 && rg == 0 && target == 0))
  | .rep lop bot count =>
    lop ≤ 2 && bot < 2 ^ 15 && count < 2 ^ 24 && (lop != 1 || count < 16) && (lop != 2 || (bot == 0 && count == 0))

/-- The word of an instruction. -/
def wEncode (i : WInsn) : Nat :=
  let b (x : Bool) (k : Nat) : Nat := if x then 2 ^ k else 0
  match i with
  | .alu op none sat rnd d s1 s2 x y =>
    op * 2 ^ 40 + b sat 39 + b rnd 38 + d * 2 ^ 36 + s1 * 2 ^ 32 + s2 * 2 ^ 28 + x.encode * 2 ^ 14 + y.encode
  | .alu op (some imm) sat _ d _ s2 _ _ => 1 * 2 ^ 45 + op * 2 ^ 40 + b sat 39 + d * 2 ^ 36 + s2 * 2 ^ 28 + imm
  | .mem mop reg addr pn pmod imm => 2 * 2 ^ 45 + mop * 2 ^ 41 + reg * 2 ^ 35 + addr + pn * 2 ^ 4 + pmod * 2 ^ 2 + imm
  | .ctl bop cond reg target => 3 * 2 ^ 45 + bop * 2 ^ 40 + cond * 2 ^ 36 + reg * 2 ^ 30 + target
  | .rep lop bot count => 4 * 2 ^ 45 + lop * 2 ^ 41 + bot * 2 ^ 24 + count
  | .reg rop rd rs rt sh sat rnd =>
    5 * 2 ^ 45 + rop * 2 ^ 40 + rd * 2 ^ 34 + rs * 2 ^ 28 + rt * 2 ^ 22 + sh * 2 ^ 17 + b sat 16 + b rnd 15

end Sys2Proof.Machine
end

