-- ==== Sys2Proof/Machine/Worker.lean ====
section
/-!
DEFINITION. The worker cores (chapters 13 and 14): registers, addressing, the issue of an instruction, exceptions and
interrupts, runs, results, and the physical cores.
-/
namespace Sys2Proof.Machine

def State.core (s : State) (n : Nat) : WCore := nth s.wrk.cores n WCore.reset
def State.setCore (s : State) (n : Nat) (c : WCore) : State := { s with wrk := { s.wrk with cores := setNth s.wrk.cores n c } }
def State.wrkEn (s : State) (n : Nat) : Bool := s.bit (WRK_Wn_CFG n) 0 == 1
def State.wrkBudget (s : State) (n : Nat) : Nat := s.rd (WRK_Wn_BUDGET n) % 1024
def State.pmGet (s : State) (n a : Nat) : Nat := spGet zeroNat s.wrk.pm (n * 32768 + a % 32768)
def State.pmPut (s : State) (n a v : Nat) : State :=
  { s with wrk := { s.wrk with pm := spSet zeroNat s.wrk.pm (n * 32768 + a % 32768) (v % 2 ^ 48) } }

/-! ### Arithmetic (R339, R340) -/

/-- R339: `acc_write`, with whether it clamped and whether it wrapped. -/
def accWrite (r : Int) (sat : Bool) : Int × Bool × Bool :=
  if sat then (satS 48 r, satHit 48 r, false)
  else let w := signed 56 (unsigned 56 r); (w, false, w != r)

/-- R340: `acc_read`, the low 24 bits, with whether it clamped. -/
def accRead (a : Int) (rnd sat : Bool) : Nat × Bool :=
  let v := if rnd then shrConv a 24 else asr a 24
  if sat then (unsigned 24 (satS 24 v), satHit 24 v) else (unsigned 24 v, false)

/-- Reverses 16 bits. -/
def rev16 (v : Nat) : Nat := sumL ((List.range 16).map (fun i => bitOf v i * 2 ^ (15 - i)))

/-- The smallest b with 2^b ≥ n. -/
def ceilLog2 (n : Nat) : Nat := if n ≤ 1 then 0 else Nat.log2 (n - 1) + 1

/-- R343: `post_modify`, the pointer after a move with modify code `pmod`. -/
def WCore.postMod (c : WCore) (n pmod : Nat) : Nat :=
  let p := nth c.cur.p n 0
  let step : Int := match pmod with | 1 => 1 | 2 => -1 | 3 => signed 16 (nth c.m n 0) | _ => 0
  let l := nth c.l n 0
  if pmod = 0 then p
  else if bitOf c.mr n = 1 then rev16 ((rev16 p + rev16 (unsigned 16 step)) % 65536)
  else if l ≠ 0 then
    let b := ceilLog2 l
    let base := p / 2 ^ b * 2 ^ b
    (base + (((p - base : Nat) : Int) + step).emod l |>.toNat) % 65536
  else unsigned 16 ((p : Int) + step)

/-! ### Registers (R337, R369) -/

/-- A field of the top entry of the repeat stack (58 RCNT, 59 RTOP, 60 RBOT). A stack that was cleared and is empty reads 0 (R338); after a pop the
value is open, and depends on the popped entry alone (log entry 107). -/
def WCore.top (c : WCore) (code : Nat) : Nat :=
  let of (e : Nat × Nat × Nat) : Nat := if code = 58 then e.1 else if code = 59 then e.2.1 else e.2.2
  match c.stack, c.popped with
  | t :: _, _ => of t
  | [], none => 0
  | [], some e => Config.poppedTop code e.1 e.2.1 e.2.2 % 2 ^ (if code = 58 then 24 else 15)

/-- The 24-bit value of a register code as read. -/
def WCore.read (c : WCore) (code : Nat) : Nat :=
  let b := c.cur
  if code < 16 then nth b.xy code 0
  else if code < 20 then unsigned 56 (nth b.a (code - 16) 0) / 2 ^ 24 % 2 ^ 24
  else if code < 24 then unsigned 24 (nth b.a (code - 20) 0)
  else if code < 28 then unsigned 24 (asr (nth b.a (code - 24) 0) 48)
  else if code < 36 then nth b.p (code - 28) 0
  else if code < 44 then unsigned 24 (signed 16 (nth c.m (code - 36) 0))
  else if code < 52 then nth c.l (code - 44) 0
  else match code with
    | 52 => b.sr
    | 53 => c.mr
    | 54 => c.smr
    | 55 => c.rta
    | 56 => c.ecause
    | 57 => c.eaddr
    | 58 | 59 | 60 => c.top code
    | 61 => c.stack.length
    | 62 => c.cyc % 2 ^ 24
    | _ => 0

def WBank.setA (b : WBank) (n : Nat) (v : Int) : WBank := { b with a := setNth b.a n v }

/-- A write of a register code; code 64 + n loads An with the word × 2^24 (Table 14-4). -/
def WCore.write (c : WCore) (code v : Nat) : WCore :=
  let b := c.cur
  let v := v % 2 ^ 24
  if code < 16 then { c with cur := { b with xy := setNth b.xy code v } }
  else if code < 20 then
    let a := nth b.a (code - 16) 0
    { c with cur := b.setA (code - 16) (signed 24 v * (2 ^ 24 : Nat) + (unsigned 24 a : Nat)) }
  else if code < 24 then
    let a := nth b.a (code - 20) 0
    { c with cur := b.setA (code - 20) (a - (unsigned 24 a : Nat) + (v : Nat)) }
  else if code < 28 then
    let a := nth b.a (code - 24) 0
    { c with cur := b.setA (code - 24) (signed 8 v * (2 ^ 48 : Nat) + (unsigned 48 a : Nat)) }
  else if code < 36 then { c with cur := { b with p := setNth b.p (code - 28) (v % 65536) } }
  else if code < 44 then { c with m := setNth c.m (code - 36) (v % 65536) }
  else if code < 52 then { c with l := setNth c.l (code - 44) (v % 65536) }
  else if code = 52 then { c with cur := { b with sr := Nat.land v 0x1DF } }
  else if code = 53 then { c with mrNext := some (v % 512) }
  else if code = 54 then { c with smr := v % 512 }
  else if code = 55 then { c with rta := v % 2 ^ 15 }
  else if code = 58 then
    (match c.stack with | t :: r => { c with stack := (v, t.2) :: r } | [] => c)
  else if 64 ≤ code && code < 68 then { c with cur := b.setA (code - 64) (signed 24 v * (2 ^ 24 : Nat)) }
  else c

/-- Sets bit `i` of SR. -/
def WCore.setSr (c : WCore) (i : Nat) (v : Bool) : WCore :=
  { c with cur := { c.cur with sr := setBits c.cur.sr i i (if v then 1 else 0) } }

def WCore.flagIf (c : WCore) (i : Nat) (v : Bool) : WCore := if v then c.setSr i true else c

/-- Pending loads are written (R345). -/
def WCore.land (c : WCore) : WCore := c.loads.foldl (fun c p => c.write p.1 p.2) { c with loads := [] }

/-! ### ALU operations (R373, R374, R382) -/

/-- What an ALU operation writes: D, the value N Z and EX come from, V, C, and the stickies. -/
structure AluOut where
  d    : Option Int
  nz   : Option Int
  v    : Option Bool
  cy   : Option Bool
  cls  : Bool
  wrs  : Bool
  deriving DecidableEq, Repr

/-- Carry out of bit 55 of a sum, and borrow of a difference, of 56-bit patterns. -/
def carry56 (a b : Int) : Bool := 2 ^ 56 ≤ unsigned 56 a + unsigned 56 b
def borrow56 (a b : Int) : Bool := unsigned 56 a < unsigned 56 b

/-- The result of a write of the exact value r. -/
def aluWrite (r : Int) (sat : Bool) (cy : Option Bool) (noV : Bool) : AluOut :=
  let w := accWrite r sat
  ⟨some w.1, some w.1, some (w.2.2 && !noV), cy, w.2.1, w.2.2⟩

/-- Table 14-5. -/
def WCore.alu (c : WCore) (op : Nat) (imm : Option Nat) (sat : Bool) (d s1 s2 : Nat) : AluOut :=
  let b := c.cur
  let dv := nth b.a d 0
  let x : Int := match imm with | some v => signed 24 v | none => signed 24 (nth b.xy s1 0)
  let y : Int := signed 24 (nth b.xy s2 0)
  let xm := x * (2 ^ 24 : Nat)
  let acc := nth b.a s1 0
  let cnt := match imm with | some v => v | none => s2
  let w (r : Int) : AluOut := aluWrite r sat none false
  let z (r : Int) : AluOut := aluWrite r sat none true
  let cmp (r : Int) (bw : Bool) : AluOut := ⟨none, some r, some (signed 56 (unsigned 56 r) != r), some bw, false, false⟩
  match op with
  | 1 => w (x * y)
  | 2 => w (-(x * y))
  | 3 => w (dv + x * y)
  | 4 => w (dv - x * y)
  | 5 => w (dv + x * x + y * y)
  | 6 => aluWrite (dv + xm) sat (some (carry56 dv xm)) false
  | 7 => aluWrite (dv - xm) sat (some (borrow56 dv xm)) false
  | 8 => aluWrite (dv + acc) sat (some (carry56 dv acc)) false
  | 9 => aluWrite (dv - acc) sat (some (borrow56 dv acc)) false
  | 10 => cmp (dv - xm) (borrow56 dv xm)
  | 11 => cmp (dv - acc) (borrow56 dv acc)
  | 12 => w (dv.natAbs : Nat)
  | 13 => w (-dv)
  | 14 => z 0
  | 15 => w acc
  | 16 => z xm
  | 17 => w x
  | 18 => z (asr dv cnt)
  | 19 => w (dv * (2 ^ cnt : Nat))
  | 20 => z (if acc > dv then acc else dv)
  | 21 => z (if acc < dv then acc else dv)
  | 22 =>
    let t := dv * 2
    let u := if t ≥ xm then t - xm + 1 else t
    let r := accWrite u false
    ⟨some r.1, none, some r.2.2, some (t ≥ xm), false, r.2.2⟩
  | _ => ⟨none, none, none, none, false, false⟩

/-- The flags of a 24-bit or accumulator result. -/
def WCore.flags (c : WCore) (nz : Option Int) (ex : Bool) (v cy : Option Bool) (cls wrs : Bool) : WCore :=
  let c := match nz with
    | some r => (c.setSr 3 (r < 0)).setSr 2 (r == 0)
    | none => c
  let c := match nz with | some r => if ex then c.setSr 4 (satHit 48 r) else c | none => c
  let c := match v with | some b => c.setSr 1 b | none => c
  let c := match cy with | some b => c.setSr 0 b | none => c
  (c.flagIf 7 cls).flagIf 6 wrs

/-- Applies an ALU result to accumulator d. -/
def WCore.applyAlu (c : WCore) (d : Nat) (o : AluOut) : WCore :=
  let c := match o.d with | some v => { c with cur := c.cur.setA d v } | none => c
  c.flags o.nz true o.v o.cy o.cls o.wrs

/-! ### Class R (R378) -/

/-- Result of a class R operation, with its flags: value, N Z source, V, C, CLS. -/
def WCore.regOp (c : WCore) (rop rs rt sh : Nat) (sat rnd : Bool) : AluOut × Nat :=
  let a := c.read rs
  let b := c.read rt
  let logic (v : Nat) : AluOut × Nat := (⟨none, some (signed 24 v), some false, none, false, false⟩, v)
  let shift (v : Nat) : AluOut × Nat := (⟨none, some (signed 24 v), none, none, false, false⟩, v)
  let arith (r : Int) (cy : Bool) : AluOut × Nat :=
    let v := if sat then satS 24 r else signed 24 (unsigned 24 r)
    (⟨none, some v, some (satHit 24 r), some cy, sat && satHit 24 r, false⟩, unsigned 24 v)
  match rop with
  | 0 => (⟨none, none, none, none, false, false⟩, a)
  | 1 => logic (Nat.land a b)
  | 2 => logic (Nat.lor a b)
  | 3 => logic (Nat.xor a b)
  | 4 => logic (2 ^ 24 - 1 - a)
  | 5 => arith (signed 24 a + signed 24 b) (2 ^ 24 ≤ a + b)
  | 6 => arith (signed 24 a - signed 24 b) (a < b)
  | 7 =>
    let r := signed 24 a - signed 24 b
    (⟨none, some r, some (satHit 24 r), some (a < b), false, false⟩, 0)
  | 8 => shift (a * 2 ^ sh % 2 ^ 24)
  | 9 => shift (a / 2 ^ sh)
  | 10 => shift (unsigned 24 (asr (signed 24 a) sh))
  | _ =>
    let r := accRead (nth c.cur.a (rs - 16) 0) rnd sat
    (⟨none, none, none, none, r.2, false⟩, r.1)

/-! ### What an instruction reads and writes (R347) -/

/-- Accumulator views are one register. -/
def canonReg (c : Nat) : Nat := if 16 ≤ c && c < 28 then 16 + (c - 16) % 4 else c

def moveReads (m : WMove) : List Nat :=
  (match m.kind with | 2 => [m.reg] | 3 => [16 + m.reg] | _ => [])
  ++ (if m.kind ≠ 0 || m.pmod ≠ 0 then [28 + m.pn] else []) ++ (if m.pmod = 3 then [36 + m.pn] else [])

def moveWrites (m : WMove) : List Nat :=
  (match m.kind with | 1 => [m.reg] | 4 => [16 + m.reg] | _ => []) ++ (if m.pmod ≠ 0 then [28 + m.pn] else [])

/-- ALU operations that take D as an operand. -/
def dReads (op : Nat) : Bool := [3, 4, 5, 6, 7, 8, 9, 10, 11, 12, 13, 18, 19, 20, 21, 22].contains op

def WInsn.reads (i : WInsn) : List Nat :=
  match i with
  | .alu op imm _ _ d s1 s2 x y =>
    (if s1Use op = 1 && imm.isNone then [s1] else if s1Use op = 2 then [16 + s1] else [])
    ++ (if 1 ≤ op && op ≤ 5 then [s2] else []) ++ (if dReads op then [16 + d] else []) ++ moveReads x ++ moveReads y
  | .mem mop rg _ pn pmod _ =>
    (if [2, 3, 7, 8].contains mop then [canonReg rg] else []) ++ (if 5 ≤ mop then [28 + pn] else [])
    ++ (if pmod = 3 then [36 + pn] else [])
  | .reg rop _ rs rt _ _ _ => canonReg rs :: (if [1, 2, 3, 5, 6, 7].contains rop then [canonReg rt] else [])
  | .ctl bop _ rg _ => if bop = 1 then [canonReg rg] else []
  | .rep lop _ count => if lop = 1 then [count] else []

def WInsn.writes (i : WInsn) : List Nat :=
  match i with
  | .alu op _ _ _ d _ _ x y => (if op ≠ 0 && dWrites op then [16 + d] else []) ++ moveWrites x ++ moveWrites y
  | .mem mop rg _ pn pmod _ =>
    (if [0, 1, 4, 5, 6].contains mop then [canonReg rg] else []) ++ (if pmod ≠ 0 then [28 + pn] else [])
  | .reg rop rd _ _ _ _ _ => if rop = 7 then [] else [canonReg rd]
  | _ => []

/-- It reads a code that shows CYC, or one that shows the top of the repeat stack. -/
def WInsn.readsCode (i : WInsn) (p : Nat → Bool) : Bool :=
  match i with
  | .mem mop rg _ _ _ _ => [2, 3, 7, 8].contains mop && p rg
  | .reg rop _ rs rt _ _ _ => p rs || ([1, 2, 3, 5, 6, 7].contains rop && p rt)
  | .ctl bop _ rg _ => bop == 1 && p rg
  | _ => false

/-- The memory words an instruction loads: (true for YM, address, register code). -/
def WCore.loadsOf (c : WCore) (i : WInsn) : List (Bool × Nat × Nat) :=
  let p (n : Nat) := nth c.cur.p n 0
  let mv (y : Bool) (m : WMove) : List (Bool × Nat × Nat) :=
    match m.kind with | 1 => [(y, p m.pn, m.reg)] | 4 => [(y, p m.pn, 64 + m.reg)] | _ => []
  match i with
  | .alu _ _ _ _ _ _ _ x y => mv false x ++ mv true y
  | .mem mop reg addr pn _ _ =>
    (match mop with
     | 0 => [(false, addr, reg)]
     | 1 => [(true, addr, reg)]
     | 5 => [(false, p pn, reg)]
     | 6 => [(true, p pn, reg)]
     | _ => [])
  | _ => []

/-- The words it stores: (true for YM, address, value), with whether a clamp occurred. -/
def WCore.storesOf (c : WCore) (i : WInsn) : List (Bool × Nat × Nat) × Bool :=
  let p (n : Nat) := nth c.cur.p n 0
  match i with
  | .alu _ _ sat rnd _ _ _ x y =>
    let mv (ym : Bool) (m : WMove) : List (Bool × Nat × Nat) × Bool :=
      match m.kind with
      | 2 => ([(ym, p m.pn, nth c.cur.xy m.reg 0)], false)
      | 3 => let r := accRead (nth c.cur.a m.reg 0) rnd sat; ([(ym, p m.pn, r.1)], r.2)
      | _ => ([], false)
    let a := mv false x
    let b := mv true y
    (a.1 ++ b.1, a.2 || b.2)
  | .mem mop reg addr pn _ _ =>
    (match mop with
     | 2 => ([(false, addr, c.read reg)], false)
     | 3 => ([(true, addr, c.read reg)], false)
     | 7 => ([(false, p pn, c.read reg)], false)
     | 8 => ([(true, p pn, c.read reg)], false)
     | _ => ([], false))
  | _ => ([], false)

/-! ### Exceptions (R346, R347, R350, R352) -/

def WCore.atRbot (c : WCore) : Bool := match c.stack with | t :: _ => t.2.2 == c.pc | [] => false

/-- The instruction at PC raises ILLEGAL for a rule that depends on where it stands. -/
def WCore.illegal (c : WCore) (i : WInsn) : Bool :=
  let ctl := match i with | .ctl _ _ _ _ => true | .rep _ _ _ => true | _ => false
  let branch := match i with | .ctl b _ _ _ => b < 3 | _ => false
  let slotBad := match c.slot with
    | some sl => ctl || i.writes.contains 52 || (match sl.reads with | some r => i.writes.contains r | none => false)
        || i.writes.any i.reads.contains
    | none => false
  let loopBad := match c.stack with
    | t :: _ =>
      (c.pc == t.2.2 && (match i with | .ctl _ _ _ _ => true | .rep l _ _ => l < 2 | _ => false))
      || (branch && ((c.pc + 1) % 2 ^ 15 == t.2.2 || (c.pc + 2) % 2 ^ 15 == t.2.2))
    | [] => false
  let levelBad := match i with
    | .ctl 3 _ _ _ => c.handler
    | .ctl 2 _ _ _ => !c.handler
    | .rep l bot _ => l < 2 && bot < c.pc + 1
    | _ => false
  let rcnt := c.stack.isEmpty && (match i with
    | .mem 4 58 _ _ _ _ => true
    | .reg rop 58 _ _ _ _ _ => rop != 7
    | _ => false)
  slotBad || loopBad || levelBad || rcnt

/-- REPSTK (R350). -/
def WCore.repBad (c : WCore) (i : WInsn) : Bool :=
  match i with
  | .rep l bot _ =>
    if l < 2 then 4 ≤ c.stack.length || (match c.stack with | t :: _ => t.2.2 ≤ bot | [] => false)
    else c.stack.isEmpty
  | _ => false

/-- The exception the instruction at PC raises, `none` where it raises none; `bad` are the uncorrectable words it meets. -/
def WCore.fault (c : WCore) (i : Option WInsn) (bad : Bool → Nat → Bool) : Option Nat :=
  match i with
  | none => some 0
  | some i =>
    if c.illegal i then some 0
    else if c.repBad i then some 1
    else if (c.loadsOf i).any (fun l => bad l.1 l.2.1) then some 2
    else match i with
      | .alu op imm sat _ d s1 s2 _ _ => if bitOf c.mr 8 = 1 && (c.alu op imm sat d s1 s2).wrs then some 3 else none
      | .ctl 4 _ _ _ => some 4
      | _ => none

/-- Entry to a handler (R353): pending loads and a pending MR write take effect, the banks are swapped, MR is saved, RTA
set, and fetching goes on at `vec`; three cycles. -/
def WCore.enter (c : WCore) (vec rta : Nat) : WCore :=
  let c := c.land
  let mr := c.mrNext.getD c.mr
  { c with cur := c.oth, oth := c.cur, mr := mr, smr := mr, mrNext := none, rta := rta, handler := true, pc := vec,
           cyc := c.cyc + 3, slot := none, fresh := false }

/-- The return of RTE after its second slot (R353). -/
def WCore.leave (c : WCore) : WCore :=
  let c := c.land
  { c with cur := c.oth, oth := c.cur, mr := c.smr, mrNext := none, handler := false, pc := c.rta, slot := none, fresh := true }

/-! ### Interrupts (R351) -/

/-- The boundary before the instruction at PC is interruptible. -/
def WCore.open_ (c : WCore) : Bool :=
  !c.handler && bitOf c.cur.sr 8 == 1 && c.slot.isNone && c.mrNext.isNone && !c.fresh

def State.timerDue (s : State) (n : Nat) (c : WCore) : Bool :=
  let t := s.rd (WRK_Wn_TIMER n) % 1024
  t != 0 && t ≤ c.cyc && !c.tTaken

def State.warnDue (s : State) (n : Nat) (c : WCore) : Bool :=
  let w := bitsOf (s.rd (WRK_Wn_BUDGET n)) 25 16
  w != 0 && s.wrkBudget n ≤ c.cyc + w && !c.wTaken

/-! ### Physical cores (R333 to R336) -/

def State.coreRetired (s : State) (p : Nat) : Bool := s.bit (WRK_PRETIRED (p / 32)) (p % 32) == 1
def State.setRetired (s : State) (p : Nat) (b : Bool) : State := s.setBit (WRK_PRETIRED (p / 32)) (p % 32) b

/-- The free spare with the lowest index. -/
def State.freeSpare (s : State) : Option Nat :=
  (List.range 68).find? (fun p => !s.coreRetired p && !s.wrk.phys.contains p && !s.wrk.moves.any (fun m => m.2.1 == p))

/-- A physical core is retired, by its errors or by the installer (R334, R335). -/
def State.retireCore (s : State) (p : Nat) (installer : Bool) : State :=
  if s.coreRetired p || 68 ≤ p then s
  else
    let used := s.wrk.phys.findIdx? (· == p)
    let s0 := (s.setRetired p true).flag WRK_ERR 3
    match used with
    | none =>
      match s0.wrk.moves.find? (fun m => m.2.1 == p) with
      | none => s0
      | some m =>
        let s1 := { s0 with wrk := { s0.wrk with moves := s0.wrk.moves.erase m } }
        match s1.freeSpare with
        | some q => { s1 with wrk := { s1.wrk with moves := s1.wrk.moves ++ [(m.1, q, 0)] } }
        | none => s1.flag WRK_ERR 4
    | some n =>
      match s0.freeSpare with
      | some q => { s0 with wrk := { s0.wrk with moves := s0.wrk.moves ++ [(n, q, 0)] } }
      | none =>
        if installer then { s0 with wrk := { s0.wrk with stopped := addNew s0.wrk.stopped n } }
        else s.flag WRK_ERR 4

/-- RESTORE of a physical core. -/
def State.restoreCore (s : State) (p : Nat) : State :=
  if !s.coreRetired p then s
  else
    let s := s.setRetired p false
    { s with wrk := { s.wrk with
      errs := spDel s.wrk.errs p
      stopped := s.wrk.stopped.filter (fun n => nth s.wrk.phys n 0 != p) } }

/-- WRK_RETIRE_CMD: bit 8 the action, bits [6:0] the core. -/
def State.retireCoreCmd (s : State) (img : Nat) : State :=
  let p := img % 128
  if 68 ≤ p then s.flag WRK_ERR 0 else if bitOf img 8 = 0 then s.retireCore p true else s.restoreCore p

/-- An uncorrectable error counts toward the core's retirement. -/
def State.coreError (s : State) (n : Nat) : State :=
  let p := nth s.wrk.phys n n
  let k := spGet zeroNat s.wrk.errs p + 1
  let s := { s with wrk := { s.wrk with errs := spSet zeroNat s.wrk.errs p k } }
  let s := (s.flag WRK_ERR 2).setBit (WRK_Wn_STATUS n) 30 true
  if s.rd WRK_RETIRE_THR % 256 ≤ k then s.retireCore p false else s

/-! ### The end of a run (R357, R358, R361) -/

/-- Reasons of the window halves the run for tick k reads. -/
def State.winUnion (s : State) (n k : Nat) : List Nat :=
  ((List.range 64).filter (fun w => s.winOn w && s.winWorker w == n)).foldl (fun a w => addReasons a (s.winReasons w (k % 2))) []

/-- The run for tick k of worker n serves a replay session, or could read replayed data (R13). -/
def State.replayFed (s : State) (n k : Nat) : Bool :=
  s.sesReplay (bitsOf (s.rd (WRK_Wn_CFG n)) 31 22)
  || (List.range 64).any (fun w => s.winOn w && s.winWorker w == n && s.wrk.winRep.contains (w * 2 + k % 2))

/-- A result set goes to the collector. -/
def State.putSet (s : State) (n k : Nat) (words rs : List Nat) : State :=
  let rs := if s.bit (WRK_Wn_STATUS n) 30 = 1 then addNew rs rMemUncorr else rs
  let rs := if s.ticksStepped k k then addNew rs rTimeStep else rs
  let u := s.takeUntimed (bitsOf (s.rd (WRK_Wn_CFG n)) 31 22)
  { u.2 with wrk := { u.2.wrk with sets := u.2.wrk.sets ++ [⟨n, k, words, addReasons rs u.1, s.replayFed n k⟩] } }

/-- The run of worker n ends; `past` where it overran (R358): a handler's banks are swapped back, the repeat stack is
cleared. -/
def State.endRun_ (s : State) (n : Nat) (c : WCore) (past : Bool) (rs : List Nat) : State :=
  match c.run with
  | none => s
  | some k =>
    let c := c.land
    let c := { c with mr := c.mrNext.getD c.mr, mrNext := none }
    let c := if past && c.handler then { c with cur := c.oth, oth := c.cur, handler := false } else c
    let c := if past then { c with stack := [], popped := none, slot := none } else c
    let c := { c with run := none, fresh := false }
    let s := s.setCore n (if c.again then { WCore.reset with ran := c.ran } else c)
    let s := (s.setFd (WRK_Wn_STATUS n) ⟨14, 0⟩ c.pc).wr (WRK_Wn_CYCLES n) (min c.cyc (s.wrkBudget n))
    let s := if s.wrkEn n then s else s.setBit (WRK_Wn_STATUS n) 31 false
    let s := if past then (s.count (WRK_Wn_OVERRUN n) 1).flag WRK_ERR 1 else s
    let words := (List.range 32).map (fun i => s.xmGet n (0xFFE0 + i))
    s.putSet n k words (addReasons (addReasons c.rs rs) (s.winUnion n k))

/-- An exception of the instruction at PC (R352 to R354); at the handler level it is a double fault. -/
def State.wrkExcept (s : State) (n : Nat) (c : WCore) (cause : Nat) : State :=
  let code := cause + (if c.slot.isSome then 8 else 0) + (if c.mrNext.isSome then 16 else 0) + (if c.atRbot then 32 else 0)
  let s := s.wr (WRK_Wn_LASTEXC n) (code * 2 ^ 24 + c.pc)
  let c := { c with ecause := code, eaddr := c.pc }
  if c.handler then s.endRun_ n c true [rWorkerOverrun]
  else
    let rta := if cause = 4 then (c.pc + 1) % 2 ^ 15
      else match c.slot with | some sl => sl.from_ | none => c.pc
    (s.setCore n (c.enter 0 rta)).count (WRK_Wn_EXC n) 1

/-! ### Executing an instruction (R344 to R350, R368) -/

/-- Stores: the hive's words of XM and the stream windows take no program write (R342, R363). -/
def State.wrkStore (s : State) (n : Nat) (y : Bool) (a v : Nat) : State :=
  if y then
    match (List.range 64).find? (s.inWindow n a) with
    | some w => s.count (WRK_WINw_PWR w) 1
    | none => s.ymPut n a v
  else if 0xFFC0 ≤ a && a ≤ 0xFFDF then s
  else s.xmPut n a v

/-- Branch conditions (Table 14-9). -/
def condHolds (sr cond : Nat) : Bool :=
  let c := bitOf sr 0 == 1
  let v := bitOf sr 1 == 1
  let z := bitOf sr 2 == 1
  let n := bitOf sr 3 == 1
  let ex := bitOf sr 4 == 1
  match cond with
  | 0 => true
  | 1 => z
  | 2 => !z
  | 3 => n
  | 4 => !n
  | 5 => !n && !z
  | 6 => n || z
  | 7 => c
  | 8 => !c
  | 9 => v
  | 10 => !v
  | 11 => ex
  | 12 => !ex
  | _ => false

/-- The effect of an instruction on the registers, its loads, stores and control flow apart: `o` is the core as it stood,
from which every operand is read. -/
def WCore.effect (c o : WCore) (i : WInsn) : WCore :=
  match i with
  | .alu op imm sat _ d s1 s2 x y =>
    let c := c.applyAlu d (o.alu op imm sat d s1 s2)
    let c := c.flagIf 7 (o.storesOf i).2
    let pm (c : WCore) (m : WMove) : WCore := if m.pmod = 0 then c else c.write (28 + m.pn) (o.postMod m.pn m.pmod)
    pm (pm c x) y
  | .mem mop reg _ pn pmod imm =>
    let c := if mop = 4 then c.write reg imm else c
    if pmod = 0 then c else c.write (28 + pn) (o.postMod pn pmod)
  | .reg rop rd rs rt sh sat rnd =>
    let r := o.regOp rop rs rt sh sat rnd
    let c := c.flags r.1.nz false r.1.v r.1.cy r.1.cls false
    if rop = 7 then c else c.write rd r.2
  | .ctl _ _ _ _ => c
  | .rep lop bot count =>
    let k := if lop = 0 then count else o.read count
    if lop = 2 then { c with stack := c.stack.tail, popped := c.stack.head? }
    else if k = 0 then c
    else { c with stack := (k, (o.pc + 1) % 2 ^ 15, bot) :: c.stack }

/-- Delay slots a branch opens (R347, R353). -/
def WCore.opens (o : WCore) (i : WInsn) : Option WSlot :=
  match i with
  | .ctl 0 cond _ target => some ⟨2, if condHolds o.cur.sr cond then some target else none, o.pc, none, false⟩
  | .ctl 1 cond reg _ => some ⟨2, if condHolds o.cur.sr cond then some (o.read reg % 2 ^ 15) else none, o.pc, some (canonReg reg), false⟩
  | .ctl 2 _ _ _ => some ⟨2, none, o.pc, none, true⟩
  | _ => none

/-- Control flow after the instruction `i` at `o.pc` (R347, R349, R353, R381). -/
def WCore.advance (c o : WCore) (i : WInsn) : WCore :=
  let next := (o.pc + 1) % 2 ^ 15
  match o.slot with
  | some sl =>
    if 1 < sl.left then { c with pc := next, slot := some { sl with left := sl.left - 1 } }
    else if sl.rte then c.leave
    else { c with pc := sl.target.getD next, slot := none }
  | none =>
    let c := { c with slot := o.opens i }
    let skip := match i with
      | .rep lop bot count => if lop < 2 && (if lop = 0 then count else o.read count) = 0 then some ((bot + 1) % 2 ^ 15) else none
      | _ => none
    match skip, c.stack with
    | some a, _ => { c with pc := a }
    | none, t :: r =>
      if t.2.2 = o.pc then
        (if t.1 - 1 = 0 then { c with pc := next, stack := r, popped := some (0, t.2) } else { c with pc := t.2.1, stack := (t.1 - 1, t.2) :: r })
      else { c with pc := next }
    | none, [] => { c with pc := next }

/-- Cycles of an instruction (R367). -/
def WCore.cycles (o : WCore) (i : WInsn) : Nat :=
  match i with
  | .rep lop _ count => if lop < 2 && (if lop = 0 then count else o.read count) = 0 then 3 else 1
  | _ => 1

/-- The instruction `i` at PC executes (R345, R346, R348, R368). -/
def State.wrkExec (s : State) (n : Nat) (o : WCore) (i : WInsn) : State :=
  let s := s.when (i.readsCode (· == 62)) (·.count (WRK_Wn_CYCREAD n) 1)
  let words := (o.loadsOf i).map (fun l => (l.2.2, if l.1 then s.ymGet n l.2.1 else s.xmGet n l.2.1))
  let c := { o.land with mr := o.mrNext.getD o.mr, mrNext := none, fresh := false }
  let c := c.effect o i
  let c := { c with loads := words, cyc := o.cyc + o.cycles i,
                    rs := if i.readsCode (· == 62) then addNew c.rs rCycleRead else c.rs }
  let s := s.each (o.storesOf i).1 (fun s st => s.wrkStore n st.1 st.2.1 st.2.2)
  match i with
  | .ctl 3 _ _ _ => s.endRun_ n c false []
  | _ => s.setCore n (c.advance o i)

/-- Corrected words met. -/
def State.wrkCorr (s : State) (n : Nat) (errs : List WordErr) : State :=
  s.count (WRK_Wn_ECC_CORR n) (errs.filter (fun e => !e.uncorr)).length

/-- A run is in progress: the run for tick k takes place in tick k + 1 (R357). -/
def State.runOpen (s : State) (c : WCore) : Bool := match c.run with | some k => !s.begun (k + 2) | none => false

/-- The instruction at PC of worker n issues, if it is one that `want` names and the core stands before it: a run is in
progress in its tick, cycles are left, no interrupt comes first. `errs` are the errors its PM, XM and YM words meet, each at its space
(0 PM, 1 XM, 2 YM) × 65,536 + address. -/
def State.wrkIssue (s : State) (n : Nat) (errs : List WordErr) (want : Option WInsn → Bool) : State :=
  let c := s.core n
  if 64 ≤ n || !s.runOpen c || !s.blockOn 13 || s.wrkBudget n ≤ c.cyc then s
  else
    let i := wDecode (s.pmGet n c.pc)
    if !want i then s
    else
      let un := errs.filter (·.uncorr)
      let bad (y : Bool) (a : Nat) : Bool := un.any (fun e => e.addr == (if y then 2 else 1) * 65536 + a)
      if un.any (·.addr == c.pc) then
        let s := s.coreError n
        (s.setBit (WRK_Wn_STATUS n) 29 true).endRun_ n c true [rMemUncorr]
      else match c.fault i bad with
        | some cause =>
          let hit := match i with | some i => (c.loadsOf i).filter (fun l => bad l.1 l.2.1) | none => []
          let s := (s.wrkCorr n errs).when (cause == 2) (fun s =>
            s.each hit (fun s l => (if l.1 then s.ymPut n l.2.1 0 else s.xmPut n l.2.1 0).coreError n))
          let c := if cause = 2 then { c with rs := addNew c.rs rMemUncorr } else c
          s.wrkExcept n c cause
        | none =>
          match i with
          | none => s
          | some i => if c.open_ && (s.timerDue n c || s.warnDue n c) then s else (s.wrkCorr n errs).wrkExec n c i

/-! ### Runs (R351, R357 to R362) -/

/-- The words of the run of tick k that the hive writes (Table 13-4). -/
def State.wrkContext (s : State) (n k : Nat) : State :=
  let seed := s.rd (WRK_Wn_SEED n)
  let ws := [k % 2 ^ 24, k / 2 ^ 24 % 2 ^ 24, k / 2 ^ 48 % 2 ^ 16, seed % 2 ^ 24, seed / 2 ^ 24, n] ++ List.replicate 26 0
  s.each (List.zip (List.range 32) ws) (fun s q => s.xmPut n (0xFFC0 + q.1) q.2)

/-- A run that was not over when its tick ended has spent its budget (R358). -/
def State.runOver (s : State) (n : Nat) : State :=
  let c := s.core n
  if c.run.isSome && !s.runOpen c then s.endRun_ n { c with cyc := max c.cyc (s.wrkBudget n) } true [rWorkerOverrun] else s

/-- WORKER_RUN_START (R357, R360): the run for the tick before this one starts, or, where its grant is withheld or it has no
core, its set is delivered with every word 0. -/
def execWorkerRunStart (n : Nat) (s : State) : Res :=
  let s := if 64 ≤ n then s else s.runOver n
  let c := s.core n
  let k := s.tick - 1
  if 64 ≤ n || !s.blockOn 13 || !s.wrkEn n || s.tick = 0 || s.bit (WRK_Wn_STATUS n) 29 = 1 || c.run.isSome
    || k < s.rd64 (WRK_Wn_START_LO n) (WRK_Wn_START_HI n) || (match c.ran with | some r => k ≤ r | none => false) then .next s
  else
    let x := bitsOf (s.rd (WRK_Wn_CFG n)) 31 22
    if s.wrk.stopped.contains n then .next ((s.setCore n { c with ran := some k }).putSet n k (List.replicate 32 0) [rSpare])
    else if (s.granted 3 x 1).1 = 0 || s.grants.any (fun q => q.unit == 5 && q.x == n) then
      let why := if s.grants.any (fun q => q.unit == 5 && q.x == n) then s.heldReasons 5 n else s.heldReasons 3 x
      .next ((s.setCore n { c with ran := some k }).putSet n k (List.replicate 32 0) why)
    else
      let s := s.when (s.wrk.interval != some k) (·.wrkContext n k)
      let s := s.setCore n { c with pc := s.rd (WRK_Wn_ENTRY n) % 2 ^ 15, cyc := 0, handler := false, slot := none, fresh := false,
                                    tTaken := false, wTaken := false, run := some k, ran := some k, rs := [] }
      .next ((s.setBit (WRK_Wn_STATUS n) 31 true).setFd (WRK_Wn_STATUS n) ⟨22, 16⟩ (nth s.wrk.phys n n))

/-- The interrupt rows: taken at the boundary before the instruction at PC unless that instruction raises an exception. -/
def State.wrkInterrupt (s : State) (n : Nat) (timer : Bool) : State :=
  let c := s.core n
  let due := if timer then s.timerDue n c else s.warnDue n c && !s.timerDue n c
  if 64 ≤ n || !s.runOpen c || !s.blockOn 13 || s.wrkBudget n ≤ c.cyc || !c.open_ || !due
    || (c.fault (wDecode (s.pmGet n c.pc)) (fun _ _ => false)).isSome then s
  else
    let c := if timer then { c with tTaken := true } else { c with wTaken := true }
    s.setCore n (c.enter (if timer then 4 else 8) c.pc)

/-- WORKER_TIMER_INTERRUPT and WORKER_WARN_INTERRUPT (R351): TIMER comes first. -/
def execWorkerTimerInterrupt (n : Nat) (s : State) : Res := .next (s.wrkInterrupt n true)
def execWorkerWarnInterrupt (n : Nat) (s : State) : Res := .next (s.wrkInterrupt n false)

/-- WORKER_OVERRUN (R358): the budget is spent without TEND. -/
def execWorkerOverrun (n : Nat) (s : State) : Res :=
  let c := s.core n
  if 64 ≤ n || c.run.isNone || (c.cyc < s.wrkBudget n && s.runOpen c) then .next s else .next (s.endRun_ n c true [rWorkerOverrun])

/-- WORKER_SWITCH_INTERVAL (R334, R342, R357): cycles 990 to 999 of a tick: the context of the next run is written and each move copies
160 words. -/
def execWorkerSwitchInterval (s : State) : Res :=
  if !s.blockOn 13 || s.wrk.interval = some s.tick then .next s
  else
    let s := s.each ((List.range 64).filter s.wrkEn) (fun s n => s.wrkContext n s.tick)
    .next { s with wrk := { s.wrk with interval := some s.tick, moves := s.wrk.moves.map (fun m => (m.1, m.2.1, min 163840 (m.2.2 + 160))) } }

/-- CORE_MIGRATE_COMPLETE (R334): the copy has ended: worker n runs on the spare from its next tick. -/
def execCoreMigrateComplete (n : Nat) (s : State) : Res :=
  match s.wrk.moves.find? (·.1 == n) with
  | some m =>
    if m.2.2 < 163840 || (s.core n).run.isSome then .next s
    else
      let s := { s with wrk := { s.wrk with phys := setNth s.wrk.phys n m.2.1, moves := s.wrk.moves.erase m } }
      .next (s.setFd (WRK_Wn_STATUS n) ⟨22, 16⟩ m.2.1)
  | none => .next s

/-- A worker result record of tick k (Table 13-6). -/
def wrkRecord (k : Nat) (sets : List WSet) : List Byte :=
  let mask := sumL (sets.map (fun r => 2 ^ r.n))
  toBE 2 0xB710 ++ [1, 0] ++ toBE 2 sets.length ++ toBE 2 0 ++ toBE 8 k ++ toBE 8 mask ++ toBE 8 0
  ++ sets.flatMap (fun r => toBE 2 (flagWord r.rs false) ++ toBE 2 0 ++ r.words.flatMap (fun w => toBE 4 (unsigned 32 (signed 24 w))))

/-- A result record that waits is written if there is room (R362). -/
def State.putRec (s : State) (r : Nat × List Byte) : State :=
  let p := s.ringPut WRK_RING_BASE WRK_RING_SIZE WRK_RING_WR WRK_RING_RD r.2
  if p.2 then p.1 else { s with wrk := { s.wrk with recs := s.wrk.recs ++ [r] } }

/-- A result record that could not be written in time is lost (R362). -/
def State.recLost (s : State) (k : Nat) : State := if k = 0 then s else (s.count WRK_RES_LOST k).flag WRK_ERR 6

/-- Sorted by logical index. -/
def insSet (r : WSet) : List WSet → List WSet
  | [] => [r]
  | a :: t => if r.n < a.n then r :: a :: t else a :: insSet r t

/-- RES0 of an enabled worker is its report to the trigger unit (R362, R393): FIRE with AGE, or no contribution. A run that could read replayed data
makes none (R13, log entry 108). A contribution whose event tick is near a step is marked (R400). -/
def State.wordReport (s : State) (r : WSet) : State :=
  let w := nth r.words 0 0
  let fire := bitOf w 0 = 1 && bitsOf w 23 4 ≤ r.tick && !r.rep
  let ev := r.tick - bitsOf w 23 4
  s.trgReport ⟨0x80 + r.n, r.tick, 0, if fire then [(ev, 0)] else [], addReasons r.rs (s.stepReasons (if fire then ev else r.tick))⟩

/-- The sets of tick k that were not collected are lost with their record (R362). -/
def State.setsLost (s : State) (k : Nat) : State :=
  let mine := s.wrk.sets.filter (·.tick == k)
  let s := { s with wrk := { s.wrk with sets := s.wrk.sets.filter (·.tick != k) } }
  s.recLost (if bitsOf (s.rd WRK_RES_CFG) 13 12 = 0 || mine.isEmpty then 0 else 1)

/-- RESULT_COLLECT (R361, R362): in tick k + 2 the sets of tick k are taken in ascending logical index; trigger words go to
the trigger unit, a record to its destination. -/
def execResultCollect (k : Nat) (s : State) : Res :=
  if s.bit GLB_DOMAINS (s.blockDomain 13) = 0 || !s.begun (k + 2) then .next s
  else
    let s := s.each (((s.wrk.sets.filter (fun r => r.tick < k)).map (·.tick)).eraseDups) State.setsLost
    let mine := ((s.wrk.sets.filter (fun r => r.tick == k)).foldl (fun acc r => insSet r acc) [])
    let old := s.wrk.recs
    let s := { s with wrk := { s.wrk with
      sets := s.wrk.sets.filter (fun r => r.tick != k), recs := [] } }
    let late := s.begun (k + 4)
    let s := s.each mine (fun s r => s.wordReport r)
    let s := s.each old State.putRec
    let s := s.each mine (fun s r => s.noteProduct (bitsOf (s.rd (WRK_Wn_CFG r.n)) 31 22) r.rs)
    let out := mine.filter (fun r => s.bit (WRK_Wn_CFG r.n) 21 == 1)
    match (if mine.isEmpty then 0 else bitsOf (s.rd WRK_RES_CFG) 13 12) with
    | 1 => .next (if late then s.recLost 1 else s.putRec (k, wrkRecord k out))
    | 2 => .next (if late then s.recLost 1 else (s.unitPut (bitsOf (s.rd WRK_RES_CFG) 8 4) .workerRecord 0 (pad64 (wrkRecord k out))))
    | _ => .next s

/-! ### Register writes (R365) -/

/-- A window configuration keeps its rule. -/
def State.winArmable (s : State) (w cfg : Nat) : Bool :=
  let n := bitsOf cfg 29 24
  let size := (bitsOf cfg 23 16 + 1) * 64
  let base := bitsOf cfg 9 0 * 64
  base + 2 * size ≤ 65536
  && (List.range 64).all (fun v => v == w || !s.winOn v || s.winWorker v != n
      || base + 2 * size ≤ s.winBase v 0 || s.winBase v 0 + 2 * s.winSize v ≤ base)

def wrkPre (a new : Nat) (s : State) : Option State :=
  let bad := some (s.flag WRK_ERR 0)
  if 0xD01000 ≤ a && a < 0xD02000 then
    let n := (a - 0xD01000) / 0x40
    let en := s.wrkEn n
    match a % 0x40 with
    | 0 => if en && s.rd a / 2 ≠ new / 2 then bad else none
    | 4 => if (en && s.rd a ≠ new) || new % 1024 = 0 || 990 < new % 1024 then bad else none
    | _ => if en && s.rd a ≠ new then bad else none
  else if 0xD03000 ≤ a && a < 0xD03400 && a % 0x10 = 0 then
    if bitOf new 31 = 1 && !s.winArmable ((a - 0xD03000) / 0x10) new then bad else none
  else if a = WRK_RES_CFG then
    (if bitsOf new 13 12 = 1 && !s.ringOk 4 WRK_RING_BASE WRK_RING_SIZE then bad else none)
  else if a = WRK_RETIRE_THR then (if new % 256 = 0 then bad else none)
  else none

/-- The window on worker memory moves on by one address. -/
def State.memAdvance (s : State) : State := s.setFd WRK_MEM_ADDR ⟨15, 0⟩ ((s.rd WRK_MEM_ADDR + 1) % 65536)

/-- A write of WRK_MEM_DATA_LO: a word of the worker's memory, or ignored while the worker is enabled. -/
def State.memWrite (s : State) (v : Nat) : State :=
  let p := s.rd WRK_MEM_ADDR
  let n := bitsOf p 29 24
  let a := bitsOf p 15 0
  let hi := s.rd WRK_MEM_DATA_HI % 65536
  let s := if s.wrkEn n then s.flag WRK_ERR 0
    else match bitsOf p 17 16 with
      | 0 => if a < 32768 then s.pmPut n a (hi * 2 ^ 32 + v) else s.flag WRK_ERR 0
      | 1 => s.xmPut n a v
      | 2 => s.ymPut n a v
      | _ => s.flag WRK_ERR 0
  s.memAdvance

/-- A read of WRK_MEM_DATA_LO fetches the word; DATA_HI then holds bits [47:32] of a PM word. -/
def State.memRead (s : State) : Nat × State :=
  let p := s.rd WRK_MEM_ADDR
  let n := bitsOf p 29 24
  let a := bitsOf p 15 0
  let w := match bitsOf p 17 16 with
    | 0 => if a < 32768 then s.pmGet n a else 0
    | 1 => s.xmGet n a
    | 2 => s.ymGet n a
    | _ => 0
  (w % 2 ^ 32, ((s.wr WRK_MEM_DATA_LO (w % 2 ^ 32)).wr WRK_MEM_DATA_HI (w / 2 ^ 32)).memAdvance)

/-- After a write: a worker is armed with its registers cleared (R338), or stops after its run (R365). -/
def wrkPost (a old : Nat) (s : State) : State :=
  if 0xD01000 ≤ a && a < 0xD02000 && a % 0x40 = 0 then
    let n := (a - 0xD01000) / 0x40
    if bitOf old 0 = 0 && s.bit a 0 = 1 then
      (if (s.core n).run.isSome then s.setCore n { s.core n with again := true } else s.setCore n WCore.reset).setFd (WRK_Wn_STATUS n) ⟨30, 29⟩ 0
    else if bitOf old 0 = 1 && s.bit a 0 = 0 then
      s.setFd (WRK_Wn_STATUS n) ⟨if (s.core n).run.isSome then 30 else 31, 29⟩ 0
    else s
  else if a = WRK_RETIRE_CMD then
    let img := s.rd a
    (s.wr a 0).retireCoreCmd img
  else if a = WRK_MEM_DATA_LO then s.memWrite (s.rd a)
  else s

end Sys2Proof.Machine
end

