-- ==== Sys2Proof/Machine/Trigger.lean ====
section
/-!
DEFINITION. The sting beamformer, the trigger unit and trigger sessions (chapter 15).
-/
namespace Sys2Proof.Machine

/-! ### Sting beams (R385 to R390) -/

/-- The sting beamformer runs: STG_CTRL.EN is 1 and its ingest domain is not stopped (R11). -/
def State.stgOn (s : State) : Bool := s.bit STG_CTRL 0 == 1 && s.bit GLB_DOMAINS (s.blockDomain 6) == 1
def State.beamOn (s : State) (b : Nat) : Bool := b < 128 && s.bit (STG_Bb_CFG b) 0 == 1

/-- The entries of beam b: input, delay, sign. -/
def State.beamEntries (s : State) (b : Nat) : List (Nat × Nat × Int) :=
  let m := s.rd (STG_Bb_MAP b)
  (List.range (m % 256 + 1)).map (fun i =>
    let e := s.rd (STG_ENTe (bitsOf m 30 16 + i))
    (e % 256, bitsOf e 27 16, match bitsOf e 31 30 with | 1 => 1 | 2 => -1 | _ => 0))

def State.inputNs (s : State) (i : Nat) : Nat := canonNs (s.fd (ING_Ii_CFG i) ING_Ii_CFG_CANON)
def State.beamNs (s : State) (b : Nat) : Nat := match s.beamEntries b with | e :: _ => s.inputNs e.1 | [] => 3200

/-- The canonical sample of input i at canonical index q; one from before the beam's first grid tick counts as 0 (R386). -/
def State.stingSample (s : State) (start ns i : Nat) (q : Int) : Smp :=
  if q < (start * ns : Nat) then ⟨0, .none, false⟩
  else nth (s.canonOf false i (q.toNat / ns)) (q.toNat % ns) ⟨0, .noneReceived, true⟩

/-- p(q) of R386, whether it was clamped, and the reasons of the absent samples in it (R389). -/
def State.stingPower (s : State) (b start ns : Nat) (q : Int) : Nat × Bool × List Nat :=
  if q < (start * ns : Nat) then (0, false, [])
  else
    let xs := ((s.beamEntries b).filter (fun e => e.2.2 != 0)).map (fun e => (e.2.2, s.stingSample start ns e.1 (q - e.2.1)))
    let sum := sumI (xs.map (fun x => x.1 * x.2.v))
    let v := shrConv sum (bitsOf (s.rd (STG_Bb_CFG b)) 19 16)
    let p := satS 16 v
    ((p * p).toNat, satHit 16 v, xs.foldl (fun a x => addReasons a (causeReason x.2.c)) [])

/-- Crossings of a run of boxcar sums: candidates, at most one per quarter, and the number suppressed (R387). -/
def stingHits (thr ns : Nat) : Nat → Nat → List Nat → List Nat → List Nat × Nat
  | _, _, _, [] => ([], 0)
  | m, prev, qs, x :: r =>
    if thr ≤ x && prev < thr then
      let q := m * 4 / ns
      if qs.contains q then
        let t := stingHits thr ns (m + 1) x qs r
        (t.1, t.2 + 1)
      else
        let t := stingHits thr ns (m + 1) x (q :: qs) r
        (m :: t.1, t.2)
    else stingHits thr ns (m + 1) x qs r

/-- STING_REPORT (R386 to R389): beam b's report of grid tick j, once the samples it needs are there or can no longer come. -/
def execStingReport (b j : Nat) (s : State) : Res :=
  match s.trg.beams.find? (·.1 == b) with
  | none => .next s
  | some bm =>
    let es := s.beamEntries b
    let ready := s.begun (j + 5) || es.all (fun e => s.ing.canon.any (fun c => c.input == e.1 && c.tick == j && !c.replay))
    if !s.stgOn || !s.beamOn b || j < bm.2 || !s.begun (j + 1) || !ready
      || s.trg.reps.any (fun r => r.src == b && r.idx == j) then .next s
    else
      let ns := s.beamNs b
      let win := bitsOf (s.rd (STG_Bb_CFG b)) 29 24 + 1
      let thr := s.rd64 (STG_Bb_THR_LO b) (STG_Bb_THR_HI b) % 2 ^ 40
      let ps := (List.range (ns + win)).map (fun i => s.stingPower b bm.2 ns ((j * ns + i : Nat) - (win : Nat)))
      let box (i : Nat) : Nat := sumL (((ps.drop i).take win).map (·.1))
      let sums := (List.range ns).map (fun m => box (m + 1))
      let h := stingHits thr ns 0 (box 0) [] sums
      let sats := ((ps.drop win).filter (·.2.1)).length
      let rs := (ps.drop 1).foldl (fun a p => addReasons a p.2.2) []
      let s := ((s.count (STG_Bb_CAND b) h.1.length).count (STG_Bb_SUPP b) h.2).count (STG_Bb_SAT b) sats
      let s := s.when (sats != 0) (·.flag STG_ERR 1)
      .next (s.trgReport ⟨b, j, 0, h.1.map (fun m => (j, m * 4000 / ns)), addReasons rs (s.stepReasons j)⟩)

/-! ### TRIG_IN (R394) -/

/-- The arrival index of an edge of TRIG_INn at instant `t` (0.25 ns): it reaches the trigger unit MINW + 20 ns after the edge, and is on time
for the evaluation that starts at 100 ns into a tick from then on (Table 15-2, R397). -/
def State.pinArrival (s : State) (n t : Nat) : Nat :=
  2 * ceilDiv (t + 4 * (bitsOf (s.rd (TRIG_INn_CFG n)) 15 8 + 20) - 400) 4000

/-- TRIG_IN_EDGE (R394): an edge of TRIG_INn at `t` in 0.25 ns of hive time; nothing before it has persisted for MINW. -/
def execTrigInEdge (n t : Nat) (s : State) : Res :=
  if 8 ≤ n || s.bit (TRIG_INn_CFG n) 0 = 0 || !s.blockOn 14 || !s.begun ((t + 4 * bitsOf (s.rd (TRIG_INn_CFG n)) 15 8) / 4000) then .next s
  else
    let q := t / 1000
    if nth s.trg.quarter n none = some q then .next (s.count (TRIG_INn_SUPP n) 1)
    else
      let ev := t - s.rd (TRIG_INn_DLY n) % 2 ^ 22
      let s := { s with trg := { s.trg with quarter := setNth s.trg.quarter n (some q) } }
      .next ((s.count (TRIG_INn_EDGES n) 1).trgReportAt (s.pinArrival n t)
        ⟨0xC0 + n, ev / 4000, 0, [(ev / 4000, ev % 4000)], s.stepReasons (ev / 4000)⟩)

/-! ### Decision records and pulses (R399, R410 to R412) -/

/-- A decision record is handed to the acquisition unit, in the order of R399 within its tick. -/
def insDec (r : DecRec) : List DecRec → List DecRec
  | [] => [r]
  | a :: t => if a.handed = r.handed && r.rank < a.rank then r :: a :: t else a :: insDec r t

def State.putDec (s : State) (r : DecRec) : State :=
  let r := { r with handed := s.tick }
  let s := s.noteFlags r.rs r.late
  { s with trg := { s.trg with decs := insDec r s.trg.decs } }

/-- A decision record of a trigger session x is a product of the session (R52, R54, R56). -/
def State.putSessionDec (s : State) (x : Nat) (r : DecRec) : State :=
  let u := s.takeUntimed x
  let r := { r with rs := addReasons r.rs u.1 }
  (u.2.putDec r).noteProduct x r.rs

/-- Outputs that condition c, or slot g, drives. -/
def State.outsOfTc (s : State) (c : Nat) : List Nat :=
  (List.range 8).filter (fun n => s.bit (TRIG_OUTn_CFG n) 0 == 1
    && (if c < 32 then s.bit (TRIG_OUTn_SRC_LO n) c else s.bit (TRIG_OUTn_SRC_HI n) (c - 32)) == 1)
def State.outsOfSlot (s : State) (g : Nat) : List Nat :=
  (List.range 8).filter (fun n => s.bit (TRIG_OUTn_CFG n) 0 == 1 && s.bit (TRIG_OUTn_CFG n) (24 + g) == 1)

/-- Schedules the pulses of a decision with event time `te` (0.25 ns) that reaches the outputs at `now`; answers whether any
was too late (R411). -/
def State.schedule (s : State) (outs : List Nat) (te now : Nat) : State × Bool :=
  outs.foldl (fun (acc : State × Bool) n =>
    let edge := te + acc.1.rd (TRIG_OUTn_LAT n) % 2 ^ 20
    if edge < now + 200 then ((acc.1.count (TRIG_OUTn_LATE n) 1).flag TRG_ERR 3, true)
    else ({ acc.1 with trg := { acc.1.trg with sched := acc.1.trg.sched ++ [(n, edge)] } }, acc.2)) (s, false)

/-- The earliest scheduled edge of output n. -/
def nextEdge (n : Nat) (l : List (Nat × Nat)) : Option (Nat × Nat) :=
  (l.filter (·.1 == n)).foldl (fun m e => match m with | some b => if e.2 < b.2 then some e else m | none => some e) none

/-- TRIG_OUT_PULSE (R409, R410, R412): the earliest scheduled edge of TRIG_OUTn falls: a pulse, or merged into one in
progress, or held in a keeper gap; an output that is not enabled, or a trigger unit that is off, produces none (log entry 110). -/
def execTrigOutPulse (n : Nat) (s : State) : Res :=
  match nextEdge n s.trg.sched with
  | none => .next s
  | some e =>
    if 8 ≤ n || !s.begun (e.2 / 4000) then .next s
    else if s.bit (TRIG_OUTn_CFG n) 0 = 0 || !s.blockOn 14 then .next { s with trg := { s.trg with sched := s.trg.sched.erase e } }
    else
      let s := { s with trg := { s.trg with sched := s.trg.sched.erase e } }
      let busy := nth s.trg.busy n 0
      let w := s.rd (TRIG_OUTn_WIDTH n) % 2 ^ 20
      let out (s : State) : State := s.pulse (.trigOut n) e.2 w (s.bit (TRIG_OUTn_CFG n) 1 == 1)
      if s.kpr.gap then .next (((out s).count TRG_HELD_CNT 1).flag TRG_ERR 4)
      else if e.2 < busy then .next (s.count (TRIG_OUTn_MERGED n) 1)
      else
        let s := { s with trg := { s.trg with busy := setNth s.trg.busy n (e.2 + max 1 (4 * w)) } }
        .next (out (s.count (TRIG_OUTn_PULSES n) 1))

/-! ### Conditions (R395 to R398) -/

/-- The on-time contributions of a source, as instants in 0.25 ns with their reasons (R392). -/
def State.consOf (s : State) (c src : Nat) : List (Nat × List Nat) :=
  (s.trg.reps.filter (·.src == src)).flatMap (fun r =>
    (r.cons.filter (fun a => onTime r.at_ a.1 (s.tcLag c))).map (fun a => (a.1 * 4000 + a.2, r.rs)))

/-- Sorted insertion of an anchor: by instant, then source ID. -/
def insAnchor (a : Nat × Nat) : List (Nat × Nat) → List (Nat × Nat)
  | [] => [a]
  | b :: r => if a.1 < b.1 || (a.1 == b.1 && a.2 < b.2) then a :: b :: r else b :: insAnchor a r

/-- What one condition's evaluation finds. -/
structure CondOut where
  fire      : Option (Nat × Nat × Nat × Nat)   -- instant, n, mask, prescale count
  vetoed    : Nat
  prescaled : Nat
  supp      : Nat
  count     : Nat
  deriving DecidableEq, Repr

/-- R396: anchors in ascending order. -/
def condScan (srcs : List (Nat × List Nat)) (vetos : List Nat) (k win vpre vpost p : Nat) : List (Nat × Nat) → CondOut → CondOut
  | [], o => o
  | a :: r, o =>
    let hit := (List.zip (List.range srcs.length) srcs).filter (fun q => q.2.2.any (fun t => a.1 ≤ t + win && t ≤ a.1))
    if hit.length < k then condScan srcs vetos k win vpre vpost p r o
    else if vetos.any (fun t => a.1 ≤ t + vpre && t ≤ a.1 + vpost) then
      condScan srcs vetos k win vpre vpost p r { o with vetoed := o.vetoed + 1 }
    else
      let count := (o.count + 1) % 2 ^ 32
      let o := { o with count := count, supp := r.length }
      if (count + (2 ^ 32 - 1)) % 2 ^ 32 % p = 0 then
        { o with fire := some (a.1, hit.length, sumL (hit.map (fun q => 2 ^ q.1)), count) }
      else { o with prescaled := 1 }

/-- The reasons of an evaluation, and whether a required report is missing (R397, R398). -/
def State.condFlags (s : State) (c j : Nat) : List Nat × Bool :=
  let all := s.tcSources c ++ s.tcVetoes c
  let win := s.rd (TRG_TCc_WIN c) % 2 ^ 19
  let vpre := s.rd (TRG_TCc_VPRE c) % 2 ^ 19
  let vpost := s.rd (TRG_TCc_VPOST c) % 2 ^ 16
  let lo := (j * 4000 - max win vpre) / 4000
  let hi := (j * 4000 + 3999 + vpost) / 4000
  let e := s.tcLag c
  let need (src : Nat) : List Nat :=
    if 0x80 ≤ src && src < 0xC0 then (List.range (e - 1)).map (· + j)
    else if src < 0x80 then (List.range (hi + 1 - lo)).map (· + lo)
    else []
  let find (src i : Nat) := s.trg.reps.find? (fun r => r.src == src && r.idx == i)
  let reqs := all.flatMap (fun src => (need src).map (fun i => find src i))
  let rs := reqs.foldl (fun a r => match r with | some r => addReasons a r.rs | none => a) []
  let cons := all.flatMap (fun src => s.consOf c src)
  let rs := (cons.filter (fun a => j * 4000 ≤ a.1 + max win vpre && a.1 ≤ j * 4000 + 3999 + vpost)).foldl (fun a x => addReasons a x.2) rs
  let pins := if all.any (0xC0 ≤ ·) then (List.range (hi + 1 - lo)).map (· + lo) else []
  let rs := (j :: pins).foldl (fun a t => addReasons a (s.stepReasons t)) rs
  let late := reqs.any (·.isNone)
  (addReasons rs (if late then [rTriggerLate] else []), late)

/-- Frames of a trigger-session message on every linked port of `ports` (R402). -/
def State.groupMsg (s : State) (ports grp udp queue : Nat) (kind : FrameKind) (msg : List Byte) : State :=
  s.each ((bitList 32 ports).filter s.linkUp) (fun s n =>
    let v6 := s.grpV6 grp
    let dst := s.grpAddr grp
    let b := frameBytes (s.ownTmpl n v6 (groupMac v6 dst) dst udp) msg
    s.txPut n { kind := kind, src := n, sid := 0, queue := queue, len := b.length + 4, age := 0, dst := 0, bytes := b, ptp := none })

def State.trgSlot (s : State) (g : Nat) : TrgSlot := nth s.trg.slots g TrgSlot.reset
def State.setTrgSlot (s : State) (g : Nat) (t : TrgSlot) : State := { s with trg := { s.trg with slots := setNth s.trg.slots g t } }
def State.slotOn (s : State) (g : Nat) : Bool := s.bit (TRG_SESg_CFG g) 0 == 1
def State.slotMember (s : State) (g : Nat) : Bool := s.slotOn g && s.bit (TRG_SESg_CFG g) 1 == 1
def State.slotCollects (s : State) (g : Nat) : Bool := s.slotOn g && (s.bit (TRG_SESg_CFG g) 2 == 1 || s.bit (TRG_SESg_CFG g) 3 == 1)
def State.slotActive (s : State) (g : Nat) : Bool := s.bit (TRG_SESg_STATUS g) 31 == 1
def State.slotSession (s : State) (g : Nat) : Nat := bitsOf (s.rd (TRG_SESg_CFG g)) 31 22
def State.slotPd (s : State) (g : Nat) : Nat := bitsOf (s.rd (TRG_SESg_CFG g)) 21 18 + 1
def State.slotEs (s : State) (g : Nat) : Nat := bitsOf (s.rd (TRG_SESg_CFG g)) 17 10
def State.trgPort (s : State) : Nat := s.rd ETH_UDP_FIX1 % 65536

/-- The header of Table 15-4. -/
def trgHeader (type session hive swarm flags count tick seq : Nat) : List Byte :=
  toBE 2 0xB711 ++ toBE 1 1 ++ toBE 1 type ++ toBE 2 session ++ toBE 2 hive ++ toBE 4 swarm ++ toBE 2 flags ++ toBE 1 count
  ++ toBE 1 0 ++ toBE 8 tick ++ toBE 4 seq ++ toBE 4 0

/-- Sends a message of slot g: on the ports, and internally where this hive takes it too (R401). -/
def State.slotSend (s : State) (g type flags count tick : Nat) (body : List Byte) (self : Bool) : State :=
  let t := s.trgSlot g
  let seq := nth t.seqs (type - 1) 0
  let s := s.setTrgSlot g { t with seqs := setNth t.seqs (type - 1) ((seq + 1) % 2 ^ 32) }
  let msg := trgHeader type (s.slotSession g) s.hiveId (s.rd CTN_SWARM_ID) flags count tick seq ++ body
  let grps := s.rd (TRG_SESg_GRP g)
  let s := s.groupMsg (s.rd (TRG_SESg_PORTS g)) (if type = 1 then bitsOf grps 5 0 else bitsOf grps 13 8) s.trgPort 7 .trigger msg
  if self then s.deliver ⟨.trigger, 32, 0, msg, s.time16, 0, 0⟩ else s

/-- A digest entry (R404). -/
def digestEntry (fire : Option Nat) (rs : List Nat) (late : Bool) : Nat :=
  let f := flagWord rs late
  (if fire.isSome then 2 ^ 31 else 0) + bitOf f 15 * 2 ^ 30 + bitOf f 13 * 2 ^ 29 + bitOf f 12 * 2 ^ 28 + f % 256 * 2 ^ 20
  + (fire.getD 0) % 4096

/-- The digests due when condition c has evaluated event tick j (R404). -/
def State.sendDigests (s : State) (c j : Nat) : State :=
  s.each ((List.range 8).filter (fun g => s.slotMember g && bitsOf (s.rd (TRG_SESg_CFG g)) 9 4 == c && (j + 1) % s.slotPd g == 0))
    (fun s g =>
      let pd := s.slotPd g
      let j0 := j + 1 - pd
      let body := (List.range pd).flatMap (fun i =>
        match s.trg.evals.find? (fun e => e.1 == c && e.2.1 == j0 + i) with
        | some e => toBE 4 (digestEntry e.2.2.1 e.2.2.2.1 e.2.2.2.2)
        | none => toBE 4 (digestEntry none [rTriggerLate] true))
      s.slotSend g 1 0 pd j0 body (s.slotCollects g))

/-- Condition c evaluates event tick j (R396 to R398). -/
def State.evalCond (s : State) (c j : Nat) : State :=
  let cfg := s.rd (TRG_TCc_CFG c)
  let srcs := s.tcSources c
  let cons := srcs.map (fun src => (src, (s.consOf c src).map (·.1)))
  let vetos := (s.tcVetoes c).flatMap (fun src => (s.consOf c src).map (·.1))
  let anchors := (cons.flatMap (fun q => (q.2.filter (fun t => t / 4000 == j)).map (fun t => (t, q.1)))).foldl (fun l a => insAnchor a l) []
  let o := condScan cons vetos (bitsOf cfg 12 8) (s.rd (TRG_TCc_WIN c) % 2 ^ 19) (s.rd (TRG_TCc_VPRE c) % 2 ^ 19)
    (s.rd (TRG_TCc_VPOST c) % 2 ^ 16) (s.rd (TRG_TCc_PRESCALE c) % 2 ^ 24) anchors ⟨none, 0, 0, 0, s.rd (TRG_TCc_COUNT c)⟩
  let f := s.condFlags c j
  let s := ((s.count (TRG_TCc_VETOED c) o.vetoed).count (TRG_TCc_PRESCALED c) o.prescaled).count (TRG_TCc_SUPPRESSED c) o.supp
  let s := s.wr (TRG_TCc_COUNT c) o.count
  let s := match o.fire with
    | some (t, n, mask, count) =>
      let p := (s.count (TRG_TCc_FIRED c) 1).schedule (s.outsOfTc c) t (s.tick * 4000 + 1200)
      let rs := if p.2 then addNew f.1 rTriggerLate else f.1
      p.1.putDec ⟨1, rs, f.2 || p.2, c, n, t / 4000, t % 4000, mask, count, 0, 0⟩
    | none =>
      if f.1.isEmpty then s
      else (s.count (TRG_TCc_NOTES c) 1).putDec ⟨2, f.1, f.2, c, 0, j, 0, 0, 0, 0, 0⟩
  let s := { s with trg := { s.trg with evals := (c, j, o.fire.map (fun q : Nat × Nat × Nat × Nat => q.1 % 4000), f.1, f.2) :: s.trg.evals.take 2047 } }
  s.sendDigests c j

/-- CONDITION_EVALUATE (R396, R397): in each tick, every enabled condition in ascending index. -/
def execConditionEvaluate (s : State) : Res :=
  if !s.blockOn 14 || s.trg.lastEval = some s.tick || s.tim.lastTick.isNone then .next s
  else
    let t := s.tick
    let s := { s with trg := { s.trg with lastEval := some t } }
    let s := s.each ((List.range 64).filter (fun c => s.tcOn c && s.tcLag c + 1 ≤ t)) (fun s c => s.evalCond c (t - s.tcLag c - 1))
    .next { s with trg := { s.trg with reps := s.trg.reps.filter (fun r => t < r.idx + 1024) } }

/-! ### Duplicates (R403) -/

/-- Does a message pass, and the duplicate state it leaves (R403)? -/
def dupCheck (l : List TrgDup) (g hive type seq tick : Nat) : Bool × List TrgDup :=
  match l.find? (fun d => d.g == g && d.hive == hive && d.type == type) with
  | none => (true, ⟨g, hive, type, seq, tick, []⟩ :: l)
  | some d =>
    let rest := l.erase d
    let fwd := (seq + 2 ^ 32 - d.a) % 2 ^ 32
    let back := (d.a + 2 ^ 32 - seq) % 2 ^ 32
    if 1 ≤ fwd && fwd ≤ 2 ^ 31 - 1 then
      let seen := (0 :: d.seen).map (· + fwd) |>.filter (fun i => 1 ≤ i && i ≤ 64)
      (true, { d with a := seq, ta := tick, seen := seen } :: rest)
    else if back = 0 || (back ≤ 64 && d.seen.contains back) then (false, l)
    else if back ≤ 64 then (true, { d with seen := back :: d.seen } :: rest)
    else if d.ta < tick then (true, ⟨g, hive, type, seq, tick, []⟩ :: rest)
    else (false, l)

/-- The slot of a message, `none` where R402 discards it. -/
def State.slotOfMsg (s : State) (b : List Byte) : Option Nat :=
  if beAt b 0 2 ≠ 0xB711 || beAt b 2 1 ≠ 1 || beAt b 8 4 ≠ s.rd CTN_SWARM_ID then none
  else (List.range 8).find? (fun g => s.slotOn g && s.slotSession g == beAt b 4 2)

/-- Takes the first message of a type that waits and applies R402 and R403: the slot and the message, where it is new. -/
def State.takeMsg (s : State) (p : Nat → Bool) : Option (Nat × RxItem) × State :=
  let t := s.takeRx (fun x => x.kind == .trigger && p (beAt x.bytes 3 1))
  match t.1 with
  | none => (none, s)
  | some x =>
    if !s.blockOn 14 then (none, t.2)
    else match t.2.slotOfMsg x.bytes with
      | none => (none, t.2)
      | some g =>
        let d := dupCheck t.2.trg.dups g (beAt x.bytes 6 2) (beAt x.bytes 3 1) (beAt x.bytes 24 4) (beAt x.bytes 16 8)
        let s := { t.2 with trg := { t.2.trg with dups := d.2 } }
        if d.1 then (some (g, x), s) else (none, s.count (TRG_SESg_DUP g) 1)

/-- DIGEST_RECEIVE (R402 to R404): the first digest that waits; one that a reserved TYPE makes no message is dropped. -/
def execDigestReceive (s : State) : Res :=
  let t := s.takeMsg (fun ty => ty != 2 && ty != 3)
  match t.1 with
  | none => .next t.2
  | some (g, x) =>
    if beAt x.bytes 3 1 ≠ 1 || !t.2.slotCollects g then .next t.2
    else
      let s := t.2
      let b := x.bytes
      let arr := s.trgNow s.trg.lastColl
      let digs := (List.range (beAt b 14 1)).map (fun i =>
        let e := beAt b (32 + 4 * i) 4
        let w := bitOf e 30 * 2 ^ 15 + bitOf e 29 * 2 ^ 13 + bitsOf e 27 20
        (⟨g, beAt b 6 2, beAt b 16 8 + i, arr, if bitOf e 31 = 1 then some (e % 4096) else none,
          addReasons (wordReasons w) (s.stepReasons (beAt b 16 8 + i)),
          bitOf e 28 == 1⟩ : TrgDig))
      let s := { s with trg := { s.trg with digs := digs ++ s.trg.digs.filter (fun d : TrgDig => s.tick < d.tick + 512) } }
      .next (s.count (TRG_SESg_DIGESTS g) 1)

/-! ### The collector (R405, R406) -/

def State.isMemberHive (s : State) (g h : Nat) : Bool := h < 1024 && s.bit (TRG_SESg_MEMBERS g (h / 32)) (h % 32) == 1
def State.memberHives (s : State) (g : Nat) : List Nat := (List.range 1024).filter (s.isMemberHive g)

/-- Body of a TRIGGER (Table 15-5). -/
def trigBody (t : GlobTrig) : List Byte :=
  let bits := (List.range 128).flatMap (fun i => toBE 1 (sumL ((List.range 8).map (fun j => if t.hives.contains (8 * i + j) then 2 ^ j else 0))))
  toBE 8 t.tseq ++ toBE 2 t.sub ++ toBE 2 t.hives.length ++ toBE 2 t.anchor ++ toBE 2 0 ++ bits

/-- The active hive issues a global trigger (R406). -/
def State.issue (s : State) (g : Nat) (t : GlobTrig) : State :=
  let s := s.slotSend g 2 (flagWord t.rs t.late) 0 t.tick (trigBody t) (s.slotMember g)
  s.putSessionDec (s.slotSession g) ⟨4, t.rs, t.late, 2 ^ 15 + s.slotSession g, t.hives.length, t.tick, t.sub, 0, t.tseq, 0, 1⟩

/-- R405: the first fire, ascending, with enough hives. -/
def collScan (kh win : Nat) (all : List (Nat × Nat)) : List (Nat × Nat) → Option (Nat × Nat × List Nat)
  | [] => none
  | a :: r =>
    let hs := (all.filter (fun f => a.1 ≤ f.1 + win && f.1 ≤ a.1)).foldl (fun l f => insAsc f.2 l) []
    if kh ≤ hs.length then some (a.1, a.2, hs) else collScan kh win all r

/-- Slot g evaluates event tick j. -/
def State.evalColl (s : State) (g j : Nat) : State :=
  let win := s.rd (TRG_SESg_WIN g) % 2 ^ 19
  let es := s.slotEs g
  let pd := s.slotPd g
  let mem := s.memberHives g
  let digs := s.trg.digs.filter (fun d => d.g == g && mem.contains d.hive)
  let fires := (digs.filter (fun d => onTime d.at_ d.tick es)).filterMap (fun d => d.fire.map (fun u => (d.tick * 4000 + u, d.hive)))
  let anchors := (fires.filter (fun f => f.1 / 4000 == j)).foldl (fun l a => insAnchor a l) []
  let lo := (j * 4000 - win) / 4000
  let ticks := (List.range (j + 1 - lo)).map (· + lo)
  let missing := sumL (mem.map (fun h =>
    ((ticks.filter (fun t => !digs.any (fun d => d.hive == h && d.tick == t))).foldl (fun l t => addNew l (t / pd)) []).length))
  let used := digs.filter (fun d => lo ≤ d.tick && d.tick ≤ j)
  let rs := used.foldl (fun a d => addReasons a d.rs) []
  let rs := addReasons (addReasons rs (s.stepReasons j)) (if missing = 0 then [] else [rTriggerLate])
  let late := missing != 0 || used.any (·.late)
  let s := (s.count (TRG_SESg_DLATE g) missing).when (missing != 0) (·.flag TRG_ERR 2)
  match collScan (s.rd (TRG_SESg_CFG2 g) % 2048) win fires anchors with
  | some (t, anchor, hs) =>
    let n := (s.rd64 (TRG_SESg_TSEQ_LO g) (TRG_SESg_TSEQ_HI g) + 1) % 2 ^ 64
    let s := s.wr64 (TRG_SESg_TSEQ_LO g) (TRG_SESg_TSEQ_HI g) n
    let gt : GlobTrig := ⟨t / 4000, t % 4000, hs, anchor, n, rs, late⟩
    let ts := s.trgSlot g
    let s := s.setTrgSlot g { ts with evald := (gt :: ts.evald).take 65536 }
    if s.slotActive g then s.issue g gt else s
  | none =>
    if rs.isEmpty && !late then s
    else
      let ts := s.trgSlot g
      let s := s.setTrgSlot g { ts with lateTicks := (ts.lateTicks + 1) % 2 ^ 32 }
      s.putSessionDec (s.slotSession g) ⟨2, rs, late, 2 ^ 15 + s.slotSession g, 0, j, 0, 0, 0, 0, 1⟩

/-- COLLECTOR_EVALUATE (R405): in each tick, every collecting slot in ascending order. -/
def execCollectorEvaluate (s : State) : Res :=
  if !s.blockOn 14 || s.trg.lastColl = some s.tick || s.tim.lastTick.isNone then .next s
  else
    let t := s.tick
    let s := { s with trg := { s.trg with lastColl := some t } }
    .next (s.each ((List.range 8).filter (fun g => s.slotCollects g && s.slotEs g + 1 ≤ t)) (fun s g => s.evalColl g (t - s.slotEs g - 1)))

/-! ### Global triggers at a member (R406, R407, R411) -/

/-- A member accepts a global trigger: the GLOBAL record and its pulses; `forced` for one recovered from a heartbeat. -/
def State.acceptGlobal (s : State) (g tick sub n tseq : Nat) (rs : List Nat) (late forced : Bool) (now : Int) : State :=
  let t := s.trgSlot g
  let s := s.setTrgSlot g { t with accepted := ((tick, tseq, sub, n) :: t.accepted).take 65536, known := max t.known tseq }
  let p := s.schedule (s.outsOfSlot g) (tick * 4000 + sub) (now * 4 / (65536 : Nat)).toNat
  let l := forced || p.2
  p.1.putSessionDec (s.slotSession g) ⟨3, if l then addNew rs rTriggerLate else rs, late || l, 2 ^ 15 + s.slotSession g, n, tick, sub, 0, tseq, 0, 2⟩

/-- The hives that may be active in a slot. -/
def State.slotHives (s : State) (g : Nat) : List Nat :=
  [bitsOf (s.rd (TRG_SESg_HIVES g)) 9 0, bitsOf (s.rd (TRG_SESg_HIVES g)) 25 16]

/-- TRIGGER_MESSAGE_RECEIVE (R406): the first TRIGGER that waits. -/
def execTriggerMessageReceive (s : State) : Res :=
  let t := s.takeMsg (· == 2)
  match t.1 with
  | none => .next t.2
  | some (g, x) =>
    let s := t.2
    let b := x.bytes
    let tick := beAt b 16 8
    let key := (tick, beAt b 32 8, beAt b 40 2, beAt b 42 2)
    if !s.slotMember g || !(s.slotHives g).contains (beAt b 6 2) then .next s
    else match (s.trgSlot g).accepted.find? (·.1 == tick) with
      | some old =>
        let s := s.count (TRG_SESg_DUP g) 1
        .next (s.when (old != key) (·.flag TRG_ERR 6))
      | none =>
        let w := beAt b 12 2
        .next (s.acceptGlobal g tick key.2.2.1 key.2.2.2 key.2.1 (wordReasons w) (bitOf w 12 == 1) false x.stamp)

/-! ### Heartbeats (R407, R408) -/

/-- The heartbeat of slot g. -/
def State.sendHb (s : State) (g : Nat) : State :=
  let t := s.trgSlot g
  let recent := t.evald.take 4
  let next := s.rd64 (TRG_SESg_TSEQ_LO g) (TRG_SESg_TSEQ_HI g) + 1
  let body := toBE 2 s.hiveId ++ toBE 2 0 ++ toBE 4 t.lateTicks ++ toBE 8 next
    ++ recent.flatMap (fun r => toBE 8 r.tick ++ toBE 2 r.sub ++ toBE 2 (flagWord r.rs r.late) ++ toBE 4 r.tseq)
  let s := s.setTrgSlot g { t with lateTicks := 0, hbSent := some s.tick }
  s.slotSend g 3 0 recent.length (s.tick - s.slotEs g - 1) body (s.slotMember g)

/-- HEARTBEAT_SEND (R407): in every tick that is a multiple of HB_PERIOD, from the active hive, once the tick's evaluations have ended. -/
def execHeartbeatSend (g : Nat) (s : State) : Res :=
  let period := s.rd (TRG_SESg_HB g) % 1024
  if 8 ≤ g || !s.blockOn 14 || !s.slotCollects g || !s.slotActive g || s.tim.lastTick.isNone || s.trg.lastColl != some s.tick || period = 0 || s.tick % period ≠ 0
    || (s.trgSlot g).hbSent = some s.tick then .next s
  else .next (s.sendHb g)

/-- HEARTBEAT_RECEIVE (R407, R408): the first HEARTBEAT that waits. -/
def execHeartbeatReceive (s : State) : Res :=
  let t := s.takeMsg (· == 3)
  match t.1 with
  | none => .next t.2
  | some (g, x) =>
    let s := t.2
    let b := x.bytes
    if !(s.slotHives g).contains (beAt b 6 2) then .next s
    else
      let act := beAt b 32 2 % 1024
      let s := s.setFd (TRG_SESg_STATUS g) ⟨25, 16⟩ act
      let s := if act = s.hiveId then s
        else s.setTrgSlot g { s.trgSlot g with lastHb := s.tick, hbTick := beAt b 16 8 }
      let s := if s.slotCollects g && s.slotActive g && act ≠ s.hiveId then s.setBit (TRG_SESg_STATUS g) 31 false else s
      if !s.slotMember g then .next s
      else
        let next := beAt b 40 8
        let known := (s.trgSlot g).known
        let ents := (List.range (min 4 (beAt b 14 1))).reverse.map (fun i => 48 + 16 * i)
        let new := ents.filter (fun o => !(s.trgSlot g).accepted.any (fun a => a.1 == beAt b o 8))
        let s := s.each new (fun s o =>
          let w := beAt b (o + 10) 2
          let low := beAt b (o + 12) 4
          let n := next - (next + 2 ^ 32 - low) % 2 ^ 32
          s.acceptGlobal g (beAt b o 8) (beAt b (o + 8) 2) 0 n (wordReasons w) (bitOf w 12 == 1) true x.stamp)
        let s := if known + new.length + 1 < next then (s.count (TRG_SESg_MISSED g) 1).flag TRG_ERR 7 else s
        .next (s.setTrgSlot g { s.trgSlot g with known := max (s.trgSlot g).known (next - 1) })

/-- COLLECTOR_TAKEOVER (R408): a passive hive that has missed the heartbeats becomes active. -/
def execCollectorTakeover (g : Nat) (s : State) : Res :=
  let hb := s.rd (TRG_SESg_HB g)
  let t := s.trgSlot g
  if 8 ≤ g || !s.blockOn 14 || !s.slotCollects g || s.slotActive g
    || !s.begun (t.lastHb + bitsOf hb 19 16 * (hb % 1024) + 1) then .next s
  else
    let s := ((s.setBit (TRG_SESg_STATUS g) 31 true).count (TRG_SESg_TAKEOVER g) 1).flag TRG_ERR 5
    let late := (t.evald.filter (fun e => t.hbTick < e.tick)).reverse
    .next ((s.each late (fun s e => s.issue g e)).sendHb g)

/-! ### Register writes (R385, R390, R395, R401) -/

/-- A listed source exists and is enabled. -/
def State.srcOn (s : State) (src : Nat) : Bool :=
  if src < 0x80 then s.beamOn src
  else if src < 0xC0 then s.wrkEn (src - 0x80)
  else src < 0xC8 && s.bit (TRIG_INn_CFG (src - 0xC0)) 0 == 1

/-- Every element occurs once. -/
def noTwice : List Nat → Bool
  | [] => true
  | a :: r => !r.contains a && noTwice r

/-- May condition c be enabled with configuration `cfg` (R395)? -/
def State.tcArmable (s : State) (c cfg : Nat) : Bool :=
  let s' := s.wr (TRG_TCc_CFG c) cfg
  let n := bitsOf cfg 20 16
  let srcs := s'.tcSources c
  1 ≤ n && n ≤ 16 && 1 ≤ bitsOf cfg 12 8 && bitsOf cfg 12 8 ≤ n && bitsOf cfg 3 1 ≤ 4
  && srcs.all s.srcOn && (s'.tcVetoes c).all s.srcOn && noTwice srcs

/-- May beam b be enabled (R385)? -/
def State.beamArmable (s : State) (b : Nat) : Bool :=
  let m := s.rd (STG_Bb_MAP b)
  let es := s.beamEntries b
  bitsOf m 30 16 + m % 256 ≤ 32767
  && es.all (fun e => s.bit (ING_Ii_CFG e.1) 0 == 1 && s.inputNs e.1 == s.beamNs b)
  && (List.range (m % 256 + 1)).all (fun i => bitsOf (s.rd (STG_ENTe (bitsOf m 30 16 + i))) 31 30 != 3)
  && s.rd64 (STG_Bb_THR_LO b) (STG_Bb_THR_HI b) % 2 ^ 40 != 0

/-- Sum of R390 in units of 2^−16 of its limit. -/
def State.showSting (s : State) : State :=
  s.wr STG_LOAD (sumL (((List.range 128).filter s.beamOn).map (fun b => (s.rd (STG_Bb_MAP b) % 256 + 1) * s.beamNs b)) * 65536 / 26200000 % 65536)

def trgPre (a new : Nat) (s : State) : Option State :=
  let bad := some (s.flag TRG_ERR 0)
  let sbad := some (s.flag STG_ERR 0)
  let range (b : Bool) : Option State := if b then none else bad
  if 0xE01000 ≤ a && a < 0xE02000 then
    let c := (a - 0xE01000) / 0x40
    let en := s.tcOn c
    if a % 0x40 = 0 then
      if en && s.rd a / 2 ≠ new / 2 then bad
      else if !en && bitOf new 0 = 1 && !s.tcArmable c new then bad
      else none
    else if en && s.rd a ≠ new then bad
    else match a % 0x40 with
      | 4 | 12 => range (new % 2 ^ 19 ≤ 400000)
      | 8 => range (new % 2 ^ 24 ≠ 0)
      | 16 => range (new % 2 ^ 16 ≤ 40000)
      | _ => none
  else if 0xE03000 ≤ a && a < 0xE03800 then
    let g := (a - 0xE03000) / 0x100
    let en := s.slotOn g
    if a % 0x100 = 0 then (if en && s.rd a / 2 ≠ new / 2 then bad else none)
    else if en && s.rd a ≠ new then bad
    else match a % 0x100 with
      | 4 => range (1 ≤ new % 2048 && new % 2048 ≤ 1024)
      | 8 => range (new % 2 ^ 19 ≤ 400000)
      | 0x18 => range (1 ≤ new % 1024 && new % 1024 ≤ 1000 && 2 ≤ bitsOf new 19 16)
      | _ => none
  else if 0xE05000 ≤ a && a < 0xE05080 then
    match a % 0x10 with
    | 0 => range (bitsOf new 15 8 ≠ 0)
    | 4 => range (new % 2 ^ 22 ≤ 4000000)
    | _ => none
  else if 0xE05100 ≤ a && a < 0xE05200 then
    match a % 0x20 with
    | 4 => range (8000 ≤ new % 2 ^ 20 && new % 2 ^ 20 ≤ 1000000)
    | 8 => range (4 ≤ new % 2 ^ 20 && new % 2 ^ 20 ≤ 1000000)
    | _ => none
  else if a = TRG_FABRIC then range (new % 2 ^ 18 ≤ 200000)
  else if 0xE81000 ≤ a && a < 0xE82000 then
    let b := (a - 0xE81000) / 0x20
    let en := s.beamOn b
    if a % 0x20 = 0 then
      if en && s.rd a / 2 ≠ new / 2 then sbad
      else if 8 < bitsOf new 19 16 then sbad
      else if !en && bitOf new 0 = 1 && !s.beamArmable b then sbad
      else none
    else if en && s.rd a ≠ new then sbad
    else none
  else if 0xE88000 ≤ a && a < 0xEA8000 then
    let e := (a - 0xE88000) / 4
    let used := (List.range 128).any (fun b => s.beamOn b
      && bitsOf (s.rd (STG_Bb_MAP b)) 30 16 ≤ e && e ≤ bitsOf (s.rd (STG_Bb_MAP b)) 30 16 + s.rd (STG_Bb_MAP b) % 256)
    if used && s.rd a ≠ new then sbad else none
  else none

/-- A slot is enabled: its counts start at 0, no duplicate state is held, the COLLECTOR hive is active (R403, R408). -/
def State.startSlot (s : State) (g : Nat) : State :=
  let s := s.setTrgSlot g { TrgSlot.reset with lastHb := s.tick }
  let s := { s with trg := { s.trg with
    dups := s.trg.dups.filter (·.g != g), digs := s.trg.digs.filter (·.g != g) } }
  let s := s.wr64 (TRG_SESg_TSEQ_LO g) (TRG_SESg_TSEQ_HI g) 0
  let hive := bitsOf (s.rd (TRG_SESg_HIVES g)) 9 0
  s.wr (TRG_SESg_STATUS g) ((if s.bit (TRG_SESg_CFG g) 2 = 1 then 2 ^ 31 else 0) + hive * 2 ^ 16)

def trgPost (a old : Nat) (s : State) : State :=
  let rise := bitOf old 0 = 0 && s.bit a 0 = 1
  let fall := bitOf old 0 = 1 && s.bit a 0 = 0
  if 0xE01000 ≤ a && a < 0xE02000 && a % 0x40 = 0 then (if rise then s.wr (TRG_TCc_COUNT ((a - 0xE01000) / 0x40)) 0 else s)
  else if 0xE03000 ≤ a && a < 0xE03800 && a % 0x100 = 0 then
    let g := (a - 0xE03000) / 0x100
    if rise then s.startSlot g else if fall then s.setBit (TRG_SESg_STATUS g) 31 false else s
  else if 0xE81000 ≤ a && a < 0xE82000 && a % 0x20 = 0 then
    let b := (a - 0xE81000) / 0x20
    let keep := s.trg.beams.filter (·.1 != b)
    if rise then
      ({ s with trg := { s.trg with beams := (b, s.tick + 1) :: keep, reps := s.trg.reps.filter (·.src != b) } }).showSting
    else if fall then ({ s with trg := { s.trg with beams := keep } }).showSting
    else s
  else if a = STG_CTRL && rise then
    ({ s with trg := { s.trg with beams := s.trg.beams.map (fun (b : Nat × Nat) => (b.1, s.tick + 1)), reps := s.trg.reps.filter (0x80 ≤ ·.src) } }).showSting
  else s

end Sys2Proof.Machine
end

