-- ==== Sys2Proof/Machine/Waggle.lean ====
section
/-!
DEFINITION. The waggle beamformer (chapter 12): weights computed from geometry or loaded, the beam sum, the work of a
reference tick, epochs, commits and the output routes.
-/
namespace Sys2Proof.Machine

def State.wagOf (s : State) (x : Nat) : Option WagSes := (s.wag.ses.find? (·.1 == x)).map (·.2)
def State.setWag (s : State) (x : Nat) (t : WagSes) : State := { s with wag := { s.wag with ses := spPut s.wag.ses x t } }

/-- The enable of session x that reference tick k belongs to: one that has stopped, up to the tick in which it did, else the present one (R327). -/
def State.wagFor (s : State) (x k : Nat) : Option WagSes :=
  match s.wag.ending.find? (fun e => e.1 == x && (match e.2.stop with | some m => decide (k ≤ m) | none => false)) with
  | some e => some e.2
  | none => s.wagOf x

/-- The waggle sessions of R312: those whose EN is 1. -/
def State.wagEnabled (s : State) : List (Nat × WagSes) := s.wag.ses.filter (·.2.stop.isNone)

/-- The brood enable of session x that reference tick k works on. -/
def State.wagCtn (s : State) (x k : Nat) : Option CtnSes :=
  let all := ((s.ctn.ending.filter (·.1 == x)).map (·.2)) ++ (s.ctnOf x).toList
  all.find? (fun c => decide (c.w ≤ k) && c.d != 0 && (s.sesReplay x || decide (c.since ≤ k - c.w))
    && (c.specsOf (k - c.w)).any (fun n => match c.last with | some d => decide (n / c.d ≤ d) | none => true))

def State.wagBeams (s : State) (x : Nat) : Nat := s.rd (WAG_SESx_BEAMS x) % 8192 + 1
def State.wagInFirst (s : State) (x : Nat) : Nat := s.rd (WAG_SESx_IN_FIRST x) % 2 ^ 18
def State.wagNb (s : State) (x : Nat) : Nat := s.rd (WAG_SESx_IN_COUNT x) % 2 ^ 18 + 1
def State.wagExplicit (s : State) (x : Nat) : Bool := s.bit (WAG_SESx_CFG x) 2 == 1
def State.wagW (s : State) (x : Nat) : Nat := match s.ctnOf x with | some c => c.w | none => bitsOf (s.rd (CTN_SESx_CFG2 x)) 29 16

/-- r_e of R314, and the release tick r_(e−1) + 2. -/
def State.wagR (s : State) (x e : Nat) : Nat := s.wagKe x + e * s.wagE x + s.wagW x
def State.wagRelease (s : State) (x e : Nat) : Nat := s.wagR x e + 2 - s.wagE x

/-! ### Stores (R320) -/

def State.wtGet (s : State) (bank i : Nat) : Nat := spGet zeroNat s.wag.wt (bank * 2 ^ 24 + i)
def State.wtPut (s : State) (bank i v : Nat) : State :=
  { s with wag := { s.wag with wt := spSet zeroNat s.wag.wt (bank * 2 ^ 24 + i) (v % 65536) } }

/-- A geometry word; a word with an uncorrectable error, listed in `bad`, reads as 0 (R324). -/
def State.geoGet (s : State) (bad : List Nat) (bank i : Nat) : Int :=
  if bad.contains i then 0 else signed 32 (spGet zeroNat s.wag.geo (bank * 2 ^ 22 + i))

def State.geoPut (s : State) (bank i v : Nat) : State :=
  { s with wag := { s.wag with geo := spSet zeroNat s.wag.geo (bank * 2 ^ 22 + i) (v % 2 ^ 32) } }

/-- Index of the weight of beam b, input j, local channel l in its bank (R320). -/
def State.wtIndex (s : State) (x b j l : Nat) : Nat :=
  s.rd (WAG_SESx_WBASE x) % 2 ^ 24 + (l * s.wagBeams x + b) * s.wagNb x + j

def State.wagWords (s : State) (x cx : Nat) : Nat := s.wagBeams x * s.wagNb x * cx
def State.geoWords (s : State) (x cx : Nat) : Nat := 6 * s.wagBeams x + 4 * s.wagNb x + s.wagNb x * cx

/-- The channels session x owns now, in local order. -/
def State.wagChans (s : State) (x d : Nat) : List Nat :=
  match s.ctnOf x with | some c => s.owned (c.mapsAt d).map | none => []

/-- The enabled sessions' C_x, as their regions take it. -/
def State.wagCx (s : State) (x : Nat) : Nat :=
  match s.ctnOf x with | some c => s.numOwned (c.mapsAt (c.dwellAt s.tick)).map | none => 0

/-! ### The phase engine (R321 to R324) -/

/-- R322: tc(u) and ts(u). -/
def tcTab (u : Nat) : Int :=
  let v := cos128 u 65536 * 32767
  (v + (2 ^ 127 : Nat)) / (2 ^ 128 : Nat)
def tsTab (u : Nat) : Int :=
  let v := sin128 u 65536 * 32767
  (v + (2 ^ 127 : Nat)) / (2 ^ 128 : Nat)

/-- clip127 of R321, with whether it clamped. -/
def clip127 (v : Int) : Int := if v > 127 then 127 else if v < -127 then -127 else v

/-- R321: the weight of beam b, input j and channel number c (local l) for epoch e, from the geometry of `bank` in force
since epoch eg, before clamping. -/
def State.weightOf (s : State) (x : Nat) (bad : List Nat) (bank eg e b j l c : Nat) : Int × Int :=
  let g0 := s.rd (WAG_SESx_GBASE x) % 2 ^ 22
  let g := s.geoGet bad bank
  let nb := s.wagNb x
  let p0 := g0 + 6 * s.wagBeams x + 4 * j
  let de : Int := ((e - eg : Nat) : Int)
  let dir (k : Nat) : Int := g (g0 + 6 * b + k) + (g (g0 + 6 * b + 3 + k) * de).fdiv 65536
  let dot := dir 0 * g p0 + dir 1 * g (p0 + 1) + dir 2 * g (p0 + 2)
  let tau := shrConv dot 14 + g (p0 + 3) * 256
  let f0 := signed 48 (s.rd64 (WAG_SESx_F0_LO x) (WAG_SESx_F0_HI x))
  let df : Int := ((s.rd64 (WAG_SESx_DF_LO x) (WAG_SESx_DF_HI x) % 2 ^ 40 : Nat) : Int)
  let inv := s.bit (WAG_SESx_CFG x) 3 == 1
  let f := f0 + (if inv then -1 else 1) * (c : Int) * df
  let ph := unsigned 64 (f * tau)
  let u := (ph + 2 ^ 47) % 2 ^ 64 / 2 ^ 48
  let gw := unsigned 32 (g (g0 + 6 * s.wagBeams x + 4 * nb + j * s.wagCx x + l))
  let re := signed 16 (gw / 65536)
  let im := signed 16 gw
  (shrConv (re * tcTab u + im * tsTab u) 23, shrConv (im * tcTab u - re * tsTab u) 23)

/-- The bank in force for epoch e, with the epoch it took effect in. -/
def bankAt (l : List (Nat × Nat)) (e : Nat) : Nat × Nat :=
  match l.find? (fun p => p.1 ≤ e) with | some p => p | none => (0, 0)

/-- A computation that has ended writes the weights of its epoch to bank e & 1 (R323). -/
def State.phaseDone (s : State) (j : PhaseJob) : State :=
  match s.wagOf j.x, s.ctnOf j.x with
  | some t, some c =>
    let d := c.dwellFrom (s.wagKe j.x + j.e * s.wagE j.x)
    let chans := s.owned (c.mapsAt d).map
    let bk := bankAt t.banks j.e
    let idx := (List.zip (List.range chans.length) chans).flatMap (fun lc =>
      (List.range (s.wagBeams j.x)).flatMap (fun b => (List.range (s.wagNb j.x)).map (fun i => (b, i, lc.1, lc.2))))
    let s := s.each idx (fun s q =>
      let w := s.weightOf j.x j.errs bk.2 bk.1 j.e q.1 q.2.1 q.2.2.1 q.2.2.2
      let n := (if clip127 w.1 = w.1 then 0 else 1) + (if clip127 w.2 = w.2 then 0 else 1)
      (s.wtPut (j.e % 2) (s.wtIndex j.x q.1 q.2.1 q.2.2.1) (unsigned 8 (clip127 w.1) * 256 + unsigned 8 (clip127 w.2))).count
        (WAG_SESx_WCLIP j.x) n)
    let kept := if s.sesReplay j.x then t.done.filter (fun e => e % 2 != j.e % 2) else t.done
    s.setWag j.x { t with done := (j.e :: kept).take 16, bad := if j.errs.isEmpty then t.bad else (j.e :: t.bad).take 16 }
  | _, _ => s

/-- The job the engine serves next: earliest deadline, then lowest session. -/
def nextJob (l : List PhaseJob) : Option PhaseJob :=
  l.foldl (fun m p => match m with
    | some q => if p.deadline < q.deadline || (p.deadline == q.deadline && p.x < q.x) then some p else m
    | none => some p) none

/-- Serves released computations for `n` waggle cycles, each session within its grant, of which it has used `spent`; `fuel` bounds the jobs. Answers
the cycles that are left. -/
def State.phaseServe : Nat → Nat → List (Nat × Nat) → List PhaseJob → State → Nat × State
  | 0, n, _, _, s => (n, s)
  | fuel + 1, n, spent, l, s =>
    match nextJob l with
    | none => (n, s)
    | some j =>
      let u := spGet zeroNat spent j.x
      let k := min n (min ((s.granted 1 j.x (u + j.left)).1 - u) j.left)
      let s := { s with wag := { s.wag with jobs := s.wag.jobs.erase j } }
      let s := if k = j.left then s.phaseDone j
        else { s with wag := { s.wag with jobs := s.wag.jobs ++ [{ j with left := j.left - k }] } }
      State.phaseServe fuel (n - k) (spSet zeroNat spent j.x (u + k)) (l.erase j) s

/-- A tick of the phase engine: 1,000 waggle cycles; replay sessions get those that no other computation takes (R323, R332). -/
def State.phaseTick (s : State) : State :=
  if !s.blockOn 12 then s
  else
    let live := s.wag.jobs.filter (fun j => !s.sesReplay j.x)
    let rep := s.wag.jobs.filter (fun j => s.sesReplay j.x)
    let r := State.phaseServe live.length 1000 [] live s
    if r.2.wag.jobs.any (fun j => !r.2.sesReplay j.x) then r.2 else (State.phaseServe rep.length r.1 [] rep r.2).2

/-- The reference ticks of a replay session whose spectra are in, in order, with beams still to form (R332, log entry 106): those of the dwells whose
records are in, and the ticks they share with the next dwell once the tick's records are in. -/
def State.wagReplayTicks (s : State) (x : Nat) : List Nat :=
  match s.ctnOf x, s.wagOf x with
  | some c, some t =>
    let ds := ((s.ctn.final.filter (fun f => f.1 == x && c.assigned f.2.1)).map (·.2.1)).foldl (fun l d => insAsc d l) []
    let inNow (n : Nat) : Bool := ds.contains (n / c.d)
      || ((s.inputs (c.mapsAt (n / c.d)).inmap).all (fun e => (List.range (s.numOwned (c.mapsAt (n / c.d)).map)).all (fun l =>
            s.ctn.arrived.contains ⟨x, n / c.d, l, n, e.2.1⟩)))
    (ds.flatMap (fun d => (List.range (c.endTick d + 1 - c.home (d * c.d))).map (· + c.home (d * c.d)))).eraseDups.filterMap (fun h =>
      if s.beamsAt x t h && !s.wag.fin.contains (x, h + c.w) && (c.specsOf h).all inNow then some (h + c.w) else none)
  | _, _ => []

/-- The release tick of epoch e of session x has begun. For a replay session, whose epochs lie in the past, the computation of e is due once epoch
e − 1 is the one whose spectra it works on (log entry 106). -/
def State.wagDue (s : State) (x e : Nat) : Bool :=
  if s.sesReplay x then
    match s.wagReplayTicks x with
    | k :: _ => decide (e ≤ s.wagEpoch x (k - s.wagW x) + 1) && decide (s.wagEpoch x (k - s.wagW x) ≤ e)
    | [] => false
  else s.begun (s.wagRelease x e)

/-- PHASE_ENGINE_RELEASE (R323): at the start of tick r_(e−1) + 2 the computation of epoch e of session x is released;
`errs` are the errors its geometry words meet. -/
def execPhaseEngineRelease (x e : Nat) (errs : List WordErr) (s : State) : Res :=
  match s.wagOf x with
  | none => .next s
  | some t =>
    let from_ := match t.first with | some f => f ≤ e | none => false
    let past := match t.stop with | some k => k < s.wagR x e | none => false
    if !from_ || past || s.wagExplicit x || !s.blockOn 12 || !s.wagDue x e || t.done.contains e
      || t.missed.any (·.1 == e) || s.wag.jobs.any (fun j => j.x == x && j.e == e) then .next s
    else
      let cx := match s.ctnOf x with
        | some c => s.numOwned (c.mapsAt (c.dwellFrom (s.wagKe x + e * s.wagE x))).map
        | none => 0
      let un := errs.filter (·.uncorr)
      let s := s.count WAG_ECC_CORR (errs.filter (fun w => !w.uncorr)).length
      let s := (s.count WAG_ECC_UNCORR un.length).when (!un.isEmpty) (·.flag WAG_ERR 4)
      .next { s with wag := { s.wag with jobs := s.wag.jobs ++
        ([⟨x, e, s.wagR x e, ceilDiv (s.wagWords x cx) 1024, un.map (·.addr)⟩] : List PhaseJob) } }

/-- R324: the weights of epoch e are not used. -/
def State.epochMiss (s : State) (x e : Nat) (t : WagSes) : State :=
  let held := s.heldReasons 1 x
  let why := if !s.blockOn 12 then [rUntimed] else if held.isEmpty then [rClass] else held
  let s := { s with wag := { s.wag with jobs := s.wag.jobs.filter (fun j => !(j.x == x && j.e == e)) } }
  let s := s.setWag x { t with missed := ((e, why) :: t.missed).take 16 }
  (s.count (WAG_SESx_EPOCH_MISS x) 1).flag WAG_ERR 5

/-- Is the weight computation of epoch e overdue and incomplete? -/
def State.epochLate (s : State) (x e : Nat) (t : WagSes) : Bool :=
  !s.wagExplicit x && !s.sesReplay x && t.stop.isNone && s.begun (s.wagR x e) && !s.begun (s.wagR x (e + 1) + 3) && !t.done.contains e && !t.missed.any (·.1 == e)
  && (match t.first with | some f => f ≤ e | none => false)

/-- EPOCH_MISS (R324): the computation of epoch e is incomplete at tick r_e. -/
def execEpochMiss (x e : Nat) (s : State) : Res :=
  match s.wagOf x with
  | some t => .next (if s.epochLate x e t then s.epochMiss x e t else s)
  | none => .next s

/-- The tick from which a commit of epoch e is too late, and at which a pending one takes effect, has begun: r_(e_eff) in explicit mode, in computed
mode the release of the first computation with the new geometry (R325, R326). For a replay session, work of epoch e or a later one has begun (log
entry 106). -/
def State.wagBegun (s : State) (x e : Nat) : Bool :=
  if s.sesReplay x then
    (match s.wagOf x with | some t => t.done.any (fun f => decide (e ≤ f)) | none => false)
    || s.wag.jobs.any (fun j => j.x == x && decide (e ≤ j.e))
    || (s.wag.fin ++ s.wag.work.map (fun w => (w.x, w.k))).any (fun f => f.1 == x && decide (e ≤ s.wagEpoch x (f.2 - s.wagW x)))
  else s.begun (if s.wagExplicit x then s.wagR x e else s.wagRelease x e)

/-- A pending commit that is in force by now: the status shows the new bank. -/
def State.wagSwitch (s : State) (x : Nat) : State :=
  match s.wagOf x with
  | some t =>
    match t.pend with
    | some e =>
      if s.wagBegun x e then
        let s := s.setWag x { t with pend := none }
        (s.setBit (WAG_SESx_STATUS x) 30 false).setBit (WAG_SESx_STATUS x) (if s.wagExplicit x then 29 else 28) ((bankAt t.banks e).2 == 1)
      else s
    | none => s
  | none => s

/-- WEIGHT_BANK_SWITCH (R326): reference tick r_(e_eff) of a pending commit has begun (in computed mode, the release of the
first computation with the new geometry, R325). -/
def execWeightBankSwitch (x : Nat) (s : State) : Res := .next (s.wagSwitch x)

/-! ### The beam sum (R315, R318) -/

/-- The arrival bit of a record (R238). -/
def State.arrivedRec (s : State) (c : CtnSes) (x l n i : Nat) : Bool :=
  match (s.inputs (c.mapsAt (n / c.d)).inmap).find? (fun e => e.2.1 ≤ i && i < e.2.1 + e.2.2) with
  | some e => s.ctn.arrived.contains ⟨x, n / c.d, l, n, e.2.1⟩
  | none => false

/-- The weight of epoch e as the engine reads it; a word of `bad` reads as 0. -/
def State.weightRead (s : State) (x : Nat) (t : WagSes) (bad : List Nat) (e b j l : Nat) : Int × Int :=
  let bank := if s.wagExplicit x then (bankAt t.banks e).2 else e % 2
  let i := s.wtIndex x b j l
  if bad.contains (bank * 2 ^ 24 + i) then (0, 0)
  else let w := s.wtGet bank i; (signed 8 (w / 256), signed 8 w)

/-- One component after the output shift, clamped to the format. -/
def wagClamp (fmt8 : Bool) (v : Int) : Int :=
  let lim : Int := if fmt8 then 127 else 32767
  if v > lim then lim else if v < -lim then -lim else v

/-- R315: the beam sum of beam b, local channel l, spectrum n, shifted but not clamped. -/
def State.beamSum (s : State) (c : CtnSes) (x : Nat) (t : WagSes) (bad : List Nat) (n l b : Nat) : Int × Int :=
  let e := s.wagEpoch x (c.home n)
  let terms := (List.range (s.wagNb x)).map (fun j =>
    let v := s.broodRead c x l n (s.wagInFirst x + j)
    let w := s.weightRead x t bad e b j l
    (w.1 * v.1 - w.2 * v.2, w.1 * v.2 + w.2 * v.1))
  let osh := bitsOf (s.rd (WAG_SESx_OUT x)) 20 16
  (shrConv (sumI (terms.map (·.1))) osh, shrConv (sumI (terms.map (·.2))) osh)

def State.wagFmt8 (s : State) (x : Nat) : Bool := s.bit (WAG_SESx_OUT x) 8 == 1

/-- The beam samples of reference tick k in the order of R317: spectrum, local channel, beam. -/
def State.wagItems (s : State) (c : CtnSes) (x k : Nat) (t : WagSes) : List (Nat × Nat × Nat) :=
  if k < c.w then []
  else
    let ok (n : Nat) : Bool := match t.first with | some f => f ≤ s.wagEpoch x (c.home n) && s.wagKe x ≤ c.home n | none => false
    ((c.specsOf (k - c.w)).filter ok).flatMap (fun n =>
      (List.range (s.numOwned (c.mapsAt (n / c.d)).map)).flatMap (fun l => (List.range (s.wagBeams x)).map (fun b => (n, l, b))))

/-! ### Output (R329 to R331) -/

/-- The waggle header (Table 12-3). -/
def State.wagHeader (s : State) (c : CtnSes) (x flags ch l n cnt absent k bytes : Nat) (last : Bool) : List Byte :=
  toBE 2 0xB70F ++ [1, BitVec.ofNat 8 ((if last then 128 else 0) + (if s.wagFmt8 x then 64 else 0))] ++ toBE 2 x
  ++ toBE 2 s.hiveId ++ toBE 2 flags ++ toBE 2 ch ++ toBE 2 l ++ toBE 2 (s.wagBeams x) ++ toBE 8 n ++ toBE 2 cnt ++ toBE 2 0
  ++ toBE 4 absent ++ toBE 8 k ++ toBE 4 0 ++ toBE 4 bytes ++ toBE 8 (s.wagEpoch x k)
  ++ toBE 4 (c.mapsAt (n / c.d)).version ++ toBE 4 0

/-- A send that is lost (R331). -/
def State.wagLost (s : State) (x : Nat) : State := (s.count (WAG_SESx_LOST x) 1).flag WAG_ERR 6

def State.wagRingPut (s : State) (x : Nat) (b : List Byte) : State × Bool :=
  s.ringPut (WAG_SESx_RING_BASE x) (WAG_SESx_RING_SIZE x) (WAG_SESx_RING_WR x) (WAG_SESx_RING_RD x) b

/-- The reasons of the records that a block reads (R318): absent records and the marks of home tick h. -/
def State.wagReasons (s : State) (x h : Nat) (ds : List Nat) (absent : Nat) : List Nat :=
  let lo := s.wagInFirst x
  let hi := lo + s.wagNb x
  let codes := s.ctn.marks.flatMap (fun p =>
    if p.1.x = x && ds.contains p.1.d && p.1.tick = h then
      (List.zip (List.range p.2.length) p.2).filterMap (fun q =>
        if lo ≤ p.1.si + q.1 && p.1.si + q.1 < hi && q.2 ≠ 0 then some q.2 else none)
    else [])
  let rs := codes.foldl (fun a v => addNew a (if bitOf v 2 = 1 then rSpare else rBroodAbsent)) []
  if absent = 0 then rs else addNew rs rBroodAbsent

/-- Input-spectrum pairs of local channel l and spectra `ns` whose records had arrival bit 0. -/
def State.wagAbsent (s : State) (c : CtnSes) (x l : Nat) (ns : List Nat) : Nat :=
  sumL (ns.map (fun n => ((List.range (s.wagNb x)).filter (fun j => !s.arrivedRec c x l n (s.wagInFirst x + j))).length))

/-- One send: the samples of local channel l, spectra `ns` of one home tick and dwell (R329, R330). -/
def State.wagSend (s : State) (c : CtnSes) (x h l : Nat) (ns : List Nat) (vals : List (Int × Int)) (rs : List Nat) (absent : Nat) : State :=
  let g := if s.wagFmt8 x then 2 else 4
  let n := ns.headD 0
  let ch := nth (s.wagChans x (n / c.d)) l 0
  let data := vals.flatMap (fun v => toBE (g / 2) (unsigned (4 * g) v.1) ++ toBE (g / 2) (unsigned (4 * g) v.2))
  let out := s.rd (WAG_SESx_OUT x)
  let fl := flagWord rs false
  let ports := bitList 32 (s.rd (WAG_SESx_PORTS x))
  let per := 4194304 / g * g
  let s := s.each (chunks (ceilDiv data.length per) per data) (fun s part =>
    let head (last : Bool) := s.wagHeader c x fl ch l n ns.length absent h part.length last
    let s := s.when (bitOf out 0 = 1 && !ports.isEmpty) (fun s =>
      s.streamSend .waggle x x 1 h (nth ports (l % ports.length) 0) (s.productQueue x 2) (s.rd (WAG_SESx_UDP x) % 65536)
        (head false) 40 3 7 g part)
    if bitOf out 1 = 1 then
      let r := s.wagRingPut x (head true ++ part)
      if r.2 then r.1 else r.1.wagLost x
    else s)
  if bitOf out 2 = 1 then
    let cfg := s.rd (WAG_SESx_WRK x)
    let b := s.wagBeams x
    let pick := (List.zip (List.range vals.length) vals).filter (fun q =>
      bitsOf cfg 25 13 ≤ q.1 % b && q.1 % b ≤ bitsOf cfg 25 13 + bitsOf cfg 12 0)
    s.winPut (bitsOf cfg 31 26) (pick.flatMap (fun q => [unsigned 24 q.2.1, unsigned 24 q.2.2])) rs (s.sesReplay x)
  else s

/-- The block of reference tick k of session x is complete: its sends, one per dwell and local channel. `short` are the
reasons of samples that were not formed. -/
def State.wagDeliver (s : State) (c : CtnSes) (x k : Nat) (t : WagSes) (w : WagWork) (short : List Nat) : State :=
  let items := s.wagItems c x k t
  let h := k - c.w
  let e := s.wagEpoch x h
  let vals := w.vals ++ List.replicate (items.length - w.vals.length) (0, 0)
  let miss := match t.missed.find? (·.1 == e) with | some m => m.2 | none => []
  let bad := if w.bad || t.bad.contains e then [rMemUncorr] else []
  let u := s.takeUntimed x
  let step := if u.2.specsStepped c (items.headD (0, 0, 0)).1 (items.getLastD (0, 0, 0)).1 then [rTimeStep] else []
  let base := addReasons (addReasons (addReasons (addReasons u.1 miss) bad) step) short
  let zipped := List.zip items vals
  let dwells := items.foldl (fun l i => addNew l (i.1 / c.d)) []
  let specs (d : Nat) : List Nat := ((c.specsOf h).filter (fun n => n / c.d == d && items.any (fun i => i.1 == n)))
  let chans (d : Nat) : List Nat := List.range (u.2.numOwned (c.mapsAt d).map)
  let total := sumL (dwells.flatMap (fun d => (chans d).map (fun l => u.2.wagAbsent c x l (specs d))))
  let rs := addReasons base (u.2.wagReasons x h dwells total)
  let s := u.2.each dwells (fun s d =>
    let mine := zipped.filter (fun z => z.1.1 / c.d == d)
    let ns := specs d
    s.each (chans d) (fun s l =>
      let ab := s.wagAbsent c x l ns
      let s := (s.count (WAG_SESx_ABSENT x) ab).noteProduct x rs
      let vs := (mine.filter (fun z => z.1.2.1 == l)).map (·.2)
      let s := { s with acq := { s.acq with beams := ((⟨x, h, l, ns, vs, rs⟩ : BeamTick) :: s.acq.beams.filter (fun b => s.sesReplay b.x || decide (s.tick ≤ b.h + s.wagW b.x + 8))).take 1048576 } }
      s.wagSend c x h l ns vs rs ab))
  { s with wag := { s.wag with work := s.wag.work.filter (fun q => !(q.x == x && q.k == k)), fin := ((x, k) :: s.wag.fin).take 65536 } }

/-- CMAC-cycles of a tick. -/
def wagCycles : Nat := 65536000

/-- CMAC-cycles of the tick in progress that the sessions of `p` have used. -/
def State.wagUsed (s : State) (p : Nat → Bool) : Nat :=
  sumL ((s.wag.used.filter (fun u => u.1 == s.tick && p u.2.1)).map (·.2.2))

/-- Session x has stopped before reference tick k, or forms no beams of it. -/
def State.wagIdle (s : State) (x k : Nat) (c : CtnSes) (t : WagSes) : Bool :=
  (match t.stop with | some m => s.sesReplay x || decide (m < k) | none => false) || (s.wagItems c x k t).isEmpty || s.wag.fin.contains (x, k)

/-- The work of reference tick k of session x so far. -/
def State.wagWorkOf (s : State) (x k : Nat) : WagWork :=
  match s.wag.work.find? (fun q => q.x == x && q.k == k) with | some q => q | none => ⟨x, k, [], false, []⟩

/-- A sample draws on a record with an uncorrectable byte (Table 2-5). -/
def State.beamBad (s : State) (c : CtnSes) (x n l : Nat) : Bool :=
  !s.ctn.bad.isEmpty && (List.range (s.wagNb x)).any (fun j => s.broodBad c l n (s.wagInFirst x + j))

/-- Session x's part of reference tick k, up to its grant of CMAC-cycles and those of the tick (R317). -/
def State.wagSession (s : State) (k : Nat) (errs : List WordErr) (x : Nat) : State :=
  match s.wagFor x k, s.wagCtn x k with
  | some t0, some c =>
    let e := s.wagEpoch x (k - c.w)
    let s := if s.epochLate x e t0 then s.epochMiss x e t0 else s
    let t := (s.wagFor x k).getD t0
    let items := s.wagItems c x k t
    if s.wagIdle x k c t || (s.sesReplay x && !s.wagExplicit x && !t.done.contains e) then s
    else
      let w := s.wagWorkOf x k
      let zero := t.missed.any (·.1 == e)
      let cost := s.wagNb x * c.mCycles
      let used := s.wagUsed (· == x)
      let left := items.drop w.vals.length
      let all := used + left.length * cost
      let g := if zero then (all, all) else s.granted 2 x all
      let grant := (g.1 - used) / cost
      let room := if zero then left.length else (wagCycles - s.wagUsed (fun _ => true)) / cost
      let n := min left.length (min grant room)
      let un := (errs.filter (·.uncorr)).map (·.addr)
      let raw := (left.take n).map (fun i => if zero then (0, 0) else s.beamSum c x t un i.1 i.2.1 i.2.2)
      let f8 := s.wagFmt8 x
      let clips := (raw.filter (fun v => wagClamp f8 v.1 != v.1)).length + (raw.filter (fun v => wagClamp f8 v.2 != v.2)).length
      let bank := if s.wagExplicit x then (bankAt t.banks e).2 else e % 2
      let mine := un.any (fun a => bank * 2 ^ 24 + s.wtIndex x 0 0 0 ≤ a
        && a < bank * 2 ^ 24 + s.wtIndex x 0 0 0 + s.wagWords x (s.wagChans x (c.dwellAt (k - c.w))).length)
      let poor := (left.take n).any (fun i => s.beamBad c x i.1 i.2.1)
      let taken := s.wag.used.any (fun u => u.1 == s.tick && u.2.2 != 0 && decide (s.classRank u.2.1 < s.classRank x))
      let why := if n = left.length then [] else if grant < min left.length room then withheldReasons grant ((g.2 - used) / cost) left.length
        else if taken then [rClass] else []
      let w : WagWork := ⟨x, k, w.vals ++ raw.map (fun v => (wagClamp f8 v.1, wagClamp f8 v.2)), w.bad || (!zero && (mine || poor)), why⟩
      let s := s.count (WAG_SESx_OCLIP x) clips
      let s := s.setFd (WAG_SESx_STATUS x) ⟨15, 0⟩ e
      let s := { s with wag := { s.wag with
        work := w :: s.wag.work.filter (fun q => !(q.x == x && q.k == k))
        used := (s.tick, x, used + (if zero then 0 else n * cost)) :: s.wag.used.filter (fun u => u.1 == s.tick && u.2.1 != x) } }
      if n = left.length then s.wagDeliver c x k t w [] else s
  | _, _ => s

/-- Sessions with waggle work in the order of R317. -/
def State.wagOrder (s : State) : List Nat :=
  let all := (s.wag.ses ++ s.wag.ending).map (·.1) |>.foldl (fun l x => insAsc x l) []
  (List.range 4).flatMap (fun r => all.filter (fun x => s.classRank x == r))

/-- The live sessions' part of reference tick k, in the tick after it or the one after that (R317). -/
def State.wagLive (s : State) (k : Nat) (errs : List WordErr) : State :=
  if !s.begun (k + 1) || s.begun (k + 3) || !s.worksOn 12 k then s
  else s.each (s.wagOrder.filter (fun x => !s.sesReplay x)) (fun s x => s.wagSession k errs x)

/-- Live work that no short grant holds back is left of the reference ticks that the tick in progress works on. -/
def State.wagBusy (s : State) : Bool :=
  (s.wagOrder.filter (fun x => !s.sesReplay x)).any (fun x => (List.range 2).any (fun j =>
    let k := s.tick - 1 - j
    match s.wagFor x k, s.wagCtn x k with
    | some t, some c => decide (j < s.tick) && !s.wagIdle x k c t && (s.wagWorkOf x k).why.isEmpty
    | _, _ => false))

/-- The replay sessions' part of reference tick k, the earliest they have left, in the cycles that the other sessions leave idle (R332). -/
def State.wagReplay (s : State) (k : Nat) (errs : List WordErr) : State :=
  if s.wagBusy then s
  else s.each (s.wagOrder.filter s.sesReplay) (fun s x => s.when ((s.wagReplayTicks x).head? = some k) (·.wagSession k errs x))

/-- WAGGLE_TICK_WORK (R317): the engine takes the work of reference tick k, in the tick after it or the one after that; what is left of reference
tick k − 1 comes first. Replay work has no deadline (R332). `errs` are the errors its weight words meet (address: bank × 2^24 + index) and those of
brood memory (2^25 + byte). -/
def execWaggleTickWork (k : Nat) (errs : List WordErr) (s : State) : Res :=
  if !s.blockOn 12 || !s.begun (k + 1) then .next s
  else
    let words := errs.filter (fun w => w.addr < 2 ^ 25)
    let s := s.each (errs.filter (fun w => w.uncorr && 2 ^ 25 ≤ w.addr)) (fun s w => s.broodError (w.addr - 2 ^ 25))
    let s := s.count WAG_ECC_CORR (words.filter (fun w => !w.uncorr)).length
    let un := words.filter (·.uncorr)
    let s := (s.count WAG_ECC_UNCORR un.length).when (!un.isEmpty) (·.flag WAG_ERR 4)
    .next (((s.when (k != 0) (·.wagLive (k - 1) words)).wagLive k words).wagReplay k words)

/-- At the end of tick k + 2 what is left of reference tick k is abandoned and delivered as zeros (R317). The answer tells
whether any was left for a cause that R44 does not list. -/
def State.wagAbandon (s : State) (k : Nat) (off : Bool) : State × Bool :=
  (s.wagOrder.filter (fun x => !s.sesReplay x)).foldl (fun (acc : State × Bool) x =>
    match acc.1.wagFor x k, acc.1.wagCtn x k with
    | some t0, some c =>
      let s := acc.1
      let e := s.wagEpoch x (k - c.w)
      let s := if s.epochLate x e t0 then s.epochMiss x e t0 else s
      let t := (s.wagFor x k).getD t0
      if s.wagIdle x k c t then (s, acc.2)
      else
        let w := s.wagWorkOf x k
        let left := (s.wagItems c x k t).length - w.vals.length
        if t.missed.any (·.1 == e) then (s.wagDeliver c x k t w [], acc.2)
        else
          let why := if off then [rUntimed] else if w.why.isEmpty then [rTickAbandoned] else w.why
          let s := (s.count (WAG_SESx_ABANDON x) left).flag WAG_ERR 3
          (s.wagDeliver c x k t w why, acc.2 || why.contains rTickAbandoned)
    | _, _ => acc) (s, false)

/-! ### Commits and register writes (R312, R319, R325 to R327) -/

/-- A commit of geometry or weights for epoch e (R325, R326). It replaces one that is not in force yet. -/
def State.wagCommit (s : State) (x e : Nat) : State :=
  let s := s.wagSwitch x
  match s.wagOf x with
  | none => s
  | some t =>
    if s.wagBegun x e then s.flag WAG_ERR 1
    else
      let old := match t.pend with | some p => t.banks.filter (fun b => b.1 != p) | none => t.banks
      let cur := match old with | b :: _ => b.2 | [] => 0
      let first := match t.first with | some f => if t.pend = some f then e else f | none => e
      let t := { t with banks := ((e, 1 - cur) :: old).take 64, pend := some e, first := some first }
      (s.setWag x t).setBit (WAG_SESx_STATUS x) 30 true

/-- The active bank: that of the newest commit that is not pending. -/
def WagSes.active (t : WagSes) : Nat :=
  match t.pend with
  | some p => (match t.banks.filter (fun b => b.1 != p) with | b :: _ => b.2 | [] => 0)
  | none => (match t.banks with | b :: _ => b.2 | [] => 0)

/-- A write of weight index i of `bank` is ignored (R325, R326). -/
def State.wtBusy (s : State) (bank i : Nat) : Bool :=
  s.wagEnabled.any (fun p =>
    inPart (s.rd (WAG_SESx_WBASE p.1) % 2 ^ 24) (s.wagWords p.1 (s.wagCx p.1)) i
    && (!s.wagExplicit p.1 || p.2.pend.isSome || p.2.active == bank))

def State.geoBusy (s : State) (bank i : Nat) : Bool :=
  s.wagEnabled.any (fun p =>
    !s.wagExplicit p.1 && inPart (s.rd (WAG_SESx_GBASE p.1) % 2 ^ 22) (s.geoWords p.1 (s.wagCx p.1)) i
    && (p.2.pend.isSome || p.2.active == bank))

/-- May waggle work of session x be enabled with configuration `cfg` (R312, R330, R446)? -/
def State.wagArmable (s : State) (x cfg : Nat) : Bool :=
  match s.ctnOf x with
  | none => false
  | some c =>
    let m := c.mapsAt (c.dwellAt s.tick)
    let nx := s.numInputs m.inmap
    let cx := s.numOwned m.map
    let expl := bitOf cfg 2 == 1
    let wb := s.rd (WAG_SESx_WBASE x) % 2 ^ 24
    let gb := s.rd (WAG_SESx_GBASE x) % 2 ^ 22
    let w := s.wagWords x cx
    let g := s.geoWords x cx
    let wrk := s.rd (WAG_SESx_WRK x)
    let win := bitsOf wrk 31 26
    s.bit (CTN_SESx_CFG x) 0 == 1 && s.bit (CTN_SESx_CFG x) 2 == 1
    && s.wagInFirst x + s.wagNb x ≤ nx && wb + w ≤ 2 ^ 24 && (expl || gb + g ≤ 2 ^ 22)
    && (expl || 3 ≤ bitsOf cfg 31 16 + 1)
    && s.wagEnabled.all (fun p => p.1 == x || (
        !meets wb w (s.rd (WAG_SESx_WBASE p.1) % 2 ^ 24) (s.wagWords p.1 (s.wagCx p.1))
        && (expl || s.wagExplicit p.1
            || !meets gb g (s.rd (WAG_SESx_GBASE p.1) % 2 ^ 22) (s.geoWords p.1 (s.wagCx p.1)))))
    && (s.bit (WAG_SESx_OUT x) 1 == 0 || s.ringOk 3 (WAG_SESx_RING_BASE x) (WAG_SESx_RING_SIZE x))
    && (s.bit (WAG_SESx_OUT x) 2 == 0
        || (cx * c.qx * (bitsOf wrk 12 0 + 1) * 2 ≤ (if s.winOn win then s.winSize win - 2 else 0)
            && s.wagEnabled.all (fun p => p.1 == x || s.bit (WAG_SESx_OUT p.1) 2 == 0
                || bitsOf (s.rd (WAG_SESx_WRK p.1)) 31 26 != win)))

/-- WAG_LOAD, WAG_WUSE and WAG_GUSE of the enabled sessions (Tables 12-2 and 12-5). -/
def State.showWag (s : State) : State :=
  let xs := s.wagEnabled.map (·.1)
  let sum := xs.filter s.sesCounts
  let rho := sumL (sum.map (fun x => match s.ctnOf x with
    | some c => s.wagWords x (s.wagCx x) * c.mCycles * cpNs c.grid * (196608 / cpHop c.grid)
    | none => 0)) / 196608000
  let den := sumL ((sum.filter (fun x => !s.wagExplicit x && 3 ≤ s.wagE x)).map (fun x =>
    ceilDiv (s.wagWords x (s.wagCx x)) 1024 * 65536 / (1000 * (s.wagE x - 2))))
  let s := s.wr WAG_LOAD (den % 65536 * 65536 + rho % 65536)
  let s := s.wr WAG_WUSE (sumL (xs.map (fun x => s.wagWords x (s.wagCx x))) % 2 ^ 25)
  s.wr WAG_GUSE (sumL ((xs.filter (fun x => !s.wagExplicit x)).map (fun x => s.geoWords x (s.wagCx x))) % 2 ^ 23)

/-- Is the session enabled? A session that has stopped is kept until its last blocks are formed. -/
def wagPre (a new : Nat) (s : State) : Option State :=
  let bad := some (s.flag WAG_ERR 0)
  if 0xC10000 ≤ a && a < 0xC30000 then
    let x := (a - 0xC10000) / 0x80
    let en := s.bit (WAG_SESx_CFG x) 0 = 1
    match a % 0x80 with
    | 0 =>
      if en && s.rd a / 2 ≠ new / 2 then bad
      else if !en && bitOf new 0 = 1 && !s.wagArmable x new then bad
      else none
    | 0x30 | 0x34 | 0x50 => none
    | _ => if en && s.rd a ≠ new then bad else none
  else none

/-- After a write: waggle work starts or stops (R327), commits, the store windows. -/
def wagPost (a old : Nat) (s : State) : State :=
  if 0xC10000 ≤ a && a < 0xC30000 then
    let x := (a - 0xC10000) / 0x80
    if a % 0x80 = 0 then
      if bitOf old 0 = 0 && s.bit a 0 = 1 then
        let cur := s.bit (WAG_SESx_STATUS x) (if s.wagExplicit x then 29 else 28)
        let s := match s.wagOf x with | some t => { s with wag := { s.wag with ending := (x, t) :: s.wag.ending } } | none => s
        let s := s.setWag x ⟨none, [(0, cur)], none, [], [], [], none⟩
        (s.setBit (WAG_SESx_STATUS x) 31 true).showWag
      else if bitOf old 0 = 1 && s.bit a 0 = 0 then
        let s := match s.wagOf x with
          | some t => s.setWag x { t with stop := some s.tick, pend := none }
          | none => s
        let s := { s with wag := { s.wag with jobs := s.wag.jobs.filter (fun j => j.x != x) } }
        ((s.setBit (WAG_SESx_STATUS x) 31 false).setBit (WAG_SESx_STATUS x) 30 false).showWag
      else s
    else if a % 0x80 = 0x34 && s.bit (WAG_SESx_CFG x) 0 = 1 then
      s.wagCommit x (s.rd64 (WAG_SESx_COMMIT_LO x) (WAG_SESx_COMMIT_HI x))
    else s
  else if a = WAG_WT_DATA then
    let p := s.rd WAG_WT_ADDR % 2 ^ 25
    let s := s.each (s.wagEnabled.map (·.1)) State.wagSwitch
    let s := if s.wtBusy (p / 2 ^ 24) (p % 2 ^ 24) then s.flag WAG_ERR 2 else s.wtPut (p / 2 ^ 24) (p % 2 ^ 24) (s.rd a)
    (s.wr a 0).wr WAG_WT_ADDR ((p + 1) % 2 ^ 25)
  else if a = WAG_GEO_DATA then
    let p := s.rd WAG_GEO_ADDR % 2 ^ 23
    let s := s.each (s.wagEnabled.map (·.1)) State.wagSwitch
    let s := if s.geoBusy (p / 2 ^ 22) (p % 2 ^ 22) then s.flag WAG_ERR 2 else s.geoPut (p / 2 ^ 22) (p % 2 ^ 22) (s.rd a)
    (s.wr a 0).wr WAG_GEO_ADDR ((p + 1) % 2 ^ 23)
  else s

/-- At a tick boundary a stopped session whose last reference tick has ended is forgotten. -/
def State.wagTick (s : State) : State :=
  let live (p : Nat × WagSes) : Bool := match p.2.stop with | some k => !s.begun (k + 3) | none => true
  { s with wag := { s.wag with ses := s.wag.ses.filter live, ending := s.wag.ending.filter live } }

end Sys2Proof.Machine
end

