-- ==== Sys2Proof/Machine/Acq.lean ====
section
/-!
DEFINITION. The acquisition unit (chapter 16): the segment rings, captures, event records, change records, power histories
and the supply of replays.
-/
namespace Sys2Proof.Machine

def State.acqGrp (s : State) (c : Nat) : Option AcqGrp := (s.acq.grps.find? (·.1 == c)).map (·.2)
def State.setAcq (s : State) (c : Nat) (g : AcqGrp) : State := { s with acq := { s.acq with grps := spPut s.acq.grps c g } }

/-- 0 OFF, 1 ARMED, 2 DEAD (Table 16-3). -/
def State.cgState (s : State) (c : Nat) : Nat := bitsOf (s.rd (ACQ_CGc_STATUS c)) 31 30
def State.cgFallback (s : State) (c : Nat) : Bool := s.bit (ACQ_CGc_STATUS c) 29 == 1
def State.cgNseg (s : State) (c : Nat) : Nat := bitsOf (s.rd (ACQ_CGc_CFG c)) 21 18 + 1
def State.cgStart (s : State) (c : Nat) : Nat := s.rd64 (ACQ_CGc_START_LO c) (ACQ_CGc_START_HI c)
def State.cgSession (s : State) (c : Nat) : Nat := bitsOf (s.rd (ACQ_CGc_CFG c)) 31 22
def State.acqErr (s : State) (i : Nat) : State := s.flag ACQ_ERR i

/-- Δ of R418. -/
def State.acqDelta (s : State) (g : AcqGrp) : Nat := if g.cfg.tap = 0 then 4 else if g.cfg.tap = 1 then 6 else s.wagW g.cfg.wses + 4

/-- The live segment, unless it has stopped taking data. -/
def AcqGrp.live (g : AcqGrp) : Option AcqSpan :=
  match g.spans with
  | sp :: _ => if sp.last.isNone && g.dead.isNone then some sp else none
  | [] => none

/-- Segment i of the group holds neither the live data nor a byte of a filling or sealed capture (R422, R423). -/
def AcqGrp.isFree (g : AcqGrp) (i : Nat) : Bool :=
  (g.spans.take 1).all (fun sp => sp.last.isSome || sp.seg != i)
  && g.caps.all (fun p => g.cfg.base + (i + 1) * g.cfg.segBytes ≤ p.cfg.base + p.seg * p.cfg.segBytes
      || p.cfg.base + (p.seg + 1) * p.cfg.segBytes ≤ g.cfg.base + i * g.cfg.segBytes)

/-- The free segments, ascending. -/
def State.cgFree (s : State) (c : Nat) (g : AcqGrp) : List Nat := (List.range (s.cgNseg c)).filter g.isFree

/-- ACQ_CGc_STATUS from the group's state. -/
def State.showCg (s : State) (c : Nat) (g : AcqGrp) : State :=
  let on := s.bit (ACQ_CGc_CFG c) 0 = 1 || g.off
  let live := match g.spans with | sp :: _ => sp.seg | [] => 0
  let sealed_ := sumL ((List.range 16).map (fun i => if g.caps.any (fun p => p.seg == i && p.sealed_) then 2 ^ i else 0))
  s.wr (ACQ_CGc_STATUS c) ((if !on then 0 else if g.dead.isSome then 2 else 1) * 2 ^ 30
    + (if on && s.cgFallback c then 2 ^ 29 else 0) + live % 16 * 2 ^ 24 + sealed_)

def State.putCg (s : State) (c : Nat) (g : AcqGrp) : State := (s.setAcq c g).showCg c g

/-! ### Configuration (R415 to R417) -/

/-- Bits per sample of hive input i on its nectar port (Table 5-4). -/
def State.inputBits (s : State) (i : Nat) : Option Nat :=
  ((List.range 64).find? (fun n =>
    let cfg := s.rd (NEC_PORTn_CFG n)
    bitOf cfg 0 == 1 && bitsOf cfg 15 8 ≤ i && i ≤ bitsOf cfg 15 8 + bitsOf cfg 7 4 && bitsOf cfg 3 1 ≤ 4)).map
    (fun n => necBits (bitsOf (s.rd (NEC_PORTn_CFG n)) 3 1))

/-- Slot size of a member input at a tap (Table 16-1); none where the input has no known width. -/
def State.slotBytes (s : State) (tap i : Nat) : Option Nat :=
  if tap = 0 then (s.inputBits i).map (fun b => ceilDiv ((ceilDiv (s.fd (ING_Ii_RATE i) ING_Ii_RATE_RATE_KSPS) 1000 + 1) * b) 512 * 64)
  else some (ceilDiv (2 * s.inputNs i) 64 * 64)

/-- What group c would record if it were enabled with configuration word `cfg`. -/
def State.acqConfig (s : State) (c cfg : Nat) : Option AcqCfg :=
  let tap := bitsOf cfg 7 6
  let mem := s.rd (ACQ_CGc_MEMBERS c)
  let count := bitsOf mem 15 8 + 1
  let first := if tap = 2 then bitsOf (s.rd (ACQ_CGc_BEAMSEL c)) 28 16 else mem % 256
  let wses := s.rd (ACQ_CGc_BEAMSEL c) % 1024
  let st := s.rd (ACQ_CGc_ST c) % 2 ^ 24 + 1
  let ids := (List.range count).map (· + first)
  let qs : Option (List Nat) :=
    if tap = 2 then
      match s.ctnOf wses, s.wagOf wses with
      | some k, some _ =>
        if first + count ≤ s.wagBeams wses && s.bit (WAG_SESx_CFG wses) 0 = 1 then
          some (ids.map (fun _ => ceilDiv (k.qx * s.wagCx wses * (if s.wagFmt8 wses then 2 else 4)) 64 * 64))
        else none
      | _, _ => none
    else if tap = 3 || 256 < first + count || !ids.all (fun i => s.bit (ING_Ii_CFG i) 0 == 1) then none
    else ids.foldr (fun i l => match l, s.slotBytes tap i with | some l, some q => some (q :: l) | _, _ => none) (some [])
  qs.map (fun q => ⟨tap, first, q, st, wses, s.rd (ACQ_CGc_BASE c) % 2 ^ 25 * 65536,
    ceilDiv (st * (sumL q + 8 * count)) 65536 * 65536, if tap = 2 then s.wagCx wses else 0, tap = 2 && s.wagFmt8 wses⟩)

/-- May group c be enabled (R416)? -/
def State.cgArmable (s : State) (c cfg : Nat) : Bool :=
  match s.acqConfig c cfg with
  | none => false
  | some a =>
    let nseg := bitsOf cfg 21 18 + 1
    let post := s.rd (ACQ_CGc_POST c) % 2 ^ 24
    2 ≤ nseg && s.rd (ACQ_CGc_PRE c) % 2 ^ 24 + post + 1 ≤ a.st && s.rd (ACQ_CGc_LAG c) % 256 ≤ post
    && bitsOf cfg 13 12 != 3
    && s.inPartition 0 a.base (nseg * a.segBytes)
    && s.acq.grps.all (fun p => p.1 == c || s.bit (ACQ_CGc_CFG p.1) 0 == 0
        || a.base + nseg * a.segBytes ≤ p.2.cfg.base || p.2.cfg.base + s.cgNseg p.1 * p.2.cfg.segBytes ≤ a.base)
    && (match s.acqGrp c with | some g => g.caps.all (·.sealed_) | none => true)

/-- A group goes OFF: a filling capture ends at LAST_TICK, the live segment with the tick that ends (Table 16-3). -/
def State.endCg (s : State) (c t : Nat) : State :=
  match s.acqGrp c with
  | none => s
  | some g =>
    let end_ (sp : AcqSpan) : AcqSpan :=
      match g.caps.find? (fun p => p.seg == sp.seg && !p.sealed_) with
      | some p => { sp with last := some p.last }
      | none => { sp with last := some t }
    let g := { g with spans := match g.spans with | sp :: r => end_ sp :: r | [] => [], off := false,
                      caps := g.caps.map (fun p => if p.sealed_ then p else { p with e := p.last }), dead := none }
    s.putCg c g

/-- EN is written 0: the group is OFF from the next tick boundary (Table 16-3). -/
def State.stopCg (s : State) (c : Nat) : State :=
  match s.acqGrp c with
  | none => s
  | some g => s.setAcq c { g with off := true }

/-- Group c is enabled: the lowest segment that is not sealed is live from START (Table 16-3). -/
def State.startCg (s : State) (c : Nat) : State :=
  let s := match s.acqGrp c with | some g => s.when g.off (fun s => s.endCg c s.tick) | none => s
  match s.acqConfig c (s.rd (ACQ_CGc_CFG c)) with
  | none => s
  | some a =>
    let old := (s.acqGrp c).getD AcqGrp.reset
    let start := s.cgStart c
    let g : AcqGrp := { AcqGrp.reset with cfg := a, caps := old.caps, rel := old.rel, fresh := old.fresh, prevTe := start * 4000,
                                          cur := (s.tick, s.trg.decs.length), drop := old.drop }
    let g := match s.cgFree c g with
      | i :: _ => { g with spans := [⟨i, start, none⟩] }
      | [] => { g with dead := some start }
    (s.wr (ACQ_CGc_SEG_BYTES c) (a.segBytes / 65536)).putCg c g

/-! ### Releases and the segment switch (R422, R424) -/

/-- A release that has begun takes effect: its segment is free, and a DEAD group is ARMED again with the lowest free segment. -/
def State.cgFreed (s : State) (c : Nat) (g : AcqGrp) (q : Nat × Nat × Bool) : AcqGrp :=
  let g := { g with rel := g.rel.filter (·.1 != q.1), caps := g.caps.filter (fun p => p.seg != q.1 || !p.sealed_),
                    fresh := if q.2.2 then addNew g.fresh q.1 else g.fresh }
  match g.dead with
  | some d =>
    if s.cgState c ≠ 0 then
      match s.cgFree c g with
      | i :: _ => { g with dead := none, ivals := (d * 4000, q.2.1 * 4000) :: g.ivals, spans := (⟨i, q.2.1, none⟩ :: g.spans).take 16 }
      | [] => g
    else g
  | none => g

/-- After tick e the lowest free segment becomes live, or the group is DEAD (R422). -/
def State.cgSwitched (s : State) (c : Nat) (g : AcqGrp) : AcqGrp :=
  match g.spans with
  | ⟨_, _, some e⟩ :: _ =>
    if s.cgState c ≠ 1 || g.dead.isSome || !s.begun (e + 1) then g
    else match s.cgFree c g with
      | i :: _ => { g with spans := (⟨i, e + 1, none⟩ :: g.spans).take 16 }
      | [] => { g with dead := some (e + 1) }
  | _ => g

/-- Sorted insertion of a release by its tick. -/
def insRel (q : Nat × Nat × Bool) : List (Nat × Nat × Bool) → List (Nat × Nat × Bool)
  | [] => [q]
  | a :: t => if q.2.1 < a.2.1 then q :: a :: t else a :: insRel q t

/-- The releases whose tick has begun, by tick. -/
def State.cgDue (s : State) (g : AcqGrp) : List (Nat × Nat × Bool) :=
  (g.rel.filter (fun q => s.begun q.2.1)).foldl (fun l q => insRel q l) []

/-- A release of tick r comes before the switch that the live segment waits for. -/
def AcqGrp.before (g : AcqGrp) (r : Nat) : Bool := match g.spans with | ⟨_, _, some e⟩ :: _ => g.dead.isNone && r ≤ e + 1 | _ => true

/-- The group after the due releases that come before its switch, and the switch. -/
def State.cgTurned (s : State) (c : Nat) (g : AcqGrp) : AcqGrp :=
  s.cgSwitched c (((s.cgDue g).filter (fun q => g.before q.2.1)).foldl (s.cgFreed c) g)

/-- The group as the releases and the switch that are due leave it, in the order of their ticks. -/
def State.cgSettled (s : State) (c : Nat) (g : AcqGrp) : AcqGrp :=
  ((s.cgDue g).filter (fun q => !g.before q.2.1)).foldl (s.cgFreed c) (s.cgTurned c g)

/-- Group c as `n`, which a switch left as `turned`: DEAD is recorded where the group entered it. -/
def State.cgMoved (s : State) (c : Nat) (g turned n : AcqGrp) : State :=
  (s.putCg c n).when (g.dead.isNone && turned.dead.isSome) (·.acqErr 3)

/-- The state with group c settled. -/
def State.cgSettle (s : State) (c : Nat) (g : AcqGrp) : State :=
  let n := s.cgSettled c g
  if n = g then s else s.cgMoved c g (s.cgTurned c g) n

/-! ### The ring (R417 to R419) -/

/-- Samples of `bw` bits packed LSB first into bytes. -/
def packBits (bw : Nat) (l : List Int) : List Byte :=
  toLE (ceilDiv (bw * l.length) 8) ((l.foldr (fun v acc => unsigned bw v + 2 ^ bw * acc) 0))

/-- A member's data of one tick: its bytes, and the index entry's MARK, FORMAT, COUNT, PHASE. -/
structure AcqData where
  bytes  : List Byte
  mark   : Nat
  format : Nat
  count  : Nat
  phase  : Nat
  deriving DecidableEq, Repr

/-- The absence mark of a cause (Table 9-2). -/
def absentMark (c : NecCause) : Nat := if c = .laneLost then 5 else 1

/-- The mark of a canonical tick (R167, Table 9-2). -/
def canonMark (l : List Smp) : Nat :=
  l.foldl (fun m x => if x.c = .none then m else Nat.lor m ((if x.gap then 1 else 2) + (if x.c = .laneLost then 4 else 0))) 0

/-- The mark of a beam block's reasons (R318). -/
def beamMark (rs : List Nat) : Nat :=
  if rs.contains rSpare then 5 else if rs.contains rBroodAbsent then 1 else 0

/-- Is tick k of member input i delivered at the tap? -/
def State.tapReady (s : State) (g : AcqGrp) (k m : Nat) : Bool :=
  let i := g.cfg.first + m
  match g.cfg.tap with
  | 0 => s.acq.native.any (fun t => t.input == i && t.tick == k)
  | 1 => s.ing.canon.any (fun t => t.input == i && t.tick == k && !t.replay)
  | _ => s.wag.fin.contains (g.cfg.wses, k + s.wagW g.cfg.wses)

/-- The data of tick k of member m (Table 16-1). What the tap did not deliver is absent with cause NONE_RECEIVED. -/
def State.tapData (s : State) (g : AcqGrp) (k m : Nat) : AcqData :=
  let i := g.cfg.first + m
  let q := nth g.cfg.q m 0
  let gone : NecCause := if s.tickSkipped k then .stepped else .noneReceived
  match g.cfg.tap with
  | 0 =>
    match s.acq.native.find? (fun t => t.input == i && t.tick == k) with
    | some t =>
      if t.cause = .none then ⟨(packBits t.bits t.samples).take q, 0, (t.bits - 8) / 2, t.samples.length, t.phase⟩
      else ⟨[], absentMark t.cause, 0, 0, 0⟩
    | none => ⟨[], absentMark gone, 0, 0, 0⟩
  | 1 =>
    match s.ing.canon.find? (fun t => t.input == i && t.tick == k && !t.replay) with
    | some t => ⟨(packBits 16 (t.samples.map (fun x => if x.gap then 0 else x.v))).take q, canonMark t.samples, 0, t.samples.length, 0⟩
    | none => ⟨List.replicate (2 * s.inputNs i) 0, absentMark gone, 0, s.inputNs i, 0⟩
  | _ =>
    let bs := s.acq.beams.filter (fun b => b.x == g.cfg.wses && b.h == k)
    let w := if g.cfg.fmt8 then 1 else 2
    let nb := s.wagBeams g.cfg.wses
    let specs := (bs.flatMap (·.ns)).foldl (fun l n => insAsc n l) []
    let recs := specs.flatMap (fun n => (List.range g.cfg.cx).flatMap (fun l =>
      match bs.find? (fun b => b.l == l && b.ns.contains n) with
      | some b => [nth b.vals (((idxOf b.ns n).getD 0) * nb + i) (0, 0)]
      | none => []))
    let data := recs.flatMap (fun v => toBE w (unsigned (8 * w) v.1) ++ toBE w (unsigned (8 * w) v.2))
    ⟨data.take q, if bs.isEmpty then 1 else bs.foldl (fun a b => Nat.lor a (beamMark b.rs)) 0, 0, recs.length, 0⟩

/-- An index entry (Table 16-2). -/
def indexEntry (d : AcqData) (written : Bool) : List Byte :=
  toLE 8 (d.mark % 16 * 2 ^ 60 + (if written then 2 ^ 59 else 0) + d.format % 8 * 2 ^ 56 + d.count % 2 ^ 13 * 2 ^ 43 + d.phase % 2 ^ 32)

/-- Address of member m's slot of tick k, and of its index entry, in segment `seg` (R417). -/
def AcqCfg.slotAddr (a : AcqCfg) (seg k m : Nat) : Nat :=
  a.base + seg * a.segBytes + a.st * sumL (a.q.take m) + k % a.st * nth a.q m 0
def AcqCfg.indexAddr (a : AcqCfg) (seg k m : Nat) : Nat :=
  a.base + seg * a.segBytes + a.st * sumL a.q + (k % a.st * a.q.length + m) * 8

/-- The segment that holds tick k. -/
def AcqGrp.segOf (g : AcqGrp) (k : Nat) : Option Nat :=
  (g.spans.find? (fun sp => sp.s0 ≤ k && (match sp.last with | some e => k ≤ e | none => g.dead.isNone))).map (·.seg)

/-- Tick k enters the ring of group c: every member's data, unless they are given up with the reasons `lost`, and the index
entries in both cases (R418, R419). -/
def State.ringTick (s : State) (c : Nat) (g : AcqGrp) (seg k : Nat) (lost : Option (List Nat)) : State :=
  let ms := List.range g.cfg.q.length
  let ds := ms.map (fun m => (m, s.tapData g k m))
  let s := match lost with
    | none => s.each ds (fun s d => s.when (!d.2.bytes.isEmpty) (·.ddrWrite (g.cfg.slotAddr seg k d.1) d.2.bytes))
    | some _ => (s.count (ACQ_CGc_MISSING c) 1).acqErr 4
  let s := s.each ds (fun s d => s.ddrWrite (g.cfg.indexAddr seg k d.1)
    (indexEntry (if lost.isSome then { d.2 with count := 0 } else d.2) lost.isNone))
  s.setAcq c { g with ticks := (⟨k, lost.isNone, ds.map (·.2.mark), lost.getD []⟩ :: g.ticks).take (g.cfg.st + 65536) }

/-- CAPTURE_RING_WRITE (R417 to R419): tick k of group c, once its tap has delivered it and not after tick k + Δ. -/
def execCaptureRingWrite (c k : Nat) (s : State) : Res :=
  let s := match s.acqGrp c with | some g => s.cgSettle c g | none => s
  match s.acqGrp c with
  | none => .next s
  | some g =>
    let due := s.begun (k + s.acqDelta g)
    match g.segOf k with
    | none => .next s
    | some seg =>
      if !s.worksOn 15 k || g.ticks.any (·.k == k) || !s.begun (k + 1) || s.begun (k + s.acqDelta g + 1)
        || !(due || (List.range g.cfg.q.length).all (fun m => s.tapReady g k m)) then .next s
      else .next (s.ringTick c g seg k none)

/-! ### Change records (R431) -/

/-- Positions at which a run of hit bits changes, with the new bit. -/
def hitChanges : Nat → Bool → List Bool → List (Nat × Bool)
  | _, _, [] => []
  | m, p, b :: r => if b == p then hitChanges (m + 1) p r else (m, b) :: hitChanges (m + 1) b r

/-- The hit bits of input i in tick k: 0 for what the slot did not produce. -/
def State.hitsOf (s : State) (i k : Nat) : List Bool :=
  match s.ing.canon.find? (fun c => c.input == i && c.tick == k && !c.replay) with
  | some c => c.hits
  | none => List.replicate (s.inputNs i) false

/-- Word 1 of a change record. -/
def chgWord (v ovf : Bool) (i sub low : Nat) : Nat :=
  (if v then 2 ^ 63 else 0) + (if ovf then 2 ^ 62 else 0) + i % 256 * 2 ^ 54 + sub % 4096 * 2 ^ 42 + low % 2 ^ 32

/-- The change records of input i in tick k, with the number of changes not recorded. -/
def State.chgOf (s : State) (i k : Nat) : List Nat × Nat :=
  let ns := s.inputNs i
  let prev := if k = 0 then false else (s.hitsOf i (k - 1)).getLastD false
  let h := s.hitsOf i k
  let ch := hitChanges 0 prev h
  let mx := s.rd ACQ_CHG_CFG % 32
  let recs := (ch.take mx).map (fun q => chgWord q.2 false i (q.1 * 4000 / ns) 0)
  if ch.length ≤ mx then (recs, 0)
  else (recs ++ ([chgWord (h.getLastD prev) true i 3999 (ch.length - mx)] : List Nat), ch.length - mx)

/-- The first record that is no OVF record carries the number of records lost before it. -/
def chgMark (lost : Nat) : List Nat → List Nat × Nat
  | [] => ([], lost)
  | w :: r => if bitOf w 62 = 1 then let t := chgMark lost r; (w :: t.1, t.2) else ((w + lost % 2 ^ 32) :: r, 0)

/-- Free units of a ring whose registers are given. -/
def State.ringFree (s : State) (rSize rWr rRd : Nat) : Nat :=
  let size := s.rd rSize * 1024
  if size = 0 then 0 else size - 1 - (s.rd rWr + size - s.rd rRd % size) % size

/-- Have the slots of these inputs delivered tick k, or can they no longer? -/
def State.canonReady (s : State) (ins : List Nat) (k : Nat) : Bool :=
  s.begun (k + 5) || ins.all (fun i => s.ing.canon.any (fun c => c.input == i && c.tick == k && !c.replay))

/-- The inputs whose hit bits change records show. -/
def State.chgInputs (s : State) : List Nat :=
  (List.range 256).filter (fun i => s.bit (ING_Ii_CFG i) 0 == 1 && s.bit (ING_Ii_CFG i) 4 == 1 && !s.slotReplay i)

/-- The change records of tick k, not written by their deadline, are given up (R43); the answer tells whether they were still to be written. -/
def State.chgAbandon (s : State) (k : Nat) : State × Bool :=
  let old := match s.acq.chgLast with | some t => k ≤ t | none => false
  if s.bit ACQ_CHG_CFG 31 = 0 || old || !s.begun (k + 7) then (s, false)
  else
    let n := sumL (s.chgInputs.map (fun i => (s.chgOf i k).1.length))
    ({ (s.count ACQ_CHG_LOST n) with acq := { (s.count ACQ_CHG_LOST n).acq with chgLast := some k, chgLost := s.acq.chgLost + n } }, true)

/-- The history frame of tick k, not written by its deadline, is given up (R43). -/
def State.histAbandon (s : State) (k : Nat) : State × Bool :=
  let old := match s.acq.histLast with | some t => k ≤ t | none => false
  if s.bit ACQ_HIST_CFG 31 = 0 || k % (s.rd ACQ_HIST_CFG % 2 ^ 20) ≠ 0 || old || !s.begun (k + 7) then (s, false)
  else ({ (s.count ACQ_HIST_LOST 1) with acq := { (s.count ACQ_HIST_LOST 1).acq with histLast := some k } }, true)

/-! ### Work given up -/

/-- The writes of tick k that have not been made at its deadline are given up (R43, R419); `off` while the block's EN is 0. The
answer tells whether any was left for a cause that R44 does not list. -/
def State.acqAbandon (s : State) (k : Nat) (off : Bool) : State × Bool :=
  let s := s.each s.acq.grps (fun s p => s.cgSettle p.1 p.2)
  let r := s.acq.grps.foldl (fun (acc : State × Bool) p =>
    match p.2.segOf k with
    | none => acc
    | some seg =>
      if p.2.ticks.any (·.k == k) || !acc.1.begun (k + acc.1.acqDelta p.2 + 1) then acc
      else (acc.1.ringTick p.1 p.2 seg k (some [if off then rUntimed else rTickAbandoned]), acc.2 || !off)) (s, false)
  let g := r.1.chgAbandon k
  let h := g.1.histAbandon k
  (h.1, r.2 || (!off && (g.2 || h.2)))

/-! ### Event records (R427 to R430) -/

/-- The decision record in bytes (Table 15-3). -/
def decBytes (r : DecRec) : List Byte :=
  toBE 1 r.kind ++ toBE 1 0 ++ toBE 2 (flagWord r.rs r.late) ++ toBE 2 r.origin ++ toBE 2 r.count ++ toBE 8 r.tick ++ toBE 2 r.sub
  ++ toBE 2 r.mask ++ toBE 4 0 ++ toBE 8 r.number

/-- The fields of an event record that depend on its kind. -/
structure EvtFields where
  kind    : Nat
  cause   : Nat
  first   : Nat
  last    : Nat
  link    : Nat
  dead    : Nat
  addr    : Nat
  seg     : Nat
  missing : Nat
  absent  : Nat
  drop    : Nat
  deriving DecidableEq, Repr

/-- An event record (Table 16-5). -/
def eventRecord (g : AcqGrp) (c ev : Nat) (d : DecRec) (rs : List Nat) (late : Bool) (f : EvtFields) : List Byte :=
  toBE 1 f.kind ++ toBE 1 f.cause ++ toBE 2 (flagWord rs late) ++ toBE 2 c ++ toBE 2 g.cfg.tap ++ toBE 8 ev ++ decBytes d
  ++ toBE 8 f.first ++ toBE 8 f.last ++ toBE 8 f.link ++ toBE 8 f.dead ++ toBE 8 f.addr ++ toBE 1 f.seg ++ toBE 1 0
  ++ toBE 2 g.cfg.q.length ++ toBE 4 f.missing ++ toBE 4 f.absent ++ toBE 4 f.drop ++ toBE 8 d.handed ++ List.replicate 16 0

/-- Order of the records of a tick (R430): decisions first, by group and number, then captures in seal order. -/
def insRec (r : AcqRec) : List AcqRec → List AcqRec
  | [] => [r]
  | a :: t =>
    let before := r.tick < a.tick || (r.tick == a.tick && ((!r.cap && a.cap) || (r.cap == a.cap && (r.c < a.c || (r.c == a.c && r.ev < a.ev)))))
    if before then r :: a :: t else a :: insRec r t

def State.putEvt (s : State) (tick : Nat) (cap : Bool) (c ev : Nat) (rs : List Nat) (late : Bool) (b : List Byte) : State :=
  let x := s.cgSession c
  let s := s.noteFlags rs late
  ({ s with acq := { s.acq with recs := insRec ⟨tick, cap, c, ev, x, b⟩ s.acq.recs } }).noteProduct x rs

/-- The next event number of group c, and the register advanced (R421). -/
def State.nextEvent (s : State) (c : Nat) : Nat × State :=
  let n := s.rd64 (ACQ_CGc_EVENT_LO c) (ACQ_CGc_EVENT_HI c)
  (n, s.wr64 (ACQ_CGc_EVENT_LO c) (ACQ_CGc_EVENT_HI c) (n + 1))

/-- Sorted by their start. -/
def insIval (v : Nat × Nat) : List (Nat × Nat) → List (Nat × Nat)
  | [] => [v]
  | a :: t => if v.1 < a.1 then v :: a :: t else a :: insIval v t

/-- The measure of the union of intervals sorted by their start, above `end_`. -/
def unionLen : Nat → List (Nat × Nat) → Nat
  | _, [] => 0
  | end_, (a, b) :: r => let lo := max a end_; (b - lo) + unionLen (max end_ b) r

/-- The DEAD field of a CAPTURE at event time te (R427), in ns. -/
def AcqGrp.deadNs (g : AcqGrp) (te : Nat) : Nat :=
  let ivs := g.ivals ++ (match g.dead with | some k => [(k * 4000, te)] | none => []) ++ (match g.cntAt with | some t => [(t, te)] | none => [])
  unionLen g.prevTe ((ivs.map (fun v : Nat × Nat => (max v.1 g.prevTe, min v.2 te))).foldl (fun l v => insIval v l) []) / 4

/-! ### Decisions (R420 to R422, R426) -/

/-- Group c takes record r (R420). -/
def State.cgTakes (s : State) (c : Nat) (r : DecRec) : Bool :=
  s.cgStart c ≤ r.tick &&
  (match r.kind with
   | 1 => (if r.origin < 32 then s.bit (ACQ_CGc_SRC_LO c) r.origin else s.bit (ACQ_CGc_SRC_HI c) (r.origin - 32)) == 1
   | 3 => (List.range 8).any (fun g => s.bit (ACQ_CGc_SES c) g == 1 && s.slotOn g && s.slotSession g == r.origin % 1024)
   | _ => false)

/-- The event time of a record, in 0.25 ns. -/
def DecRec.time (r : DecRec) : Nat := r.tick * 4000 + r.sub

/-- The rule of R421 that applies to a record: the joined capture, or a cause of Table 16-4, or a capture. -/
def State.cgRule (s : State) (c : Nat) (g : AcqGrp) (r : DecRec) : Option AcqCap × Nat :=
  let j := r.tick
  match (g.caps.filter (fun p => p.first ≤ j && j ≤ p.last)).reverse with
  | p :: _ => (some p, 0)
  | [] =>
    match g.dead with
    | some d => (none, if j < d then 4 else 1)
    | none =>
      let s0 := match g.spans with
        | sp :: _ => (match sp.last with | some e => e + 1 | none => sp.s0)
        | [] => 0
      if j < max s0 (r.handed + 1 - g.cfg.st) then (none, 4)
      else if s.cgFallback c then
        match bitsOf (s.rd (ACQ_CGc_CFG c)) 13 12 with
        | 1 => (none, match g.hold with | some te => if r.time < te + s.rd (ACQ_CGc_HOLD c) * 4000 then 2 else 0 | none => 0)
        | 2 => (none, if 0 < g.holdCnt then 3 else 0)
        | _ => (none, 0)
      else (none, 0)

/-- The group handles a taken record (R421, R422, R423). -/
def State.cgHandle (s : State) (c : Nat) (g : AcqGrp) (r : DecRec) : State :=
  let late := s.rd (ACQ_CGc_LAG c) % 256 < r.handed - r.tick
  let rs := if late then addNew r.rs rTriggerLate else r.rs
  let lt := r.late || late
  let n := s.nextEvent c
  let ev := n.1
  let s := n.2
  let ones := 2 ^ 64 - 1
  match s.cgRule c g r with
  | (some p, _) =>
    let s := s.count (ACQ_CGc_JOINED c) 1
    let s := s.putEvt r.handed false c ev rs lt (eventRecord g c ev r rs lt ⟨2, 0, 0, 0, p.ev, 0, 0, 0xFF, 0, 0, g.drop⟩)
    s.putCg c { g with drop := 0 }
  | (none, 0) =>
    match g.spans with
    | [] => s
    | sp :: older =>
      let fb := s.cgFallback c
      let mode := bitsOf (s.rd (ACQ_CGc_CFG c)) 13 12
      let te := r.time
      let dead := g.deadNs te
      let first := max (r.tick - s.rd (ACQ_CGc_PRE c) % 2 ^ 24) (max sp.s0 (r.handed + 1 - g.cfg.st))
      let last := r.tick + s.rd (ACQ_CGc_POST c) % 2 ^ 24
      let e := max last r.handed
      let link := match g.prevCap with | some q => if first = sp.s0 && sp.s0 = q.1 + 1 then q.2 else ones | none => ones
      let rs := if g.fresh.contains sp.seg then addNew rs rUntimed else rs
      let cap : AcqCap := ⟨ev, sp.seg, first, last, e, r, rs, lt, link, dead, g.drop, false, g.cfg⟩
      let iv := match g.cntAt with | some t => (t, te) :: g.ivals | none => g.ivals
      let hold := s.rd (ACQ_CGc_HOLD c)
      let g := { g with caps := cap :: g.caps, drop := 0, fresh := g.fresh.filter (· != sp.seg), prevCap := some (e, ev), prevTe := te,
                        hold := some te, holdCnt := if mode = 2 then hold else 0,
                        ivals := (if fb && mode = 1 then [(te, te + hold * 4000)] else []) ++ iv.take 65536,
                        cntAt := if fb && mode = 2 then some te else none, spans := ⟨sp.seg, sp.s0, some e⟩ :: older }
      let s := s.wr64 (ACQ_CGc_DEAD_LO c) (ACQ_CGc_DEAD_HI c) (s.rd64 (ACQ_CGc_DEAD_LO c) (ACQ_CGc_DEAD_HI c) + dead)
      (s.count (ACQ_CGc_CAPTURES c) 1).putCg c g
  | (none, cause) =>
    let s := (s.count (ACQ_CGc_MISSED c) 1).acqErr 2
    let s := s.putEvt r.handed false c ev rs lt (eventRecord g c ev r rs lt ⟨3, cause, 0, 0, ones, 0, 0, 0xFF, 0, 0, g.drop⟩)
    s.putCg c { g with drop := 0, holdCnt := if cause = 3 then g.holdCnt - 1 else g.holdCnt }

/-- The next record after the cursor that the group takes, with its place. -/
def State.cgNext (s : State) (c : Nat) (g : AcqGrp) : Option (Nat × DecRec) :=
  (List.zip (List.range s.trg.decs.length) s.trg.decs).find? (fun q => s.cgTakes c q.2
    && (g.cur.1 < q.2.handed || (q.2.handed == g.cur.1 && g.cur.2 ≤
        ((s.trg.decs.take q.1).filter (fun r => r.handed == q.2.handed)).length)))

/-- DECISION_TAKE (R420, R421): group c takes its next decision record; from the fifth of a tick on they are dropped. -/
def execDecisionTake (c : Nat) (s : State) : Res :=
  let s := match s.acqGrp c with | some g => s.cgSettle c g | none => s
  match s.acqGrp c with
  | none => .next s
  | some g =>
    if !s.blockOn 15 || s.cgState c = 0 then .next s
    else match s.cgNext c g with
      | none => .next s
      | some (i, r) =>
        let pos := ((s.trg.decs.take i).filter (fun q => q.handed == r.handed)).length
        let n := if g.taken.1 = r.handed then g.taken.2 else 0
        let g := { g with cur := (r.handed, pos + 1), taken := (r.handed, n + 1) }
        if 4 ≤ n then .next ((s.count (ACQ_CGc_DROPPED c) 1).setAcq c { g with drop := g.drop + 1 })
        else .next (s.cgHandle c g r)

/-- SEGMENT_SWITCH (R422): after tick e the lowest free segment becomes live, or the group is DEAD; releases of ticks up to e + 1 come first. -/
def execSegmentSwitch (c : Nat) (s : State) : Res :=
  match s.acqGrp c with
  | none => .next s
  | some g =>
    if s.cgSwitched c g = g then .next s else .next (s.cgMoved c g (s.cgTurned c g) (s.cgTurned c g))

/-! ### Seals (R423, R429) -/

/-- The reasons of an index entry's mark (R243). -/
def markReasons (m : Nat) : List Nat := if m = 0 then [] else if bitOf m 2 = 1 then [rSpare] else [rBroodAbsent]

/-- A capture is sealed, and its event record waits for the next tick. -/
def State.sealCap (s : State) (c : Nat) (g : AcqGrp) (p : AcqCap) (at_ : Nat) : State :=
  let span := List.range (p.last + 1 - p.first)
  let ts := g.ticks.filter (fun t => p.first ≤ t.k && t.k ≤ p.last)
  let missing := span.length - (ts.filter (·.written)).length
  let absent := sumL (ts.map (fun t => (t.marks.filter (· != 0)).length))
  let rs := ts.foldl (fun a t => addReasons a (addReasons t.rs (t.marks.foldl (fun b m => addReasons b (markReasons m)) []))) p.rs
  let rs := if ts.length < span.length then addNew rs rTickAbandoned else rs
  let rs := if s.ticksStepped p.first p.last then addNew rs rTimeStep else rs
  let u := s.takeUntimed (bitsOf (s.rd (ACQ_CGc_CFG c)) 31 22)
  let s := u.2
  let rs := addReasons rs u.1
  let g := { g with caps := g.caps.map (fun q => if q.ev = p.ev then { q with sealed_ := true } else q) }
  let b := eventRecord g c p.ev p.dec rs p.late ⟨1, 0, p.first, p.last, p.link, p.dead, g.cfg.base + p.seg * g.cfg.segBytes, p.seg,
    missing, absent, p.drop⟩
  (s.putEvt at_ true c p.ev rs p.late b).putCg c g

/-- CAPTURE_SEAL (R423): at the end of tick e + Δ. -/
def execCaptureSeal (c : Nat) (s : State) : Res :=
  match s.acqGrp c with
  | none => .next s
  | some g =>
    match g.caps.reverse.find? (fun p => !p.sealed_ && s.begun (p.e + s.acqDelta g + 1)) with
    | some p => .next (s.sealCap c g p (p.e + s.acqDelta g + 1))
    | none => .next s

/-! ### Sends (R430) -/

/-- The header of the event stream (Table 16-6). -/
def evtHeader (hive n t seq bytes : Nat) (last : Bool) : List Byte :=
  toBE 2 0xB712 ++ toBE 1 1 ++ toBE 1 (if last then 128 else 0) ++ toBE 2 0 ++ toBE 2 hive ++ toBE 4 n ++ toBE 4 0 ++ toBE 8 t ++ toBE 8 seq
  ++ toBE 8 0 ++ toBE 4 0 ++ toBE 4 bytes ++ List.replicate 16 0

def State.evtLost (s : State) (k : Nat) : State := if k = 0 then s else (s.count ACQ_EVT_LOST k).acqErr 6

/-- One send of event records to every selected destination. -/
def State.evtSend (s : State) (t : Nat) (rs : List AcqRec) : State :=
  match rs with
  | [] => s
  | r :: _ =>
    let cfg := s.rd ACQ_EVT_CFG
    let data := rs.flatMap (·.bytes)
    let head (last : Bool) := evtHeader s.hiveId rs.length t s.acq.evtSeq data.length last
    let s := { s with acq := { s.acq with evtSeq := s.acq.evtSeq + 1 } }
    let s := if bitOf cfg 0 = 0 then s else
      match (bitList 32 (s.rd ACQ_EVT_PORTS)).find? s.linkUp, (s.streamOf r.x 2 t).isSome with
      | some n, true => s.streamSend .event r.x r.x 2 t n (s.productQueue r.x 5) (bitsOf cfg 31 16) (head false) 40 3 7 128 data
      | _, _ => s.evtLost 1
    let s := if bitOf cfg 1 = 0 then s else
      let p := s.ringPut ACQ_EVT_RING_BASE ACQ_EVT_RING_SIZE ACQ_EVT_RING_WR ACQ_EVT_RING_RD (head true ++ data)
      if p.2 then p.1 else p.1.evtLost 1
    if bitOf cfg 2 = 0 then s else s.unitPut (bitsOf cfg 8 4) .event r.x (pad64 (head true ++ data))

/-- EVENT_RECORD_EMIT (R423, R430): the records of tick t, once the tick has ended, one send for each class; none while the
block is off, which abandons what it holds (R607). -/
def execEventRecordEmit (t : Nat) (s : State) : Res :=
  let rs := s.acq.recs.filter (·.tick == t)
  if rs.isEmpty || !s.begun (t + 1) then .next s
  else
    let s := { s with acq := { s.acq with recs := s.acq.recs.filter (·.tick != t) } }
    if !s.blockOn 15 then .next (s.evtLost 1)
    else .next (s.each [5, 1, 0] (fun s q => s.evtSend t (rs.filter (fun r => s.productQueue r.x 5 == q))))

/-! ### Releases (R424) -/

/-- A replay that is under way reads this capture. -/
def State.replayed (s : State) (c ev : Nat) : Bool := s.acq.replay.any (fun q => q.2.1 == c && q.2.2.1 == ev)

/-- A release of segment `seg` at tick r. -/
def State.cgRelease (s : State) (c seg r : Nat) : State :=
  match s.acqGrp c with
  | none => s.acqErr 0
  | some g =>
    match g.caps.find? (fun p => p.seg == seg && p.sealed_) with
    | none => s.acqErr 0
    | some p =>
      if s.replayed c p.ev || g.rel.any (·.1 == seg) then s.acqErr 0
      else if r = 0 then s.setAcq c { g with rel := g.rel ++ ([(seg, s.tick + 1, true)] : List (Nat × Nat × Bool)) }
      else if s.begun r then s.acqErr 1
      else s.setAcq c { g with rel := g.rel ++ ([(seg, r, false)] : List (Nat × Nat × Bool)) }

/-- SEGMENT_FREE (R424): the earliest release of group c whose tick has begun takes effect; a DEAD group is ARMED again. -/
def execSegmentFree (c : Nat) (s : State) : Res :=
  match s.acqGrp c with
  | none => .next s
  | some g =>
    match s.cgDue g with
    | [] => .next s
    | q :: _ =>
      let n := if g.before q.2.1 then g else s.cgSwitched c g
      .next (s.cgMoved c g n (s.cgFreed c n q))

/-- A group whose EN was written 0 is OFF (Table 16-3); FALLBACK at a tick boundary (R425). Decision records that every group has passed are forgotten. -/
def State.acqTick (s : State) : State :=
  let s := { s with trg := { s.trg with decs := s.trg.decs.filter (fun r => s.tick ≤ r.handed + 2) } }
  s.each (s.acq.grps.map (·.1)) (fun s c =>
    match s.acqGrp c with
    | some g =>
      if s.cgState c = 0 then s
      else if g.off then s.endCg c (s.tick - 1)
      else s.setBit (ACQ_CGc_STATUS c) 29 (decide ((s.cgFree c (s.cgSettled c g)).length ≤ bitsOf (s.rd (ACQ_CGc_CFG c)) 17 14))
    | none => s)

/-! ### The change and history rows (R431, R432) -/

/-- HIT_CHANGE_RECORD (R431): the change records of tick k, by the end of tick k + 6. -/
def execHitChangeRecord (k : Nat) (s : State) : Res :=
  let ins := s.chgInputs
  let old := match s.acq.chgLast with | some t => k ≤ t | none => false
  if s.bit ACQ_CHG_CFG 31 = 0 || !s.blockOn 15 || old || !s.begun (k + 1) || s.begun (k + 7) || !s.canonReady ins k then .next s
  else
    let all := ins.map (fun i => s.chgOf i k)
    let ovf := sumL (all.map (·.2))
    let recs := all.flatMap (·.1)
    let s := (s.count ACQ_CHG_OVF ovf).when (ovf != 0) (·.acqErr 5)
    let n := min recs.length (4 * s.ringFree ACQ_CHG_RING_SIZE ACQ_CHG_RING_WR ACQ_CHG_RING_RD)
    let kept := chgMark s.acq.chgLost (recs.take n)
    let data := kept.1.flatMap (fun w => toLE 8 k ++ toLE 8 w)
    let p := if n = 0 then (s, true) else s.ringPut ACQ_CHG_RING_BASE ACQ_CHG_RING_SIZE ACQ_CHG_RING_WR ACQ_CHG_RING_RD data
    let miss := recs.length - n
    let s := if miss = 0 then p.1 else (p.1.count ACQ_CHG_LOST miss).acqErr 6
    .next { s with acq := { s.acq with chgLast := some k, chgLost := kept.2 + miss } }

/-- The frame of tick k. -/
def State.histFrame (s : State) (ins : List Nat) (k : Nat) : List Byte :=
  let xs := ins.map (fun i => (i, s.canonOf false i k))
  let rs := xs.foldl (fun a q => q.2.foldl (fun b x => if x.gap then addReasons b (causeReason x.c) else b) a) []
  let map := sumL (xs.map (fun q => if q.2.any (·.gap) then 2 ^ q.1 else 0))
  toLE 8 k ++ toLE 8 (flagWord rs false * 2 ^ 16 + ins.length) ++ toLE 32 map ++ toLE 16 0
  ++ xs.flatMap (fun q => toLE 8 ((sumI (q.2.map (fun x => if x.gap then 0 else x.v * x.v))).toNat))

/-- POWER_HISTORY_FRAME (R432): the frame of a kept tick k, by the end of tick k + 6. -/
def execPowerHistoryFrame (k : Nat) (s : State) : Res :=
  let dec := s.rd ACQ_HIST_CFG % 2 ^ 20
  let ins := (List.range 256).filter (fun i => s.bit (ACQ_HIST_IN (i / 32)) (i % 32) == 1)
  let old := match s.acq.histLast with | some t => k ≤ t | none => false
  if s.bit ACQ_HIST_CFG 31 = 0 || !s.blockOn 15 || old || k % dec ≠ 0 || !s.begun (k + 1) || s.begun (k + 7) || !s.canonReady ins k
    then .next s
  else
    let p := s.ringPut ACQ_HIST_RING_BASE ACQ_HIST_RING_SIZE ACQ_HIST_RING_WR ACQ_HIST_RING_RD (s.histFrame ins k)
    let s := if p.2 then p.1 else (p.1.count ACQ_HIST_LOST 1).acqErr 6
    .next { s with acq := { s.acq with histLast := some k } }

/-! ### Replay (R13, R433) -/

/-- The index entry of member m, tick k, of a capture as DDR holds it, and whether it can be read. -/
def State.indexRead (s : State) (p : AcqCap) (k m : Nat) : (Nat × Bool) × State :=
  let r := s.ddrRead (p.cfg.indexAddr p.seg k m) 8
  ((ofLE r.1.1, !r.1.2), r.2)

/-- The first n bytes of the slot of member m, tick k, and whether they can be read. -/
def State.slotRead (s : State) (p : AcqCap) (k m n : Nat) : (List Byte × Bool) × State :=
  let r := s.ddrRead (p.cfg.slotAddr p.seg k m) n
  ((r.1.1, !r.1.2), r.2)

/-- Samples unpacked from bytes, LSB first. -/
def unpackBits (bw n : Nat) (b : List Byte) : List Int :=
  let big := ofLE b
  (List.range n).map (fun i => signed bw (big / 2 ^ (i * bw)))

/-- Member m's tick k of a NATIVE capture goes to its filter slot, if that takes replayed blocks (R170). What was not written or cannot be read is a
tick with no recorded block (R433, log entry 109). -/
def State.supplyNative (s : State) (p : AcqCap) (k m : Nat) : State :=
  let i := p.cfg.first + m
  if !s.slotReplay i then s
  else
    let e := s.indexRead p k m
    let n := bitsOf e.1.1 55 43
    let bw := necBits (bitsOf e.1.1 58 56)
    let gone : NativeTick := ⟨i, k, 0, 8, [], .noneReceived⟩
    let put (s : State) (t : NativeTick) : State := { s with ing := { s.ing with replayIn := s.ing.replayIn ++ [t] } }
    if !e.1.2 || bitOf e.1.1 59 = 0 || n = 0 then put e.2 gone
    else
      let d := e.2.slotRead p k m (ceilDiv (n * bw) 8)
      put d.2 (if d.1.2 then ⟨i, k, e.1.1 % 2 ^ 32, bw, unpackBits bw n d.1.1, .none⟩ else gone)

/-- Member m's tick k of a CANONICAL capture goes to the channeliser, if its input takes replayed samples (R194), with the marks of its index entry
(log entry 109). -/
def State.supplyCanon (s : State) (p : AcqCap) (k m : Nat) : State :=
  let i := p.cfg.first + m
  if s.bit (CHN_Ii_CFG i) 1 = 0 then s
  else
    let e := s.indexRead p k m
    let ns := bitsOf e.1.1 55 43
    let mark := bitsOf e.1.1 63 60
    let cause : NecCause := if e.1.2 && bitOf mark 2 = 1 then .laneLost else .noneReceived
    let gone (s : State) : List Smp × State := (List.replicate (s.inputNs i) ⟨0, cause, true⟩, s)
    let v : List Smp × State :=
      if !e.1.2 || bitOf e.1.1 59 = 0 || bitOf mark 0 = 1 then gone e.2
      else
        let d := e.2.slotRead p k m (2 * ns)
        if d.1.2 then ((unpackBits 16 ns d.1.1).map (fun v => ⟨v, if bitOf mark 1 = 1 then cause else .none, false⟩), d.2) else gone d.2
    let c : CanonTick := ⟨i, k, true, v.1, []⟩
    { v.2 with ing := { v.2.ing with canon := (c :: v.2.ing.canon).take canonKeep } }

/-- The samples of a beam member's tick: index entry and slot, in [spectrum][local channel] order, with the reasons of its mark, of data that was not
written and of words that cannot be read (log entry 109). -/
def State.beamRead (s : State) (p : AcqCap) (k m : Nat) : (List (Int × Int) × List Nat) × State :=
  let w := if p.cfg.fmt8 then 1 else 2
  let e := s.indexRead p k m
  if !e.1.2 then (([], [rMemUncorr]), e.2)
  else if bitOf e.1.1 59 = 0 then (([], addNew (markReasons (bitsOf e.1.1 63 60)) rTickAbandoned), e.2)
  else
    let n := bitsOf e.1.1 55 43
    let d := e.2.slotRead p k m (2 * w * n)
    let rs := markReasons (bitsOf e.1.1 63 60)
    (((List.range n).map (fun q => (signed (8 * w) (beAt d.1.1 (2 * w * q) w), signed (8 * w) (beAt d.1.1 (2 * w * q + w) w))),
      if d.1.2 then rs else addNew rs rMemUncorr), d.2)

/-- Beam samples of tick k go to the waggle stream and the worker window of session x. -/
def State.supplyBeams (s : State) (x : Nat) (p : AcqCap) (k : Nat) : State :=
  match s.ctnOf x with
  | none => s
  | some c =>
    let specs := c.specsOf k
    let r := (List.range p.cfg.q.length).foldl (fun (acc : (List (List (Int × Int)) × List Nat) × State) m =>
      let b := acc.2.beamRead p k m
      ((acc.1.1 ++ [b.1.1], addReasons acc.1.2 b.1.2), b.2)) (([], []), s)
    r.2.each (List.range p.cfg.cx) (fun s l =>
      let vals := (List.range specs.length).flatMap (fun n => r.1.1.map (fun vs => nth vs (n * p.cfg.cx + l) (0, 0)))
      let rs := if s.specsStepped c (specs.headD 0) (specs.getLastD 0) then addNew r.1.2 rTimeStep else r.1.2
      s.wagSend c x k l specs vals rs 0)

/-- REPLAY_SUPPLY (R433): tick k of the capture with event number `ev` of group c, for replay session x: its ticks in ascending order from
FIRST_TICK on, at the point paired with the tap they were recorded at (R12). -/
def execReplaySupply (x c ev k : Nat) (s : State) : Res :=
  match s.acqGrp c with
  | none => .next s
  | some g =>
    match g.caps.find? (fun p => p.ev == ev && p.sealed_) with
    | none => .next s
    | some p =>
      let next := match s.acq.replay.find? (fun q => q.1 == x && q.2.1 == c && q.2.2.1 == ev) with | some q => q.2.2.2 | none => p.first
      if !s.blockOn 15 || !s.sesReplay x || k ≠ next then .next s
      else
        let rest := s.acq.replay.filter (fun q => !(q.1 == x && q.2.1 == c && q.2.2.1 == ev))
        let s := { s with acq := { s.acq with replay := if k = p.last then rest else (x, c, ev, k + 1) :: rest } }
        .next (match p.cfg.tap with
          | 0 => s.each (List.range p.cfg.q.length) (fun s m => s.supplyNative p k m)
          | 1 => s.each (List.range p.cfg.q.length) (fun s m => s.supplyCanon p k m)
          | _ => s.supplyBeams x p k)

/-! ### Register writes (R416, R424, R446) -/

def acqPre (a new : Nat) (s : State) : Option State :=
  let bad := some (s.acqErr 0)
  if 0xF01000 ≤ a && a < 0xF03000 then
    let c := (a - 0xF01000) / 0x80
    let en := s.bit (ACQ_CGc_CFG c) 0 = 1
    match a % 0x80 with
    | 0 =>
      if en && s.rd a / 2 ≠ new / 2 then bad
      else if !en && bitOf new 0 = 1 && !s.cgArmable c new then bad
      else none
    | 0x38 | 0x3C | 0x40 => none
    | _ => if en && s.rd a ≠ new then bad else none
  else if a = ACQ_EVT_CFG then
    (if bitOf new 1 = 1 && !s.ringOk 1 ACQ_EVT_RING_BASE ACQ_EVT_RING_SIZE then bad else none)
  else if a = ACQ_EVT_RING_BASE || a = ACQ_EVT_RING_SIZE then (if s.bit ACQ_EVT_CFG 1 = 1 && s.rd a ≠ new then bad else none)
  else if a = ACQ_CHG_CFG then
    (if new % 32 = 0 || 16 < new % 32 || (bitOf new 31 = 1 && !s.ringOk 2 ACQ_CHG_RING_BASE ACQ_CHG_RING_SIZE) then bad else none)
  else if a = ACQ_CHG_RING_BASE || a = ACQ_CHG_RING_SIZE then (if s.bit ACQ_CHG_CFG 31 = 1 && s.rd a ≠ new then bad else none)
  else if a = ACQ_HIST_CFG then
    (if new % 2 ^ 20 = 0 || 1000000 < new % 2 ^ 20 || (bitOf new 31 = 1 && !s.ringOk 2 ACQ_HIST_RING_BASE ACQ_HIST_RING_SIZE)
      then bad else none)
  else if a = ACQ_HIST_RING_BASE || a = ACQ_HIST_RING_SIZE then (if s.bit ACQ_HIST_CFG 31 = 1 && s.rd a ≠ new then bad else none)
  else none

/-- After a write: a group is armed or goes OFF; a release is committed; a block that stops (R607) is handled at the boundary. -/
def acqPost (a old : Nat) (s : State) : State :=
  if 0xF01000 ≤ a && a < 0xF03000 then
    let c := (a - 0xF01000) / 0x80
    if a % 0x80 = 0 then
      (if bitOf old 0 = 0 && s.bit a 0 = 1 then s.startCg c
       else if bitOf old 0 = 1 && s.bit a 0 = 0 then s.stopCg c else s)
    else if a % 0x80 = 0x40 then s.cgRelease c (s.rd (ACQ_CGc_REL_SEG c) % 16) (s.rd64 (ACQ_CGc_REL_EFF_LO c) (ACQ_CGc_REL_EFF_HI c))
    else s
  else s

end Sys2Proof.Machine
end

