-- ==== Sys2Proof/Machine/DdrCtl.lean ====
section
/-!
DEFINITION. The DDR5 controller (chapter 17): training, the grant order, the write queue, refresh, scrub, the host's window.
-/
namespace Sys2Proof.Machine

/-! ### Training (R437 to R443) -/

/-- The widest run of ones in 128 bits: its width and first step; of equal runs the lowest (R440). `cur` is the run that ends
just below bit i. -/
def widestRun : Nat → Nat → Nat → Nat × Nat → Nat → Nat × Nat
  | 0, _, _, best, _ => best
  | fuel + 1, i, cur, best, m =>
    let cur := if bitOf m i = 1 then cur + 1 else 0
    widestRun fuel (i + 1) cur (if best.1 < cur then (cur, i + 1 - cur) else best) m

def sweepRun (m : Nat) : Nat × Nat := widestRun 128 0 0 (0, 0) m

/-- floor((first + last) / 2) of a run. -/
def runMid (r : Nat × Nat) : Nat := (r.2 + (r.2 + r.1 - 1)) / 2

/-- The Vref level with the widest run, the lowest among equals, with its run. -/
def bestVref (l : List Nat) : Nat × Nat × Nat :=
  (List.zip (List.range 16) l).foldl (fun b q => let r := sweepRun q.2; if b.2.1 < r.1 then (q.1, r) else b) (0, 0, 0)

/-- A trained lane: DDR_CHc_TRAINl, and whether the lane passes (R441). -/
def trainLane (x : LaneSweep) : Nat × Bool :=
  let v := bestVref x.rd
  let w := sweepRun x.wr
  (v.1 * 2 ^ 28 + runMid v.2 % 128 * 2 ^ 21 + v.2.1 % 128 * 2 ^ 14 + runMid w % 128 * 2 ^ 7 + w.1 % 128,
   16 ≤ v.2.1 && 16 ≤ w.1 && x.ok)

/-- Lanes that exist in the configuration: 20 for one rank, 40 for two. -/
def State.lanesOf (s : State) : List Nat :=
  (List.range 40).filter (fun l => s.bit DDR_CFG 5 == 1 || l / 10 % 2 == 0)

/-- DDR_TRAINING_COMPLETE (R437, R440, R441): the sweeps of the lanes of each channel, and the channels whose SPD hub reports
another memory. -/
def execDdrTrainingComplete (res : List (List LaneSweep)) (spd : Nat) (s : State) : Res :=
  if s.bit DDR_STATUS 30 = 0 || s.bit GLB_DOMAINS (s.blockDomain 15) = 0 then .next s
  else
    let lanes := s.lanesOf
    let t := (List.range 16).foldl (fun (acc : State × Nat) c =>
      let ls := nth res c []
      let r := lanes.map (fun l => (l, trainLane (nth ls l ⟨[], 0, false⟩)))
      let s := acc.1.each r (fun s q => s.wr (DDR_CHc_TRAINl c q.1) q.2.1)
      let bad := r.any (fun q => !q.2.2) || (s.bit DDR_CFG 7 == 1 && bitOf spd c == 1)
      (s, acc.2 + (if bad then 2 ^ c else 0))) (s, 0)
    let s := t.1
    if t.2 = 0 then .next (s.wr DDR_STATUS (2 ^ 31)).monLatch
    else .next ((s.wr DDR_STATUS (2 ^ 29 + t.2)).flag DDR_ERR 1)

/-- DQS_INTERVAL_CHECK (R442): every 128 ms: of channel c the lanes whose drift, in 1/64 UI, exceeds one step move their write
delay by one step. -/
def execDqsIntervalCheck (c : Nat) (drifts : List (Nat × Int)) (s : State) : Res :=
  if 16 ≤ c || !s.ddrReady then .next s
  else .next (s.each (drifts.filter (fun d => s.lanesOf.contains d.1 && 1 < d.2.natAbs)) (fun s d =>
    let a := DDR_CHc_TRAINl c d.1
    let v := bitsOf (s.rd a) 13 7
    s.setFd a ⟨13, 7⟩ (if d.2 < 0 then v - 1 else min 127 (v + 1))))

/-! ### Requests (R450 to R454) -/

/-- Share of client c in bytes per tick (R450). -/
def State.ddrShare (s : State) (c : Nat) : Nat := if c < 8 then ceilDiv (s.rd (DDR_CLk_RSV c) % 2 ^ 20) 64 * 64 else 0

def State.ddrServed (s : State) (c : Nat) : Nat := spGet zeroNat s.ddr.served c

/-- Class of a pending request (R450): 0 promoted, 1 a reserved client within its share, 2 the rest. -/
def State.ddrClass (s : State) (r : DdrReq) : Nat :=
  if r.prom then 0 else if r.client < 8 && s.ddrServed r.client < s.ddrShare r.client then 1 else 2

/-- Lines of a write that have no write-queue entry yet. -/
def State.wqNew (s : State) (r : DdrReq) : Nat :=
  (List.range (linesOf r.addr r.data.length)).countP (fun i => !s.ddr.wq.any (fun e => e.1 == r.addr / 64 + i))

/-- May the request be granted? A write waits while its new lines do not fit in the 128 entries, unless the queue is empty (R452). -/
def State.ddrMay (s : State) (r : DdrReq) : Bool := !r.write || s.ddr.wq.isEmpty || s.ddr.wq.length + s.wqNew r ≤ 128

/-- The oldest request of each client: a client's requests are granted in the order accepted (R450). -/
def clientHeads : List Nat → List DdrReq → List DdrReq
  | _, [] => []
  | seen, r :: t => if seen.contains r.client then clientHeads seen t else r :: clientHeads (r.client :: seen) t

/-- The request granted next: lowest class, then lowest client (R450); only a write while writes have precedence (R452). -/
def State.ddrNext (s : State) : Option DdrReq :=
  ((clientHeads [] s.ddr.queue).filter (fun r => s.ddrMay r && (r.write || !s.ddr.drain))).foldl (fun m r => match m with
    | some b => if s.ddrClass r < s.ddrClass b || (s.ddrClass r == s.ddrClass b && r.client < b.client) then some r else m
    | none => some r) none

/-- Puts bytes into a write-queue entry, sorted by offset. -/
def wqMerge (e : List (Nat × Byte)) (off : Nat) : List Byte → List (Nat × Byte)
  | [] => e
  | b :: r => wqMerge (spPut e off b) (off + 1) r

/-- One line of a write enters the write queue (R452). -/
def State.wqPut (s : State) (addr : Nat) (b : List Byte) : State :=
  let line := addr / 64
  let wq := match s.ddr.wq.find? (·.1 == line) with
    | some _ => s.ddr.wq.map (fun e => if e.1 = line then (line, wqMerge e.2 (addr % 64) b) else e)
    | none => s.ddr.wq ++ [(line, wqMerge [] (addr % 64) b)]
  { s with ddr := { s.ddr with wq := wq } }

/-- A corrected error of a line read (R457). -/
def State.ddrCorr (s : State) (e : DdrErr) : State :=
  let l := e.addr / 64
  let c := lineChannel l
  let h := e.addr / 8192
  let rk := if s.bit DDR_CFG 5 = 1 then bitOf h 9 else 0
  ((s.count (DDR_CHc_CORR c) 1).flag DDR_ERR 2).wr DDR_CLOG (2 ^ 31 + c * 2 ^ 16 + l / 4 % 2 * 2 ^ 8 + rk * 16 + e.dev % 10)

/-- Errors met in the lines of a range: corrected ones are counted, uncorrectable lines stay so. -/
def State.ddrMeet (s : State) (addr len : Nat) (errs : List DdrErr) : State :=
  s.each (errs.filter (fun e => addr / 64 ≤ e.addr / 64 && e.addr / 64 ≤ (addr + len - 1) / 64)) (fun s e =>
    if e.uncorr then { s with ddr := { s.ddr with bad := addNew s.ddr.bad (e.addr / 64) } } else s.ddrCorr e)

/-- The oldest write-queue entry is issued: a part of a line by read, merge and write (R453). -/
def State.wqIssue (s : State) (errs : List DdrErr) : State :=
  match s.ddr.wq with
  | [] => s
  | e :: r =>
    let part := e.2.length < 64
    let s := if part then s.ddrMeet (e.1 * 64) 64 errs else s
    let s := if part && s.ddr.bad.contains e.1 then s.ddrUncorr e.1 else s
    { s with ddr := { s.ddr with
      wq := r
      mem := e.2.foldl (fun m o => spSet zeroByte m (e.1 * 64 + o.1) o.2) s.ddr.mem
      bad := if part then s.ddr.bad else s.ddr.bad.filter (· != e.1) } }

/-- The request granted is carried out. -/
def State.ddrGrant (s : State) (r : DdrReq) (errs : List DdrErr) : State :=
  let n := if r.write then r.data.length else r.len
  let past := linesOf r.addr n - (s.ddrShare r.client - s.ddrServed r.client) / 64
  let s := s.when (r.client < 8) (·.count (DDR_CLk_OVER r.client) past)
  let s := { s with ddr := { s.ddr with
    queue := s.ddr.queue.erase r
    served := spPut s.ddr.served r.client (s.ddrServed r.client + linesOf r.addr n * 64) } }
  if r.write then
    s.each (chunks (linesOf r.addr n + 1) 64 (List.replicate (r.addr % 64) 0 ++ r.data) |>.zip (List.range (linesOf r.addr n + 1)))
      (fun s q =>
        let line := r.addr / 64 + q.2
        let skip := if q.2 = 0 then r.addr % 64 else 0
        if (q.1.drop skip).isEmpty then s else s.wqPut (line * 64 + skip) (q.1.drop skip))
  else
    let s := s.ddrMeet r.addr n errs
    let v := s.ddrRead r.addr n
    { v.2 with ddr := { v.2.ddr with reply := ((r.client, r.addr, v.1.1, v.1.2) :: v.2.ddr.reply).take 256 } }

/-- A request is accepted: completed at once while READY is 0 or where it passes the capacity (R443, R444). -/
def State.ddrAccept (s : State) (r : DdrReq) : State :=
  let n := if r.write then r.data.length else r.len
  if !s.ddrReady || s.ddrCapacity < r.addr + n then
    if r.write then s.ddrWrite r.addr r.data
    else
      let v := s.ddrRead r.addr n
      { v.2 with ddr := { v.2.ddr with reply := ((r.client, r.addr, v.1.1, v.1.2) :: v.2.ddr.reply).take 256 } }
  else { s with ddr := { s.ddr with queue := s.ddr.queue ++ [{ r with tick := s.tick, prom := false }] } }

/-- Requests of one DDR cycle in client order (R454). -/
def insReq (r : DdrReq) : List DdrReq → List DdrReq
  | [] => [r]
  | a :: t => if r.client < a.client then r :: a :: t else a :: insReq r t

/-- DDR_REQUEST (R450, R452, R454): the requests `rs` of one DDR cycle are accepted, one pending request is granted, and the
write queue issues an entry while writes have precedence or no read waits. `errs` are the errors met. -/
def execDdrRequest (rs : List DdrReq) (errs : List DdrErr) (s : State) : Res :=
  let s := s.each ((rs.filter (fun r => r.client < 12)).foldl (fun l r => insReq r l) []) State.ddrAccept
  if !s.ddrReady then .next s
  else
    let drain := 96 ≤ s.ddr.wq.length || (s.ddr.drain && 32 < s.ddr.wq.length)
    let s := { s with ddr := { s.ddr with drain := drain } }
    let reads := s.ddr.queue.any (fun r => !r.write)
    let s := match s.ddrNext with
      | some r => s.ddrGrant r errs
      | none => s
    .next (if drain || !reads then s.wqIssue errs else s)

/-- DDR_AGE_PROMOTE (R451): the request at place i of the queue has waited AGE_NS. -/
def execDdrAgePromote (i : Nat) (s : State) : Res :=
  match s.ddr.queue[i]? with
  | some r =>
    if r.prom || (s.tick - r.tick) * 1000 + 999 < s.rd DDR_AGE % 2 ^ 17 then .next s
    else .next (({ s with ddr := { s.ddr with queue := setNth s.ddr.queue i { r with prom := true } } }).count
      (DDR_CLk_PROMOTE r.client) 1)
  | none => .next s

/-! ### Refresh and scrub (R455, R456) -/

/-- DDR_REFRESH (R455): a same-bank refresh of rank r of channel c, whose MR4 shows `temp`; postponed, at most 4 times in a
row, while a request of the first two classes waits. -/
def execDdrRefresh (c r temp : Nat) (s : State) : Res :=
  if 16 ≤ c || s.bit DDR_CFG 5 < r || !s.ddrReady then .next s
  else
    let s := s.setFd (DDR_CHc_TEMP c) (if r = 0 then ⟨7, 0⟩ else ⟨15, 8⟩) temp
    let hot := (List.range 16).any (fun k => 95 < s.rd (DDR_CHc_TEMP k) % 256 || 95 < bitsOf (s.rd (DDR_CHc_TEMP k)) 15 8)
    let s := (s.setBit DDR_STATUS 28 hot).when (95 < temp) (·.flag DDR_ERR 5)
    let n := spGet zeroNat s.ddr.late (2 * c + r)
    let wait := s.ddr.queue.any (fun q => s.ddrClass q < 2) && n < 4
    .next { s with ddr := { s.ddr with late := spSet zeroNat s.ddr.late (2 * c + r) (if wait then n + 1 else 0) } }

/-- PATROL_SCRUB (R456, R457): the next line is read; a corrected line is written back, an uncorrectable one is left. -/
def execPatrolScrub (errs : List DdrErr) (s : State) : Res :=
  if s.bit DDR_SCRUB 31 = 0 || !s.ddrReady then .next s
  else
    let a := s.ddr.scrub * 64
    let s := s.ddrMeet a 64 errs
    let s := if s.ddr.bad.contains (a / 64) then s.ddrUncorr (a / 64) else s
    let last := s.ddrCapacity ≤ a + 64
    let s := s.when last (·.count DDR_SCRUB_PASS 1)
    .next { s with ddr := { s.ddr with scrub := if last then 0 else s.ddr.scrub + 1 } }

/-! ### The host's window (R447) -/

/-- A write of the host or a forager: it takes effect only inside HOST. -/
def State.hostDdrWrite (s : State) (addr : Nat) (b : List Byte) : State :=
  if s.inPartition 5 addr b.length then s.ddrWrite addr b else (s.count DDR_HOST_WDROP 1).flag DDR_ERR 6

/-- BAR2_ACCESS (R447): a host write of `data`, or a read of `len` bytes where there is none, at offset `off` of the window. -/
def execBar2Access (off : Nat) (data : Option (List Byte)) (len : Nat) (errs : List DdrErr) (s : State) : Res :=
  let a := s.rd DDR_BAR2_BASE % 2048 * 2 ^ 30 + off
  if s.pci.held then .next s
  else match data with
  | some b => .next (s.hostDdrWrite a b)
  | none =>
    let v := (s.ddrMeet a len errs).ddrRead a len
    .next (v.2.emit (.readData a v.1.1 v.1.2))

/-! ### Register writes (R438, R445) -/

/-- Two unit ranges meet, empty ones never. -/
def unitsMeet (a n b m : Nat) : Bool := n != 0 && m != 0 && a < b + m && b < a + n

/-- Partition p with base `b` and size `n` (64 KiB units) keeps R445. -/
def State.partOk (s : State) (p b n : Nat) : Bool :=
  (n == 0 || (b + n) * 65536 ≤ s.ddrCapacity)
  && (List.range 6).all (fun q => q == p || !unitsMeet b n (s.rd (DDR_PARTp_BASE q) % 2 ^ 25) (s.rd (DDR_PARTp_SIZE q) % 2 ^ 26))

/-- An enabled ring or segment lies in partition p. -/
def State.partUsed (s : State) (p : Nat) : Bool :=
  match p with
  | 0 => (List.range 64).any (fun c => s.rd (ACQ_CGc_STATUS c) / 2 ^ 30 != 0 || s.rd (ACQ_CGc_STATUS c) % 2 ^ 16 != 0)
  | 1 => s.bit ACQ_EVT_CFG 1 == 1
  | 2 => s.bit ACQ_CHG_CFG 31 == 1 || s.bit ACQ_HIST_CFG 31 == 1
  | 3 => s.sup.ses.any (fun q => bitsOf (s.rd (SUP_SESx_CFG q.1)) 13 12 == 1) || s.wag.ses.any (fun q => s.bit (WAG_SESx_OUT q.1) 1 == 1)
  | 4 => bitsOf (s.rd WRK_RES_CFG) 13 12 == 1
  | _ => false

def ddrPre (a new : Nat) (s : State) : Option State :=
  let bad := some (s.flag DDR_ERR 0)
  let on := s.bit DDR_CTRL 0 = 1
  if a = DDR_CTRL then
    (if on then (if bitOf new 0 = 0 then bad else none)
     else if bitOf new 0 = 1 && bitsOf (s.rd DDR_CFG) 9 8 = 3 then bad else none)
  else if a = DDR_CFG then (if (on && s.rd a ≠ new) || 8 < new % 16 then bad else none)
  else if a = DDR_AGE then (if new % 2 ^ 17 < 100 || 100000 < new % 2 ^ 17 then bad else none)
  else if a = DDR_SCRUB then (if new % 256 = 0 then bad else none)
  else if 0x1000100 ≤ a && a < 0x1000160 then
    let p := (a - 0x1000100) / 0x10
    let b := if a % 0x10 = 0 then new else s.rd (DDR_PARTp_BASE p)
    let n := if a % 0x10 = 4 then new else s.rd (DDR_PARTp_SIZE p)
    if (s.partUsed p && s.rd a ≠ new) || !s.partOk p (b % 2 ^ 25) (n % 2 ^ 26) then bad else none
  else none

/-- After a write of EN to 1: DDR_CFG applies and training starts (R436, R438, R439). ELOG's VALID, cleared, clears the log. -/
def ddrPost (a old : Nat) (s : State) : State :=
  if a = DDR_CTRL && bitOf old 0 = 0 && s.bit a 0 = 1 then
    let s := s.wr DDR_PEAK (128 * (3200 + 400 * (s.rd DDR_CFG % 16)))
    (s.wr DDR_CAP (s.ddrCapacity / 2 ^ 30)).wr DDR_STATUS (2 ^ 30)
  else if a = DDR_ELOG_HI && bitOf old 31 = 1 && s.bit a 31 = 0 then (s.wr DDR_ELOG_LO 0).wr DDR_ELOG_HI 0
  else s

/-- At a tick boundary the shares start anew (R450). -/
def State.ddrTick (s : State) : State := { s with ddr := { s.ddr with served := [] } }

end Sys2Proof.Machine
end

