-- ==== Sys2Proof/Machine/Forager.lean ====
section
/-!
DEFINITION. The PCIe endpoint's MSI-X messages and the forager DMA engine (chapter 18).
-/
namespace Sys2Proof.Machine

def State.bme (s : State) : Bool := s.bit PCI_STATUS 11 == 1

/-! ### Channel state (Table 18-6) -/

def State.chMode (s : State) (n : Nat) : Nat := s.fd (FDM_CHn_CFG n) FDM_CHn_CFG_MODE
def State.chEn (s : State) (n : Nat) : Bool := s.bit (FDM_CHn_CFG n) 0 == 1
def State.chSize (s : State) (n : Nat) : Nat := 2 ^ s.fd (FDM_CHn_CFG n) FDM_CHn_CFG_SIZE_LOG2
def State.chHead (s : State) (n : Nat) : Nat := s.fd (FDM_CHn_STATE n) FDM_CHn_STATE_HEAD
def State.chTail (s : State) (n : Nat) : Nat := s.rd (FDM_CHn_TAIL n) % 65536
def State.chRing (s : State) (n : Nat) : Nat := s.rd64 (FDM_CHn_RING_LO n) (FDM_CHn_RING_HI n) / 64 * 64
/-- 0 DISABLED, 1 RUNNING, 2 STOPPING, 3 STOPPED, 4 HALTED. -/
def State.chState (s : State) (n : Nat) : Nat := s.fd (FDM_CHn_STATE n) FDM_CHn_STATE_STATE
def State.setCh (s : State) (n v : Nat) : State := s.setFd (FDM_CHn_STATE n) FDM_CHn_STATE_STATE v
def State.stopPend (s : State) (n : Nat) : Bool := s.bit (FDM_CHn_STATE n) 5 == 1
def State.setCause (s : State) (n v : Nat) : State := s.setFd (FDM_CHn_STATE n) FDM_CHn_STATE_CAUSE v
def State.fdmOn (s : State) : Bool := s.blockOn 17

def State.chPre (s : State) (n : Nat) : List FdmDesc := nth s.fdm.pre n []
def State.setPre (s : State) (n : Nat) (l : List FdmDesc) : State := { s with fdm := { s.fdm with pre := setNth s.fdm.pre n l } }
def State.chCmdErr (s : State) : State := s.flag FDM_ERR 1

/-- Channels that are HALTED, as FDM_HALTED reads. -/
def State.fdmHalted (s : State) : Nat := sumL (((List.range 32).filter (fun n => s.chState n == 4)).map (fun n => 2 ^ n))

/-- The boundary after a descriptor: a STOP or a disable that waits takes effect (R475, R476). -/
def State.chBoundary (s : State) (n : Nat) : State :=
  let s := s.setCause n 0
  if !s.chEn n then ((s.setPre n []).setBit (FDM_CHn_STATE n) 5 false).setCh n 0
  else if s.stopPend n || s.chState n = 2 then ((s.setPre n []).setBit (FDM_CHn_STATE n) 5 false).setCh n 3
  else s.setCh n 1

/-! ### Doorbells and MSI-X (Table 18-2, R464, R466) -/

/-- A BAR4 page that no doorbell has. -/
def State.badDoorbell (s : State) : State := s.count PCI_BAD_CNT 1

/-- FORAGER_DOORBELL (R466): TAIL written to the page of channel n. -/
def execForagerDoorbell (n v : Nat) (s : State) : Res :=
  if s.pci.held then .next s
  else if 32 ≤ n then .next s.badDoorbell
  else if s.chSize n ≤ v then .next s.chCmdErr
  else .next (s.wr (FDM_CHn_TAIL n) v)

/-- Vector v's control word is written with the mask bit at `m` (R464). -/
def State.msixMask (s : State) (v m : Nat) : State :=
  let i := v * 4 + 3
  let s := { s with pci := { s.pci with msix := spSet msixReset s.pci.msix i (spGet msixReset s.pci.msix i / 2 * 2 + m) } }
  if m = 0 && spGet zeroNat s.pci.pba v = 1 then
    ({ s with pci := { s.pci with pba := spSet zeroNat s.pci.pba v 0 } }).sendVec v
  else s

/-- MSIX_VECTOR_UNMASK (R464). -/
def execMsixVectorUnmask (v : Nat) (s : State) : Res := if v < 2048 && !s.pci.held then .next (s.msixMask v 0) else .next s

/-! ### Fetching (R467, R469) -/

/-- Cuts a gather list into elements (Table 18-4). -/
def gatherEls : Nat → List Byte → List (Nat × Nat)
  | 0, _ => []
  | k + 1, b => (leAt b 0 8, leAt b 8 4) :: gatherEls k (b.drop 16)

/-- Reserved words of the gather elements are 0. -/
def gatherRsv (k : Nat) (b : List Byte) : Bool := (List.range k).all (fun i => leAt b (16 * i + 12) 4 == 0)

/-- The descriptor at ring index `idx`, checked under R469. -/
def State.descOf (s : State) (n idx : Nat) (b g : List Byte) : FdmDesc :=
  let ctrl := leAt b 0 4
  let host := leAt b 8 8
  let ddr := leAt b 16 8
  let gather := bitOf ctrl 29 = 1
  let k := ctrl % 2 ^ 24
  let els := if gather then gatherEls (min k 16) g else [(host, k)]
  let total := sumL (els.map (·.2))
  let formOk := bitsOf ctrl 27 24 == 0 && ddr / 2 ^ 41 == 0
    && (if gather then 1 ≤ k && k ≤ 16 && host % 16 == 0 && gatherRsv k g && els.all (fun e => 1 ≤ e.2 && e.2 < 2 ^ 24) && total < 2 ^ 24
        else 1 ≤ k)
    && (s.chMode n == 0 || (bitOf ctrl 28 == 1 && !gather))
  let partOk := s.chMode n == 1 || bitOf ctrl 28 == 1 || s.inPartition 5 ddr total
  ⟨idx, ctrl, host, ddr, if !formOk then 4 else if !partOk then 5 else 0, els, 0, 0, 0x1F, true, 0, false⟩

/-- Descriptors the channel may hold (R466). -/
def State.chDepth (s : State) (n : Nat) : Nat := if s.chMode n = 1 then 8 else 1

/-- Ring index of the next descriptor to fetch. -/
def State.chNext (s : State) (n : Nat) : Nat := (s.chHead n + (s.chPre n).length) % s.chSize n

/-- The flags of a bus error's source in PCI_ERR (R473). -/
def State.busFlag (s : State) (src : Nat) : State :=
  match src with
  | 1 => (s.count PCI_CPL_TO_CNT 1).flag PCI_ERR 2
  | 3 => s.flag PCI_ERR 3
  | _ => s.flag PCI_ERR 1

/-- The channel halts on a bus error (R473). -/
def State.chHalt (s : State) (n src addr idx dir : Nat) : State :=
  let s := (s.wr (FDM_CHn_ERR_LO n) (addr % 2 ^ 32)).wr (FDM_CHn_ERR_HI n) (addr / 2 ^ 32 % 2 ^ 32)
  let s := s.wr (FDM_CHn_ERR_INFO n) (idx * 2 ^ 16 + dir * 2 ^ 8 + src * 2 ^ 4)
  let s := (s.busFlag src).flag FDM_ERR 2
  (s.setBit (FDM_CHn_STATE n) 5 (s.stopPend n || s.chState n == 2)).setCause n 1 |>.setCh n 4

/-- A descriptor whose fetch failed, kept for SKIP and ABORT. -/
def FdmDesc.lost (idx : Nat) : FdmDesc := ⟨idx, 0, 0, 0, 0, [], 0, 0, 0x1F, false, 0, false⟩

/-- May channel n fetch? -/
def State.chCanFetch (s : State) (n : Nat) : Bool :=
  n < 32 && s.fdmOn && s.chState n == 1 && (s.chPre n).length < s.chDepth n && s.chNext n != s.chTail n

/-- DESCRIPTOR_FETCH (R467, R473): what the host returned for the descriptor and for its gather list. -/
def execDescriptorFetch (n : Nat) (d g : HostRead) (s : State) : Res :=
  if !s.chCanFetch n then .next s
  else
    let idx := s.chNext n
    let addr := s.chRing n + idx * 32
    let pre := s.chPre n
    if !s.bme then .next (s.chHalt n 3 addr 0x1F 0)
    else match d with
      | .bad src => .next (s.chHalt n src addr 0x1F 0)
      | .data b =>
        let ctrl := leAt b 0 4
        if bitOf ctrl 31 = 0 then
          let s := s.setBit (FDM_CHn_STATE n) 5 (s.stopPend n || s.chState n == 2)
          .next (((s.flag FDM_ERR 3).setCause n 2).setCh n 4)
        else if bitOf ctrl 29 = 1 && s.chMode n = 0 then
          match g with
          | .bad src => .next (s.chHalt n src (leAt b 8 8) 0x1F 0)
          | .data gb => .next (s.setPre n (pre ++ [s.descOf n idx b gb]))
        else .next (s.setPre n (pre ++ [s.descOf n idx b []]))

/-! ### Transfers and completion (R463, R468, R473) -/

/-- A write of the channel to host memory. -/
def State.hostPut (s : State) (addr : Nat) (b : List Byte) : State := if b.isEmpty then s else s.emit (.hostWrite addr b)

/-- Completes a descriptor: STATUS and GSTAT, CTRL with OWN at 0, the MSI-X message (R463); HEAD goes past it. -/
def State.descDone (s : State) (n : Nat) (d : FdmDesc) (code : Nat) (eop : Bool) : State :=
  let at_ := s.chRing n + d.idx * 32
  let st := code * 2 ^ 28 + (if eop then 2 ^ 27 else 0) + d.bytes % 2 ^ 24
  let s := if d.known then
      (((s.hostPut (at_ + 4) (toLE 4 st)).hostPut (at_ + 28) (toLE 4 (d.fail * 2 ^ 16 + d.done))).hostPut at_ (toLE 4 (d.ctrl % 2 ^ 31)))
    else s
  let s := s.when (d.known && bitOf d.ctrl 30 == 1) (·.sendVec (bitsOf (s.rd (FDM_CHn_CFG n)) 31 21))
  let s := (s.count (FDM_CHn_DESC n) 1).count (FDM_CHn_BYTES n) d.bytes
  let s := s.setFd (FDM_CHn_STATE n) FDM_CHn_STATE_HEAD ((d.idx + 1) % s.chSize n)
  (s.setPre n ((s.chPre n).drop 1)).chBoundary n

/-- Elements of a transfer from host memory: each list of bytes goes to consecutive DDR addresses (R468). -/
def State.takeEls (s : State) (d : FdmDesc) : List (List Byte) → State × FdmDesc
  | [] => (s, d)
  | b :: r =>
    if d.els.length ≤ d.done then (s, d)
    else
      let s := s.ddrWrite (d.ddr + d.bytes + d.part) (b.drop d.part)
      s.takeEls { d with done := d.done + 1, bytes := d.bytes + b.length, part := 0 } r

/-- The elements that remain, each read from DDR and written to host memory; of the first the bytes no beat has moved yet. -/
def State.giveEls (s : State) (d : FdmDesc) (errs : List DdrErr) : List (Nat × Nat) → State × FdmDesc
  | [] => (s, d)
  | e :: r =>
    let a := d.ddr + d.bytes + d.part
    let v := (s.ddrMeet a (e.2 - d.part) errs).ddrRead a (e.2 - d.part)
    (v.2.hostPut (e.1 + d.part) v.1.1).giveEls { d with done := d.done + 1, bytes := d.bytes + e.2, part := 0, uncorr := d.uncorr || v.1.2 } errs r

/-- Do the bytes the host returned match the elements in length? -/
def elsFit : List (Nat × Nat) → List (List Byte) → Bool
  | _, [] => true
  | [], _ :: _ => false
  | e :: r, b :: t => e.2 == b.length && elsFit r t

/-- The descriptor a SOFTWARE channel works on. -/
def State.chWork (s : State) (n : Nat) : Option FdmDesc :=
  if n < 32 && s.fdmOn && (s.chState n = 1 || s.chState n = 2) then (s.chPre n).head? else none

/-! ### Arbitration (R471, R472) -/

/-- The unit that waits for channel n: a product, or a received frame of classifier action HOST. -/
def State.chUnit (s : State) (n : Nat) : Option (FdmUnit × State) :=
  match s.units.find? (·.ch == n) with
  | some u => some (u, { s with units := s.units.erase u })
  | none =>
    match s.takeRx (fun x => x.kind == .host n) with
    | (some x, t) => some (⟨n, .respond, x.port, s.tick, x.bytes⟩, t)
    | (none, _) => none

/-- Bytes the fetched descriptors cover, up to the first that failed its check. -/
def coverOf : List FdmDesc → Nat
  | [] => 0
  | d :: r => if d.code = 0 then d.ctrl % 2 ^ 24 + coverOf r else 0

/-- Channel n has a beat pending in a direction, 0 from the host, 1 to the host: the rest of a descriptor, or a unit its descriptors cover. -/
def State.chPend (s : State) (n dir : Nat) : Bool :=
  n < 32 && s.fdmOn &&
  (if s.chMode n = 1 then
    dir == 1 && s.chState n == 1 && (match s.chUnit n with | some (u, _) => !u.bytes.isEmpty && u.bytes.length ≤ coverOf (s.chPre n) | none => false)
   else match s.chWork n with | some d => d.code == 0 && d.done < d.els.length && bitOf d.ctrl 28 == dir | none => false)

/-- PRIO of channel n, 0 the highest. -/
def State.chPrio (s : State) (n : Nat) : Nat := s.fd (FDM_CHn_CFG n) FDM_CHn_CFG_PRIO

/-- The arbiter of a direction grants channel n beat after beat: of the channels with a beat pending it has the lowest PRIO, and of those the lowest
index (R471). -/
def State.chTop (s : State) (n dir : Nat) : Bool :=
  (List.range 32).all (fun m => m == n || !s.chPend m dir || s.chPrio n < s.chPrio m || (s.chPrio n == s.chPrio m && n < m))

/-- One beat of at most 64 bytes of the element in progress (R471): `b` are the bytes of the element where they come from the host. -/
def State.chBeat (s : State) (d : FdmDesc) (b : List Byte) (errs : List DdrErr) : State × FdmDesc :=
  match d.els.drop d.done with
  | [] => (s, d)
  | e :: _ =>
    let m := min 64 (e.2 - d.part)
    let a := d.ddr + d.bytes + d.part
    let d1 := if d.part + m = e.2 then { d with done := d.done + 1, bytes := d.bytes + e.2, part := 0 } else { d with part := d.part + m }
    if bitOf d.ctrl 28 = 1 then
      let v := (s.ddrMeet a m errs).ddrRead a m
      (v.2.hostPut (e.1 + d.part) v.1.1, { d1 with uncorr := d.uncorr || v.1.2 })
    else (s.ddrWrite a ((b.drop d.part).take m), d1)

/-- Channel n is promoted for its next grant. -/
def State.chProm (s : State) (n : Nat) : Bool := s.fdm.prom.contains n

/-- The beats granted of the unit in front of a STREAM channel. -/
def State.chGot (s : State) (n k : Nat) : State := { s with fdm := { s.fdm with got := spSet zeroNat s.fdm.got n k } }

/-- The grant ends a promotion (R472). -/
def State.granted1 (s : State) (n : Nat) : State := { s with fdm := { s.fdm with prom := s.fdm.prom.filter (· != n) } }

/-- DESCRIPTOR_COMPLETE (R463, R468, R469): the rest of a SOFTWARE descriptor's transfer ends without a bus error. `data` is
what the host returned for its elements, `errs` the errors DDR lines meet. While another channel ranks before it in its direction it is granted
nothing, or one beat if it is promoted (R471, R472). A descriptor that failed R469 completes at once. -/
def execDescriptorComplete (n : Nat) (data : List (List Byte)) (errs : List DdrErr) (s : State) : Res :=
  match s.chWork n with
  | none => .next s
  | some d =>
    let left := d.els.drop d.done
    let dir := bitOf d.ctrl 28
    if !s.bme then
      .next (if d.code ≠ 0 || left.isEmpty then s.chHalt n 3 (s.chRing n + d.idx * 32 + 4) d.done 1
        else s.chHalt n 3 (match left with | e :: _ => e.1 | [] => d.host) d.done dir)
    else if d.code ≠ 0 then
      let s := if d.code = 5 then (s.count DDR_HOST_WDROP 1).flag DDR_ERR 6 else s
      .next (s.descDone n d d.code false)
    else if s.chMode n = 1 then .next s
    else if dir = 0 && !(elsFit left data && data.length == left.length) then .next s
    else
      let top := s.chTop n dir
      if !top && !s.chProm n then .next s
      else
        let s := s.granted1 n
        let t := if !top then s.chBeat d (data.headD []) errs else if dir = 1 then s.giveEls d errs left else s.takeEls d data
        if t.2.done < t.2.els.length then .next (t.1.setPre n (t.2 :: (t.1.chPre n).drop 1))
        else .next (t.1.descDone n { t.2 with fail := 0x1F } (if t.2.uncorr then 6 else 0) false)

/-- BUS_ERROR (R473): after the elements `data` the next request of channel n fails with source `src` at host address `addr`;
`part` is what of the failing element had already been moved. With no descriptor in progress the fetch itself fails.
Clients 32 to 95 are the command rings: the reply of ring `n` − 32 could not be written (R487). -/
def execBusError (n : Nat) (data : List (List Byte)) (part : List Byte) (src addr : Nat) (s : State) : Res :=
  match s.chWork n with
  | some d =>
    let left := d.els.drop d.done
    if s.chMode n = 1 || 3 ≤ src || d.code ≠ 0 || !elsFit left data || left.length ≤ data.length || bitOf d.ctrl 28 = 1
      || !(data.isEmpty || s.chTop n 0) then .next s
    else
      let t := (s.granted1 n).takeEls d data
      let s := t.1.when (!part.isEmpty) (·.ddrWrite (t.2.ddr + t.2.bytes) part)
      let d := { t.2 with fail := t.2.done, part := 0 }
      let at_ := s.chRing n + d.idx * 32
      let s := s.when s.bme (fun s =>
        (s.hostPut (at_ + 4) (toLE 4 (2 ^ 28 + d.bytes % 2 ^ 24))).hostPut (at_ + 28) (toLE 4 (d.fail * 2 ^ 16 + d.done)))
      .next ((s.setPre n (d :: (s.chPre n).drop 1)).chHalt n src addr d.fail 0)
  | none =>
    if 32 ≤ n && n < 96 then .next ((((s.busFlag src).setBit (CMD_RINGr_STATUS (n - 32)) 31 true)).flag CMD_ERR 3)
    else if s.chCanFetch n && src < 3 then .next (s.chHalt n src addr 0x1F 0) else .next s

/-! ### STREAM channels (R470) -/

/-- The producer of a unit counts it as lost (R470). -/
def State.unitLost (s : State) (u : FdmUnit) : State :=
  match u.kind with
  | .honey => s.honeyLost u.src
  | .workerRecord => s.recLost 1
  | .event => s.evtLost 1
  | _ => s

/-- Completes the descriptors at the front of a STREAM channel that failed their check (R469); not while Bus Master Enable is 0. -/
def State.dropBad : Nat → Nat → State → State
  | 0, _, s => s
  | fuel + 1, n, s =>
    match s.chWork n with
    | some d => if d.code ≠ 0 then State.dropBad fuel n (s.descDone n d d.code false) else s
    | none => s

/-- A unit fills the buffers of the descriptors in front (R470). -/
def State.fillDescs : Nat → Nat → State → List Byte → State
  | 0, _, s, _ => s
  | fuel + 1, n, s, b =>
    match (s.chPre n).head? with
    | none => s
    | some d =>
      let len := d.ctrl % 2 ^ 24
      let now := b.take len
      let rest := b.drop len
      let d := { d with bytes := now.length, done := if now.length = len then 1 else 0 }
      let s := (s.hostPut d.host now).descDone n d 0 rest.isEmpty
      if rest.isEmpty then s else State.fillDescs fuel n s rest

/-- STREAM_UNIT_DELIVER (R470, R474): the first unit for channel n, once the fetched descriptors cover it and the arbiter grants its beats (R471, R472). A write while Bus
Master Enable is 0 halts the channel and the unit is lost. -/
def execStreamUnitDeliver (n : Nat) (s : State) : Res :=
  let s := if s.bme then State.dropBad 8 n s else s
  if 32 ≤ n || !s.fdmOn || s.chMode n ≠ 1 || s.chState n ≠ 1 then .next s
  else match s.chUnit n with
    | none => .next s
    | some (u, t) =>
      let got := spGet zeroNat s.fdm.got n
      if coverOf (s.chPre n) < u.bytes.length || u.bytes.isEmpty then .next s
      else if !s.bme then
        .next ((t.chHalt n 3 (match (s.chPre n).head? with | some d => d.host | none => 0) 0 1).unitLost u)
      else if s.chTop n 1 || (s.chProm n && u.bytes.length ≤ 64 * (got + 1)) then .next (State.fillDescs 8 n ((t.granted1 n).chGot n 0) u.bytes)
      else if s.chProm n then .next ((s.granted1 n).chGot n (got + 1))
      else .next s

/-- At a tick boundary the units, and the received frames for host memory, that began to wait in an earlier tick are abandoned (R31, R470); one that beats have started waits no longer. -/
def State.unitAbandon (s : State) : State :=
  let begun (u : FdmUnit) : Bool := spGet zeroNat s.fdm.got u.ch != 0 && s.units.find? (·.ch == u.ch) == some u
  let gone := s.units.filter (fun u => u.age < s.tick && !begun u)
  let s := { s with units := s.units.filter (fun u => s.tick ≤ u.age || begun u) }
  let old (x : RxItem) : Option Nat := match x.kind with
    | .host n => if x.stamp < ((s.tick * 1000 * 65536 : Nat) : Int)
        && !(spGet zeroNat s.fdm.got n != 0 && s.eth.inbox.find? (fun y => y.kind == .host n) == some x) then some n else none
    | _ => none
  let frames := s.eth.inbox.filterMap old
  let s := { s with eth := { s.eth with inbox := s.eth.inbox.filter (fun x => (old x).isNone) } }
  let s := s.each frames (fun s n => s.count (FDM_CHn_WAITS n) 1)
  s.each gone (fun s u => (s.count (FDM_CHn_WAITS u.ch) 1).unitLost u)

/-! ### Commands (R472, R474 to R476) -/

/-- FORAGER_AGE_PROMOTE (R472): channel n has had a pending beat for `us` µs without a grant. -/
def execForagerAgePromote (n us : Nat) (s : State) : Res :=
  let busy := s.chPend n 0 || s.chPend n 1
  if 32 ≤ n || !s.fdmOn || us < s.rd FDM_AGE % 1024 || !busy || s.fdm.prom.contains n then .next s
  else .next ({ s with fdm := { s.fdm with prom := s.fdm.prom ++ [n] } }.count (FDM_CHn_PROMOTE n) 1)

/-- STOP, or the stop of a disable: at once while idle, else at the next boundary (R475). -/
def State.chStop (s : State) (n : Nat) : State :=
  if s.chState n = 4 && (s.chPre n).isEmpty && !s.chEn n then s.chBoundary n
  else if s.chState n = 4 then s.setBit (FDM_CHn_STATE n) 5 true
  else if s.chMode n = 0 && !(s.chPre n).isEmpty then (s.setBit (FDM_CHn_STATE n) 5 true).setCh n 2
  else (s.setCh n 2).chBoundary n

/-- The descriptor that SKIP and ABORT complete: the one in progress, or the one at HEAD whose fetch failed. -/
def State.chHeld (s : State) (n : Nat) : FdmDesc :=
  match (s.chPre n).head? with | some d => d | none => FdmDesc.lost (s.chHead n)

/-- The write-back of SKIP and ABORT is a request that Bus Master Enable does not let out (R473). -/
def State.chBlocked (s : State) (n : Nat) : Bool := (s.chHeld n).known && !s.bme

/-- So the channel halts once more, at the STATUS word of its descriptor. -/
def State.chHaltBack (s : State) (n : Nat) : State :=
  s.chHalt n 3 (s.chRing n + (s.chHeld n).idx * 32 + 4) (s.chHeld n).done 1

/-- A value written to FDM_CHn_CMD (R474, R475). -/
def State.chCmd (s : State) (n cmd : Nat) : State :=
  let st := s.chState n
  match cmd with
  | 1 => if st = 3 then s.setCh n 1 else s.chCmdErr
  | 2 => if st = 1 || (st = 4 && !s.stopPend n) then s.chStop n else s.chCmdErr
  | 3 =>
    if st ≠ 4 then s.chCmdErr
    else if s.stopPend n && (s.chPre n).isEmpty then s.chBoundary n
    else (((s.setPre n ((s.chPre n).map (fun d => { d with part := 0 }))).setCause n 0).setCh n (if s.stopPend n then 2 else 1))
  | 4 =>
    if st ≠ 4 then s.chCmdErr
    else if s.chBlocked n then s.chHaltBack n
    else s.descDone n (s.chHeld n) 2 false
  | 5 =>
    if st ≠ 4 then s.chCmdErr
    else if s.chBlocked n then s.chHaltBack n
    else (s.setBit (FDM_CHn_STATE n) 5 true).descDone n (s.chHeld n) 3 false
  | _ => s.chCmdErr

/-! ### Register writes -/

def fdmPre (a new : Nat) (s : State) : Option State :=
  let bad := some (s.flag FDM_ERR 0)
  if a = FDM_AGE then (if new % 1024 = 0 || 1000 < new % 1024 then bad else none)
  else if 0x1101000 ≤ a && a < 0x1101800 then
    let n := (a - 0x1101000) / 0x40
    match a % 0x40 with
    | 0 =>
      if s.chEn n && s.rd a / 2 ≠ new / 2 then bad
      else if bitsOf new 20 16 < 4 || 16 < bitsOf new 20 16 then bad
      else none
    | 8 | 0xC => if s.chEn n && s.rd a ≠ new then bad else none
    | _ => none
  else none

/-- After a write: a channel is enabled with HEAD and TAIL 0 (R466), or stops and is disabled (R476); a command. -/
def fdmPost (a old v : Nat) (s : State) : State :=
  if 0x1101000 ≤ a && a < 0x1101800 then
    let n := (a - 0x1101000) / 0x40
    match a % 0x40 with
    | 0 =>
      if bitOf old 0 = 0 && s.bit a 0 = 1 then
        if s.chState n = 0 then (((s.wr (FDM_CHn_STATE n) 1).wr (FDM_CHn_TAIL n) 0).setPre n []) else s
      else if bitOf old 0 = 1 && s.bit a 0 = 0 then
        (if s.chState n = 3 then s.chBoundary n else s.chStop n)
      else s
    | 0x14 => s.chCmd n (v % 8)
    | _ => s
  else s

/-! ### The endpoint's reset (R564, R568) -/

/-- A register file without blocks FDM and PCI. -/
def withoutPcie (l : List (Nat × BitVec 32)) : List (Nat × BitVec 32) :=
  l.filter (fun e => !(e.1 / 0x100000 == 17 || e.1 / 0x100000 == 20))

/-- PERST_L low: every forager channel stops at once with no write-back, and the endpoint and the FDM and PCI blocks return to their
reset values (Table 24-1); their domain is held in reset. -/
def State.endpointReset (s : State) : State :=
  ({ s with regs := withoutPcie s.regs, fdm := Fdm.reset, pci := { Pci.reset with held := true } }).setBit GLB_DOMAINS 11 false

end Sys2Proof.Machine
end

