-- ==== Sys2Proof/Machine/Admit.lean ====
section
/-!
DEFINITION. The admission checks of Table 2-8 (R22, R58 to R61, R516), over the configuration a state's registers spell,
and the commit of a slice-map switch, which runs them (R229).
-/
namespace Sys2Proof.Machine

/-- A failed check: its ID and part, the value demanded and the limit (R492). -/
structure Refused where
  check  : Nat
  sub    : Nat
  demand : Nat
  limit  : Nat
  deriving DecidableEq, Repr

def refuseIf (bad : Bool) (c sub d l : Nat) : List Refused := if bad then [⟨c, sub, d, l⟩] else []
def exceeds (c sub d l : Nat) : List Refused := refuseIf (l < d) c sub d l

/-! ### The configuration the registers spell -/

/-- The session's corner-turn configuration where its brood is enabled. -/
def State.cvCtn (s : State) (x : Nat) : Option CtnSes :=
  if s.bit (CTN_SESx_CFG x) 0 = 1 then some (s.ctnRead x (s.rd (CTN_SESx_CFG x))) else none

def State.cvMap (s : State) (x : Nat) : Nat := s.rd (CTN_SESx_MAP x)
def State.cvNx (s : State) (x : Nat) : Nat := s.numInputs (s.rd (CTN_SESx_INMAP x))
def State.cvCx (s : State) (x : Nat) : Nat := if s.bit (CTN_SESx_CFG x) 2 = 1 then s.numOwned (s.cvMap x) else 0
def State.cvGx (s : State) (x : Nat) : Nat := s.cvCx x * blocksOf (s.cvNx x)
def State.cvM (s : State) (x : Nat) : Nat := if s.bit (CTN_SESx_CFG x) 3 = 1 then 4 else 1
def State.cvNs (s : State) (x : Nat) : Nat := cpNs (s.rd (CTN_SESx_GRID x))
def State.cvHop (s : State) (x : Nat) : Nat := max 1 (cpHop (s.rd (CTN_SESx_GRID x)))
def State.cvQ (s : State) (x : Nat) : Nat := ceilDiv (s.cvNs x) (s.cvHop x)

/-- r_ch in units of 10^9 / 196,608,000 channels per second: every hop divides 196,608. -/
def State.cvRate (s : State) (x : Nat) : Nat := s.cvNs x * (196608 / s.cvHop x)

def State.cvOn (s : State) (a : Nat → Nat) : List Nat := (List.range 1024).filter (fun x => s.bit (a x) 0 == 1)
def State.ctnOn (s : State) : List Nat := s.cvOn CTN_SESx_CFG
def State.cmbAt (s : State) (x : Nat) : Bool := x < 1024 && s.bit (CMB_SESx_CFG x) 0 == 1
def State.cmbOn (s : State) : List Nat := (List.range 1024).filter s.cmbAt
def State.supOn (s : State) : List Nat := s.cvOn SUP_SESx_CFG
def State.wagAt (s : State) (x : Nat) : Bool := x < 1024 && s.bit (WAG_SESx_CFG x) 0 == 1
def State.wagOn (s : State) : List Nat := (List.range 1024).filter s.wagAt
def State.inputsOn (s : State) : List Nat := (List.range 256).filter (fun i => s.bit (ING_Ii_CFG i) 0 == 1)
def State.rate (s : State) (i : Nat) : Nat := s.fd (ING_Ii_RATE i) ING_Ii_RATE_RATE_KSPS

/-- A session's quota of Table 21-1, row i. -/
def State.quotaOf (s : State) (x i : Nat) : Nat := s.rd (CMD_SESx_CFG x + 0xC + 4 * i)

/-- The session's own demand against its quota (R516). -/
def State.quota (s : State) (x : Option Nat) (c i : Nat) (d : Nat → Nat) : List Refused :=
  match x with | some x => exceeds c 0xFFFF (d x) (s.quotaOf x i) | none => []

/-! ### Checks 1 to 5: input rates -/

def State.inputDemand (s : State) (x : Nat) : Nat :=
  match s.cvCtn x with
  | some c => if c.produce then sumL ((localInputs c.cfg2).map s.rate) else 0
  | none => 0

/-- Checks 1 to 5 of Table 1-4, in kS/s and kb/s. A block adds 256 bits (R146). -/
def State.rateChecks (s : State) (x : Option Nat) : List Refused :=
  let ins := s.inputsOn
  ins.flatMap (fun i => exceeds 1 i (s.rate i) 4096000)
  ++ (List.range 8).flatMap (fun e => exceeds 2 e (sumL ((ins.filter (fun i => i / 32 == e)).map s.rate)) 51200000)
  ++ s.quota x 3 0 s.inputDemand ++ exceeds 3 0 (sumL (ins.map s.rate)) 409600000
  ++ ((List.range 64).filter s.portEn).flatMap (fun n =>
      let cfg := s.rd (NEC_PORTn_CFG n)
      exceeds 4 n (sumL ((portInputs cfg).map s.rate) * necBits (bitsOf cfg 3 1) + 256000) 61200000)
  ++ exceeds 5 0 (sumL (((List.range 256).filter (fun i => s.bit (CHN_Ii_CFG i) 0 == 1)).map (fun i =>
      let cfg := s.cpCfg (s.inputProfile i)
      cpNs cfg * 1000 * (if bitOf cfg 8 = 1 then 4 else 3) / 3))) 409600000

/-! ### Checks 6 to 8: brood -/

/-- R25, R248, R42. -/
def State.broodChecks (s : State) : List Refused :=
  let xs := s.ctnOn
  let own := xs.filter (fun x => s.bit (CTN_SESx_CFG x) 2 == 1)
  xs.flatMap (fun x => match s.cvCtn x with
    | some c => if c.produce then
        (localInputs c.cfg2).flatMap (fun i =>
          let w := bitOf (s.cpCfg (s.inputProfile i)) 7
          let b := if c.wide then 1 else 0
          refuseIf (w != b) 6 0 w b)
      else []
    | none => [])
  ++ exceeds 7 0 (sumL (own.map (fun x => s.cvCx x * s.cvNx x * bitsOf (s.rd (CTN_SESx_CFG x)) 24 8 * (s.bit (CTN_SESx_CFG x) 3 + 1)))) 67108864
  ++ exceeds 7 1 (sumL (own.map s.cvNx)) 1048576
  ++ xs.flatMap (fun x =>
      exceeds 8 0 (bitsOf (s.rd (CTN_SESx_CFG2 x)) 29 16 + 5) (bitsOf (s.rd (CTN_SESx_CFG x)) 24 8 * s.cvHop x / s.cvNs x))

/-! ### Checks 9 to 11: combs, supers, drain -/

/-- ρ_W of one session × 196,608,000. -/
def State.combDemand (s : State) (x : Nat) : Nat :=
  if s.cmbAt x then ceilDiv (s.cvGx x) 16 * s.cvM x * s.cvRate x else 0

/-- The limit 0.95 in units of 2^−16, rounded down. -/
def rho95 : Nat := 62259

def State.slotBad (s : State) (x : Nat) (xs : List Nat) : Bool :=
  let b := s.slotBase x
  let n := ceilDiv (s.cvGx x) 16
  512 < b + n || xs.any (fun y => y != x && meets b n (s.slotBase y) (ceilDiv (s.cvGx y) 16))

/-- R261, Table 10-2. -/
def State.combChecks (s : State) (x : Option Nat) : List Refused :=
  let xs := s.cmbOn
  let sum := xs.filter s.sesCounts
  let rho := sumL (sum.map s.combDemand)
  s.quota x 9 1 (fun x => s.combDemand x * 65536 / 196608000)
  ++ refuseIf (19 * 196608000 < 20 * rho) 9 0 (rho * 65536 / 196608000) rho95
  ++ exceeds 9 1 (sumL (sum.map (fun x => ceilDiv (s.cvGx x) 16 * s.cvM x * s.cvQ x))) 1200
  ++ xs.flatMap (fun x => refuseIf (s.slotBad x xs) 9 2 (s.slotBase x + ceilDiv (s.cvGx x) 16) 512)

def State.superDemand (s : State) (x : Nat) : Nat :=
  if x < 1024 && s.bit (SUP_SESx_CFG x) 0 == 1 then s.cvCx x * triOf (s.cvNx x) * (if s.bit (SUP_SESx_CFG x) 1 = 1 then 2 else 1) else 0

/-- The layout of an integration as the registers spell it. -/
def State.cvLayout (s : State) (x : Nat) : Layout :=
  let cfg := s.rd (SUP_SESx_CFG x)
  ⟨0, 0, s.cvNx x, s.cvCx x, 0, bitOf cfg 1 == 1, bitsOf cfg 31 16 + 1, bitsOf (s.rd (CTN_SESx_CFG x)) 24 8, []⟩

/-- B_int (R305): every LOSS send at 1,025 records, and the END send of one record. -/
def State.drainBytes (s : State) (x : Nat) : Nat :=
  let l := s.cvLayout x
  sumL (l.plan.map (fun h => s.honeyCounted x s.tick (honeyGran l h.kind) ((if h.kind = 4 then 1025 else h.count) * honeyGran l h.kind)))
  + s.honeyCounted x s.tick 8 8

/-- Checks 10 and 11. Times are in ns. -/
def State.superChecks (s : State) (x : Option Nat) : List Refused :=
  let xs := s.supOn
  s.quota x 10 2 s.superDemand
  ++ exceeds 10 0 (sumL ((xs.filter s.sesCounts).map s.superDemand)) 67108864
  ++ xs.flatMap (fun x =>
      let l := s.cvLayout x
      let b := 8 * s.drainBytes x
      let rate := s.rd (SUP_SESx_RATE x) % 2 ^ 17
      let span := l.i * l.d * s.cvHop x
      refuseIf (rate = 0 || span * rate < b * s.cvNs x) 11 0 (if rate = 0 then 2 ^ 64 - 1 else b * 1000 / rate) (span * 1000 / s.cvNs x))

/-! ### Check 12: waggle -/

def State.cvW (s : State) (x : Nat) : Nat := s.wagBeams x * s.wagNb x * s.cvCx x

/-- ρ_G of one session × 196,608,000 × 65,536. -/
def State.wagDemand (s : State) (x : Nat) : Nat :=
  if s.wagAt x then s.cvW x * s.cvM x * s.cvRate x else 0

/-- Table 12-2. -/
def State.wagChecks (s : State) (x : Option Nat) : List Refused :=
  let xs := s.wagOn
  let sum := xs.filter s.sesCounts
  let rho := sumL (sum.map s.wagDemand)
  let comp := sum.filter (fun x => !s.wagExplicit x && 3 ≤ s.wagE x)
  let den := sumL (comp.map (fun x => ceilDiv (s.cvW x) 1024 * 2 ^ 40 / (1000 * (s.wagE x - 2))))
  s.quota x 12 3 (fun x => s.wagDemand x / 196608000)
  ++ refuseIf (19 * 196608000 * 65536 < 20 * rho) 12 0 (rho / 196608000) rho95
  ++ exceeds 12 1 (sumL (sum.map (fun x => s.cvW x * s.cvM x * s.cvQ x))) 78643200
  ++ refuseIf (19 * 2 ^ 40 < 20 * den) 12 2 (den / 2 ^ 24) rho95
  ++ exceeds 12 3 (sumL (sum.map s.cvW)) 16777216
  ++ exceeds 12 4 (sumL ((sum.filter (fun x => !s.wagExplicit x)).map (fun x => s.geoWords x (s.cvCx x)))) 4194304

/-! ### Checks 13 and 14: sting, workers -/

def State.workersOf (s : State) (x : Nat) : List Nat :=
  (List.range 64).filter (fun n => s.wrkEn n && bitsOf (s.rd (WRK_Wn_CFG n)) 31 22 == x)

/-- R390, Table 1-4. -/
def State.unitChecks (s : State) (x : Option Nat) : List Refused :=
  exceeds 13 0 (sumL (((List.range 128).filter s.beamOn).map (fun b => (s.rd (STG_Bb_MAP b) % 256 + 1) * s.beamNs b * 1000000))) 26200000000000
  ++ s.quota x 14 4 (fun x => (s.workersOf x).length)
  ++ exceeds 14 0 ((List.range 64).filter s.wrkEn).length 64

/-! ### Check 15: Ethernet transmit, in kb/s × 196,608 (R223, R250, R305, R329) -/

/-- Counted bytes of a hive's bulk send of `n` bytes on a port. -/
def State.ethBytes (s : State) (port : Nat) (v6 : Bool) (g n : Nat) : Nat :=
  let p := segSize (s.rd (ETHn_CFG2 port)) v6 64 g
  if p = 0 || n = 0 then 0 else n + ceilDiv n p * (14 + (if v6 then 40 else 20) + 8 + 64 + 4 + 20)

/-- Ports that carry the load for peer h, and its sends to this hive (DEDUCED, log entry 40): the lowest of its mask, or up to four with
aggregation. -/
def State.peerLoadPorts (s : State) (h : Nat) : List Nat :=
  (bitList 32 (s.rd (CTN_PEERh_MASK h))).take (if s.bit (CTN_PEERh_CFG h) 0 = 1 then 4 else 1)

/-- Worst bytes of one entry's sends for a home tick of q spectra: a mark record in every send, split at a dwell boundary
and by channel. -/
def State.entryBytes (s : State) (port : Nat) (v6 : Bool) (c : CtnSes) (cnt q : Nat) : Nat :=
  let g := c.inCount * c.bytes
  let one (n : Nat) : Nat :=
    if n = 0 then 0
    else
      let per := chansPerSend g 1 n
      sumL ((List.range (ceilDiv cnt per)).map (fun j => s.ethBytes port v6 g (g * (1 + min per (cnt - j * per) * n))))
  maxL ((List.range (q / 2 + 1)).map (fun j => one j + one (q - j)))

/-- Load of session x's brood sends on port n. A send of an entry that this hive owns with STANDBY_EN goes to the other owner. -/
def State.broodEth (s : State) (x n : Nat) : Nat :=
  match s.cvCtn x with
  | some c =>
    if c.produce then
      sumL ((s.slices (s.cvMap x)).map (fun e =>
        let h := if e.sbEn && e.owner = s.hiveId then e.standby else e.owner
        let ps := s.peerLoadPorts h
        let v6 := if e.sbEn then s.grpV6 e.grp else match s.ctn.members.find? (·.hive == e.owner) with | some m => 2 ^ 32 ≤ m.ip | none => false
        if (s.ownsEnt e && !e.sbEn) || !ps.contains n then 0
        else s.entryBytes n v6 c e.count (s.cvQ x) * 8000 * 196608 / ps.length))
    else 0
  | none => 0

/-- Load of the brood that other hives send to session x, on receive port n (R223; what the spec does not place is DEDUCED, log entry 40). -/
def State.broodRxEth (s : State) (x n : Nat) : Nat :=
  match s.cvCtn x with
  | some c =>
    if bitOf c.cfg 2 = 1 then
      sumL ((s.inputs (s.rd (CTN_SESx_INMAP x))).map (fun i =>
        let ps := s.peerLoadPorts i.1
        if i.1 = s.hiveId || !ps.contains n then 0
        else
          let from_ : CtnSes := { c with cfg2 := setBits c.cfg2 15 8 (i.2.2 - 1) }
          sumL (((s.slices (s.cvMap x)).filter s.ownsEnt).map (fun e =>
            s.entryBytes n (s.grpV6 (if e.sbEn then e.grp else s.annGrp)) from_ e.count (s.cvQ x) * 8000 * 196608)) / ps.length))
    else 0
  | none => 0

/-- Load of the event stream of session x's groups on port n: five records of a group in a tick, as Table 16-7 counts them on DDR (DEDUCED, log
entry 40). -/
def State.eventEth (s : State) (x n : Nat) : Nat :=
  let gs := ((List.range 64).filter (fun c => s.bit (ACQ_CGc_CFG c) 0 == 1 && s.cgSession c == x)).length
  if s.bit ACQ_EVT_CFG 0 = 1 && (bitList 32 (s.rd ACQ_EVT_PORTS)).head? = some n then
    let v6 := match s.streamOf x 2 s.tick with | some t => tmplV6 t.tmpl | none => false
    s.ethBytes n v6 128 (640 * gs) * 8000 * 196608
  else 0

/-- Load of session x on transmit port n. -/
def State.sesEth (s : State) (x n : Nat) : Nat :=
  let cfg := s.rd (SUP_SESx_CFG x)
  let honey := if bitOf cfg 0 = 1 && bitsOf cfg 13 12 = 0 && bitsOf cfg 8 4 = n then s.rd (SUP_SESx_RATE x) % 2 ^ 17 * 1000 * 196608 else 0
  let ports := bitList 32 (s.rd (WAG_SESx_PORTS x))
  let wag := if s.wagAt x && s.bit (WAG_SESx_OUT x) 0 = 1 && ports.contains n then
      let v6 := match s.streamOf x 1 s.tick with | some t => tmplV6 t.tmpl | none => false
      let g := if s.wagFmt8 x then 2 else 4
      let f (q : Nat) : Nat := s.ethBytes n v6 g (q * s.wagBeams x * g)
      let lo := s.cvNs x / s.cvHop x
      let r := s.cvNs x % s.cvHop x
      let mine := ((List.range (s.cvCx x)).filter (fun l => nth ports (l % ports.length) 0 == n)).length
      mine * (f lo * (s.cvHop x - r) + f (lo + 1) * r) * 8000 * (196608 / s.cvHop x)
    else 0
  s.broodEth x n + honey + wag + s.eventEth x n

/-- Check 15: each port and the hive, in each direction. A refusal names the larger direction. -/
def State.ethChecks (s : State) (x : Option Nat) : List Refused :=
  let xs := (List.range 1024).filter s.sesCounts
  let port (n : Nat) : Nat := max (sumL (xs.map (fun x => s.sesEth x n))) (sumL (xs.map (fun x => s.broodRxEth x n)))
  let all (x : Nat) : Nat := sumL ((List.range 32).map (s.sesEth x))
  let hive := max (sumL (xs.map all)) (sumL (xs.map (fun x => sumL ((List.range 32).map (s.broodRxEth x)))))
  s.quota x 15 5 (fun x => all x / 196608)
  ++ (List.range 32).flatMap (fun n => refuseIf (95000000 * 196608 < port n) 15 n (port n / 196608) 95000000)
  ++ refuseIf (3040000000 * 196608 < hive) 15 32 (hive / 196608) 3040000000

/-! ### Check 16: DDR, in bytes per second (Tables 16-7 and 17-4) -/

def State.groupRing (s : State) (c : Nat) : Nat :=
  let cfg := s.rd (ACQ_CGc_CFG c)
  let mem := s.rd (ACQ_CGc_MEMBERS c)
  let count := bitsOf mem 15 8 + 1
  let ids := (List.range count).map (· + mem % 256)
  match bitsOf cfg 7 6 with
  | 0 => sumL (ids.map (fun i => s.rate i * 1000 * (s.inputBits i).getD 16 / 8))
  | 1 => sumL (ids.map (fun i => s.inputNs i * 1000000 * 2))
  | 2 =>
    let x := s.rd (ACQ_CGc_BEAMSEL c) % 1024
    s.cvNs x * 1000000 * s.cvCx x * (if s.wagFmt8 x then 2 else 4) * count / s.cvHop x
  | _ => 0

def State.groupsOn (s : State) : List Nat := (List.range 64).filter (fun c => s.bit (ACQ_CGc_CFG c) 0 == 1)

/-- Padded bytes per second of a session's waggle sends on the DDR route. -/
def State.wagRing (s : State) (x : Nat) : Nat :=
  if s.wagAt x && s.bit (WAG_SESx_OUT x) 1 = 1 then
    let g := if s.wagFmt8 x then 2 else 4
    let f (q : Nat) : Nat := if q = 0 then 0 else ceilDiv (64 + q * s.wagBeams x * g) 64 * 64
    let lo := s.cvNs x / s.cvHop x
    let r := s.cvNs x % s.cvHop x
    s.cvCx x * (f lo * (s.cvHop x - r) + f (lo + 1) * r) * 1000000 / s.cvHop x
  else 0

def State.honeyRing (s : State) (x : Nat) : Nat :=
  let cfg := s.rd (SUP_SESx_CFG x)
  if bitOf cfg 0 = 1 && bitsOf cfg 13 12 = 1 then s.rd (SUP_SESx_RATE x) % 2 ^ 17 * 125000 else 0

/-- Rate of each reserved client. -/
def State.ddrRates (s : State) : List Nat :=
  let gs := s.groupsOn.filter (fun c => s.sesCounts (s.cgSession c))
  let xs := (List.range 1024).filter s.sesCounts
  let hits := ((s.inputsOn).filter (fun i => s.bit (ING_Ii_CFG i) 4 == 1)).length
  let hist := ((List.range 256).filter (fun i => s.bit (ACQ_HIST_IN (i / 32)) (i % 32) == 1)).length
  let outs := (List.range 64).filter (fun n => s.wrkEn n && s.bit (WRK_Wn_CFG n) 21 == 1)
  [ sumL (gs.map s.groupRing),
    sumL (gs.map (fun c => 8 * (bitsOf (s.rd (ACQ_CGc_MEMBERS c)) 15 8 + 1) * 1000000)),
    if s.bit ACQ_EVT_CFG 1 = 1 then 640000000 * gs.length else 0,
    if s.bit ACQ_CHG_CFG 31 = 1 then 16 * (s.rd ACQ_CHG_CFG % 32 + 1) * 1000000 * hits else 0,
    if s.bit ACQ_HIST_CFG 31 = 1 then ceilDiv ((64 + 8 * hist) * 1000000 / max 1 (s.rd ACQ_HIST_CFG % 2 ^ 20)) 64 * 64 else 0,
    sumL (xs.map s.honeyRing),
    sumL (xs.map s.wagRing),
    if bitsOf (s.rd WRK_RES_CFG) 13 12 = 1 then
      (pad64 (wrkRecord 0 (outs.map (fun n => ⟨n, 0, List.replicate 32 0, [], false⟩)))).length * 1000000 else 0 ]

def State.ddrChecks (s : State) (x : Option Nat) : List Refused :=
  let own (x : Nat) : Nat :=
    sumL ((s.groupsOn.filter (fun c => s.cgSession c == x)).map (fun c => s.groupRing c + 8 * (bitsOf (s.rd (ACQ_CGc_MEMBERS c)) 15 8 + 1) * 1000000))
    + s.honeyRing x + s.wagRing x
  let peak := 128 * (3200 + 400 * (s.rd DDR_CFG % 16))
  s.quota x 16 6 (fun x => ceilDiv (own x) 1000000)
  ++ exceeds 16 0 (sumL (s.ddrRates.map (fun r => ceilDiv r 1000000))) (3 * peak / 4)

/-! ### Check 17: TRIG_OUT latency (Table 15-8) -/

/-- Lag λ of a source (Table 15-2). -/
def State.srcLag (s : State) (src : Nat) : Nat :=
  if src < 0x80 then 4 else if src < 0xC0 then 2
  else
    let n := src - 0xC0
    let quarter := 4 * (bitsOf (s.rd (TRIG_INn_CFG n)) 15 8 + 20) + s.rd (TRIG_INn_DLY n) % 2 ^ 22
    ceilDiv (quarter - 400) 4000

/-- T_tx × 100, in ns (R413). -/
def State.slotTx (s : State) (g : Nat) : Nat :=
  let b := maxL ((bitList 32 (s.rd (TRG_SESg_PORTS g))).map (fun n =>
    if s.preemptActive n then 64 * (1 + s.fd (ETHn_CFG n) ETHn_CFG_ADD_FRAG) + 79 else 9042))
  9500 + 8 * (b + 3072)

def State.trgChecks (s : State) : List Refused :=
  let tcs := (List.range 64).filter s.tcOn
  let gs := (List.range 8).filter s.slotOn
  let f := s.rd TRG_FABRIC % 2 ^ 18
  let outs := (List.range 8).filter (fun n => s.bit (TRIG_OUTn_CFG n) 0 == 1)
  let lat (n : Nat) : Nat := s.rd (TRIG_OUTn_LAT n) % 2 ^ 20
  let ltc (g : Nat) : Nat := bitsOf (s.rd (TRG_SESg_CFG g)) 9 4
  let el (g : Nat) : Nat := bitsOf (s.rd (TRG_SESg_CFG2 g)) 31 24
  tcs.flatMap (fun c => exceeds 17 0
      (1000 * (maxL ((s.tcSources c ++ s.tcVetoes c).map s.srcLag) + ceilDiv (s.rd (TRG_TCc_VPOST c) % 65536) 4000)) (1000 * s.tcLag c))
  ++ (gs.filter s.slotMember).flatMap (fun g => refuseIf (el g != s.tcLag (ltc g)) 17 1 (1000 * el g) (1000 * s.tcLag (ltc g)))
  ++ (gs.filter s.slotCollects).flatMap (fun g =>
      exceeds 17 2 (1000 * (s.slotPd g + el g - 1 + ceilDiv (34000 + s.slotTx g + 100 * f) 100000)) (1000 * s.slotEs g))
  ++ exceeds 17 3 (sumL ((gs.filter s.slotCollects).map (fun g => ceilDiv (s.memberHives g).length (s.slotPd g)))) 1024
  ++ tcs.flatMap (fun c => (outs.filter (fun n => (s.outsOfTc c).contains n)).flatMap (fun n =>
      refuseIf (lat n < 4 * ((s.tcLag c + 1) * 1000 + 350)) 17 4 ((s.tcLag c + 1) * 1000 + 350) (lat n / 4)))
  ++ gs.flatMap (fun g => (outs.filter (fun n => (s.outsOfSlot g).contains n)).flatMap (fun n =>
      let d := 100 * ((s.slotEs g + 1) * 1000 + 490 + f) + s.slotTx g
      refuseIf (25 * lat n < d) 17 5 (d / 100) (lat n / 4)))

/-! ### Check 18: power (R534, R535, Table 22-1) -/

def State.combItems18 (s : State) (x : Nat) : Nat :=
  if s.cmbAt x then 16 * ceilDiv (s.cvGx x) 16 * s.cvM x * s.cvQ x else 0
def State.phaseItems (s : State) (x : Nat) : Nat :=
  if s.wagAt x && !s.wagExplicit x && 3 ≤ s.wagE x then ceilDiv (ceilDiv (s.cvW x) 1024) (s.wagE x - 2) else 0
def State.wagItems18 (s : State) (x : Nat) : Nat :=
  if s.wagAt x then ceilDiv (s.cvW x * s.cvM x * s.cvQ x) 1024 else 0
def State.wrkItems (s : State) (x : Nat) : Nat := sumL ((s.workersOf x).map s.wrkBudget)

/-- Demand of a session per tick, in pJ. -/
def State.sesEnergy (s : State) (x : Nat) : Nat :=
  s.combItems18 x * s.rd PWR_E_COMB + s.phaseItems x * s.rd PWR_E_PHASE + s.wagItems18 x * s.rd PWR_E_WAG + s.wrkItems x * s.rd PWR_E_WRK

/-- Estimate of the configuration, in pJ per tick: PWR_BASE and the sessions of R22. -/
def State.estimate (s : State) (xs : List Nat) : Nat := s.rd PWR_BASE * 1000 + sumL (xs.map s.sesEnergy)

def State.powerChecks (s : State) (x : Option Nat) : List Refused :=
  let e := s.estimate ((List.range 1024).filter s.sesCounts)
  s.quota x 18 7 (fun x => s.sesEnergy x / 1000)
  ++ refuseIf (s.rd PWR_BUDGET * 1000 < e) 18 0 (e / 1000) (s.rd PWR_BUDGET)

/-- The checks that fail, in the order of Table 2-8; `x` is the session whose own demand is tested against its quotas. -/
def State.refusals (s : State) (x : Option Nat) : List Refused :=
  s.rateChecks x ++ s.broodChecks ++ s.combChecks x ++ s.superChecks x ++ s.wagChecks x ++ s.unitChecks x ++ s.ethChecks x
    ++ s.ddrChecks x ++ s.trgChecks ++ s.powerChecks x

/-- Every check; the first failure is the one reported (R59). -/
def State.admission (s : State) (x : Option Nat) : Option Refused := (s.refusals x).head?

/-- The failure of the lowest check among those of Table 2-8, in its order, and `more`. -/
def lowestCheck (l more : List Refused) : Option Refused :=
  more.foldl (fun a r => match a with
    | some b => if r.check < b.check then some r else a
    | none => some r) l.head?

/-- DDR_RSV, DDR_CLk_RSV and PWR_EST show the admitted configuration (R449, R535), which `v` spells. -/
def State.showAdmitted (s v : State) : State :=
  let rates := v.ddrRates.map (fun r => ceilDiv r 1000000 % 2 ^ 20)
  let s := s.each (List.zip (List.range 8) rates) (fun s q => s.wr (DDR_CLk_RSV q.1) q.2)
  let s := s.wr DDR_RSV (sumL rates % 2 ^ 20)
  s.wr PWR_EST (v.estimate ((List.range 1024).filter v.sesCounts) / 1000 % 2 ^ 20)

/-- The bits of `a` that `m` does not select. -/
def dropBits (a m : Nat) : Nat := a - Nat.land a m

/-- The contents of a register after an image of the fields of `mask`. -/
def overlay (old mask img : Nat) : Nat := dropBits old mask + Nat.land img mask

/-- The RW bits of the register at `a`. -/
def rwMask (a : Nat) : Nat := match rowAt a with | some r => r.mask | none => 0

/-- Has an image a bit outside the fields it may carry? -/
def strayBits (mask img : Nat) : Bool := Nat.land img mask != img

/-! ### Register images (R489) -/

/-- The registers a SESSION_SET of session x carries, in offset order, each with the fields it may carry. -/
def sesRegs (x : Nat) : List (Nat × Nat) :=
  let full (l : List Nat) : List (Nat × Nat) := l.map (fun a => (a, rwMask a))
  full [CTN_SESx_CFG x, CTN_SESx_MAP x, CTN_SESx_INMAP x, CTN_SESx_VERSION x, CTN_SESx_CFG2 x, CTN_SESx_SIBASE x, CTN_SESx_BROOD x,
        CTN_SESx_UDP x, CTN_SESx_EPOCH_LO x, CTN_SESx_EPOCH_HI x, CTN_SESx_GRID x,
        CMB_SESx_CFG x, CMB_SESx_LIST x, CMB_SESx_START_LO x, CMB_SESx_START_HI x]
  ++ [(SUP_SESx_CFG x, 0xFFFF0002), (SUP_SESx_SEED x, 2 ^ 32 - 1)]
  ++ full [WAG_SESx_CFG x, WAG_SESx_BEAMS x, WAG_SESx_IN_FIRST x, WAG_SESx_IN_COUNT x, WAG_SESx_WBASE x, WAG_SESx_GBASE x,
           WAG_SESx_EPOCH_LO x, WAG_SESx_EPOCH_HI x, WAG_SESx_F0_LO x, WAG_SESx_F0_HI x, WAG_SESx_DF_LO x, WAG_SESx_DF_HI x,
           WAG_SESx_OUT x, WAG_SESx_PORTS x, WAG_SESx_UDP x, WAG_SESx_RING_BASE x, WAG_SESx_RING_SIZE x, WAG_SESx_WRK x]
  ++ [(CMD_SESx_CFG x, 0x33)] ++ (List.range 8).map (fun i => (CMD_SESx_Q x i, 2 ^ 32 - 1))

/-- The registers a TRIG_SLOT_SET of slot g carries. -/
def slotRegs (g : Nat) : List (Nat × Nat) :=
  ([TRG_SESg_CFG g, TRG_SESg_CFG2 g, TRG_SESg_WIN g, TRG_SESg_HIVES g, TRG_SESg_GRP g, TRG_SESg_PORTS g, TRG_SESg_HB g]
    ++ (List.range 32).map (TRG_SESg_MEMBERS g)).map (fun a => (a, rwMask a))

/-- The images of a parameter list from byte 12, beside their registers. -/
def imagesOf (regs : List (Nat × Nat)) (b : List Byte) : List (Nat × Nat) :=
  (List.zip (List.range regs.length) regs).map (fun q => (q.2.1, beAt b (12 + 4 * q.1) 4))

/-- An image of a register in a list; 0 where it is not there. -/
def imageAt (l : List (Nat × Nat)) (a : Nat) : Nat := match l.find? (·.1 == a) with | some e => e.2 | none => 0

/-- A register list with an image that carries stray bits. -/
def strayAny (regs imgs : List (Nat × Nat)) : Bool := (List.zip regs imgs).any (fun q => strayBits q.1.2 q.2.2)

/-- Registers as their images leave them, without what the writes set off. -/
def State.laid (s : State) (regs imgs : List (Nat × Nat)) : State :=
  s.each (List.zip regs imgs) (fun s q => s.wr q.1.1 (overlay (s.rd q.1.1) q.1.2 q.2.2))

/-! ### The objects of a session (R515, R521) -/

def State.sesWorkers (s : State) (x : Nat) : List Nat := (List.range 64).filter (fun n => bitsOf (s.rd (WRK_Wn_CFG n)) 31 22 == x)
def State.sesSlots (s : State) (x : Nat) : List Nat := (List.range 8).filter (fun g => s.slotSession g == x)
def State.sesGroups (s : State) (x : Nat) : List Nat := (List.range 64).filter (fun c => s.cgSession c == x)

/-- Registers whose EN bit stands for an object of session x. -/
def State.sesEnables (s : State) (x : Nat) : List Nat :=
  [CTN_SESx_CFG x, CMB_SESx_CFG x, SUP_SESx_CFG x, WAG_SESx_CFG x] ++ (s.sesWorkers x).map WRK_Wn_CFG
  ++ (s.sesSlots x).map TRG_SESg_CFG ++ (s.sesGroups x).map ACQ_CGc_CFG

def State.sesState (s : State) (x : Nat) : Nat := bitsOf (s.rd (CMD_SESx_CFG x)) 31 30

/-! ### Map switches (R229, R260, R309) -/

/-- A pending switch whose dwell has begun: its maps are the session's, and its registers show them (R228, R229, R260). -/
def State.switchMaps (s : State) (x : Nat) : State :=
  match s.ctnOf x with
  | some c =>
    match c.pend with
    | some (_, d, m) =>
      if s.begun (c.home (d * c.d)) then
        let s := s.setCtn x { c with pend := none, maps := (tlPut c.maps d m).take 64 }
        let s := ((s.wr (CTN_SESx_MAP x) m.map).wr (CTN_SESx_INMAP x) m.inmap).wr (CTN_SESx_VERSION x) m.version
        let s := s.clearOwn x m.map
        let s := match s.cmbOf x with
          | some w => if w.last.isNone then s.setFd (CMB_SESx_STATUS x) ⟨25, 16⟩ (ceilDiv (s.gx m) 16) else s
          | none => s
        s.showLoad.showSupUse.showWag
      else s
    | none => s
  | none => s

/-- MAP_SWITCH (R229): at its dwell boundary the prepared map is in force. -/
def execMapSwitch (x : Nat) (s : State) : Res := .next (s.switchMaps x)

/-- A state whose registers spell session x with maps m. -/
def State.withMaps (s : State) (x : Nat) (m : CtnMaps) : State :=
  (((s.wr (CTN_SESx_MAP x) m.map).wr (CTN_SESx_INMAP x) m.inmap).wr (CTN_SESx_VERSION x) m.version).clearOwn x m.map

/-- The pending map switches committed for ticks up to k, as already in force (R58). -/
def State.withPendingMaps (s : State) (k : Nat) : State :=
  s.each s.ctn.ses (fun s p => match p.2.pend with
    | some (t, _, m) => if t ≤ k then s.withMaps p.1 m else s
    | none => s)

/-! ### The configuration at a tick (R58) -/

/-- One admitted change laid over the registers. -/
def State.laidChange (s : State) (c : Change) : State :=
  match c with
  | .setSes x regs => (s.laid (sesRegs x) regs).setFd (CMD_SESx_CFG x) ⟨31, 30⟩ 1
  | .remove x => s.each (s.sesEnables x) (fun s a => s.setBit a 0 false)
  | .budget mw => s.wr PWR_BUDGET mw
  | .trigSlot g regs => (s.laid (slotRegs g) regs).setBit (TRG_SESg_CFG g) 0 true
  | _ => s

/-- A change of session x as its running SUP work takes it (R311), with the registers as they will be. -/
def State.supSet (s : State) (x k : Nat) (imgs : List (Nat × Nat)) : State :=
  s.supChange x k (overlay (s.rd (SUP_SESx_CFG x)) 0xFFFF0002 (imageAt imgs (SUP_SESx_CFG x))) (imageAt imgs (SUP_SESx_SEED x))

/-- One admitted change as in force. -/
def State.viewChange (s : State) (p : Pend) : State :=
  match p.what with
  | .setSes x imgs => (s.supSet x p.tick imgs).laidChange p.what
  | _ => s.laidChange p.what

/-- The configuration in force at tick k, every earlier admitted change and the templates of that tick included. -/
def State.viewAt (s : State) (k : Nat) : State :=
  let s := { s with eth := { s.eth with streams := s.eth.streams.map (fun (t : Stream) => if t.tick ≤ k then { t with tick := min t.tick s.tick } else t) } }
  (s.withPendingMaps k).each (s.cmd.pend.filter (fun p => p.tick ≤ k)) State.viewChange


/-! ### The commit of a map switch -/

/-- What a switch may not do: need more slots than the range that the session's comb work holds (R260), or change a running super inside an
integration (R309). `v` spells the configuration of that tick without the switch. -/
def State.switchBad (s v : State) (x : Nat) (c : CtnSes) (k : Nat) (m : CtnMaps) : List Refused :=
  let d := c.dwellFrom k
  let old := c.mapsAt d
  let changes := s.numInputs m.inmap ≠ s.numInputs old.inmap || s.numOwned m.map ≠ s.numOwned old.map
  let held := bitsOf (s.rd (CMB_SESx_STATUS x)) 25 16
  let need := ceilDiv (s.gx m) 16
  let i := bitsOf (v.supCfg x d).1 31 16 + 1
  refuseIf ((s.cmbOf x).isSome && v.bit (CMB_SESx_CFG x) 0 = 1 && held < need) 9 2 (s.slotBase x + need) (s.slotBase x + held)
  ++ refuseIf (changes && v.bit (SUP_SESx_CFG x) 0 = 1 && d % i ≠ 0) 10 0 (d % i) 0

/-- A commit of maps `m` for session x at tick k over the configuration view `v`: the status of Table 19-4, the failed
check, the state. A switch that is in force by now is not replaced. -/
def State.mapCommit (s v : State) (x k : Nat) (m : CtnMaps) : Nat × Option Refused × State :=
  let s := s.switchMaps x
  let cfgErr := s.flag CTN_ERR 0
  match s.ctnOf x with
  | none => (0x0405, none, cfgErr)
  | some c =>
    if s.bit (CTN_SESx_CFG x) 0 = 0 then (0x0405, none, cfgErr)
    else if s.begun k then (0x0401, none, s.flag CTN_ERR 5)
    else
      let nx := s.numInputs m.inmap
      let nOld := s.numInputs (c.mapsAt (c.dwellAt s.tick)).inmap
      if !s.nextMapsOk m || (s.bit (CMB_SESx_CFG x) 0 = 1 && nx ≠ nOld && !s.listOk x nx) then (0x0102, none, cfgErr)
      else
        match lowestCheck ((v.withMaps x m).refusals (some x)) (s.switchBad v x c k m) with
        | some r => (0x0400, some r, cfgErr)
        | none => (0, none, (s.setCtn x { c with pend := some (k, c.dwellFrom k, m) }).showAdmitted (v.withMaps x m))

end Sys2Proof.Machine
end

