-- ==== Sys2Proof/Machine/Keeper.lean ====
section
/-!
DEFINITION. The audit log (R527 to R532) and the keepers (R549 to R561): their states, faults, switchovers, and the KPR
registers.
-/
namespace Sys2Proof.Machine

/-! ### The audit log -/

/-- The keeper that is ACTIVE: 0 for A, 1 for B. -/
def State.keeper (s : State) : Nat := s.bit KPR_STATUS 31

/-- UID as big-endian bytes, the CHAIN before a first entry (R529). -/
def State.uidBytes (s : State) : List Byte := toBE 8 (s.rd64 GLB_UID_LO GLB_UID_HI)

/-- What a command leaves in its entry: role, slot, transport, channel, session, opcode, status, SEQ (Tables 21-6, 21-7). -/
structure AuditCmd where
  role    : Nat
  slot    : Nat
  trans   : Nat
  chan    : Nat
  session : Nat
  opcode  : Nat
  status  : Nat
  seq     : Nat
  deriving DecidableEq, Repr

/-- Bytes 0 to 23 of an entry. -/
def State.auditHead (s : State) (type index : Nat) (c : AuditCmd) : List Byte :=
  let info := type * 2 ^ 28 + s.keeper * 2 ^ 27 + c.role % 4 * 2 ^ 25 + c.slot % 64 * 2 ^ 19 + c.trans % 4 * 2 ^ 17
    + c.chan % 64 * 2 ^ 11 + c.session % 1024
  toBE 4 index ++ toBE 4 info ++ toBE 8 (if s.timeValid then s.tick else 2 ^ 64 - 1) ++ toBE 2 c.opcode ++ toBE 2 c.status
  ++ toBE 4 c.seq

/-- Appends an entry (R527 to R530). A CLEAR entry, and the first one after power-on, chain from the die identifier. -/
def State.audit (s : State) (type : Nat) (c : AuditCmd) : State :=
  let n := s.rd CMD_AUDIT_NEXT
  let head := s.auditHead type n c
  let prev := if type = 4 || (n = 0 && s.cmd.audit.isEmpty) then s.uidBytes
    else toBE 4 (s.rd CMD_AUDIT_CHAIN_HI) ++ toBE 4 (s.rd CMD_AUDIT_CHAIN_LO)
  let chain := (sha256 (prev ++ head)).take 8
  let full := 8192 ≤ s.cmd.audit.length
  let log := (if full then s.cmd.audit.drop 1 else s.cmd.audit) ++ [head ++ chain]
  let s := { s with cmd := { s.cmd with audit := log } }
  let s := (s.wr CMD_AUDIT_NEXT (n + 1)).wr CMD_AUDIT_OLDEST (n + 1 - log.length)
  let s := (s.wr CMD_AUDIT_CHAIN_HI (beAt chain 0 4)).wr CMD_AUDIT_CHAIN_LO (beAt chain 4 4)
  if full then s.flag CMD_ERR 5 else s

/-- An entry of a type other than COMMAND and CLEAR. -/
def State.auditEvent (s : State) (type seq : Nat) : State := s.audit type ⟨0, 0, 0, 0, 0, 0, 0, seq⟩

/-! ### Keeper states (R549, Table 23-2) -/

def State.keeperState (s : State) (k : Nat) : Nat := if k = 0 then bitsOf (s.rd KPR_STATUS) 5 3 else bitsOf (s.rd KPR_STATUS) 2 0
def State.setKeeper (s : State) (k v : Nat) : State := s.setFd KPR_STATUS (if k = 0 then KPR_STATUS_STATE_A else KPR_STATUS_STATE_B) v
def State.setClean (s : State) (n : Nat) : State := s.setFd KPR_STATUS KPR_STATUS_CLEAN n
def State.modKpr (s : State) (f : Kpr → Kpr) : State := { s with kpr := f s.kpr }

/-- A keeper is in control and its sequencer, seal engine, arbiter and reporter act: neither in a gap nor ORPHAN, nor in reset
(R555, R561). -/
def State.inControl (s : State) : Bool := !s.kpr.gap && !s.kpr.orphan && !s.mon.held && s.keeperState s.keeper == 4

/-- A keeper gap or ORPHAN begins: the outputs of R556 hold their levels. -/
def State.holdOutputs (s : State) : State := s.modKpr (fun q => { q with gap := true, gapAt := s.quarters, badTick := true, gapSec := true, heldState := s.rd MON_STATE })

/-- The hive is ORPHAN (R561). -/
def State.goOrphan (s : State) : State :=
  let s := s.when (!s.kpr.gap) State.holdOutputs
  (s.modKpr (fun q => { q with orphan := true, orphanAt := s.tim.us, takeAt := none, planned := false, badTick := true })).setBit MON_STATE 17 true

/-- Keeper k loses its state to FAULT or RETIRED (R553, R560). -/
def State.keeperDown (s : State) (k : Nat) : State :=
  let recent := (s.kpr.faults.filter (fun f => s.tim.us < f.2 + 3600000000)).take 512
  let mine := (recent.filter (·.1 == k)).length + 1
  let s := s.modKpr (fun q => { q with faults := (k, s.tim.us) :: recent, dirty := true, moves := q.moves.filter (fun m => m.1 != k || m.2 == 5) })
  let s := (s.count (if k = 0 then KPR_FAULTS_A else KPR_FAULTS_B) 1).setClean 0
  if s.rd KPR_FAULT_LIMIT % 256 ≤ mine then (s.setKeeper k 5).flag KPR_ERR 5 else s.setKeeper k 1

/-- A fault of keeper k with a cause of Table 23-4 (R553 to R555, R559, R561). Causes 4 and 5 are faults of the keeper that is not
ACTIVE. -/
def State.keeperFault (s : State) (k cause : Nat) : State :=
  let k := if cause = 4 || cause = 5 then 1 - s.keeper else k
  let st := s.keeperState k
  if 2 ≤ k || cause = 0 || 5 < cause || !(st = 2 || st = 3 || st = 4) || ((cause = 4 || cause = 5) && st ≠ 3) then s
  else
    let s := s.when (cause = 1) (·.count KPR_LOCKSTEP 1)
    let s := s.keeperDown k
    let s := s.when (cause = 4 || cause = 5) (fun s => s.flag KPR_ERR 3)
    let s := s.modKpr (fun q => { q with recWait := false })
    if st = 4 then
      if s.keeperState (1 - k) = 3 && s.bit KPR_CTRL 0 = 1 then
        (s.holdOutputs.modKpr (fun q => { q with takeAt := some (s.tim.us + 2), swCause := (cause, k), swTick := s.tick, planned := false })).count KPR_GAP_TICKS 1
      else s.goOrphan
    else if st = 3 then
      let s := (s.flag KPR_ERR 2).modKpr (fun q => { q with planned := false })
      if s.kpr.takeAt.isSome then s.goOrphan else s
    else s

/-- KEEPER_FAULT (R553): keeper k detects, or is found in, a fault of a cause of Table 23-4. -/
def execKeeperFault (k cause : Nat) (s : State) : Res := .next (s.keeperFault k cause)

/-- The command in execution and the reply cache do not survive a change of control (R482, R487, R555): the SEQ of a gather or
scatter that ends here counts as never accepted, and the new keeper starts a new seal pass. -/
def State.newControl (s : State) (k : Nat) : State :=
  let s := match s.cmd.run with
    | some r =>
      let seq := beAt r.pkt.bytes 12 4
      let f := beAt r.pkt.bytes 6 2
      let slot := (if f / 16384 = 0 then 0 else if f / 16384 = 1 then 64 else 68) + f % 64
      let s := s.when (s.rd (CMD_KEYk_H slot) = seq) (fun s => s.wr (CMD_KEYk_H slot) r.h0)
      { s with cmd := { s.cmd with run := none, seen := spSet (fun _ => []) s.cmd.seen slot ((spGet (fun _ => []) s.cmd.seen slot).filter (· != seq)) } }
    | none => s
  let s := { s with cmd := { s.cmd with cache := [] }, pass := ⟨false, s.bit GLB_SEAL_STATUS 30 == 1⟩ }
  let s := (s.setBit KPR_STATUS 31 (k = 1)).setKeeper k 4
  ((s.setClean 0).modKpr (fun q => { q with dirty := true, planned := false })).auditEvent 3 0

/-- Control passes to the STANDBY keeper and the gap ends (R555, R556). -/
def State.gapEnds (s : State) : State :=
  let old := s.keeper
  let c := s.kpr.swCause
  let s := (s.modKpr (fun q => { q with gap := false, takeAt := none, revertTo := some old })).releasePins s.kpr.gapAt
  let s := ((s.newControl (1 - old)).flag KPR_ERR 1).count KPR_SWITCH_CNT 1
  (s.wr KPR_LAST_SW (2 ^ 31 + c.1 * 2 ^ 16 + c.2 * 2 ^ 8)).wr KPR_LAST_SW_TICK s.kpr.swTick

/-- A planned switchover (R557): control passes at a tick boundary while both keepers are healthy. -/
def State.plannedSwitch (s : State) : State :=
  let old := s.keeper
  (((s.setKeeper old 3).newControl (1 - old)).count KPR_PLANNED_CNT 1).modKpr (fun q => { q with revertTo := none })

/-- Keeper k takes state v at the next tick boundary (R549). -/
def State.keeperMove (s : State) (k v : Nat) : State := s.modKpr (fun q => { q with moves := q.moves.filter (·.1 != k) ++ [(k, v)] })

/-- A move of a keeper takes effect: to SYNC from FAULT or RETIRED, to STANDBY from SYNC, out of service (Table 23-2, R560). -/
def State.keeperMoved (s : State) (m : Nat × Nat) : State :=
  let st := s.keeperState m.1
  if m.2 = 2 then (if st = 1 || st = 5 then s.setKeeper m.1 2 else s)
  else if m.2 = 3 then
    if st = 2 && s.keeperState (1 - m.1) = 4 then
      (((s.setKeeper m.1 3).setClean 0).modKpr (fun q => { q with dirty := true })).setBit MON_STATE 2 true
    else s
  else if m.1 = s.keeper || st = 5 then s
  else
    let s := (((s.setKeeper m.1 5).setClean 0).modKpr (fun q => { q with dirty := true, planned := false, recWait := false })).flag KPR_ERR 5
    if s.kpr.takeAt.isSome then s.goOrphan else s

/-- At a tick boundary, or at a microsecond of the local oscillator while no strobe is issued: the keepers' moves. -/
def State.keeperMoves (s : State) : State :=
  let l := s.kpr.moves
  (s.modKpr (fun q => { q with moves := [] })).each l State.keeperMoved

/-- At a tick boundary: the switchover a KEEPER_SWITCH asked for (R557, R559). -/
def State.plannedTick (s : State) : State :=
  if s.kpr.planned && s.inControl && s.keeperState (1 - s.keeper) = 3 then s.plannedSwitch
  else s.modKpr (fun q => { q with planned := false })

/-- At a hive second boundary (R552): the clean seconds of the keeper that is not ACTIVE. -/
def State.cleanSecond (s : State) : State :=
  let standby := s.keeperState (1 - s.keeper) = 3
  let n := bitsOf (s.rd KPR_STATUS) 11 8
  let s := s.setClean (if standby && !s.kpr.dirty then min 15 (n + 1) else 0)
  s.modKpr (fun q => { q with dirty := !standby })

/-- KEEPER_REVERT (R558): at a hive second boundary the keeper that lost control through an unplanned switchover takes it back
after 10 clean seconds. -/
def execKeeperRevert (s : State) : Res :=
  match s.kpr.revertTo with
  | none => .next s
  | some k =>
    if s.bit KPR_CTRL 1 = 1 && s.inControl && s.timeValid && k ≠ s.keeper && s.keeperState k = 3 && 10 ≤ bitsOf (s.rd KPR_STATUS) 11 8
        && s.tick % 1000000 = 0 then
      .next ((s.plannedSwitch.count KPR_REVERT_CNT 1).flag KPR_ERR 4)
    else .next s

/-- KEEPER_LOGIC_RESET_DONE (Table 23-2): within 100 ms of its fault; SYNC from the next tick boundary on. -/
def execKeeperLogicResetDone (k : Nat) (s : State) : Res :=
  if k < 2 && s.keeperState k = 1 && !s.kpr.moves.any (·.1 == k) then .next (s.keeperMove k 2) else .next s

/-- KEEPER_SYNC_COMPLETE (Table 23-2, step 3 of Table 24-3): the copy is complete and the records queued during it are applied;
STANDBY from the next tick boundary on. -/
def execKeeperSyncComplete (k : Nat) (s : State) : Res :=
  if k < 2 && s.keeperState k = 2 && s.keeperState (1 - k) = 4 && !s.kpr.moves.any (·.1 == k) then .next (s.keeperMove k 3) else .next s

/-- KEEPER_MEMORY_PATROL (R552, R553): a keeper's words corrected and uncorrectable in one pass over its memory. -/
def execKeeperMemoryPatrol (k corr uncorr : Nat) (s : State) : Res :=
  if 2 ≤ k || s.keeperState k < 2 || s.keeperState k = 5 then .next s
  else
    let s := (s.count KPR_MEM_CORR corr).count KPR_MEM_UNCORR uncorr
    .next (if uncorr = 0 then s else s.keeperFault k 2)

/-- MIRROR_RECORD (R551): a record of a change to the mirrored state; `acked`: the STANDBY keeper acknowledges it, and with it every
earlier one. -/
def execMirrorRecord (acked : Bool) (s : State) : Res :=
  if !s.inControl then .next s
  else
    let wait := !acked && s.keeperState (1 - s.keeper) == 3
    .next (s.modKpr (fun q => { q with recSeq := q.recSeq + 1, recWait := wait, recAt := if q.recWait && wait then q.recAt else s.tim.us }))

/-- MIRROR_ACK_TIMEOUT (R553, cause 5): 10 µs without an acknowledgement. -/
def execMirrorAckTimeout (s : State) : Res :=
  if s.kpr.recWait && decide (s.kpr.recAt + 10 ≤ s.tim.us) then .next (s.keeperFault (1 - s.keeper) 5) else .next s

/-! ### Register writes (R560) -/

def kprPre (a new : Nat) (s : State) : Option State :=
  if a = KPR_FAULT_LIMIT && new % 256 = 0 then some (s.flag KPR_ERR 0) else none

/-- RETIRE and RESTORE (R560), at the next tick boundary (R549): the ACTIVE keeper cannot be retired; only a RETIRED one is restored. -/
def State.keeperCmd (s : State) (img : Nat) : State :=
  let k := img % 2
  let st := s.keeperState k
  if bitOf img 8 = 1 then (if st = 5 then s.keeperMove k 2 else s.flag KPR_ERR 0)
  else if k = s.keeper || st = 5 || st = 0 then s.flag KPR_ERR 0
  else s.keeperMove k 5

def kprPost (a v : Nat) (s : State) : State := if a = KPR_CMD then s.keeperCmd v else s

end Sys2Proof.Machine
end

