-- ==== Sys2Proof/Machine/WorkerIsa.lean ====
section
/-!
DEFINITION. The worker instructions (chapter 14), one meaning per row: worker n issues the instruction at its PC where that
is the row's instruction. Everything an instruction does (operands, flags, moves, delayed loads, delay slots, loop ends,
exceptions) is `State.wrkIssue`.
-/
namespace Sys2Proof.Machine

/-- The word spells ALU operation `op` (Table 14-5). -/
def isAlu (op : Nat) : Option WInsn → Bool
  | some (.alu o _ _ _ _ _ _ _ _) => o == op
  | _ => false

/-- Memory operation `op` (Table 14-7). -/
def isMem (op : Nat) : Option WInsn → Bool
  | some (.mem o _ _ _ _ _) => o == op
  | _ => false

/-- Register operation `op` (Table 14-8). -/
def isReg (op : Nat) : Option WInsn → Bool
  | some (.reg o _ _ _ _ _ _) => o == op
  | _ => false

/-- Control operation `op` (R379). -/
def isCtl (op : Nat) : Option WInsn → Bool
  | some (.ctl o _ _ _) => o == op
  | _ => false

/-- Loop operation `op` (R381). -/
def isRep (op : Nat) : Option WInsn → Bool
  | some (.rep o _ _) => o == op
  | _ => false

/-- NOP (R373, Table 14-5). -/
def execNop (n : Nat) (errs : List WordErr) (s : State) : Res := .next (s.wrkIssue n errs (isAlu 0))

/-- MPY (R373, Table 14-5). -/
def execMpy (n : Nat) (errs : List WordErr) (s : State) : Res := .next (s.wrkIssue n errs (isAlu 1))

/-- MPYN (R373, Table 14-5). -/
def execMpyn (n : Nat) (errs : List WordErr) (s : State) : Res := .next (s.wrkIssue n errs (isAlu 2))

/-- MAC (R373, Table 14-5). -/
def execMac (n : Nat) (errs : List WordErr) (s : State) : Res := .next (s.wrkIssue n errs (isAlu 3))

/-- MACN (R373, Table 14-5). -/
def execMacn (n : Nat) (errs : List WordErr) (s : State) : Res := .next (s.wrkIssue n errs (isAlu 4))

/-- PWR (R373, Table 14-5). -/
def execPwr (n : Nat) (errs : List WordErr) (s : State) : Res := .next (s.wrkIssue n errs (isAlu 5))

/-- ADD (R373, Table 14-5). -/
def execAdd (n : Nat) (errs : List WordErr) (s : State) : Res := .next (s.wrkIssue n errs (isAlu 6))

/-- SUB (R373, Table 14-5). -/
def execSub (n : Nat) (errs : List WordErr) (s : State) : Res := .next (s.wrkIssue n errs (isAlu 7))

/-- ADDA (R373, Table 14-5). -/
def execAdda (n : Nat) (errs : List WordErr) (s : State) : Res := .next (s.wrkIssue n errs (isAlu 8))

/-- SUBA (R373, Table 14-5). -/
def execSuba (n : Nat) (errs : List WordErr) (s : State) : Res := .next (s.wrkIssue n errs (isAlu 9))

/-- CMP (R373, Table 14-5). -/
def execCmp (n : Nat) (errs : List WordErr) (s : State) : Res := .next (s.wrkIssue n errs (isAlu 10))

/-- CMPA (R373, Table 14-5). -/
def execCmpa (n : Nat) (errs : List WordErr) (s : State) : Res := .next (s.wrkIssue n errs (isAlu 11))

/-- ABS (R373, Table 14-5). -/
def execAbs (n : Nat) (errs : List WordErr) (s : State) : Res := .next (s.wrkIssue n errs (isAlu 12))

/-- NEG (R373, Table 14-5). -/
def execNeg (n : Nat) (errs : List WordErr) (s : State) : Res := .next (s.wrkIssue n errs (isAlu 13))

/-- CLR (R373, Table 14-5). -/
def execClr (n : Nat) (errs : List WordErr) (s : State) : Res := .next (s.wrkIssue n errs (isAlu 14))

/-- MOVA (R373, Table 14-5). -/
def execMova (n : Nat) (errs : List WordErr) (s : State) : Res := .next (s.wrkIssue n errs (isAlu 15))

/-- LDA (R373, Table 14-5). -/
def execLda (n : Nat) (errs : List WordErr) (s : State) : Res := .next (s.wrkIssue n errs (isAlu 16))

/-- LDL (R373, Table 14-5). -/
def execLdl (n : Nat) (errs : List WordErr) (s : State) : Res := .next (s.wrkIssue n errs (isAlu 17))

/-- ASR (R373, Table 14-5). -/
def execAsr (n : Nat) (errs : List WordErr) (s : State) : Res := .next (s.wrkIssue n errs (isAlu 18))

/-- ASL (R373, Table 14-5). -/
def execAsl (n : Nat) (errs : List WordErr) (s : State) : Res := .next (s.wrkIssue n errs (isAlu 19))

/-- MAX (R373, Table 14-5). -/
def execMax (n : Nat) (errs : List WordErr) (s : State) : Res := .next (s.wrkIssue n errs (isAlu 20))

/-- MIN (R373, Table 14-5). -/
def execMin (n : Nat) (errs : List WordErr) (s : State) : Res := .next (s.wrkIssue n errs (isAlu 21))

/-- DIVS (R373, Table 14-5). -/
def execDivs (n : Nat) (errs : List WordErr) (s : State) : Res := .next (s.wrkIssue n errs (isAlu 22))

/-- LDX (R377, Table 14-7). -/
def execLdx (n : Nat) (errs : List WordErr) (s : State) : Res := .next (s.wrkIssue n errs (isMem 0))

/-- LDY (R377, Table 14-7). -/
def execLdy (n : Nat) (errs : List WordErr) (s : State) : Res := .next (s.wrkIssue n errs (isMem 1))

/-- STX (R377, Table 14-7). -/
def execStx (n : Nat) (errs : List WordErr) (s : State) : Res := .next (s.wrkIssue n errs (isMem 2))

/-- STY (R377, Table 14-7). -/
def execSty (n : Nat) (errs : List WordErr) (s : State) : Res := .next (s.wrkIssue n errs (isMem 3))

/-- LDI (R377, Table 14-7). -/
def execLdi (n : Nat) (errs : List WordErr) (s : State) : Res := .next (s.wrkIssue n errs (isMem 4))

/-- LDXP (R377, Table 14-7). -/
def execLdxp (n : Nat) (errs : List WordErr) (s : State) : Res := .next (s.wrkIssue n errs (isMem 5))

/-- LDYP (R377, Table 14-7). -/
def execLdyp (n : Nat) (errs : List WordErr) (s : State) : Res := .next (s.wrkIssue n errs (isMem 6))

/-- STXP (R377, Table 14-7). -/
def execStxp (n : Nat) (errs : List WordErr) (s : State) : Res := .next (s.wrkIssue n errs (isMem 7))

/-- STYP (R377, Table 14-7). -/
def execStyp (n : Nat) (errs : List WordErr) (s : State) : Res := .next (s.wrkIssue n errs (isMem 8))

/-- MOV (R378, Table 14-8). -/
def execMov (n : Nat) (errs : List WordErr) (s : State) : Res := .next (s.wrkIssue n errs (isReg 0))

/-- AND (R378, Table 14-8). -/
def execAnd (n : Nat) (errs : List WordErr) (s : State) : Res := .next (s.wrkIssue n errs (isReg 1))

/-- OR (R378, Table 14-8). -/
def execOr (n : Nat) (errs : List WordErr) (s : State) : Res := .next (s.wrkIssue n errs (isReg 2))

/-- XOR (R378, Table 14-8). -/
def execXor (n : Nat) (errs : List WordErr) (s : State) : Res := .next (s.wrkIssue n errs (isReg 3))

/-- NOT (R378, Table 14-8). -/
def execNot (n : Nat) (errs : List WordErr) (s : State) : Res := .next (s.wrkIssue n errs (isReg 4))

/-- ADDR (R378, Table 14-8). -/
def execAddr (n : Nat) (errs : List WordErr) (s : State) : Res := .next (s.wrkIssue n errs (isReg 5))

/-- SUBR (R378, Table 14-8). -/
def execSubr (n : Nat) (errs : List WordErr) (s : State) : Res := .next (s.wrkIssue n errs (isReg 6))

/-- CMPR (R378, Table 14-8). -/
def execCmpr (n : Nat) (errs : List WordErr) (s : State) : Res := .next (s.wrkIssue n errs (isReg 7))

/-- LSL (R378, Table 14-8). -/
def execLsl (n : Nat) (errs : List WordErr) (s : State) : Res := .next (s.wrkIssue n errs (isReg 8))

/-- LSR (R378, Table 14-8). -/
def execLsr (n : Nat) (errs : List WordErr) (s : State) : Res := .next (s.wrkIssue n errs (isReg 9))

/-- ASRR (R378, Table 14-8). -/
def execAsrr (n : Nat) (errs : List WordErr) (s : State) : Res := .next (s.wrkIssue n errs (isReg 10))

/-- MVR (R378, Table 14-8). -/
def execMvr (n : Nat) (errs : List WordErr) (s : State) : Res := .next (s.wrkIssue n errs (isReg 11))

/-- BR (R379, R380). -/
def execBr (n : Nat) (errs : List WordErr) (s : State) : Res := .next (s.wrkIssue n errs (isCtl 0))

/-- BRX (R379, R380). -/
def execBrx (n : Nat) (errs : List WordErr) (s : State) : Res := .next (s.wrkIssue n errs (isCtl 1))

/-- RTE (R379, R380). -/
def execRte (n : Nat) (errs : List WordErr) (s : State) : Res := .next (s.wrkIssue n errs (isCtl 2))

/-- TEND (R379, R380). -/
def execTend (n : Nat) (errs : List WordErr) (s : State) : Res := .next (s.wrkIssue n errs (isCtl 3))

/-- TRAP (R379, R380). -/
def execTrap (n : Nat) (errs : List WordErr) (s : State) : Res := .next (s.wrkIssue n errs (isCtl 4))

/-- REP_IMMEDIATE (R381, R349, R350). -/
def execRepImmediate (n : Nat) (errs : List WordErr) (s : State) : Res := .next (s.wrkIssue n errs (isRep 0))

/-- REP_REGISTER (R381, R349, R350). -/
def execRepRegister (n : Nat) (errs : List WordErr) (s : State) : Res := .next (s.wrkIssue n errs (isRep 1))

/-- REPX (R381, R349, R350). -/
def execRepx (n : Nat) (errs : List WordErr) (s : State) : Res := .next (s.wrkIssue n errs (isRep 2))

/-- UNDEFINED_ENCODING (R366): the word at PC spells no instruction. -/
def execUndefinedEncoding (n : Nat) (errs : List WordErr) (s : State) : Res := .next (s.wrkIssue n errs (fun i => i.isNone))

end Sys2Proof.Machine
end

