-- ==== Sys2Proof/Machine/Bus.lean ====
section
/-!
DEFINITION. Register accesses (chapter 20): the block map, the access types, the guard, the write protection, stopped domains,
and the rules of the blocks behind them. The causes of Table 19-7 are what an access answers.
-/
namespace Sys2Proof.Machine

/-! ### Stopped domains (R503, Tables 20-1 and 20-2) -/

/-- The bit of Table 20-2 of the domain the register at `a` lies in; TRG's registers from 0x8_0000 lie in the ingest domain. -/
def State.domainBit (s : State) (a : Nat) : Nat :=
  if a / 0x100000 = 14 && 0x80000 ≤ a % 0x100000 then 4 else s.blockDomain (a / 0x100000)

/-- The domain of the register at `a` is stopped. In a keeper gap the keeper that takes control serves the access (R502); while the
hive is ORPHAN no keeper does (R561). -/
def State.domainStopped (s : State) (a : Nat) : Bool :=
  match a / 0x100000 with
  | 1 | 2 | 18 => s.kpr.orphan || (!s.kpr.gap && s.bit GLB_DOMAINS (s.domainBit a) == 0)
  | _ => s.bit GLB_DOMAINS (s.domainBit a) == 0

/-- What an access to a stopped domain leaves (R503). -/
def State.domainHit (s : State) (a : Nat) : State :=
  let s := (s.setBit GLB_XD_ERR (s.domainBit a) true).count GLB_XD_CNT 1
  let s := if s.bit GLB_XD_ADDR 31 = 1 then s else s.wr GLB_XD_ADDR (2 ^ 31 + a % 2 ^ 26)
  s.flag GLB_ERR 2

/-! ### Addresses and access types (R495, R496) -/

def State.addrLog (s : State) (a : Nat) : State := if s.bit GLB_ADDR_LOG 31 = 1 then s else s.wr GLB_ADDR_LOG (2 ^ 31 + a % 2 ^ 27)
def State.unmapped (s : State) (a : Nat) : State := ((s.count GLB_UNMAPPED_CNT 1).addrLog a).flag GLB_ERR 0
def State.badAccess (s : State) (a : Nat) : State := (s.addrLog a).flag GLB_ERR 1

/-- The register a DW access names. -/
def rowOf (a : Nat) : Option RegRow := if a % 4 = 0 then rowAt a else none

/-- The contents of a register of row `r` after a write of `v` over `old` (R496). -/
def RegRow.merge (r : RegRow) (old v : Nat) : Nat :=
  match r.acc with
  | .ro => old
  | .wo => Nat.land v r.mask
  | .rw => dropBits old r.mask + Nat.land v r.mask
  | .w1c => dropBits old (Nat.land v r.mask)
  | .mw =>
    let m := Nat.land (v / 65536) r.mask
    dropBits old m + Nat.land v m

/-- The MSI-X table and pending bits (R459, R464). -/
def inMsix (a : Nat) : Bool := a % 4 == 0 && 0x1408000 ≤ a && a < 0x1410000
def inPba (a : Nat) : Bool := a % 4 == 0 && 0x1410000 ≤ a && a < 0x1410100
def makerReg (a : Nat) : Bool := 0x1280000 ≤ a && a ≤ 0x128000C

/-! ### The guard (R499, R500, R605) -/

/-- The INT_EN register of each block, none for GLB, TIM and PCI, which have no guard or no such register. -/
def intEnOf (b : Nat) : Option Nat :=
  match b with
  | 0 => some GLB_INT_EN
  | 1 => some KPR_INT_EN
  | 2 => some PWR_INT_EN
  | 3 => some CLK_INT_EN
  | 5 => some NEC_INT_EN
  | 6 => some ING_INT_EN
  | 7 => some CHN_INT_EN
  | 8 => some CTN_INT_EN
  | 9 => some ETH_INT_EN
  | 10 => some CMB_INT_EN
  | 11 => some SUP_INT_EN
  | 12 => some WAG_INT_EN
  | 13 => some WRK_INT_EN
  | 14 => some TRG_INT_EN
  | 15 => some ACQ_INT_EN
  | 16 => some DDR_INT_EN
  | 17 => some FDM_INT_EN
  | 18 => some CMD_INT_EN
  | 19 => some MON_INT_EN
  | 20 => some PCI_INT_EN
  | _ => none

/-- Block b is in GUARDED mode and enabled. -/
def State.guarded (s : State) (b : Nat) : Bool :=
  1 ≤ b && b ≤ 19 && s.bit (b * 0x100000) 0 == 1 && (if b < 16 then s.bit GLB_GUARD_LO b else s.bit GLB_GUARD_HI (b - 16)) == 0

/-- The guard ignores a write that turns `old` into `new` at `a`. -/
def State.guardStops (s : State) (r : RegRow) (a old new : Nat) : Bool :=
  let b := a / 0x100000
  let en := if a % 0x100000 = 0 then 1 else 0
  s.guarded b && (r.acc == .rw || r.acc == .mw) && !r.live && intEnOf b != some a && dropBits (Nat.xor old new) en != 0

def State.guardHit (s : State) (a : Nat) : State :=
  let s := (s.setBit GLB_GUARD_HIT (a / 0x100000) true).count GLB_GUARD_CNT 1
  let s := if s.bit GLB_GUARD_ADDR 31 = 1 then s else s.wr GLB_GUARD_ADDR (2 ^ 31 + a % 2 ^ 26)
  s.flag GLB_ERR 3

/-! ### The blocks' own rules -/

/-- Ranges of R538, R539 and R543. -/
def pwrPre (a new : Nat) (s : State) : Option State :=
  let bad := some (s.flag PWR_ERR 0)
  if a = PWR_AGE then (if new % 65536 = 0 then bad else none)
  else if a = PWR_STEP then (if new % 512 = 0 || 500 < new % 512 then bad else none)
  else if a = PWR_THERM then
    let c := bitsOf new 31 24
    let b := bitsOf new 23 16
    let h := bitsOf new 11 8
    let w := bitsOf new 7 0
    if 70 ≤ c && c ≤ 100 && 70 ≤ b && b ≤ 105 && c ≤ b && 1 ≤ h && h ≤ 10 && 1 ≤ w && w ≤ 50 then none else bad
  else none

/-- A command ring has at most 2^12 slots (Table 21-8). -/
def cmdPre (a new : Nat) (s : State) : Option State :=
  if 0x1200100 ≤ a && a < 0x1200500 && a % 0x10 = 8 && 12 < bitsOf new 19 16 then some (s.flag CMD_ERR 0) else none

/-- Programs and reads OTP words (Table 21-9). A word nothing has programmed in the field reads as a free
value: what the maker programmed there is not stated. -/
def State.otpCmd (s : State) (img : Nat) : State :=
  let w := s.rd CMD_MK_OTP_ADDR % 4096
  match img % 4 with
  | 1 => { s with mon := { s.mon with otp := spPut s.mon.otp w (s.rd CMD_MK_OTP_DATA) } }
  | 2 =>
    match s.mon.otp.find? (·.1 == w) with
    | some e => s.wr CMD_MK_OTP_DATA e.2
    | none =>
      let f := s.free
      f.2.wr CMD_MK_OTP_DATA f.1
  | _ => s

/-- A ring that is enabled starts from slot 0 with nothing produced. -/
def cmdPost (a old v : Nat) (s : State) : State :=
  if a = CMD_MK_OTP_CMD then (s.otpCmd v).wr a 0
  else if 0x1200100 ≤ a && a < 0x1200500 && a % 0x10 = 8 && bitOf old 0 = 0 && s.bit a 0 = 1 then
    let r := (a - 0x1200100) / 0x10
    ({ s with cmd := { s.cmd with prod := setNth s.cmd.prod r 0 } }).wr (CMD_RINGr_STATUS r) 0
  else s

/-- Ranges of R567 and R576. -/
def monPre (a new : Nat) (s : State) : Option State :=
  if a = MON_CTRL && bitsOf new 15 8 = 0 then some (s.flag MON_ERR 0)
  else if a = MON_UART && !(533 ≤ new % 2 ^ 21 && new % 2 ^ 21 ≤ 1600000) then some (s.flag MON_ERR 0)
  else none

def monPost (a : Nat) (s : State) : State := if a = MON_READY_MASK then s.showReady else s

/-- A seal pass begins (R508). -/
def State.sealBegin (s : State) : State :=
  ({ s with pass := ⟨false, s.bit GLB_SEAL_STATUS 30 == 1⟩ }).setBit GLB_SEAL_STATUS 28 true

def glbPost (a old : Nat) (s : State) : State :=
  if a = GLB_SEAL_CFG then
    if bitOf old 0 = 0 && s.bit a 0 = 1 then s.sealBegin
    else if s.bit a 0 = 0 then s.setBit GLB_SEAL_STATUS 28 false
    else s
  else s

/-- A commit of a map switch (R229): a write of CTN_SESx_NEXT_EFF_HI. -/
def State.mapWrite (s : State) (x : Nat) : State :=
  let k := s.rd64 (CTN_SESx_NEXT_EFF_LO x) (CTN_SESx_NEXT_EFF_HI x)
  (s.mapCommit (s.viewAt k) x k (s.nextMaps x)).2.2

def ctnCommit (a old : Nat) (s : State) : State :=
  if 0x810000 ≤ a && a < 0x820000 && a % 0x40 = 0x20 then s.mapWrite ((a - 0x810000) / 0x40) else ctnPost a old s

/-- The state in which the block ignores the write and says so; none where its rules let it through. -/
def blockPre (a new : Nat) (s : State) : Option State :=
  match a / 0x100000 with
  | 1 => kprPre a new s
  | 2 => pwrPre a new s
  | 3 => clkPre a new s
  | 4 => timPre a new s
  | 5 => necPre a new s
  | 6 => ingPre a new s
  | 7 => chnPre a new s
  | 8 => ctnPre a new s
  | 9 => ethPre a new s
  | 10 => cmbPre a new s
  | 11 => supPre a new s
  | 12 => wagPre a new s
  | 13 => wrkPre a new s
  | 14 => trgPre a new s
  | 15 => acqPre a new s
  | 16 => ddrPre a new s
  | 17 => fdmPre a new s
  | 18 => cmdPre a new s
  | 19 => monPre a new s
  | _ => none

/-- What the write sets off once the register holds its new contents. -/
def blockPost (a old v : Nat) (s : State) : State :=
  let s := s.noteEn a old s.tick
  match a / 0x100000 with
  | 0 => glbPost a old s
  | 1 => kprPost a v s
  | 3 => clkPost a old s
  | 4 => timPost a s
  | 5 => necPost a old s
  | 6 => ingPost a old s
  | 7 => chnPost a old s
  | 8 => ctnCommit a old s
  | 9 => ethPost a old s
  | 10 => cmbPost a old s
  | 11 => supPost a old s
  | 12 => wagPost a old s
  | 13 => wrkPost a old s
  | 14 => trgPost a old s
  | 15 => acqPost a old s
  | 16 => ddrPost a old s
  | 17 => fdmPost a old v s
  | 18 => cmdPost a old v s
  | 19 => monPost a s
  | _ => s

/-- The flags with which a block says that it ignored a write: register and bits. -/
def refusalFlags (b : Nat) : List (Nat × Nat) :=
  match b with
  | 1 => [(KPR_ERR, 1)]
  | 2 => [(PWR_ERR, 1)]
  | 3 => [(CLK_HIST, 0x80)]
  | 4 => [(TIM_HIST, 0x10)]
  | 5 => [(NEC_ERR, 1)]
  | 6 => [(ING_ERR, 7)]
  | 7 => [(CHN_ERR, 0xF)]
  | 8 => [(CTN_ERR, 0x21)]
  | 9 => [(ETH_ERR, 1)]
  | 10 => [(CMB_ERR, 1)]
  | 11 => [(SUP_ERR, 1)]
  | 12 => [(WAG_ERR, 7)]
  | 13 => [(WRK_ERR, 1)]
  | 14 => [(TRG_ERR, 1), (STG_ERR, 1)]
  | 15 => [(ACQ_ERR, 3)]
  | 16 => [(DDR_ERR, 1)]
  | 17 => [(FDM_ERR, 3)]
  | 18 => [(CMD_ERR, 1)]
  | 19 => [(MON_ERR, 1)]
  | _ => []

/-- Does the block refuse what a write sets off (NOT_APPLIED)? Seen from a copy of the state whose flags are clear. -/
def State.postRefused (s : State) (a old v : Nat) : Bool :=
  let fl := refusalFlags (a / 0x100000)
  let t := blockPost a old v (fl.foldl (fun t f => t.wr f.1 0) s)
  fl.any (fun f => Nat.land (t.rd f.1) f.2 != 0)

/-! ### Messages after a write (R504) -/

/-- Register `a` is one of block b's flag registers. -/
def flagReg (b a : Nat) : Bool :=
  match b with
  | 0 => a == GLB_ERR
  | 1 => a == KPR_ERR
  | 2 => a == PWR_ERR
  | 3 => a == CLK_HIST
  | 4 => a == TIM_HIST
  | 5 => (List.range 16).any (fun n => NEC_BUNDLEb_HIST n == a) || a == NEC_ERR
  | 6 => a == ING_ERR
  | 7 => a == CHN_ERR
  | 8 => a == CTN_ERR
  | 9 => (List.range 32).any (fun n => ETHn_HIST n == a) || a == ETH_ERR
  | 10 => a == CMB_ERR
  | 11 => a == SUP_ERR
  | 12 => a == WAG_ERR
  | 13 => a == WRK_ERR
  | 14 => a == TRG_ERR || a == STG_ERR
  | 15 => a == ACQ_ERR
  | 16 => a == DDR_ERR
  | 17 => a == FDM_ERR
  | 18 => a == CMD_ERR
  | 19 => a == MON_ERR
  | 20 => a == PCI_ERR
  | _ => false

/-- The messages a write to a flag register, to GLB_FAULT or to an INT_EN register sends while it leaves the interrupt asserted. -/
def State.messages (s : State) (a : Nat) : State :=
  let b := a / 0x100000
  if a = GLB_FAULT then s.each ((List.range 21).filter s.irq) State.sendIrq
  else if (flagReg b a || intEnOf b == some a) && s.irq b then s.sendIrq b
  else s

/-! ### The accesses -/

/-- A write of the MSI-X table (R464): the vector control word masks or unmasks. -/
def State.msixWrite (s : State) (a v : Nat) : State :=
  let i := (a - 0x1408000) / 4
  if i % 4 = 3 then s.msixMask (i / 4) (v % 2)
  else { s with pci := { s.pci with msix := spSet msixReset s.pci.msix i (v % 2 ^ 32) } }

/-- May the agent write the register at all (R501, R522, Table 21-9)? -/
def permitted (ag : Agent) (a : Nat) : Bool :=
  !(makerReg a && ag != .maker) && !((a == GLB_BAR0_WE_LO || a == GLB_BAR0_WE_HI) && ag == .host)

/-- R501: BAR0 writes to the block are accepted. -/
def State.bar0Open (s : State) (a : Nat) : Bool :=
  let b := a / 0x100000
  (if b < 16 then s.bit GLB_BAR0_WE_LO b else s.bit GLB_BAR0_WE_HI (b - 16)) == 1

/-- The write reaches the register: the guard, the block's rules, the register's new contents and what they set off. -/
def State.applyWrite (s : State) (r : RegRow) (a v : Nat) : Nat × State :=
  let old := s.rd a
  let new := r.merge old v
  if s.guardStops r a old new then (5, s.guardHit a)
  else
    match blockPre a new s with
    | some t => (5, t)
    | none =>
      let s := s.wr a new
      let cause := if s.postRefused a old v then 5 else 0
      let s := blockPost a old v s
      let s := if r.acc == .wo then s.wr a 0 else s
      let s := if r.sealed && cause = 0 then { s with pass := { s.pass with dirty := true } } else s
      (cause, s.messages a)

/-- One register write of one DW by an agent: the cause of Table 19-7 and the state after it. -/
def State.regWrite (s : State) (ag : Agent) (a v : Nat) : Nat × State :=
  let v := v % 2 ^ 32
  if inMsix a || inPba a then
    if s.domainStopped a then (3, s.domainHit a)
    else if ag == .host && !s.bar0Open a then (5, s.flag GLB_ERR 4)
    else if inPba a then (2, s.badAccess a)
    else (0, s.msixWrite a v)
  else
    match rowOf a with
    | none => (1, s.unmapped a)
    | some r =>
      if !permitted ag a then (4, if ag == .host && !makerReg a then s.flag GLB_ERR 4 else s)
      else if s.domainStopped a then (3, s.domainHit a)
      else if ag == .host && !s.bar0Open a then (5, s.flag GLB_ERR 4)
      else if r.acc == .ro then (2, s.badAccess a)
      else s.applyWrite r a v

/-- The owners of session x among operator slots `lo` to `lo` + 31 (R517); session 0 has none (R513). -/
def State.ownerMask (s : State) (x lo : Nat) : Nat :=
  if x = 0 then 0 else sumL ((List.range 32).map (fun i =>
    if s.rd (CMD_KEYk_STATE (lo + i)) % 4 = 1 && s.bit (CMD_BINDs_w (lo + i) (x / 32)) (x % 32) = 1 then 2 ^ i else 0))

/-- Registers that show what the state holds elsewhere, or several registers at once. -/
def State.shown (s : State) (a : Nat) : Nat :=
  let up (p : Nat → Bool) : Nat := sumL (((List.range 21).filter p).map (fun b => 2 ^ b))
  if a = GLB_INT_STATUS then up s.irq
  else if a = GLB_ALARM then up s.alarms + (if s.kpr.orphan || up s.alarms != 0 then 2 ^ 31 else 0)
  else if a = CHN_WIN_DATA then s.winRead
  else if a = CHN_GAIN_DATA then s.gainRead
  else if a = CMB_LIST_DATA then s.listRead
  else if a = WAG_WT_DATA then
    let p := s.rd WAG_WT_ADDR % 2 ^ 25
    s.wtGet (p / 2 ^ 24) (p % 2 ^ 24)
  else if a = WAG_GEO_DATA then
    let p := s.rd WAG_GEO_ADDR % 2 ^ 23
    spGet zeroNat s.wag.geo ((p / 2 ^ 22) * 2 ^ 22 + p % 2 ^ 22)
  else if a = FDM_HALTED then s.fdmHalted
  else if a = NEC_HIST_SUM then sumL (((List.range 16).filter (fun b => s.rd (NEC_BUNDLEb_HIST b) != 0)).map (2 ^ ·))
  else if 0x1210000 ≤ a && a < 0x1220000 && (a % 0x40 = 4 || a % 0x40 = 8) then
    s.ownerMask ((a - 0x1210000) / 0x40) (if a % 0x40 = 4 then 0 else 32)
  else if 0x608000 ≤ a && a < 0x608080 && a % 0x10 = 4 then s.coefRead ((a - 0x608000) / 0x10)
  else s.rd a

/-- What the register at `a` reads as, and the state after a read that reaches it (R67, R365). -/
def State.regFetch (s : State) (a : Nat) : Nat × State :=
  if a = WRK_MEM_DATA_LO then s.memRead
  else if a = TIM_NOW_FRAC then
    match execTimNowFracRead 0 s with
    | .next t => (t.rd a, t)
    | _ => (s.rd a, s)
  else (s.shown a, s)

/-- One register read of one DW by an agent: the cause, the value, the state after it. -/
def State.regRead (s : State) (ag : Agent) (a : Nat) : Nat × Nat × State :=
  if inMsix a || inPba a then
    if s.domainStopped a then (3, 2 ^ 32 - 1, s.domainHit a)
    else if inPba a then (0, sumL ((List.range 32).map (fun i => spGet zeroNat s.pci.pba ((a - 0x1410000) * 8 + i) * 2 ^ i)), s)
    else (0, spGet msixReset s.pci.msix ((a - 0x1408000) / 4), s)
  else
    match rowOf a with
    | none => (1, 0, s.unmapped a)
    | some r =>
      if makerReg a && ag == .installer then (4, 0, s)
      else if s.domainStopped a then (3, 2 ^ 32 - 1, s.domainHit a)
      else if r.acc == .wo then (2, 0, s.badAccess a)
      else
        let f := s.regFetch a
        (0, f.1, f.2)

/-! ### The host's accesses (R460) -/

/-- A write of one DW by the host. A request reaches the part only while PERST_L does not hold the endpoint in reset (R568). -/
def State.hostWrite (s : State) (a v : Nat) : State := if s.pci.held then s else (s.regWrite .host a v).2

/-- A request that is not one DW with all byte enables (R460). -/
def State.badRequest (s : State) : State := (s.count PCI_BAD_CNT 1).flag PCI_ERR 0

/-- HOST_REGISTER_WRITE (R496, R460): a write of `v` at `off`; with no value, the read of the register there, which the table has no
row for. `dw`: one DW with all four byte enables. -/
def execHostRegisterWrite (off : Nat) (v : Option Nat) (dw : Bool) (s : State) : Res :=
  if s.pci.held then .next s
  else if !dw then
    match v with
    | some _ => .next s.badRequest
    | none => .next (s.badRequest.emit (.readData off [0xFF, 0xFF, 0xFF, 0xFF] false))
  else
    match v with
    | some w => .next (s.regWrite .host (off % 2 ^ 26) w).2
    | none =>
      let r := s.regRead .host (off % 2 ^ 26)
      .next (r.2.2.emit (.readData off (toLE 4 r.2.1) false))

/-- DOMAIN_ACCESS_TIMEOUT (R503): an access at `a` has not completed within 2 µs; a read returns all ones. -/
def execDomainAccessTimeout (a : Nat) (read : Bool) (s : State) : Res :=
  match rowOf (a % 2 ^ 26) with
  | none => .next s
  | some _ =>
    let s := s.domainHit (a % 2 ^ 26)
    .next (if read then s.emit (.readData a [0xFF, 0xFF, 0xFF, 0xFF] false) else s)

end Sys2Proof.Machine
end

