-- ==== Sys2Proof/Machine/Power.lean ====
section
/-!
DEFINITION. The power arbiter and thermal control (chapter 22), the owner events of its withheld work (R525, R526), and the propolis
seal (R507 to R511). One pJ per tick is one µW; 1,000 pJ per tick are 1 mW (R535).
-/
namespace Sys2Proof.Machine

/-! ### Demand (R534, Table 22-1) -/

/-- A demand of the arbiter: its session, the unit and key its grant is listed under (the worker for unit 5, else the session), items,
pJ per item. -/
structure PwrItem where
  ses  : Nat
  unit : Nat
  key  : Nat
  want : Nat
  per  : Nat
  deriving DecidableEq, Repr

/-- Comb cycles of session x per tick; a session whose comb work has not stopped yet demands as before. -/
def State.pwrCombs (s : State) (x : Nat) : Nat :=
  if s.cmbAt x || s.cmb.ses.any (·.1 == x) then 16 * ceilDiv (s.cvGx x) 16 * s.cvM x * s.cvQ x else 0

/-- Demands of session x, units in the order of R537. -/
def State.pwrItems (s : State) (x : Nat) : List PwrItem :=
  let w (n : Nat) : PwrItem := ⟨x, 5, n, 1, s.wrkBudget n * s.rd PWR_E_WRK⟩
  ([⟨x, 0, x, s.pwrCombs x, s.rd PWR_E_COMB⟩, ⟨x, 1, x, s.phaseItems x, s.rd PWR_E_PHASE⟩,
    ⟨x, 2, x, s.wagItems18 x, s.rd PWR_E_WAG⟩] : List PwrItem).filter (fun i => i.want != 0) ++ (s.workersOf x).map w

/-- Demand of the witness comb for session x while CW witnesses it. -/
def State.pwrWitness (s : State) (x : Nat) : PwrItem :=
  ⟨x, 4, x, if s.cmbMode.cw = 0 && !s.sesReplay x && s.bit CMB_CTRL 1 = 1 && s.pwrCombs x ≠ 0 then ceilDiv (s.cvGx x) 16 * s.cvM x * s.cvQ x else 0,
   s.rd PWR_E_COMB⟩

/-- The sessions of a rank of R263, ascending. -/
def State.pwrSessions (s : State) (rank : Nat) : List Nat := (List.range 1024).filter (fun x => s.classRank x == rank)

/-- Ticks in a row session x of row 5 has received nothing (R538). -/
def State.pwrIdle (s : State) (x : Nat) : Nat := spGet zeroNat s.pwr.idle x

/-- Sessions of row 5 promoted in this tick. -/
def State.pwrPromoted (s : State) : List Nat :=
  (s.pwrSessions 3).filter (fun x => s.rd PWR_AGE % 65536 ≤ s.pwrIdle x && !(s.pwrItems x).isEmpty)

/-- Row 2, and rows 3 to 5 in their order (R537, R538). -/
def State.pwrRow2 (s : State) : List PwrItem := (s.pwrSessions 1).flatMap s.pwrItems
def State.pwrRows35 (s : State) : List PwrItem :=
  let up := s.pwrPromoted
  (s.pwrSessions 2).flatMap s.pwrItems
  ++ ((List.range 1024).map s.pwrWitness).filter (fun i => i.want != 0)
  ++ (up ++ (s.pwrSessions 3).filter (fun x => !up.contains x)).flatMap s.pwrItems

def pwrEnergy (l : List PwrItem) : Nat := sumL (l.map (fun i => i.want * i.per))

/-! ### Grants (R537 to R541) -/

/-- Grants demands in turn from `e` pJ: the largest whole number of items that fits; after the first short one nothing. -/
def pwrTake : List PwrItem → Int → Bool → List (PwrItem × Nat)
  | [], _, _ => []
  | i :: t, e, stop =>
    let n := if stop then 0 else if i.per = 0 then i.want else min i.want (e.toNat / i.per)
    (i, n) :: pwrTake t (e - (n * i.per : Nat)) (stop || n < i.want)

def grantedEnergy (l : List (PwrItem × Nat)) : Nat := sumL (l.map (fun g => g.2 * g.1.per))

/-- Energy for rows 2 to 5 under a thermal reduction of `rth` pJ: what class A leaves of the budget, bounded by the step limit (R537, R539); with
EN at 0, every demand but that of the rows that `shed` bars, less the reduction. -/
def State.pwrAvail (s : State) (rth : Nat) (shed : Bool) : Int :=
  let r2 := pwrEnergy s.pwrRow2
  if s.bit PWR_CTRL 0 = 0 then ((r2 + (if shed then 0 else pwrEnergy s.pwrRows35) : Nat) : Int) - (rth : Nat)
  else
    let meas := if s.bit PWR_CTRL 1 = 1 && s.pwr.left ≠ 0 then s.pwr.meas else 0
    let a := pwrEnergy ((s.pwrSessions 0).flatMap s.pwrItems)
    let e : Int := ((s.rd PWR_BUDGET * 1000 : Nat) : Int) - ((s.rd PWR_BASE * 1000 + meas * 1000 + a + rth : Nat) : Int)
    let lim : Int := ((s.pwr.spent + s.rd PWR_STEP % 512 * 1000000 : Nat) : Int)
    if e < lim then e else lim

/-- The grants of rows 2 to 5 with a thermal reduction of `rth` pJ and, under shedding, nothing in rows 3 to 5. -/
def State.pwrGrants (s : State) (rth : Nat) (shed : Bool) : List (PwrItem × Nat) :=
  let av := s.pwrAvail rth shed
  if shed then pwrTake s.pwrRow2 av false ++ s.pwrRows35.map (fun i => (i, 0))
  else pwrTake (s.pwrRow2 ++ s.pwrRows35) av false

/-- Energy row 2 would be granted without R_th, in pJ (R543). -/
def State.row2Energy (s : State) : Nat := grantedEnergy ((s.pwrGrants 0 true).filter (fun g => s.classRank g.1.ses == 1 && g.1.unit != 4))

/-- Thermal state of Table 22-2: 0 NORMAL, 1 SHED_C, 2 SHED_B, 3 TRIP; R_th in W. -/
def State.thermal (s : State) : Nat := bitsOf (s.rd PWR_STATUS) 31 30
def State.rth (s : State) : Nat := s.rd PWR_STATUS % 1024
def State.setThermal (s : State) (v r : Nat) : State := s.wr PWR_STATUS (v * 2 ^ 30 + r % 1024)

/-- The grants of the tick that begins (R536 step 4): those that fall short are listed. -/
def State.pwrGrant (s : State) : State :=
  let shed := s.thermal = 1 || s.thermal = 2
  let rth := if s.thermal = 2 then min (s.rth * 1000000) s.row2Energy else 0
  let act := s.pwrGrants rth shed
  let hyp := s.pwrGrants 0 false
  let one (g : PwrItem × Nat) : Grant :=
    let h := match hyp.find? (fun q => q.1.unit == g.1.unit && q.1.key == g.1.key) with | some q => q.2 | none => 0
    let k := if g.1.unit = 2 then 1024 else 1
    ⟨g.1.key, g.1.unit, g.1.want * k, g.2 * k, h * k⟩
  let short := act.filter (fun g => decide (g.2 < g.1.want))
  let runs (x : Nat) : Grant :=
    let l := act.filter (fun g => g.1.unit == 5 && g.1.ses == x)
    ⟨x, 3, l.length, (l.filter (fun g => g.2 != 0)).length, (hyp.filter (fun g => g.1.unit == 5 && g.1.ses == x && g.2 != 0)).length⟩
  let sessions := ((short.filter (fun g => g.1.unit == 5)).map (·.1.ses)).eraseDups
  let spent := grantedEnergy act
  let up := s.pwrPromoted
  let idle := (s.pwrSessions 3).map (fun x =>
    let l := act.filter (fun g => g.1.ses == x && g.1.unit != 4)
    (x, if l.isEmpty || l.any (fun g => g.2 != 0) || up.contains x then 0 else min 65535 (s.pwrIdle x + 1)))
  let held := (short.filter (fun g => g.1.unit != 4 && !s.sesReplay g.1.ses)).flatMap (fun g => (one g).reasons.map (fun r => (g.1.ses, r)))
  let s := { s with grants := short.map one ++ sessions.map runs }
  let s := { s with pwr := { s.pwr with spent := spent, held := held.eraseDups, left := s.pwr.left - 1
                                        idle := (idle.filter (·.2 != 0)) } }
  let s := (s.wr PWR_GRANT (spent / 10000 % 2 ^ 18)).count PWR_PROMOTE_CNT up.length
  if short.isEmpty then s else (s.count PWR_WITHHELD_CNT 1).flag PWR_ERR 5

/-! ### Thermal control (R543, R544) -/

def State.temp (s : State) : Int := signed 16 (s.rd PWR_TEMP)
def State.tC (s : State) : Int := (bitsOf (s.rd PWR_THERM) 31 24 * 8 : Nat)
def State.tB (s : State) : Int := (bitsOf (s.rd PWR_THERM) 23 16 * 8 : Nat)
def State.hyst (s : State) : Int := (bitsOf (s.rd PWR_THERM) 11 8 * 8 : Nat)

/-- A period of `us` microseconds has begun since the microsecond count stood at `last`. -/
def State.duePeriod (s : State) (us : Nat) (last : Option Nat) : Bool :=
  match last with | some l => decide (l / us < s.tim.us / us) | none => true

/-- A millisecond boundary: of hive time, or of the local oscillator while no strobe is issued. -/
def State.atMs (s : State) : Bool := (if s.timeValid then s.tick else s.tim.us) % 1000 == 0

/-- The rising transitions of Table 22-2 on the latest sample. -/
def State.thermalMove (s : State) : State :=
  if s.thermal = 0 && s.tC ≤ s.temp then
    ((s.setThermal 1 0).count PWR_SHED_CNT 1).flag PWR_ERR 3
  else if s.thermal = 1 && s.tB ≤ s.temp then (s.setThermal 2 0).flag PWR_ERR 4
  else s

/-- The thermal state at a tick boundary (R536 step 2): SHED_C ends after 10,000 cool ticks. -/
def State.thermalTick (s : State) : State :=
  let cool := if s.temp < s.tC - s.hyst then min 10000 (s.pwr.cool + 1) else 0
  let s := ({ s with pwr := { s.pwr with cool := cool } }).thermalMove
  let s := if s.thermal = 1 && cool = 10000 then s.setThermal 0 0 else s
  if s.thermal = 0 then s else s.modKpr (fun q => { q with thermSec := max q.thermSec s.thermal })

/-- TRIP (R544): every domain but keeper A, keeper B and service stops. -/
def State.trip (s : State) : State :=
  let s := (s.setThermal 3 0).wr GLB_DOMAINS (s.rd GLB_DOMAINS % 8)
  let s := s.modKpr (fun q => { q with thermSec := 3, badTick := true })
  ({ s with mon := { s.mon with trip := true } }).setBit MON_STATE 18 true

/-- THERMAL_SAMPLE (R543), every 10 µs: the highest reading, in 0.125 °C, and its sensor. The state of Table 22-2 follows at the next tick
boundary (R536), TRIP at once (R544). -/
def execThermalSample (t : Int) (sensor : Nat) (s : State) : Res :=
  if s.mon.held || s.mon.trip || 32 ≤ sensor || !s.duePeriod 10 s.pwr.sampled then .next s
  else
    let s := ({ s with pwr := { s.pwr with sampled := some s.tim.us } }).wr PWR_TEMP (sensor * 2 ^ 16 + unsigned 16 t)
    let s := s.modKpr (fun q => { q with tempSec := if q.tempSec < t then t else q.tempSec })
    .next (s.when (decide (920 ≤ t)) State.trip)

/-- THERMAL_STEP (R543): a millisecond boundary in SHED_B. -/
def execThermalStep (s : State) : Res :=
  if s.thermal ≠ 2 || !s.inControl || !s.atMs || s.pwr.stepped = some s.tim.us then .next s
  else
    let s := { s with pwr := { s.pwr with stepped := some s.tim.us } }
    let w := s.rd PWR_THERM % 256
    if s.tB ≤ s.temp then .next (s.setThermal 2 (min (s.rth + w) (min 1023 (s.row2Energy / 1000000))))
    else if s.temp < s.tB - s.hyst then
      .next (if s.rth ≤ w then s.setThermal 1 0 else s.setThermal 2 (s.rth - w))
    else .next s

/-! ### Measured power (R540) -/

/-- RAIL_READ (R540), once per millisecond: what each rail read: voltage in mV and current in 10 mA, none where the read failed. -/
def execRailRead (rails : List (Option (Nat × Nat))) (s : State) : Res :=
  if s.bit PWR_CTRL 1 = 0 || s.mon.trip || !s.inControl || !s.duePeriod 1000 s.pwr.railed then .next s
  else
    let s := { s with pwr := { s.pwr with railed := some s.tim.us } }
    let on := (List.range 9).filter (fun r => s.bit (PWR_RAILr_CFG r) 16 == 1)
    let get (r : Nat) : Option (Nat × Nat) := nth rails r none
    let bad := (on.filter (fun r => (get r).isNone)).length
    let s := s.each on (fun s r => match get r with
      | some m => s.wr (PWR_RAILr_MEAS r) (m.1 % 65536 * 65536 + m.2 % 65536)
      | none => s)
    if bad ≠ 0 then
      .next ((({ s with pwr := { s.pwr with meas := 0, left := 0 } }).count PWR_RAIL_FAIL_CNT bad).flag PWR_ERR 1)
    else
      let p := sumL (on.map (fun r => match get r with | some m => m.1 % 65536 * (m.2 % 65536) | none => 0)) / 100
      let s := s.wr PWR_MEAS (p % 2 ^ 20)
      let s := s.modKpr (fun q => { q with measSum := q.measSum + p, measCnt := q.measCnt + 1 })
      let b := s.rd PWR_BUDGET
      if b < p then .next (({ s with pwr := { s.pwr with meas := p - b, left := 1000 } }).flag PWR_ERR 2)
      else .next { s with pwr := { s.pwr with meas := 0, left := 0 } }

/-- The arbiter at a tick boundary (R536 steps 2 to 4). In a gap and while ORPHAN the grants of the last tick hold (R542, R561). -/
def State.pwrTick (s : State) : State := if s.inControl then s.thermalTick.pwrGrant else s

/-! ### Owner events (R525, R526) -/

def degBit (r : Nat) : Nat := r - rPowerBudget

/-- Appends an event to the log of 256 entries. -/
def State.ownerEvent (s : State) (kind x r t count : Nat) : State :=
  let i := s.rd CMD_OEV_NEXT % 256
  let full := bitsOf (s.rd (CMD_OEVi_v i 2)) 31 24 ≠ 0
  let s := (s.wr (CMD_OEVi_v i 0) (t % 2 ^ 32)).wr (CMD_OEVi_v i 1) (t / 2 ^ 32 % 2 ^ 32)
  let s := (s.wr (CMD_OEVi_v i 2) (kind * 2 ^ 24 + r * 2 ^ 16 + x)).wr (CMD_OEVi_v i 3) count
  let s := (s.wr CMD_OEV_NEXT ((i + 1) % 256)).when full (·.count CMD_OEV_LOST 1)
  s.flag CMD_ERR 4

/-- The events of the tick that has ended, in ascending session, then reason: an episode starts with the first product flagged and ends in
the first tick in which nothing is withheld. -/
def State.ownerTick (s : State) (t : Nat) : State :=
  let deg := s.degraded
  let busy (x r : Nat) : Bool := deg.contains (x, r) || s.pwr.held.contains (x, r)
  let keys := (deg ++ s.cmd.eps.map (fun e => (e.x, e.why))).eraseDups
  let order := (List.range 1024).flatMap (fun x => ([rPowerBudget, rThermal, rClass, rSpare].filter (fun r => keys.contains (x, r))).map (fun r => (x, r)))
  let s := s.each order (fun s q =>
    let n := (deg.filter (· == q)).length
    match s.cmd.eps.find? (fun e => e.x == q.1 && e.why == q.2) with
    | none =>
      let s := (s.ownerEvent 1 q.1 q.2 t 0).setBit (CMD_SESx_DEG q.1) (degBit q.2) true
      { s with cmd := { s.cmd with eps := s.cmd.eps ++ [⟨q.1, q.2, n⟩] } }
    | some e =>
      let rest := s.cmd.eps.filter (· != e)
      if busy q.1 q.2 then { s with cmd := { s.cmd with eps := rest ++ [⟨q.1, q.2, e.count + n⟩] } }
      else
        let s := (s.ownerEvent 2 q.1 q.2 t e.count).setBit (CMD_SESx_DEG q.1) (degBit q.2) false
        { s with cmd := { s.cmd with eps := rest } })
  let s := s.modKpr (fun q => { q with degSec := (deg.map (·.1)).foldl addNew q.degSec })
  { s with degraded := [] }

/-! ### The propolis seal (R507 to R511) -/

/-- The CRC of one pass: every sealed register in ascending offset, its offset and its RW and MW bits (R508). -/
def State.sealCrc (s : State) : Nat :=
  ((List.range (21 * 2 ^ 18)).foldl (fun c i => match rowAt (4 * i) with
    | some r => if r.sealed then (toLE 4 (4 * i) ++ toLE 4 (Nat.land (s.rd (4 * i)) r.mask)).foldl crc32cByte c else c
    | none => c) (0xFFFFFFFF : BitVec 32) ^^^ 0xFFFFFFFF).toNat

/-- The pass meets a stopped domain: each of the 21 blocks holds sealed registers or lies in a domain of one that does. -/
def State.sealStopped (s : State) : Bool := (List.range 20).any (fun b => s.domainStopped (b * 0x100000))

/-- SEAL_PASS (R508 to R511): a pass ends and the next one begins. -/
def execSealPass (s : State) : Res :=
  if s.bit GLB_SEAL_CFG 0 = 0 || !s.inControl then .next s
  else
    let s := s.count GLB_SEAL_PASSES 1
    let st := s.rd GLB_SEAL_STATUS
    if s.pass.dirty || s.sealStopped then
      let run := min 255 (st % 256 + 1)
      let s := (s.count GLB_SEAL_VOID 1).setFd GLB_SEAL_STATUS ⟨7, 0⟩ run
      .next (s.when (run = 16) (·.flag GLB_ERR 5)).sealBegin
    else
      let crc := s.sealCrc
      let s := (s.wr GLB_SEAL_LAST crc).setFd GLB_SEAL_STATUS ⟨7, 0⟩ 0
      if s.pass.adopt then
        .next ((((s.wr GLB_SEAL_REF crc).setBit GLB_SEAL_STATUS 31 true).setBit GLB_SEAL_STATUS 30 false).setBit GLB_SEAL_STATUS 29 false).sealBegin
      else if bitOf st 31 = 1 && bitOf st 30 = 0 then
        if crc = s.rd GLB_SEAL_REF then .next (s.setBit GLB_SEAL_STATUS 29 false).sealBegin
        else
          let s := ((s.setBit GLB_SEAL_STATUS 29 true).count GLB_SEAL_MISMATCH 1).flag GLB_ERR 6
          .next (if bitOf st 29 = 0 then s.auditEvent 2 crc else s).sealBegin
      else .next s.sealBegin

/-- A command has written a sealed register: the pass is void, and with AUTO at 1 the next good one is adopted (R509, R510). -/
def State.sealWritten (s : State) : State :=
  let s := { s with pass := { s.pass with dirty := true } }
  if s.bit GLB_SEAL_CFG 1 = 1 then s.setBit GLB_SEAL_STATUS 30 true else s

end Sys2Proof.Machine
end

