-- ==== Sys2Proof/Machine/Reset.lean ====
section
/-!
DEFINITION. Resets and start-up (R564 to R571): power-on reset and its end, warm reset, the reset of the PCIe endpoint.
-/
namespace Sys2Proof.Machine

/-- Maker slots revoked in OTP are REVOKED after every reset (R520). -/
def State.otpKeys (s : State) : State := s.each s.mon.revoked (fun s i => s.wr (CMD_KEYk_STATE (68 + i)) 2)

/-- Power-on reset in progress, with the cause of MON_RESET_CAUSE (R564, R565): everything but OTP returns to reset. What the model
itself keeps, the queue and its record of what left the part, stays. -/
def State.powerOn (s : State) (cause : Nat) : State :=
  (({ State.reset with mon := { Mon.reset with otp := s.mon.otp, revoked := s.mon.revoked }, out := s.out, freeCtr := s.freeCtr,
                       pending := s.pending }).wr MON_RESET_CAUSE cause).otpKeys

/-- POR_L_LOW (R564). -/
def execPorLLow (s : State) : Res := .next (s.powerOn 0)

/-- PWRGOOD_FALL (R565). -/
def execPwrgoodFall (s : State) : Res := .next (s.powerOn 1)

/-- Steps 1 and 2 of Table 24-3: the domains run, the service domain and keeper A are up, and the audit log takes its RESET entry
(R527). The PCIe domain waits for PERST_L. -/
def State.startUp (s : State) : State :=
  let s := s.wr GLB_DOMAINS (if s.pci.held then 0x7FF else 0xFFF)
  ((s.wr MON_STATE (Nat.lor (s.rd MON_STATE) 3)).monLatch).auditEvent 5 0

/-- RESET_END (R565, R569): the reset ends and BOOT_MODE is sampled; 0b11 acts as HOST. -/
def execResetEnd (mode : Nat) (s : State) : Res :=
  if !s.mon.held then .next s
  else
    let s := { s with mon := { s.mon with held := false } }
    let s := s.setFd MON_BOOT ⟨29, 28⟩ mode
    .next ((s.when (mode % 4 = 3) (·.flag MON_ERR 0)).startUp)

/-- BOOT_MODE as sampled. -/
def State.bootMode (s : State) : Nat := bitsOf (s.rd MON_BOOT) 29 28

/-- The registers a warm reset keeps: those of the audit head and the R548 counters, and the RO and W1C registers of GLB and MON, which lie
in the service domain, apart from the domains, the seal's, and those of the start-up and the boot image, which begin again. -/
def warmKept (a : Nat) : Bool :=
  (0x1200030 ≤ a && a ≤ 0x120003C) || (0x100048 ≤ a && a ≤ 0x100054)
  || ((a / 0x100000 == 0 || a / 0x100000 == 19)
      && (match rowAt a with | some r => r.acc == .ro || r.acc == .w1c | none => false)
      && !(a == GLB_DOMAINS || (GLB_SEAL_STATUS ≤ a && a ≤ GLB_SEAL_LAST) || a == MON_STATE
           || a == MON_BOOT_IDX || a == MON_BOOT_GEN || a == MON_RESET_CAUSE || a == MON_BOOT))

/-- A warm reset (R566): every domain but service is reset and the start-up begins again from keeper self-test. It takes 1 ms, 1,000 ticks
that count as unavailable where they are operating ticks (R548): the sessions the reset ends tell which. OTP, the audit log and the local clock stay. -/
def State.warmReset (s : State) (cause : Nat) : State :=
  let un := s.rd64 KPR_UNAVAIL_LO KPR_UNAVAIL_HI + (if s.operating then 1000 else 0)
  let t : State := { State.reset with
    regs := s.regs.filter (fun e => warmKept e.1)
    tim := { Tim.reset with now := s.tim.now, us := s.tim.us + 1000 }
    cmd := { Cmd.reset with audit := s.cmd.audit }
    mon := { Mon.reset with held := false, wrong := s.mon.wrong, locked := s.mon.locked, lockAt := s.mon.lockAt, health := s.mon.health, otp := s.mon.otp,
                            revoked := s.mon.revoked }
    pci := { Pci.reset with held := s.pci.held }
    out := s.out, freeCtr := s.freeCtr, pending := s.pending }
  let t := t.wr64 KPR_UNAVAIL_LO KPR_UNAVAIL_HI un
  let t := ((t.wr MON_BOOT (s.bootMode * 2 ^ 28)).wr MON_RESET_CAUSE cause).otpKeys
  ((t.count MON_WARM_CNT 1).startUp).flag MON_ERR 1

/-- AUTO_WARM_RESET (R567): the hive has been ORPHAN for AUTO_S seconds of the local oscillator. -/
def execAutoWarmReset (s : State) : Res :=
  if s.kpr.orphan && s.bit MON_CTRL 1 = 1 && !s.mon.trip && !s.mon.held
      && decide (s.kpr.orphanAt + bitsOf (s.rd MON_CTRL) 15 8 * 1000000 ≤ s.tim.us) then .next (s.warmReset 3) else .next s

/-- PERST_L_ASSERT (R568). -/
def execPerstLAssert (s : State) : Res := .next s.endpointReset

/-- PERST_L_DEASSERT (R568): the endpoint trains; `speed`, `width` and `bar2` are what the link and the host's configuration settle, and
`bme` the Bus Master Enable bit the host then writes. -/
def execPerstLDeassert (speed width bar2 : Nat) (bme : Bool) (s : State) : Res :=
  if !s.pci.held then .next s
  else
    let s := { s with pci := { s.pci with held := false } }
    let s := s.wr PCI_STATUS (bar2 % 16 * 2 ^ 12 + (if bme then 2 ^ 11 else 0) + width % 32 * 2 ^ 4 + speed % 16)
    .next (if s.mon.held || s.mon.trip then s else s.setBit GLB_DOMAINS 11 true)

/-! ### STATUS pins (R571, R556) -/

/-- Level of pin STATUSn: the bit of MON_STATE that MON_STATUS_SEL selects; a keeper gap and ORPHAN hold it. -/
def State.statusPin (s : State) (n : Nat) : Bool :=
  let f := s.rd MON_STATUS_SEL / 2 ^ (8 * n) % 256
  let st := if s.kpr.gap then s.kpr.heldState else s.rd MON_STATE
  (bitOf st (f % 32) == 1) != (bitOf f 7 == 1)

end Sys2Proof.Machine
end

