-- ==== Sys2Proof/Machine/MonCore.lean ====
section
/-!
DEFINITION. The Biliq monitor (R576 to R579) and the progress of the boot image (R572 to R575).
-/
namespace Sys2Proof.Machine

/-! ### What the monitor prints (R577). Line ends are CR LF: PRESUMED, log entry 27. -/

def asc (t : String) : List Byte := t.toList.map (fun c => BitVec.ofNat 8 c.toNat)
def crlf : List Byte := [0x0D, 0x0A]

/-- The hexadecimal digit of a value below 16, upper case. -/
def hexDigit (n : Nat) : Byte := BitVec.ofNat 8 (if n % 16 < 10 then 0x30 + n % 16 else 0x37 + n % 16)

/-- `k` hexadecimal digits of `n`. -/
def hexOf (k n : Nat) : List Byte := (List.range k).reverse.map (fun i => hexDigit (n / 16 ^ i))

/-- `k` decimal digits of `n`. -/
def decOf (k n : Nat) : List Byte := (List.range k).reverse.map (fun i => BitVec.ofNat 8 (0x30 + n / 10 ^ i % 10))

/-- Bytes as hexadecimal lines of 32 bytes, each with its 4-digit offset. -/
def hexDump (b : List Byte) : List Byte :=
  let ls := chunks (b.length / 32 + 1) 32 b
  (List.zip (List.range ls.length) ls).flatMap (fun q =>
    hexOf 4 (32 * q.1) ++ asc " " ++ q.2.flatMap (fun c => hexOf 2 c.toNat) ++ crlf)

def State.print (s : State) (b : List Byte) : State := s.emit (.uart b)

/-- The final line and the prompt. -/
def State.final (s : State) (t : String) : State :=
  s.print (asc t ++ crlf ++ asc "hive " ++ decOf 4 (s.rd CTN_ID % 1024) ++ asc "> ")
def State.ok (s : State) : State := s.final "OK"
def State.err (s : State) (code : String) : State := s.final ("ERR " ++ code)

/-- The monitor takes input: enabled, or in MONITOR mode (R576, R569). -/
def State.monOn (s : State) : Bool := !s.mon.held && (s.bit MON_CTRL 0 == 1 || s.bootMode == 2)

/-- Role of a key slot numbered as CMD_KEYk is. -/
def slotRole (k : Nat) : Nat := if k < 64 then 0 else if k < 68 then 1 else 2

/-- Number of slot `slot` of role `role`; none where the role has no such slot (Table 21-2). -/
def slotOf (role slot : Nat) : Option Nat :=
  match role with
  | 0 => if slot < 64 then some slot else none
  | 1 => if slot < 4 then some (64 + slot) else none
  | 2 => if slot < 2 then some (68 + slot) else none
  | _ => none

/-- The key of an ACTIVE slot (R518). -/
def State.keyOf (s : State) (k : Nat) : Option (List Byte) :=
  if s.rd (CMD_KEYk_STATE k) % 4 ≠ 1 then none
  else if 68 ≤ k then some (Config.makerKey (k - 68))
  else (s.cmd.keys.find? (·.1 == k)).map (·.2)

def State.modMon (s : State) (f : Mon → Mon) : State := { s with mon := f s.mon }

/-! ### Queues (R483) -/

/-- Puts a packet in its queue by its URGENT bit. -/
def State.enqueue (s : State) (p : Pkt) : State :=
  if bitOf (beAt p.bytes 3 1) 6 = 1 then { s with cmd := { s.cmd with urgQ := s.cmd.urgQ ++ [p] } }
  else { s with cmd := { s.cmd with ordQ := s.cmd.ordQ ++ [p] } }

/-- The queue of a packet is full. -/
def State.queueFull (s : State) (b : List Byte) : Bool :=
  if bitOf (beAt b 3 1) 6 = 1 then 16 ≤ s.cmd.urgQ.length else 256 ≤ s.cmd.ordQ.length

/-- The monitor's packet enters its queue, or waits while the queue is full. -/
def State.monEnqueue (s : State) (b : List Byte) : State :=
  if s.queueFull b then s.modMon (fun m => { m with pkt := some b }) else (s.modMon (fun m => { m with pkt := none })).enqueue ⟨.monitor, b⟩

/-! ### Lines (R577, R578, Table 24-7) -/

/-- The commands of Table 24-7. -/
def helpText : List Byte :=
  (["help", "id", "status", "login", "logout", "health", "pkt", "baud", "reset warm"].flatMap (fun t => asc t ++ crlf))

def State.printId (s : State) : State :=
  s.print (hexOf 8 (s.rd GLB_ID) ++ crlf ++ hexOf 8 (s.rd GLB_UID_HI) ++ hexOf 8 (s.rd GLB_UID_LO) ++ crlf
    ++ decOf 4 (s.rd CTN_ID % 1024) ++ crlf ++ decOf 1 s.bootMode ++ crlf)

def State.printStatus (s : State) : State :=
  s.print (hexOf 8 (s.rd MON_STATE) ++ crlf ++ hexOf 8 (s.rd MON_BOOT) ++ crlf ++ hexOf 8 (s.rd MON_RESET_CAUSE) ++ crlf
    ++ hexOf 8 (s.rd KPR_STATUS) ++ crlf)

/-- A response of R578 against the challenge sent. -/
def State.loginResponse (s : State) (b : List Byte) : State :=
  match s.mon.chal with
  | none => s.err "SYNTAX"
  | some (k, ch) =>
    if s.mon.locked then s.err "LOGIN"
    else
      let s := s.modMon (fun m => { m with chal := none })
      let good := match s.keyOf k with | some key => (hmac key (asc "FV9600 MON" ++ ch)).take 8 == b | none => false
      if good then (s.modMon (fun m => { m with login := some k, wrong := 0 })).ok
      else
        let s := s.count MON_LOGIN_FAIL 1
        let s := if s.mon.wrong = 2 then (s.modMon (fun m => { m with wrong := 0, locked := true, lockAt := s.tim.us })).flag MON_ERR 3
          else s.modMon (fun m => { m with wrong := m.wrong + 1 })
        s.err "LOGIN"

/-- A login of a slot: answered with 8 challenge bytes of the hive's random source, a free value. -/
def State.loginLine (s : State) (role slot : Nat) : State :=
  if 3 ≤ role then s.err "SYNTAX"
  else
    match slotOf role slot with
    | none => s.err "RANGE"
    | some k =>
      if s.mon.locked then s.err "LOGIN"
      else
        let f := s.free
        let ch := toBE 8 f.1
        let s := f.2.modMon (fun m => { m with chal := some (k, ch) })
        (s.print (ch.flatMap (fun c => hexOf 2 c.toNat) ++ crlf)).ok

/-- The error code a line gets for its login, "" for none: `roles` lists the roles that have the command. -/
def State.loginErr (s : State) (roles : List Nat) : String :=
  match s.mon.login with
  | none => "LOGIN"
  | some k => if roles.contains (slotRole k) then "" else "ROLE"

/-- DIV16 for n baud, rounded to nearest (R576). -/
def div16Of (n : Nat) : Nat := if n = 0 then 0 else (1600000000 + n / 2) / n

/-- Executes one line. -/
def State.runLine (s : State) (l : MonLine) : State :=
  match l with
  | .help => (s.print helpText).ok
  | .ident => s.printId.ok
  | .status => s.printStatus.ok
  | .bad => s.err "SYNTAX"
  | .login role slot => s.loginLine role slot
  | .response b => s.loginResponse b
  | .logout => (s.modMon (fun m => { m with login := none, chal := none })).ok
  | .health => if s.loginErr [0, 1, 2] ≠ "" then s.err (s.loginErr [0, 1, 2]) else (s.print (hexDump s.mon.health)).ok
  | .pkt b =>
    if s.loginErr [0, 1, 2] ≠ "" then s.err (s.loginErr [0, 1, 2])
    else if s.kpr.orphan then s.err "NO_KEEPER"
    else (s.modMon (fun m => { m with wait := true })).monEnqueue b
  | .baud n =>
    if s.loginErr [1, 2] ≠ "" then s.err (s.loginErr [1, 2])
    else if div16Of n < 533 || 1600000 < div16Of n then s.err "RANGE"
    else s.ok.wr MON_UART (div16Of n)
  | .resetWarm =>
    if s.loginErr [1, 2] ≠ "" then s.err (s.loginErr [1, 2])
    else if s.mon.trip then s.ok
    else s.ok.warmReset 2

/-- The lines queued behind a `pkt`, until one of them waits in its turn. -/
def State.runQueued : Nat → State → State
  | 0, s => s
  | n + 1, s =>
    if s.mon.wait then s
    else match s.mon.lines with
      | [] => s
      | l :: rest => State.runQueued n ((s.modMon (fun m => { m with lines := rest })).runLine l)

/-- A `pkt` whose reply has not come when the hive becomes ORPHAN gets none: no sequencer runs (R579). DEDUCED, log entry 28. -/
def State.pktOrphan (s : State) : State :=
  if s.kpr.orphan && s.mon.wait then
    State.runQueued 5 ((s.modMon (fun m => { m with wait := false, pkt := none })).err "NO_KEEPER")
  else s

/-- A line received (R577): executed, queued behind a command that runs, or a fifth one refused. -/
def monLine (l : MonLine) (s : State) : Res :=
  let s := s.pktOrphan
  if !s.monOn then .next s
  else
    let s := s.modMon (fun m => { m with inAt := s.tim.us })
    if !s.mon.wait then .next (s.runLine l)
    else if s.mon.lines.length < 4 then .next (s.modMon (fun m => { m with lines := m.lines ++ [l] }))
    else .next (s.err "BUSY")

/-- A `pkt` ends: its reply in hex, or the error code of R579. -/
def State.pktDone (s : State) (r : Option (List Byte)) : State :=
  let s := s.modMon (fun m => { m with wait := false })
  let s := match r with | some b => (s.print (hexDump b)).ok | none => s.err "DISCARDED"
  State.runQueued 5 s

def execMonHelp (s : State) : Res := monLine .help s
def execMonId (s : State) : Res := monLine .ident s
def execMonStatus (s : State) : Res := monLine .status s
def execMonLogin (role slot : Nat) (s : State) : Res := monLine (.login role slot) s
def execMonLoginResponse (b : List Byte) (s : State) : Res := monLine (.response b) s
def execMonLogout (s : State) : Res := monLine .logout s
def execMonHealth (s : State) : Res := monLine .health s
def execMonPkt (b : List Byte) (s : State) : Res := monLine (.pkt b) s
def execMonBaud (n : Nat) (s : State) : Res := monLine (.baud n) s
def execMonResetWarm (s : State) : Res := monLine .resetWarm s
def execMonSyntaxError (s : State) : Res := monLine .bad s

/-- LOGIN_LOCK_EXPIRE (R578): 60 s after the third wrong response. -/
def execLoginLockExpire (s : State) : Res :=
  .next (s.when (decide (s.mon.lockAt + 60000000 ≤ s.tim.us)) (·.modMon (fun m => { m with locked := false })))

/-- LOGIN_IDLE_TIMEOUT (R578): 600 s without input. -/
def execLoginIdleTimeout (s : State) : Res :=
  .next (s.when (decide (s.mon.inAt + 600000000 ≤ s.tim.us)) (·.modMon (fun m => { m with login := none })))

/-- UART_FRAMING_ERROR (R576). -/
def execUartFramingError (s : State) : Res :=
  if s.monOn then .next ((s.count MON_UART_ERR_CNT 1).flag MON_ERR 2) else .next s

/-! ### The boot image (R572 to R575) -/

/-- STATE and CAUSE of MON_BOOT. -/
def State.bootState (s : State) : Nat := bitsOf (s.rd MON_BOOT) 31 30

/-- The image fails with a cause and, for cause STATUS, the reply's status (R574). -/
def State.bootFail (s : State) (cause status : Nat) : State :=
  let s := ((s.setFd MON_BOOT ⟨31, 30⟩ 3).setFd MON_BOOT ⟨26, 24⟩ cause).setFd MON_BOOT ⟨15, 0⟩ status
  let s := s.modMon (fun m => { m with image := [], busy := false })
  (s.setBit MON_STATE 16 true).flag MON_ERR 5

/-- The entry in execution is done. -/
def State.bootNext (s : State) : State :=
  (s.modMon (fun m => { m with image := m.image.drop 1, busy := false, since := s.tim.us })).count MON_BOOT_IDX 1

/-- A packet of the image has its reply: anything but OK fails the image. -/
def State.bootReply (s : State) (status : Nat) : State := if status = 0 then s.bootNext else s.bootFail 3 status

/-- Entries of an image, cut from its bytes; none where one does not parse (Table 24-5). -/
def bootEntries : Nat → List Byte → Option (List BootEntry)
  | 0, b => if b.isEmpty then some [] else none
  | n + 1, b =>
    if b.isEmpty then some []
    else
      let len := beAt b 4 4
      let body := slice b 8 len
      let pad := (8 - len % 8) % 8
      if b.length < 8 || beAt b 1 3 ≠ 0 || b.length < 8 + len + pad || (slice b (8 + len) pad).any (· != 0) then none
      else
        let e : Option BootEntry := match beAt b 0 1 with
          | 1 => some (.packet body)
          | 2 => if len = 8 && beAt body 2 2 = 0 && 1 ≤ beAt body 4 4 && beAt body 4 4 ≤ 600000 then some (.wait (beAt body 0 2) (beAt body 4 4)) else none
          | 3 => if len = 0 then some .stop else none
          | _ => none
        match e, bootEntries n (b.drop (8 + len + pad)) with
        | some x, some l => some (x :: l)
        | _, _ => none

/-- END stands last and only there. -/
def endLast (l : List BootEntry) : Bool :=
  match l.reverse with
  | .stop :: t => !t.contains .stop
  | _ => false

/-- GEN and the entries of a valid copy (R572, Table 24-4). -/
def bootCopy (b : List Byte) : Option (Nat × List BootEntry) :=
  let len := beAt b 8 4
  let body := slice b 64 len
  if b.length < 64 + len || beAt b 0 2 ≠ 0xB714 || beAt b 2 1 ≠ 1 || beAt b 3 1 ≠ 0 || len < 8 || 16777152 < len
      || (slice b 20 40).any (· != 0) || (crc32c (b.take 60)).toNat ≠ beAt b 60 4 || (crc32c body).toNat ≠ beAt b 16 4 then none
  else match bootEntries (len / 8) body with
    | some l => if l.length = beAt b 12 4 && endLast l then some (beAt b 4 4, l) else none
    | none => none

/-- BOOT_IMAGE_SELECT (R572): what the flash holds from the two copies' addresses on. -/
def execBootImageSelect (c0 c1 : List Byte) (s : State) : Res :=
  if s.bootMode ≠ 0 || s.bootState ≠ 0 || s.mon.held then .next s
  else
    let a := bootCopy c0
    let b := bootCopy c1
    let s := s.when (a.isNone || b.isNone) (·.flag MON_ERR 4)
    let start (n : Nat) (x : Nat × List BootEntry) : State :=
      let s := ((s.setFd MON_BOOT ⟨31, 30⟩ 1).setFd MON_BOOT ⟨27, 27⟩ n).wr MON_BOOT_GEN x.1
      (s.wr MON_BOOT_IDX 0).modMon (fun m => { m with image := x.2, busy := false, since := s.tim.us })
    match a, b with
    | some x, some y => .next (if x.1 < y.1 then start 1 y else start 0 x)
    | some x, none => .next (start 0 x)
    | none, some y => .next (start 1 y)
    | none, none => .next (s.bootFail 1 0)

/-- BOOT_PACKET (R573): the entry in execution is a packet, and it enters the queue once there is room (R483). -/
def execBootPacket (s : State) : Res :=
  match s.mon.image with
  | .packet b :: _ => if s.mon.busy || s.mon.held || s.queueFull b then .next s else .next ((s.modMon (fun m => { m with busy := true })).enqueue ⟨.boot, b⟩)
  | _ => .next s

/-- Every bit of COND is 1 in MON_STATE. -/
def State.condMet (s : State) (cond : Nat) : Bool := Nat.land cond (s.rd MON_STATE) == cond

/-- BOOT_WAIT (R573): a WAIT ends once its bits are set. -/
def execBootWait (s : State) : Res :=
  match s.mon.image with
  | .wait cond _ :: _ => if s.condMet cond then .next s.bootNext else .next s
  | _ => .next s

/-- BOOT_WAIT_TIMEOUT (R574): TIMEOUT_MS has passed with a bit of COND still 0. -/
def execBootWaitTimeout (s : State) : Res :=
  match s.mon.image with
  | .wait cond ms :: _ => if s.condMet cond || decide (s.tim.us < s.mon.since + ms * 1000) then .next s else .next (s.bootFail 4 0)
  | _ => .next s

/-- BOOT_END (R573). -/
def execBootEnd (s : State) : Res :=
  match s.mon.image with
  | .stop :: _ =>
    let s := s.modMon (fun m => { m with image := [] })
    .next ((s.setFd MON_BOOT ⟨31, 30⟩ 2).setBit MON_STATE 8 true).showReady
  | _ => .next s

end Sys2Proof.Machine
end

