-- ==== Sys2Proof/Machine/Command.lean ====
section
/-!
DEFINITION. The command sequencer (chapters 19 and 21): packets, queues, authentication, the replay window, the reply cache,
rights, replies, and the register gathers and scatters. The bodies of the other opcodes are in Opcodes.lean and Session.lean.
-/
namespace Sys2Proof.Machine

/-! ### The header (R477, Table 19-1). TAG stands in bytes 32 to 47: DEDUCED, log entry 29. -/

def pkFlags (b : List Byte) : Nat := beAt b 3 1
def pkSession (b : List Byte) : Nat := beAt b 4 2
def pkKey (b : List Byte) : Nat := beAt b 6 2
def pkRole (b : List Byte) : Nat := pkKey b / 2 ^ 14
def pkOp (b : List Byte) : Nat := beAt b 10 2
def pkSeq (b : List Byte) : Nat := beAt b 12 4
def pkNonce (b : List Byte) : List Byte := slice b 24 8
def pkTag (b : List Byte) : List Byte := slice b 32 16
def pkParams (b : List Byte) : List Byte := b.drop 48
def pkUrgent (b : List Byte) : Bool := bitOf (pkFlags b) 6 == 1
def pkIdemp (b : List Byte) : Bool := bitOf (pkFlags b) 5 == 1

/-- R478: the first 16 bytes of the HMAC over the packet with TAG zero. -/
def tagOf (key b : List Byte) : List Byte := (hmac key (putBytes b 32 (List.replicate 16 0))).take 16

/-- A header, REPLY or PLEN that R479 discards. -/
def headerBad (b : List Byte) : Bool :=
  b.length < 48 || 8192 < b.length || beAt b 0 2 != 0x504C || beAt b 2 1 != 1 || Nat.land (pkFlags b) 0x9F != 0
  || pkKey b / 64 % 256 != 0 || beAt b 22 2 != 0 || beAt b 16 4 != b.length - 48

/-- Number of the slot that signs a packet. -/
def pkSlot (b : List Byte) : Option Nat := slotOf (pkRole b) (pkKey b % 64)

/-- The key a slot holds or held: that which signs the reply of a command in execution (R478, R519). -/
def State.rawKey (s : State) (k : Nat) : List Byte :=
  if 68 ≤ k then Config.makerKey (k - 68) else match s.cmd.keys.find? (·.1 == k) with | some e => e.2 | none => []

/-- What R479 makes of a packet: it passes with slot and key, or is discarded and counted. -/
inductive Gate where
  | pass (k : Nat) (key : List Byte)
  | drop (counter : Nat) (auth : Bool)
  deriving DecidableEq, Repr

def State.gate (s : State) (b : List Byte) : Gate :=
  if headerBad b then .drop CMD_DISC_HDR false
  else match pkSlot b with
    | none => .drop CMD_DISC_KEY true
    | some k =>
      match s.keyOf k with
      | none => .drop CMD_DISC_KEY true
      | some key =>
        if tagOf key b ≠ pkTag b then .drop CMD_DISC_TAG true
        else if beAt b 8 2 ≠ s.hiveId && beAt b 8 2 ≠ 0xFFFF then .drop CMD_DISC_TARGET false
        else .pass k key

/-! ### Sources and the reply cache (R480 to R482) -/

/-- The source of a packet: a ring, an address and UDP port, the monitor, the boot image. -/
def Via.source : Via → List Nat
  | .ring r _ => [0, r]
  | .udp _ ip sport _ => [1, ip, sport]
  | .monitor => [2]
  | .boot => [3]

/-- TRANSPORT and CHANNEL of Table 21-7. -/
def Via.trans : Via → Nat
  | .ring _ _ => 0
  | .udp _ _ _ _ => 1
  | .monitor => 2
  | .boot => 3
def Via.chan : Via → Nat
  | .ring r _ => r
  | .udp n _ _ _ => n
  | _ => 0

/-- The cached entry of a SEQ. -/
def State.cached (s : State) (src : List Nat) (k seq : Nat) : Option Cached :=
  match s.cmd.cache.find? (fun p => p.src == src && p.key == k) with
  | some p => p.ents.find? (·.seq == seq)
  | none => none

/-- Keeps a reply: 64 of each pair, 128 pairs, the pair whose last command executed longest ago makes room. -/
def State.cachePut (s : State) (src : List Nat) (k seq : Nat) (tag reply : List Byte) : State :=
  let mine := s.cmd.cache.find? (fun p => p.src == src && p.key == k)
  let old := match mine with | some p => p.ents.filter (·.seq != seq) | none => []
  let kept : Option (List Byte) := if reply.length - 48 ≤ 1024 then some reply else none
  let ents := ((⟨seq, tag, kept⟩ : Cached) :: old).take 64
  let rest := s.cmd.cache.filter (fun p => !(p.src == src && p.key == k))
  { s with cmd := { s.cmd with cache := ((⟨src, k, ents⟩ : CachePair) :: rest).take 128 } }

/-! ### The replay window (R481) -/

/-- What R481 makes of a command: it runs, a cached reply is sent, or it is refused with a status. -/
inductive Turn where
  | run
  | resend (reply : List Byte)
  | refuse (status : Nat)
  deriving DecidableEq, Repr

def State.seenOf (s : State) (k : Nat) : List Nat := spGet (fun _ => []) s.cmd.seen k
def State.setSeen (s : State) (k : Nat) (l : List Nat) : State :=
  { s with cmd := { s.cmd with seen := spSet (fun _ => []) s.cmd.seen k l } }

/-- a − b modulo 2^32. -/
def seqSub (a b : Nat) : Nat := (a + 2 ^ 32 - b) % 2 ^ 32

/-- The rule of R481 that applies, and the window after it. -/
def State.turn (s : State) (p : Pkt) (k : Nat) : Turn × State :=
  let seq := pkSeq p.bytes
  let h := s.rd (CMD_KEYk_H k)
  let seen := s.seenOf k
  let ent := s.cached p.via.source k seq
  if seq ≠ h && seqSub seq h < 2 ^ 31 then
    (.run, (s.setSeen k ((seen.filter (fun v => decide (seqSub seq v < 64))) ++ [seq])).wr (CMD_KEYk_H k) seq)
  else if seqSub h seq < 64 && !seen.contains seq then (.run, s.setSeen k (seen ++ [seq]))
  else
    match ent with
    | some c =>
      match c.reply with
      | some r => if c.tag = pkTag p.bytes then (.resend r, s) else (.refuse 0x0301, s)
      | none => (if pkIdemp p.bytes then .run else .refuse 0x0302, s)
    | none =>
      if seen.contains seq then (if pkIdemp p.bytes then .run else .refuse 0x0302, s) else (.refuse 0x0300, s)

/-! ### Replies (R477, R478, R480, R485, R487) -/

/-- The reply of a packet: its header with the replying hive's ID, STATUS and NONCE, tagged with the command's key. -/
def State.replyBytes (s : State) (key b : List Byte) (status : Nat) (params : List Byte) : List Byte :=
  let f := 0x80 + Nat.land (pkFlags b) 0x60
  let r := toBE 2 0x504C ++ [1] ++ toBE 1 f ++ slice b 4 4 ++ toBE 2 s.hiveId ++ slice b 10 6 ++ toBE 4 params.length
    ++ toBE 2 status ++ [0, 0] ++ pkNonce b ++ List.replicate 16 0 ++ params
  putBytes r 32 (tagOf key r)

/-- A reply packet with CACHED at 1. -/
def asCached (key r : List Byte) : List Byte :=
  let r := putBytes r 3 (toBE 1 (Nat.lor (beAt r 3 1) 0x10))
  putBytes r 32 (tagOf key r)

/-- The header of a reply alone, with REPLY_TRUNCATED. -/
def truncated (key r : List Byte) : List Byte :=
  let h := putBytes (r.take 48) 16 (toBE 4 0 ++ toBE 2 0x0303)
  putBytes h 32 (tagOf key h)

/-- The reply of ring r's slot could not be written (R487). -/
def State.ringFail (s : State) (r : Nat) : State := (s.setBit (CMD_RINGr_STATUS r) 31 true).flag CMD_ERR 3

/-- Address of slot `i` of ring r. -/
def State.ringSlot (s : State) (r i : Nat) : Nat :=
  (s.rd (CMD_RINGr_BASE_LO r) / 32768 * 32768 + s.rd (CMD_RINGr_BASE_HI r) * 2 ^ 32) + i * 32768

/-- The bytes a UDP reply leaves as: over the port's MTU, the header alone. -/
def State.fitReply (s : State) (via : Via) (key r : List Byte) : List Byte :=
  match via with
  | .udp n ip _ _ => if s.rd (ETHn_CFG2 n) % 2 ^ 14 < (if 2 ^ 32 ≤ ip then 48 else 28) + r.length then truncated key r else r
  | _ => r

/-- Hands a reply to its transport. -/
def State.sendReply (s : State) (via : Via) (urgent : Bool) (r : List Byte) : State :=
  match via with
  | .ring n i =>
    if s.pci.held then s.ringFail n
    else if !s.bme then (s.busFlag 3).ringFail n
    else
      let a := s.ringSlot n i
      let s := (s.hostPut (a + 8200) r).hostPut (a + 8192) (toLE 8 (2 ^ 63 + r.length))
      s.sendVec (bitsOf (s.rd (CMD_RINGr_CFG n)) 31 21)
  | .udp n ip sport mac =>
    let v6 := 2 ^ 32 ≤ ip
    let tmpl := s.ownTmpl n v6 mac ip (s.rd ETH_UDP_FIX0 % 65536)
    let tmpl := tmplPort tmpl sport
    let b := frameBytes tmpl r
    if s.linkUp n then
      s.txPut n { kind := .reply, src := n, sid := 0, queue := if urgent then 7 else 5, len := b.length + 4, age := 0, dst := 0, bytes := b, ptp := none }
    else s.txDropped n 1
  | .monitor => s.pktDone (some r)
  | .boot => s.bootReply (beAt r 20 2)

/-- Counts a reply by its STATUS (Table 21-8). -/
def State.countReply (s : State) (status : Nat) : State := s.count (if status < 2 then CMD_EXECUTED else CMD_REFUSED) 1

/-- The audit entry of a command (R527, R528). -/
def State.auditPkt (s : State) (type : Nat) (p : Pkt) (status : Nat) : State :=
  s.audit type ⟨pkRole p.bytes, pkKey p.bytes % 64, p.via.trans, p.via.chan, pkSession p.bytes % 1024, pkOp p.bytes, status, pkSeq p.bytes⟩

/-- A command that passed R479 and was executed or refused ends: its entry in the log, its reply, which the cache keeps for
one that executed in its turn. -/
def State.endCmd (s : State) (type : Nat) (keep : Bool) (p : Pkt) (k : Nat) (key : List Byte) (status : Nat) (params : List Byte) : State :=
  let full := s.replyBytes key p.bytes status params
  let s := if keep then s.cachePut p.via.source k (pkSeq p.bytes) (pkTag p.bytes) full else s
  let r := s.fitReply p.via key full
  ((s.auditPkt type p (beAt r 20 2)).countReply (beAt r 20 2)).sendReply p.via (pkUrgent p.bytes) r

/-- A packet that R479 discards: no reply; the monitor says so, and a boot image fails (R574, R579). -/
def State.discard (s : State) (p : Pkt) (counter : Nat) (auth : Bool) : State :=
  let s := (s.count counter 1).when auth (·.flag CMD_ERR 1)
  match p.via with
  | .monitor => s.pktDone none
  | .boot => s.bootFail 2 0
  | _ => s

/-! ### Rights (R485, R521, Table 21-3) -/

/-- The opcodes of Table 19-5. -/
def opCodes : List Nat :=
  [0x0001, 0x0002, 0x0003, 0x0004, 0x0101, 0x0102, 0x0103, 0x0104, 0x0105, 0x0106, 0x0107, 0x0108, 0x0109, 0x0201, 0x0301, 0x0401,
   0x0402, 0x0601, 0x0701, 0x0801, 0x0A01, 0x0C01, 0x0D01, 0x0E01, 0x0F01]

/-- The opcodes marked U. -/
def opUrgent : List Nat := [0x0001, 0x0002, 0x0003, 0x0004, 0x0105, 0x0109, 0x0301, 0x0402, 0x0A01, 0x0F01]

/-- The opcodes an operator holds for the sessions its slot is bound to. -/
def opOwn : List Nat := [0x0103, 0x0801, 0x0C01, 0x0D01, 0x0E01, 0x0F01]

/-- Does the role hold the right to the opcode? -/
def opRight (role op : Nat) : Bool :=
  match role with
  | 0 => opOwn.contains op || [0x0001, 0x0003, 0x0004, 0x0105].contains op
  | 1 => op != 0x0107
  | _ => true

/-- Operator slot k is bound to session x. -/
def State.bound (s : State) (k x : Nat) : Bool := s.bit (CMD_BINDs_w k (x / 32)) (x % 32) == 1

/-- A command in execution. -/
structure Ctx where
  p   : Pkt
  k   : Nat
  key : List Byte
  deriving DecidableEq, Repr

def Ctx.b (c : Ctx) : List Byte := pkParams c.p.bytes
def Ctx.op (c : Ctx) : Nat := pkOp c.p.bytes
def Ctx.session (c : Ctx) : Nat := pkSession c.p.bytes
def Ctx.role (c : Ctx) : Nat := slotRole c.k

/-- R521 step 3: an operator names objects of SESSION only. -/
def Ctx.owns (c : Ctx) (x : Nat) : Bool := c.role != 0 || x == c.session

/-- The checks every command passes before its own: the status of the first that fails, 0 for none. -/
def State.precheck (s : State) (c : Ctx) : Nat :=
  if !opCodes.contains c.op then 0x0100
  else if pkUrgent c.p.bytes && !opUrgent.contains c.op then 0x0103
  else if 1024 ≤ c.session then 0x0102
  else if !opRight c.role c.op then 0x0200
  else if c.role = 0 && opOwn.contains c.op && !s.bound c.k c.session then 0x0201
  else 0

/-! ### The queue's turn (R483, R484) -/

/-- The command that comes up next: the next urgent one, else, unless a gather or scatter is suspended, the next ordinary one. A keeper
must be in control, and no mirror record may wait (R551). -/
def State.nextCmd (s : State) : Option Pkt :=
  if !s.inControl || s.kpr.recWait then none
  else match s.cmd.urgQ with
    | p :: _ => some p
    | [] => if s.cmd.run.isSome then none else s.cmd.ordQ.head?

/-- The queues without that command, the monitor's packet taking the room if it waits for it (R483). -/
def State.popCmd (s : State) : State :=
  let s := match s.cmd.urgQ with
    | _ :: t => { s with cmd := { s.cmd with urgQ := t } }
    | [] => { s with cmd := { s.cmd with ordQ := s.cmd.ordQ.drop 1 } }
  match s.mon.pkt with
  | some b => s.monEnqueue b
  | none => s

/-- What a command leaves: its status, the parameters of its reply, the state. -/
structure Done where
  status : Nat
  params : List Byte
  state  : State

/-- A refusal: nothing of the command takes effect (R486). -/
def refuse (st : Nat) (s : State) : Done := ⟨st, [], s⟩
def done (s : State) : Done := ⟨0, [], s⟩

/-- A command comes up: R479, R481, the common checks, its body. `opens` begins a body that can be suspended instead of running one. -/
def State.serve (s : State) (p : Pkt) (type : Nat) (keep : Ctx → Bool) (body : Ctx → State → Done) : State :=
  match s.gate p.bytes with
  | .drop c a => s.discard p c a
  | .pass k key =>
    match s.turn p k with
    | (.resend r, t) =>
      let r := t.fitReply p.via key (asCached key r)
      (t.countReply (beAt r 20 2)).sendReply p.via (pkUrgent p.bytes) r
    | (.refuse st, t) => t.endCmd 1 false p k key st []
    | (.run, t) =>
      let c : Ctx := ⟨p, k, key⟩
      let pre := t.precheck c
      if pre ≠ 0 then t.endCmd 1 true p k key pre []
      else
        let d := body c t
        if 2 ≤ d.status then t.endCmd 1 true p k key d.status d.params
        else d.state.endCmd type (keep c) p k key d.status d.params

/-- A row of Table 19-5: the next command, if its opcode is the row's. -/
def serveOp (op type : Nat) (keep : Ctx → Bool) (body : Ctx → State → Done) (s : State) : Res :=
  match s.nextCmd with
  | some p => if pkOp p.bytes = op then .next (s.popCmd.serve p type keep body) else .next s
  | none => .next s

/-- The usual row: a COMMAND entry, the reply cached. -/
def opRow (op : Nat) (body : Ctx → State → Done) (s : State) : Res := serveOp op 1 (fun _ => true) body s

/-- UNKNOWN_OPCODE (R489): the next command, if its opcode is none of Table 19-5. -/
def execUnknownOpcode (s : State) : Res :=
  match s.nextCmd with
  | some p => if opCodes.contains (pkOp p.bytes) then .next s else .next (s.popCmd.serve p 1 (fun _ => true) (fun _ s => refuse 0x0100 s))
  | none => .next s

/-! ### Register gather and scatter (R484, R485, R490, R522) -/

/-- The elements of a gather (4 bytes each) or scatter (8 bytes): the status of a malformed list, or offsets and values. -/
def regElems (size : Nat) (urgent : Bool) (b : List Byte) : Nat × List (Nat × Nat) :=
  let n := beAt b 0 2
  if b.length < 4 then (0x0101, [])
  else if n = 0 || 512 < n || beAt b 2 2 ≠ 0 then (0x0102, [])
  else if b.length ≠ 4 + size * n then (0x0101, [])
  else if urgent && 16 < n then (0x0103, [])
  else (0, (List.range n).map (fun i => (beAt b (4 + size * i) 4, beAt b (8 + size * i) 4)))

/-- The agent of R522. -/
def Ctx.agent (c : Ctx) : Agent := if c.role = 2 then .maker else .installer

/-- Up to `n` elements: the run, the cause it stopped with, the state. -/
def State.regSteps (scatter : Bool) (ag : Agent) (els : List (Nat × Nat)) : Nat → RegRun → State → RegRun × Nat × State
  | 0, r, s => (r, 0, s)
  | n + 1, r, s =>
    match els[r.done]? with
    | none => (r, 0, s)
    | some e =>
      if scatter then
        let w := s.regWrite ag e.1 e.2
        if w.1 ≠ 0 then (r, w.1, w.2) else State.regSteps scatter ag els n { r with done := r.done + 1 } w.2
      else
        let w := s.regRead ag e.1
        if w.1 ≠ 0 then (r, w.1, w.2.2)
        else State.regSteps scatter ag els n { r with done := r.done + 1, vals := r.vals ++ [w.2.1] } w.2.2

/-- The reply parameters of R490. -/
def regReply (fail cause : Nat) (vals : List Nat) : List Byte := toBE 2 fail ++ toBE 1 cause ++ [0] ++ vals.flatMap (toBE 4)

/-- Some written element is a sealed register. -/
def sealedAny (els : List (Nat × Nat)) : Bool := els.any (fun e => match rowAt e.1 with | some r => r.sealed | none => false)

/-- Continues a run by up to `n` elements, and ends it if none is left or one fails. -/
def State.regRun (s : State) (scatter : Bool) (c : Ctx) (els : List (Nat × Nat)) (n : Nat) (r : RegRun) : State :=
  let q := s.regSteps scatter c.agent els n r
  let fin (status fail cause : Nat) : State :=
    let t := { q.2.2 with cmd := { q.2.2.cmd with run := none } }
    let t := if scatter && sealedAny (els.take q.1.done) then t.sealWritten else t
    t.endCmd 1 true c.p c.k c.key status (regReply fail cause q.1.vals)
  if q.2.1 ≠ 0 then fin 1 q.1.done q.2.1
  else if q.1.done = els.length then fin 0 0xFFFF 0
  else { q.2.2 with cmd := { q.2.2.cmd with run := some q.1 } }

/-- A gather or scatter comes up: it begins with up to `n` elements, an urgent one with all of its. -/
def State.regStart (s : State) (scatter : Bool) (p : Pkt) (n : Nat) : State :=
  match s.gate p.bytes with
  | .drop c a => s.discard p c a
  | .pass k key =>
    let h := s.rd (CMD_KEYk_H k)
    match s.turn p k with
    | (.resend r, t) =>
      let r := t.fitReply p.via key (asCached key r)
      (t.countReply (beAt r 20 2)).sendReply p.via (pkUrgent p.bytes) r
    | (.refuse st, t) => t.endCmd 1 false p k key st []
    | (.run, t) =>
      let c : Ctx := ⟨p, k, key⟩
      let pre := t.precheck c
      let el := regElems (if scatter then 8 else 4) (pkUrgent p.bytes) c.b
      let st := if pre ≠ 0 then pre else el.1
      if st ≠ 0 then t.endCmd 1 true p k key st []
      else t.regRun scatter c el.2 (if pkUrgent p.bytes then 512 else n) ⟨p, 0, [], h⟩

/-- One row of a register command: the next command if it is one, else the suspended one. -/
def regRow (scatter : Bool) (op n : Nat) (s : State) : Res :=
  match s.nextCmd with
  | some p => if pkOp p.bytes = op then .next (s.popCmd.regStart scatter p n) else .next s
  | none =>
    match s.cmd.run with
    | some r =>
      if pkOp r.pkt.bytes = op && s.inControl && !s.kpr.recWait then
        match pkSlot r.pkt.bytes with
        | some k =>
          let c : Ctx := ⟨r.pkt, k, s.rawKey k⟩
          .next (s.regRun scatter c (regElems (if scatter then 8 else 4) false c.b).2 n r)
        | none => .next s
      else .next s
    | none => .next s

/-- REG_GATHER (R490): the next `n` elements of a gather. -/
def execRegGather (n : Nat) (s : State) : Res := regRow false 0x0001 n s

/-- REG_SCATTER (R490): the next `n` elements of a scatter. -/
def execRegScatter (n : Nat) (s : State) : Res := regRow true 0x0002 n s

/-! ### Arrival (R480, R483) -/

/-- COMMAND_PACKET_ARRIVE (R480, R483): the next slot of a ring, or the next datagram for the command port. -/
def execCommandPacketArrive (src : PktSrc) (s : State) : Res :=
  match src with
  | .ring r d =>
    let cfg := s.rd (CMD_RINGr_CFG r)
    let i := s.rd (CMD_RINGr_STATUS r) % 65536
    if 64 ≤ r || !s.inControl || s.bit CMD_CTRL 0 = 0 || bitOf cfg 0 = 0 || s.pci.held || i = nth s.cmd.prod r 0 then .next s
    else if !s.bme then .next ((s.busFlag 3).setBit (CMD_RINGr_STATUS r) 31 true)
    else
      match d with
      | .bad e => .next ((s.busFlag e).setBit (CMD_RINGr_STATUS r) 31 true)
      | .data b =>
        let b := slice b 0 (min 8192 (48 + beAt b 16 4))
        if s.queueFull b then .next s
        else
          let s := s.enqueue ⟨.ring r i, b⟩
          .next (s.setFd (CMD_RINGr_STATUS r) ⟨15, 0⟩ ((i + 1) % 2 ^ bitsOf cfg 19 16))
  | .udp =>
    match s.takeRx (fun x => x.kind == .command) with
    | (none, _) => .next s
    | (some x, t) =>
      if !s.inControl then .next s
      else if t.bit CMD_CTRL 0 = 0 then .next (t.count CMD_DISC_OFF 1)
      else if t.queueFull x.bytes then .next ((t.count CMD_QUEUE_DROP 1).flag CMD_ERR 2)
      else .next (t.enqueue ⟨.udp x.port x.src x.sport x.smac, x.bytes⟩)

/-- COMMAND_RING_DOORBELL (R480): a producer index written to the page of ring r; one at or above the ring's size is ignored. -/
def execCommandRingDoorbell (r v : Nat) (s : State) : Res :=
  if s.pci.held then .next s
  else if 64 ≤ r || 2 ^ bitsOf (s.rd (CMD_RINGr_CFG r)) 19 16 ≤ v then .next s.badDoorbell
  else .next { s with cmd := { s.cmd with prod := setNth s.cmd.prod r v } }

end Sys2Proof.Machine
end

