-- ==== Sys2Proof/Machine/Opcodes.lean ====
section
/-!
DEFINITION. The opcodes of Table 19-5 that name no session entry: identification and health, keys, the audit log, the seal, keeper control,
reference mode, time, and the commits of the blocks. A parameter list begins with the effective tick where the table says ET,
then the index (R489). What a body answers with a status from 0x0100 upward leaves nothing behind (R486).
-/
namespace Sys2Proof.Machine

/-! ### Effective ticks (R55 to R57, R69, R606) -/

/-- The tick a change applies at: a status, the tick, and whether it is untimed. -/
def State.effTick (s : State) (k : Nat) : Nat × Nat × Bool :=
  if !s.timeValid then (0x0402, 0, false)
  else if k = 0 then (0, s.nextTick, true)
  else if s.begun k then (0x0401, 0, false)
  else (0, k, false)

/-- Puts an admitted change in the order of its tick, after earlier ones of the same tick. -/
def insPend (p : Pend) : List Pend → List Pend
  | [] => [p]
  | q :: t => if p.tick < q.tick then p :: q :: t else q :: insPend p t

def State.admitChange (s : State) (p : Pend) : State := { s with cmd := { s.cmd with pend := insPend p s.cmd.pend } }

/-- R56: from tick k the next product of each of these sessions is CONFIG_UNTIMED. -/
def State.markAt (s : State) (untimed : Bool) (k : Nat) (xs : List Nat) : State :=
  if untimed && !xs.isEmpty then s.admitChange ⟨k, true, .mark xs⟩ else s

/-- The sessions that produce brood from input i. -/
def State.producers (s : State) (i : Nat) : List Nat :=
  (s.ctn.ses.filter (fun p => p.2.produce && (localInputs p.2.cfg2).contains i)).map (·.1)

/-- The 24 parameter bytes of an admission refusal (Table 19-6). -/
def Refused.bytes (r : Refused) : List Byte := toBE 2 r.check ++ toBE 2 r.sub ++ toBE 4 0 ++ toBE 8 r.demand ++ toBE 8 r.limit

/-- A command's registers are sealed ones: it completes with COMMIT_PENDING while AUTO is 1 (R510). -/
def State.sealPending (s : State) : State := if s.bit GLB_SEAL_CFG 1 = 1 then s.setBit GLB_SEAL_STATUS 30 true else s

/-! ### A command's own register changes -/

/-- Writes an image under the rules of its block, apart from the guard. -/
def State.poke (s : State) (a mask img : Nat) : State :=
  let old := s.rd a
  let new := overlay old mask img
  match blockPre a new s with
  | some t => t
  | none => blockPost a old new (s.wr a new)

/-! ### Identification, health, keys, the audit log -/

/-- IDENTIFY (R489, R491): the GLB identification registers, in offset order. -/
def execIdentify (s : State) : Res :=
  opRow 0x0003 (fun c s =>
    if c.b.isEmpty then ⟨0, toBE 4 (s.rd GLB_ID) ++ toBE 4 (s.rd GLB_UID_LO) ++ toBE 4 (s.rd GLB_UID_HI), s⟩ else refuse 0x0101 s) s

/-- HEALTH_READ (R563): the latest health report. -/
def execHealthRead (s : State) : Res :=
  opRow 0x0004 (fun c s =>
    if c.b.isEmpty then ⟨0, (List.range 128).flatMap (fun w => toBE 4 (s.rd (KPR_HEALTHw w))), s⟩ else refuse 0x0101 s) s

/-- The slot a KEYFIELD names; none where its reserved bits or role are wrong. -/
def keyField (f : Nat) : Option Nat := if f / 64 % 256 ≠ 0 then none else slotOf (f / 2 ^ 14) (f % 64)

/-- Bytes XORed in pairs. -/
def xorBytes (a b : List Byte) : List Byte := (List.zip a b).map (fun p => p.1 ^^^ p.2)

/-- A key loaded into slot k: ACTIVE, H 0, its cached replies freed, the sessions of an operator slot (R519). -/
def State.loadKey (s : State) (k : Nat) (key bind : List Byte) : State :=
  let s := { s with cmd := { s.cmd with keys := spPut s.cmd.keys k key, cache := s.cmd.cache.filter (·.key != k) } }
  let s := ((s.setSeen k []).wr (CMD_KEYk_STATE k) 1).wr (CMD_KEYk_H k) 0
  if k < 64 then s.each (List.range 32) (fun s w => s.wr (CMD_BINDs_w k w) (leAt bind (4 * w) 4)) else s

/-- KEY_LOAD (R519). -/
def execKeyLoad (s : State) : Res :=
  serveOp 0x0104 1 (fun c => keyField (beAt c.b 0 2) != some c.k) (fun c s =>
    let f := beAt c.b 0 2
    match keyField f with
    | none => refuse (if c.b.length = 36 || c.b.length = 164 then 0x0102 else 0x0101) s
    | some k =>
      if 68 ≤ k then refuse 0x0200 s
      else if c.b.length ≠ (if k < 64 then 164 else 36) then refuse 0x0101 s
      else if beAt c.b 2 2 ≠ 0 then refuse 0x0102 s
      else
        let mask := hmac c.key (asc "FV9600 KEY" ++ pkNonce c.p.bytes ++ toBE 2 f)
        done (s.loadKey k (xorBytes (slice c.b 4 32) mask) (slice c.b 36 128))) s

/-- Slot k is REVOKED (R520): a monitor login on it ends; for a maker slot OTP records it. -/
def State.revokeKey (s : State) (k : Nat) : State :=
  let s := s.wr (CMD_KEYk_STATE k) 2
  let s := s.modMon (fun m => { m with login := if m.login = some k then none else m.login })
  if 68 ≤ k then s.modMon (fun m => { m with revoked := addNew m.revoked (k - 68) }) else s

/-- Installer slots that are ACTIVE. -/
def State.installers (s : State) : List Nat := [64, 65, 66, 67].filter (fun k => s.rd (CMD_KEYk_STATE k) % 4 == 1)

/-- KEY_REVOKE (R520, R521). -/
def execKeyRevoke (s : State) : Res :=
  opRow 0x0105 (fun c s =>
    if c.b.length ≠ 4 then refuse 0x0101 s
    else match keyField (beAt c.b 0 2) with
      | none => refuse 0x0102 s
      | some k =>
        if beAt c.b 2 2 ≠ 0 then refuse 0x0102 s
        else if (c.role = 0 && k ≠ c.k) || (c.role = 1 && 68 ≤ k) then refuse 0x0200 s
        else if c.role = 1 && s.installers = [k] then refuse 0x0102 s
        else done (s.revokeKey k)) s

/-- AUDIT_READ (R531). -/
def execAuditRead (s : State) : Res :=
  opRow 0x0106 (fun c s =>
    let start := beAt c.b 0 4
    let n := beAt c.b 4 2
    let old := s.rd CMD_AUDIT_OLDEST
    let next := s.rd CMD_AUDIT_NEXT
    if c.b.length ≠ 8 then refuse 0x0101 s
    else if n = 0 || 254 < n || beAt c.b 6 2 ≠ 0 then refuse 0x0102 s
    else if next ≤ start then refuse 0x0405 s
    else ⟨0, toBE 4 old ++ toBE 4 next ++ ((s.cmd.audit.drop (max start old - old)).take n).flatten, s⟩) s

/-- AUDIT_CLEAR (R532): the log is emptied; the CLEAR entry is the command's own. -/
def execAuditClear (s : State) : Res :=
  serveOp 0x0107 4 (fun _ => true) (fun c s =>
    if c.b.isEmpty then done { s with cmd := { s.cmd with audit := [] } } else refuse 0x0101 s) s

/-- SEAL_COMMIT (R510). -/
def execSealCommit (s : State) : Res :=
  opRow 0x0108 (fun c s => if c.b.isEmpty then done (s.setBit GLB_SEAL_STATUS 30 true) else refuse 0x0101 s) s

/-- KEEPER_SWITCH (R557): control passes at the first tick boundary after the command. -/
def execKeeperSwitch (s : State) : Res :=
  opRow 0x0109 (fun c s =>
    if !c.b.isEmpty then refuse 0x0101 s
    else if s.keeperState (1 - s.keeper) ≠ 3 then refuse 0x0404 s
    else done (s.modKpr (fun q => { q with planned := true }))) s

/-! ### Reference mode, time -/

/-- REF_MODE (R100): MODE, FORCE_SEL and REVERTIVE of a CLK_CTRL image. -/
def execRefMode (s : State) : Res :=
  opRow 0x0301 (fun c s =>
    let img := beAt c.b 12 4
    if c.b.length ≠ 16 then refuse 0x0101 s
    else if beAt c.b 8 4 ≠ 0 || strayBits 0xF1C img || !clkInRange CLK_CTRL img s then refuse 0x0102 s
    else
      let e := s.effTick (beAt c.b 0 8)
      if e.1 ≠ 0 then refuse e.1 s
      else done (((s.admitChange ⟨e.2.1, e.2.2, .refMode img⟩).markAt e.2.2 e.2.1 s.activeSes).sealPending)) s

/-- TIME_SET (R68). -/
def execTimeSet (s : State) : Res :=
  opRow 0x0401 (fun c s =>
    if c.b.length ≠ 8 then refuse 0x0101 s
    else if 2 ^ 48 ≤ beAt c.b 0 8 then refuse 0x0102 s
    else
      let r := timeSet (beAt c.b 0 8) s
      ⟨r.1, [], r.2⟩) s

/-- TIME_ACCEPT_STEP (R83): Δ in 2^−16 ns, then the apply second. -/
def execTimeAcceptStep (s : State) : Res :=
  opRow 0x0402 (fun c s =>
    if c.b.length ≠ 16 then refuse 0x0101 s
    else if 2 ^ 48 ≤ beAt c.b 8 8 then refuse 0x0102 s
    else
      let r := timeAcceptStep (signed 64 (beAt c.b 0 8)) (beAt c.b 8 8) s
      ⟨r.1, [], r.2⟩) s

/-! ### Commits of the blocks (R489) -/

/-- A group of a DELAY_MODEL: input, D0, D1, D2. -/
def dlyGroups (b : List Byte) : List (Nat × Nat × Nat × Nat × Nat) :=
  (List.range ((b.length - 8) / 20)).map (fun g =>
    (beAt b (8 + 20 * g) 4, beAt b (12 + 20 * g) 4, beAt b (16 + 20 * g) 4, beAt b (20 + 20 * g) 4, beAt b (24 + 20 * g) 4))

/-- DELAY_MODEL (R161, R489). -/
def execDelayModel (s : State) : Res :=
  opRow 0x0601 (fun c s =>
    let gs := dlyGroups c.b
    if c.b.length < 28 || (c.b.length - 8) % 20 ≠ 0 then refuse 0x0101 s
    else if gs.any (fun g => decide (256 ≤ g.1) || strayBits (rwMask (ING_Ii_DLY_D0_HI 0)) g.2.2.1) then refuse 0x0102 s
    else
      let e := s.effTick (beAt c.b 0 8)
      if e.1 ≠ 0 then refuse e.1 s
      else if gs.any (fun g => s.slotBegun g.1 e.2.1) then refuse 0x0401 s
      else
        let s := s.each gs (fun s g =>
          let i := g.1
          let s := (((s.wr (ING_Ii_DLY_D0_LO i) g.2.1).wr (ING_Ii_DLY_D0_HI i) g.2.2.1).wr (ING_Ii_DLY_D1 i) g.2.2.2.1).wr (ING_Ii_DLY_D2 i) g.2.2.2.2
          (s.wr64 (ING_Ii_DLY_REF_LO i) (ING_Ii_DLY_REF_HI i) e.2.1).commitModel i)
        done (s.markAt e.2.2 e.2.1 ((gs.flatMap (fun g => s.producers g.1)).eraseDups))) s

/-- GAIN_COMMIT (R188). -/
def execGainCommit (s : State) : Res :=
  opRow 0x0701 (fun c s =>
    if c.b.length ≠ 12 then refuse 0x0101 s
    else if beAt c.b 8 4 ≠ 0 then refuse 0x0102 s
    else
      let e := s.effTick (beAt c.b 0 8)
      if e.1 ≠ 0 then refuse e.1 s
      else
        let r := (s.wr64 CHN_GAIN_EFF_LO CHN_GAIN_EFF_HI e.2.1).gainCommit e.2.1
        if r.1 ≠ 0 then refuse r.1 s
        else done ((r.2.markAt e.2.2 e.2.1 ((s.ctn.ses.filter (·.2.produce)).map (·.1))).sealWritten)) s

/-- COMB_RETIRE (R281): a CMB_RETIRE_CMD image. -/
def execCombRetire (s : State) : Res :=
  opRow 0x0A01 (fun c s =>
    if c.b.length ≠ 4 then refuse 0x0101 s
    else if strayBits 0x11F (beAt c.b 0 4) then refuse 0x0102 s
    else done (s.retireCmd (beAt c.b 0 4))) s

/-- WEIGHT_COMMIT (R325, R326): the epoch stands where the effective tick does. -/
def execWeightCommit (s : State) : Res :=
  opRow 0x0C01 (fun c s =>
    let x := beAt c.b 8 4
    let e := beAt c.b 0 8
    if c.b.length ≠ 12 then refuse 0x0101 s
    else if 1024 ≤ x then refuse 0x0102 s
    else if !c.owns x then refuse 0x0201 s
    else if !s.timeValid then refuse 0x0402 s
    else if (s.wagOf x).isNone || s.bit (WAG_SESx_CFG x) 0 = 0 then refuse 0x0405 s
    else if s.begun (if s.wagExplicit x then s.wagR x e else s.wagRelease x e) then refuse 0x0401 s
    else done (((s.wr64 (WAG_SESx_COMMIT_LO x) (WAG_SESx_COMMIT_HI x) e).wagCommit x e).sealWritten)) s

/-- The workers a WORKER_START names. -/
def workerList (b : List Byte) : List Nat := (List.range ((b.length - 8) / 4)).map (fun i => beAt b (8 + 4 * i) 4)

/-- WORKER_START (R365): each worker named is enabled, and its first run serves the effective tick. -/
def execWorkerStart (s : State) : Res :=
  opRow 0x0D01 (fun c s =>
    let ws := workerList c.b
    if c.b.length < 12 || c.b.length % 4 ≠ 0 then refuse 0x0101 s
    else if ws.any (fun n => decide (64 ≤ n) || s.wrkEn n) || ws.eraseDups ≠ ws then refuse 0x0102 s
    else if ws.any (fun n => !c.owns (bitsOf (s.rd (WRK_Wn_CFG n)) 31 22)) then refuse 0x0201 s
    else
      let e := s.effTick (beAt c.b 0 8)
      if e.1 ≠ 0 then refuse e.1 s
      else
        let t := s.each ws (fun s n => s.wr64 (WRK_Wn_START_LO n) (WRK_Wn_START_HI n) e.2.1)
        if ws.any (fun n => (wrkPre (WRK_Wn_CFG n) (setBits (t.rd (WRK_Wn_CFG n)) 0 0 1) t).isSome) then refuse 0x0102 s
        else
          let t := t.each ws (fun s n => s.poke (WRK_Wn_CFG n) 1 1)
          done ((t.markAt e.2.2 e.2.1 ((ws.map (fun n => bitsOf (s.rd (WRK_Wn_CFG n)) 31 22)).eraseDups)).sealWritten)) s

/-- SEG_RELEASE (R424): tick 0 releases at the next tick boundary. -/
def execSegRelease (s : State) : Res :=
  opRow 0x0F01 (fun c s =>
    let g := beAt c.b 8 4
    let seg := beAt c.b 12 4
    let r := beAt c.b 0 8
    if c.b.length ≠ 16 then refuse 0x0101 s
    else if 64 ≤ g || 16 ≤ seg then refuse 0x0102 s
    else if !c.owns (s.cgSession g) then refuse 0x0201 s
    else if !s.timeValid then refuse 0x0402 s
    else match s.acqGrp g with
      | none => refuse 0x0405 s
      | some q =>
        match q.caps.find? (fun p => p.seg == seg && p.sealed_) with
        | none => refuse 0x0405 s
        | some p =>
          if r ≠ 0 && s.begun r then refuse 0x0401 s
          else if s.replayed g p.ev || q.rel.any (·.1 == seg) then refuse 0x0404 s
          else
            let s := (s.wr (ACQ_CGc_REL_SEG g) seg).wr64 (ACQ_CGc_REL_EFF_LO g) (ACQ_CGc_REL_EFF_HI g) r
            done ((s.cgRelease g seg r).sealWritten)) s

/-- STREAM_SET's template (R491): Ethernet header with or without a tag, IPv4 or IPv6 without options, UDP; Length, Checksum and
Identification 0. -/
def tmplOk (t : List Byte) : Bool :=
  let l := tmplL2 t
  if tmplV6 t then
    t.length == l + 48 && beAt t l 1 / 16 == 6 && beAt t (l + 4) 2 == 0 && beAt t (l + 6) 1 == 17 && beAt t (l + 44) 4 == 0
  else
    t.length == l + 28 && beAt t (l - 2) 2 == 0x0800 && beAt t l 1 == 0x45 && beAt t (l + 2) 4 == 0 && beAt t (l + 9) 1 == 17
    && beAt t (l + 10) 2 == 0 && beAt t (l + 24) 4 == 0

/-- Streams by falling tick, the newest of a tick first. -/
def insStream (x : Stream) : List Stream → List Stream
  | [] => [x]
  | y :: t => if y.tick ≤ x.tick then x :: y :: t else y :: insStream x t

/-- STREAM_SET (R491): session, kind, port and queue class, then the template. -/
def execStreamSet (s : State) : Res :=
  opRow 0x0103 (fun c s =>
    let x := beAt c.b 8 4
    let kind := beAt c.b 12 4
    let port := beAt c.b 16 4
    let q := beAt c.b 20 4
    let t := c.b.drop 24
    if !([66, 70, 86, 90] : List Nat).contains c.b.length then refuse 0x0101 s
    else if 1024 ≤ x || 4 ≤ kind || 32 ≤ port || 8 ≤ q || !tmplOk t then refuse 0x0102 s
    else if !c.owns x then refuse 0x0201 s
    else
      let e := s.effTick (beAt c.b 0 8)
      if e.1 ≠ 0 then refuse e.1 s
      else match s.addNeigh (tmplV6 t) (tmplDst t) port with
        | none => refuse 0x0102 (s.flag ETH_ERR 1)
        | some u =>
          let u := { u with eth := { u.eth with streams := insStream ⟨x, kind, port, q, t, e.2.1⟩ u.eth.streams } }
          done (u.markAt e.2.2 e.2.1 [x])) s

end Sys2Proof.Machine
end

