-- ==== Sys2Proof/Machine/Session.lean ====
section
/-!
DEFINITION. Sessions (chapter 21): the commands that change a session's entry, its maps, the budget or a trigger slot, which run the
admission checks over the configuration at their effective tick (R58), and what happens at that tick.
-/
namespace Sys2Proof.Machine

/-- Admission over view `v`; where it passes, `ok`. -/
def admitThen (s v : State) (x : Option Nat) (ok : State → State) : Done :=
  match v.admission x with
  | some r => ⟨0x0400, r.bytes, s⟩
  | none => done (ok (s.showAdmitted v))

/-! ### SESSION_SET and SESSION_REMOVE (R89, R512 to R516) -/

/-- SESSION_SET: effective tick, session, the images of `sesRegs`. -/
def execSessionSet (s : State) : Res :=
  opRow 0x0101 (fun c s =>
    let x := beAt c.b 8 4
    let regs := sesRegs x
    let imgs := imagesOf regs c.b
    let cfg := imageAt imgs (CMD_SESx_CFG x)
    let cls := bitsOf cfg 5 4
    let ctn := imageAt imgs (CTN_SESx_CFG x)
    if c.b.length ≠ 188 then refuse 0x0101 s
    else if 1024 ≤ x || strayAny regs imgs || cls = 3 || (x = 0 && cls ≠ 1)
        || (bitOf cfg 1 = 1 && (cls ≠ 2 || bitOf cfg 0 = 1)) || (bitOf ctn 0 = 1 && !(dwellOk ctn && wRangeOk (imageAt imgs (CTN_SESx_CFG2 x)))) then refuse 0x0102 s
    else if s.sesState x = 2 then refuse 0x0404 s
    else
      let e := s.effTick (beAt c.b 0 8)
      let k := e.2.1
      if e.1 ≠ 0 then refuse e.1 s
      else
        let v := s.viewAt k
        let ke := imageAt imgs (CTN_SESx_EPOCH_LO x) + imageAt imgs (CTN_SESx_EPOCH_HI x) * 2 ^ 32
        if v.sesState x = 0 && k < ke then refuse 0x0102 s
        else admitThen s (v.laidChange (.setSes x imgs)) (some x)
          (fun s => (s.admitChange ⟨k, e.2.2, .setSes x imgs⟩).sealPending)) s

/-- A change of session x that is admitted and not yet in force. -/
def State.setPending (s : State) (x : Nat) : Bool := s.cmd.pend.any (fun p => match p.what with | .setSes y _ => y == x | _ => false)

/-- SESSION_REMOVE (R513, R515). Where several refusals hold at once the first one tested here is answered, TIME_NOT_VALID after those
of the parameters and of the session (DESIGN CHOICE, log entry 91). -/
def execSessionRemove (s : State) : Res :=
  opRow 0x0102 (fun c s =>
    let x := beAt c.b 8 4
    if c.b.length ≠ 12 then refuse 0x0101 s
    else if x = 0 || 1024 ≤ x then refuse 0x0102 s
    else if s.sesState x = 2 then refuse 0x0404 s
    else if s.sesState x = 0 && !s.setPending x then refuse 0x0405 s
    else
      let e := s.effTick (beAt c.b 0 8)
      if e.1 ≠ 0 then refuse e.1 s
      else admitThen s ((s.viewAt e.2.1).laidChange (.remove x)) none
        (fun s => (s.admitChange ⟨e.2.1, e.2.2, .remove x⟩).sealPending)) s

/-- The first admitted change that has come due and satisfies `p`. -/
def State.dueChange (s : State) (p : Change → Bool) : Option Pend := s.cmd.pend.find? (fun e => s.begun e.tick && p e.what)
def State.dropChange (s : State) (e : Pend) : State := { s with cmd := { s.cmd with pend := s.cmd.pend.erase e } }

/-- The registers of block b that a SESSION_SET of session x carries, the one with EN first. -/
def sesPart (x b : Nat) : List (Nat × Nat) := (sesRegs x).filter (fun r => r.1 / 0x100000 == b)

/-- Registers take their images, each under its block's rules, the one with EN last. -/
def State.pokeAll (s : State) (imgs : List (Nat × Nat)) (l : List (Nat × Nat)) : State :=
  (s.each (l.drop 1) (fun s r => s.poke r.1 r.2 (imageAt imgs r.1))).each (l.take 1) (fun s r => s.poke r.1 r.2 (imageAt imgs r.1))

/-- The enabled object of these registers gets other parameters: a field beside EN changes. -/
def State.reshaped (s : State) (imgs : List (Nat × Nat)) (l : List (Nat × Nat)) : Bool :=
  let new (r : Nat × Nat) : Nat := overlay (s.rd r.1) r.2 (imageAt imgs r.1)
  l.any (fun r => s.bit (l.headD (0, 0)).1 0 == 1 && (if r.1 = (l.headD (0, 0)).1 then s.rd r.1 / 2 != new r / 2 else s.rd r.1 != new r))

/-- Corner turn takes its part: other parameters of a running session apply from the first dwell boundary at or after tick k (R55). -/
def State.setCtnPart (s : State) (x k : Nat) (imgs : List (Nat × Nat)) : State :=
  let l := sesPart x 8
  let s := if s.reshaped imgs l then (s.ctnRenew x k).setBit (CTN_SESx_CFG x) 0 false else s
  s.pokeAll imgs l

/-- The combs take their part; `old` is the grid they have run on. Other parameters follow the dump of the dwell in progress at tick k (R55). -/
def State.setCmbPart (s : State) (x k : Nat) (imgs : List (Nat × Nat)) (old : Option CtnSes) (again : Bool) : State :=
  let l := sesPart x 10
  let new := l.map (fun r => (r.1, overlay (s.rd r.1) r.2 (imageAt imgs r.1)))
  match old with
  | some c =>
    if (again || s.reshaped imgs l) && s.bit (CMB_SESx_CFG x) 0 = 1 then
      if bitOf (imageAt imgs (CMB_SESx_CFG x)) 0 = 1 then s.combRenew x k c new
      else (s.poke (CMB_SESx_CFG x) 1 0).pokeAll imgs l
    else s.pokeAll imgs l
  | none => s.pokeAll imgs l

/-- The images of session x take effect (R55, R515): the entry; then the objects, each register under its block's own rules, the one with EN
last. A running SUP session changes at its integration boundary (R311); beams with other parameters begin anew (R327). -/
def State.applySet (s : State) (x k : Nat) (imgs : List (Nat × Nat)) : State :=
  let s := s.laid ((sesRegs x).drop 35) (imgs.drop 35)
  let s := s.setFd (CMD_SESx_CFG x) ⟨31, 30⟩ 1
  let old := s.ctnOf x
  let again := s.reshaped imgs (sesPart x 8)
  let s := (s.setCtnPart x k imgs).setCmbPart x k imgs old again
  let s :=
    if (s.supOf x).isSome then s.supSet x k imgs |>.laid (sesPart x 11) ((sesPart x 11).map (fun r => (r.1, imageAt imgs r.1)))
    else s.pokeAll imgs (sesPart x 11)
  let s := s.when (s.reshaped imgs (sesPart x 12)) (·.poke (WAG_SESx_CFG x) 1 0)
  (s.pokeAll imgs (sesPart x 12)).sealWritten

/-- SESSION_ACTIVATE (R515): a SESSION_SET of session x whose tick has begun takes effect; not while the session is REMOVING. -/
def execSessionActivate (x : Nat) (s : State) : Res :=
  match s.dueChange (fun c => match c with | .setSes y _ => y == x | _ => false) with
  | some ⟨k, u, .setSes y imgs⟩ =>
    if s.sesState x = 2 || !s.inControl then .next s
    else
      let s := (s.dropChange ⟨k, u, .setSes y imgs⟩).applySet x k imgs
      .next (if u then s.markUntimed x else s)
  | _ => .next s

/-- SESSION_REMOVE_APPLY (R515): a SESSION_REMOVE of session x whose tick has begun takes effect: EN goes to 0 in every object. -/
def execSessionRemoveApply (x : Nat) (s : State) : Res :=
  match s.dueChange (fun c => c == .remove x) with
  | some e =>
    if s.sesState x ≠ 1 || !s.inControl then .next s
    else
      let s := s.dropChange e
      let s := s.each (s.sesEnables x) (fun s a => s.poke a 1 0)
      let s := (s.setFd (CMD_SESx_CFG x) ⟨31, 30⟩ 2).sealWritten
      .next (if e.untimed then s.markUntimed x else s)
  | none => .next s

/-- Every object of session x has stopped. -/
def State.sesStopped (s : State) (x : Nat) : Bool :=
  (s.ctnOf x).isNone && (s.cmbOf x).isNone && (s.supOf x).isNone && (s.wagOf x).isNone
  && (s.sesWorkers x).all (fun n => (s.core n).run.isNone && !s.wrkEn n)
  && (s.sesGroups x).all (fun c => s.cgState c == 0)

/-- At a tick boundary: the REMOVING sessions whose last object stopped in the tick that ends or before it (R515). -/
def State.sesEndTick (s : State) : State :=
  { s with cmd := { s.cmd with ended := (List.range 1024).filter (fun x => s.sesState x == 2 && s.sesStopped x) } }

/-- SESSION_FREE (R515): in the tick after the last object of a REMOVING session has stopped: its entry is FREE, and what it held is given
back. -/
def execSessionFree (x : Nat) (s : State) : Res :=
  if x = 0 || 1024 ≤ x || s.sesState x ≠ 2 || !s.cmd.ended.contains x || !s.sesStopped x || !s.inControl then .next s
  else
    let s := s.wr (CMD_SESx_CFG x) 0
    let s := s.each (List.range 8) (fun s i => s.wr (CMD_SESx_Q x i) (2 ^ 32 - 1))
    .next { s with eth := { s.eth with streams := s.eth.streams.filter (·.session != x) }, untimed := s.untimed.filter (· != x) }

/-! ### MAP_COMMIT, BUDGET_SET, TRIG_SLOT_SET -/

/-- MAP_COMMIT (R229, R489). -/
def execMapCommit (s : State) : Res :=
  opRow 0x0801 (fun c s =>
    let x := beAt c.b 8 4
    if c.b.length ≠ 24 then refuse 0x0101 s
    else if 1024 ≤ x || strayBits (rwMask (CTN_SESx_NEXT_MAP x)) (beAt c.b 12 4) || strayBits (rwMask (CTN_SESx_NEXT_INMAP x)) (beAt c.b 16 4)
        || strayBits (rwMask (CTN_SESx_NEXT_VERSION x)) (beAt c.b 20 4) then refuse 0x0102 s
    else if !c.owns x then refuse 0x0201 s
    else if (s.ctnOf x).isNone || s.bit (CTN_SESx_CFG x) 0 = 0 then refuse 0x0405 s
    else
      let e := s.effTick (beAt c.b 0 8)
      let k := e.2.1
      if e.1 ≠ 0 then refuse e.1 s
      else
        let t := ((s.wr (CTN_SESx_NEXT_MAP x) (beAt c.b 12 4)).wr (CTN_SESx_NEXT_INMAP x) (beAt c.b 16 4)).wr (CTN_SESx_NEXT_VERSION x) (beAt c.b 20 4)
        let t := t.wr64 (CTN_SESx_NEXT_EFF_LO x) (CTN_SESx_NEXT_EFF_HI x) k
        match t.mapCommit (s.viewAt k) x k (t.nextMaps x) with
        | (0, _, u) =>
          let at_ := match u.ctnOf x with
            | some c => (match c.pend with | some (_, d, _) => c.home (d * c.d) | none => k)
            | none => k
          done ((u.markAt e.2.2 at_ [x]).sealWritten)
        | (st, some r, _) => ⟨st, r.bytes, s⟩
        | (st, none, _) => refuse st s) s

/-- Estimate of the class A sessions with PWR_BASE, in mW (R60). -/
def State.classAPower (s : State) : Nat := s.estimate ((List.range 1024).filter (fun x => s.sesClass x == 0)) / 1000

/-- BUDGET_SET (R60, R533). -/
def execBudgetSet (s : State) : Res :=
  opRow 0x0201 (fun c s =>
    let mw := beAt c.b 12 4
    if c.b.length ≠ 16 then refuse 0x0101 s
    else if beAt c.b 8 4 ≠ 0 || mw < 150000 || 480000 < mw then refuse 0x0102 s
    else
      let e := s.effTick (beAt c.b 0 8)
      if e.1 ≠ 0 then refuse e.1 s
      else
        let v := s.viewAt e.2.1
        if mw < v.rd PWR_BUDGET && mw < v.classAPower then ⟨0x0400, (⟨18, 0, v.classAPower, mw⟩ : Refused).bytes, s⟩
        else done (((s.admitChange ⟨e.2.1, e.2.2, .budget mw⟩).markAt e.2.2 e.2.1 s.activeSes).sealPending)) s

/-- TRIG_SLOT_SET (R401, R514): the slot's registers, with EN set at the effective tick. -/
def execTrigSlotSet (s : State) : Res :=
  opRow 0x0E01 (fun c s =>
    let g := beAt c.b 8 4
    let regs := slotRegs g
    let imgs := imagesOf regs c.b
    let x := bitsOf (imageAt imgs (TRG_SESg_CFG g)) 31 22
    if c.b.length ≠ 168 then refuse 0x0101 s
    else if 8 ≤ g || strayAny regs imgs then refuse 0x0102 s
    else if !c.owns x || (s.slotOn g && !c.owns (s.slotSession g)) then refuse 0x0201 s
    else
      let e := s.effTick (beAt c.b 0 8)
      let k := e.2.1
      if e.1 ≠ 0 then refuse e.1 s
      else
        let v := s.viewAt k
        let w := v.laidChange (.trigSlot g imgs)
        if v.sesState x ≠ 1 then refuse 0x0405 s
        else if v.sesClass x ≠ 0 || regs.any (fun r => (trgPre r.1 (w.rd r.1) (v.setBit (TRG_SESg_CFG g) 0 false)).isSome) then refuse 0x0102 s
        else admitThen s w none (fun s => (s.admitChange ⟨k, e.2.2, .trigSlot g imgs⟩).sealPending)) s

/-- The registers of slot g take effect: it is disabled, takes its images and is enabled (R401, R403). -/
def State.applySlot (s : State) (g : Nat) (imgs : List (Nat × Nat)) : State :=
  let s := s.poke (TRG_SESg_CFG g) 1 0
  let s := s.each ((List.zip (slotRegs g) imgs).drop 1) (fun s q => s.poke q.1.1 q.1.2 q.2.2)
  (s.poke (TRG_SESg_CFG g) (2 ^ 32 - 1) (setBits (imageAt imgs (TRG_SESg_CFG g)) 0 0 1)).sealWritten

end Sys2Proof.Machine
end

