-- ==== Sys2Proof/Machine/Tick.lean ====
section
/-!
DEFINITION. The tick strobe (R88), which carries every block over a tick boundary; the deadlines of R31, R43 and R607; the loss of a
port's link; the counts of service availability and the health report (chapter 23).
-/
namespace Sys2Proof.Machine

/-! ### Availability (R545 to R548) -/

/-- The DPLL is in FREERUN or ACQUIRE (R546). -/
def State.noLock (s : State) : Bool := decide (s.fd CLK_STATUS CLK_STATUS_STATE < 2)

/-- A 64-bit counter increased by 1. -/
def State.count64 (s : State) (lo hi : Nat) : State := s.wr64 lo hi (s.rd64 lo hi + 1)

/-- The tick that ends is counted (R548); `bad` where it is unavailable. -/
def State.countTick (s : State) (bad : Bool) : State :=
  if s.operating then
    (s.count64 KPR_OP_TICKS_LO KPR_OP_TICKS_HI).when bad (·.count64 KPR_UNAVAIL_LO KPR_UNAVAIL_HI)
  else s

/-- A keeper gap goes on into the tick that begins (R555, R556). -/
def State.gapGoes (s : State) : Bool := match s.kpr.takeAt with | some b => decide (s.tim.us < b) | none => false

/-- The tick that begins: is it unavailable from its start (R546), and does a keeper gap touch it (R555, R556)? -/
def State.openTick (s : State) : State :=
  let s := s.when s.gapGoes (·.count KPR_GAP_TICKS 1)
  s.modKpr (fun q => { q with badTick := s.gapGoes || q.orphan || s.noLock })

/-! ### Changes at their effective tick (R55, R58) -/

/-- One admitted change that has come due. -/
def State.applyChange (s : State) (p : Pend) : State :=
  match p.what with
  | .refMode img => (s.setRefMode img).sealWritten
  | .budget mw => (s.wr PWR_BUDGET mw).sealWritten
  | .trigSlot g imgs => (s.applySlot g imgs).when p.untimed (·.markUntimed (bitsOf (imageAt imgs (TRG_SESg_CFG g)) 31 22))
  | .mark xs => s.each xs State.markUntimed
  | _ => s

/-- A change that the strobe itself applies; those of sessions have rows of their own. -/
def Change.atStrobe : Change → Bool
  | .setSes _ _ | .remove _ => false
  | _ => true

/-- The changes of the tick that begins, in the order admitted. -/
def State.changeTick (s : State) : State :=
  if s.inControl then
    let due := s.cmd.pend.filter (fun p => s.begun p.tick && p.what.atStrobe)
    let s := { s with cmd := { s.cmd with pend := s.cmd.pend.filter (fun p => !(s.begun p.tick && p.what.atStrobe)) } }
    s.each due State.applyChange
  else s

/-! ### The strobe -/

/-- The echo replies of a second are counted anew (R219). -/
def State.echoTick (s : State) : State :=
  { s with eth := { s.eth with ports := s.eth.ports.map (fun (p : EthPort) => { p with echoes := 0 }) } }

/-- A hive second begins: the counts kept by the second start anew (R219, R552). -/
def State.secondTick (s : State) : State :=
  let s := s.echoTick
  (s.modKpr (fun q => { q with gapSec := q.gapSec || q.gap })).cleanSecond

/-- Hive time reaches the boundary of the next tick; a step that is due by then is made first (R84, R88). -/
def State.reachTick (s : State) : State :=
  let s := s.when s.stepDue State.applyStep
  let k := s.nextTick
  { s with tim := { s.tim with now := s.cycleAt (k * tickU), lastTick := some k } }

/-- What the boundary that begins the tick in progress carries: t is the tick before it. -/
def State.boundary (s : State) (t : Nat) : State :=
  let s := (s.when s.inControl (·.sesEndTick.ownerTick t)).changeTick
  let s := (s.ptpTick.clkTick.necTick t).peerLearn.cmbTick t |>.winTick.phaseTick.wagTick.ddrTick.acqTick.ingTick.chnTick
  let s := s.pwrTick.keeperMoves.plannedTick
  (s.when (t / 1000000 != s.tick / 1000000) State.secondTick).monLatch

/-- A microsecond of the local oscillator has passed: the timers that count them go on. -/
def State.usTick (s : State) : State := { s with tim := { s.tim with us := s.tim.us + 1 } }

/-- A microsecond of the keeper's local oscillator while no strobe is issued (R69, R548): PTP, selection and the DPLL run where the clock of their domain
does (R68, R101, R102), and the counts kept by the second start anew. -/
def State.localTick (s : State) : State :=
  let next := (s.tim.now / tickU + 1) * tickU
  let s := if s.timeValid then s else { s with tim := { s.tim with now := s.cycleAt next } }
  let s := s.when (s.bit GLB_DOMAINS 3 = 1) (·.ptpTick.clkTick)
  let s := (s.when s.gapGoes (·.count KPR_GAP_TICKS 1)).keeperMoves
  ((s.when (s.tim.us % 1000000 = 0) State.echoTick).countTick true).monLatch

/-- TICK_STROBE (R88): the next tick begins. While TIME_VALID is 0 (R69), and while the clock of the time domain is stopped, no strobe is
issued and a microsecond of the local oscillator passes. In reset nothing happens. -/
def execTickStrobe (s : State) : Res :=
  if s.mon.held then .next s
  else if !s.timeValid || s.bit GLB_DOMAINS 3 = 0 then .next s.usTick.localTick
  else
    let s := s.usTick
    let t := s.tick
    let s := s.countTick (s.kpr.badTick || s.noLock)
    let s := s.reachTick.boundary t
    .next s.openTick

/-- What the keeper that has just taken control does of the boundary it took control at: owner events, admitted changes, grants (R550, R555). -/
def State.firstTick (s : State) : State := (s.sesEndTick.ownerTick (s.tick - 1)).changeTick.pwrTick

/-- KEEPER_SWITCHOVER (R555, R556): at the boundary that begins tick t + 2, the second one after the fault, the STANDBY keeper takes control
and the gap ends. While no strobe is issued there is no boundary to make good. -/
def execKeeperSwitchover (s : State) : Res :=
  match s.kpr.takeAt with
  | none => .next s
  | some t =>
    if s.tim.us < t || s.kpr.orphan then .next s
    else .next (s.gapEnds.when (s.timeValid && s.bit GLB_DOMAINS 3 == 1) State.firstTick)

/-! ### Waits (R31, R208) -/

/-- The producer of a frame or send that found no space before the boundary counts it in its own block, where that block has a
counter. A bulk send that has been cut into frames counts once. -/
def State.frameLost (s : State) (kind : FrameKind) (src : Nat) : State :=
  match kind with
  | .brood => s.count CTN_TX_ABANDON 1
  | .honey => s.honeyLost src
  | .waggle => s.wagLost src
  | .event => s.evtLost 1
  | .workerRecord => s.recLost 1
  | _ => s

/-- WAIT_ABANDON (R31, R208, R470): at a tick boundary the waits that began in an earlier tick end: frames for a transmit queue, bulk
sends, units for a forager channel, worker records for their ring two ticks after their collection. -/
def execWaitAbandon (s : State) : Res :=
  let frames := (s.eth.outbox.filter (fun p => p.2.age < s.tick)).map (·.2)
  let sends := s.eth.sends.filter (·.age < s.tick)
  let heads := frames.foldl (fun acc f => if f.sid != 0 && acc.any (fun g => g.2.2 == f.sid) then acc else acc ++ [(f.kind, f.src, f.sid)])
    (sends.map (fun x => (x.kind, x.src, x.sid)))
  let recs := s.wrk.recs.filter (fun r => r.1 + 4 ≤ s.tick)
  let gone (f : TxFrame) : Bool := f.age < s.tick || (f.sid != 0 && heads.any (·.2.2 == f.sid))
  let s := { s with eth := { s.eth with outbox := s.eth.outbox.filter (fun p => !gone p.2), sends := s.eth.sends.filter (s.tick ≤ ·.age) }
                    wrk := { s.wrk with recs := s.wrk.recs.filter (fun r => s.tick < r.1 + 4) } }
  let s := s.each heads (fun s h => s.frameLost h.1 h.2.1)
  .next ((s.recLost recs.length).unitAbandon)

/-! ### Deadlines (R43, R44) -/

/-- Runs of tick k that no worker made, or that are in progress: each gives a result set (R607): every word 0 where the run was not
made. -/
def State.wrkAbandon (s : State) (k : Nat) (off : Bool) : State × Bool :=
  (List.range 64).foldl (fun (acc : State × Bool) n =>
    let s := acc.1
    let c := s.core n
    let why := if off then rUntimed else rTickAbandoned
    if c.run = some k then (if off then s.endRun_ n c true [why] else s.runOver n, acc.2)
    else if !s.wrkEn n || c.run.isSome || s.bit (WRK_Wn_STATUS n) 29 = 1 || k < s.rd64 (WRK_Wn_START_LO n) (WRK_Wn_START_HI n)
        || (match c.ran with | some r => k ≤ r | none => false) then acc
    else ((s.setCore n { c with ran := some k }).putSet n k (List.replicate 32 0) [why], acc.2 || !off)) (s, false)

/-- The work of tick k of block b is given up. -/
def State.abandonWork (s : State) (b k : Nat) (off : Bool) : State :=
  match b with
  | 7 => raiseFault b (s.chnAbandon k off)
  | 8 => raiseFault b (s.ctnAbandon k off)
  | 10 => raiseFault b (s.combAbandon k off)
  | 11 => raiseFault b (s.supAbandon k off)
  | 12 => raiseFault b (s.wagAbandon k off)
  | 13 => raiseFault b (s.wrkAbandon k off)
  | 15 => raiseFault b (s.acqAbandon k off)
  | _ => s

/-- Ticks from a tick to the first one after its deadline in block b (Table 2-2). -/
def deadlineOf (b : Nat) : Nat := if b = 13 then 2 else if b = 8 then 4 else 3

/-- BLOCK_DEADLINE (R43): at the boundary that follows tick k + L_block, block b gives up what it has not finished of the work of
tick k. Capture groups have deadlines of their own (R418). -/
def execBlockDeadline (b k : Nat) (s : State) : Res :=
  if s.tim.lastTick = none || (b ≠ 15 && k + deadlineOf b ≠ s.tick) then .next s
  else .next (s.abandonWork b k (!s.worksOn b k))

/-! ### EN at 0 (R607) -/

/-- BLOCK_DISABLE (R607): at the first tick boundary after EN went to 0, block b gives up all it has not finished. -/
def execBlockDisable (b : Nat) (s : State) : Res :=
  if b = 0 || 20 ≤ b || s.bit (b * 0x100000) 0 = 1 || s.tick ≤ s.enTick b then .next s
  else
    match b with
    | 8 => .next { s with ctn := { s.ctn with annIn := [] } }
    | 9 => .next (s.each (List.range 32) State.linkDrop)
    | 11 => .next (s.each (s.sup.ses.map (·.1)) (fun s x => s.drainStop x true))
    | 12 =>
      let s := { s with wag := { s.wag with jobs := s.wag.jobs.filter (fun j => s.sesReplay j.x) } }
      .next (s.each [3, 2, 1] (fun s d => if d ≤ s.tick then s.abandonWork 12 (s.tick - d) true else s))
    | 14 => .next { s with trg := { s.trg with reps := [], evals := [], digs := [] } }
    | _ => .next (s.each [3, 2, 1] (fun s d => if d ≤ s.tick then s.abandonWork b (s.tick - d) true else s))

/-! ### A port loses its link (R197) -/

/-- LINK_DOWN (R197): port n leaves LINK_UP. -/
def execLinkDown (n : Nat) (s : State) : Res := .next (if n < 32 then s.linkDrop n else s)

/-! ### The health report (R563) -/

/-- Sum of a register over indices. -/
def State.sumRd (s : State) (n : Nat) (f : Nat → Nat) : Nat := sumL ((List.range n).map (fun i => s.rd (f i)))

/-- The counters of Table 23-8, entries 0 to 37, as they stand: each entry is the list of registers it sums. -/
def State.healthCounts (s : State) : List Nat :=
  let lanes (f : Nat → Nat → Nat) : Nat := sumL ((List.range 16).map (fun b => s.sumRd 17 (f b)))
  [s.sumRd 64 NEC_PORTn_HDR_ERR + s.sumRd 64 NEC_PORTn_LOST + s.sumRd 64 NEC_PORTn_CRC_ERR + s.sumRd 64 NEC_PORTn_MISMATCH
     + s.sumRd 64 NEC_PORTn_STEPPED + s.sumRd 64 NEC_PORTn_EARLY + s.sumRd 64 NEC_PORTn_LATE + s.sumRd 64 NEC_PORTn_DUP
     + s.sumRd 64 NEC_PORTn_NONE,
   lanes NEC_LANE_STUFF_CNT + lanes NEC_LANE_MISS_CNT,
   s.sumRd 256 ING_Ii_ABSENT_CNT,
   s.sumRd 4 CHN_CPp_PFB_SAT + s.sumRd 4 CHN_CPp_OVF_CNT,
   s.sumRd 32 ETHn_RX_FCS_ERR + s.sumRd 32 ETHn_FEC_UNCORR,
   s.sumRd 32 ETHn_TX_DROP,
   s.rd CTN_RX_LATE, s.sumRd 1024 CTN_SESx_ABSENT,
   s.rd CMB_WIT_AGREE, s.rd CMB_WIT_MISMATCH, s.rd CMB_WIT_INCONC, s.rd CMB_WIT_SKIPPED,
   s.sumRd 1024 CMB_SESx_ABANDON,
   s.rd CMB_DSTORE_CORR, s.rd CMB_DSTORE_UNCORR,
   s.rd SUP_ECC_CORR, s.rd SUP_ECC_UNCORR,
   s.sumRd 1024 SUP_SESx_OVERRUN + s.sumRd 1024 SUP_SESx_LOST,
   s.sumRd 1024 WAG_SESx_ABANDON, s.sumRd 1024 WAG_SESx_EPOCH_MISS,
   s.sumRd 64 WRK_Wn_OVERRUN, s.sumRd 64 WRK_Wn_EXC,
   s.rd TRG_LATE_CNT,
   s.sumRd 8 TRIG_OUTn_LATE + s.rd TRG_HELD_CNT,
   s.sumRd 64 ACQ_CGc_CAPTURES, s.sumRd 64 ACQ_CGc_MISSED,
   s.sumRd 16 DDR_CHc_CORR, s.sumRd 16 DDR_CHc_UNCORR,
   s.rd PCI_CPL_TO_CNT,
   s.rd CMD_EXECUTED, s.rd CMD_REFUSED,
   s.rd CMD_DISC_HDR + s.rd CMD_DISC_KEY + s.rd CMD_DISC_TAG + s.rd CMD_DISC_TARGET,
   s.rd KPR_MEM_CORR, s.rd KPR_MEM_UNCORR,
   s.rd KPR_LOCKSTEP,
   s.rd PWR_WITHHELD_CNT,
   s.rd GLB_SEAL_MISMATCH,
   s.rd KPR_FAULTS_A + s.rd KPR_FAULTS_B]

/-- Increments since the counters stood at `old`. The sums are of counters that wrap at 2^32. -/
def countsSince (new old : List Nat) : List Nat :=
  (List.zip (List.range new.length) new).map (fun q => (q.2 + 2 ^ 44 - nth old q.1 0) % 2 ^ 32)

/-- Bytes 0 to 507 of the report of the second just ended (Table 23-7). -/
def State.healthBody (s : State) : List Byte :=
  let q := s.kpr
  let unav := s.rd64 KPR_UNAVAIL_LO KPR_UNAVAIL_HI
  let status := s.rd KPR_STATUS
  let act := s.fd CLK_STATUS CLK_STATUS_ACTIVE
  let dpll := (if act < 13 then act else 15) * 16 + s.fd CLK_STATUS CLK_STATUS_STATE % 4
  let mode := s.rd CMB_STATUS
  let spares := ((List.range 68).filter (fun p => !s.wrk.phys.contains p && !s.wrk.moves.any (·.2.1 == p)
    && s.bit (WRK_PRETIRED (p / 32)) (p % 32) == 0)).length
  let links := sumL ((List.range 32).map (fun n => if s.linkUp n then 2 ^ n else 0))
  let deg := (List.range 128).map (fun j => BitVec.ofNat 8 (sumL ((List.range 8).map (fun i => if q.degSec.contains (8 * j + i) then 2 ^ i else 0))))
  let power := if s.bit PWR_CTRL 1 = 0 || q.measCnt = 0 then 0 else q.measSum / q.measCnt
  toBE 2 0xB713 ++ [1] ++ toBE 1 (s.keeper * 128 + (if q.gapSec then 64 else 0) + status % 64) ++ toBE 2 s.hiveId ++ toBE 2 (flagWord q.flagsSec q.lateSec)
  ++ toBE 8 (if s.timeValid then s.tick / 1000000 - 1 else 2 ^ 64 - 1) ++ toBE 4 (s.rd KPR_HEALTH_SEQ + 1)
  ++ toBE 2 (unsigned 16 q.tempSec) ++ toBE 1 q.thermSec ++ toBE 1 dpll
  ++ toBE 8 (s.rd64 KPR_OP_TICKS_LO KPR_OP_TICKS_HI) ++ toBE 8 unav ++ toBE 4 (unav - q.unavail0) ++ toBE 4 power
  ++ toBE 4 (sumL (((List.range 21).filter s.irq).map (fun b => 2 ^ b))) ++ toBE 4 q.faultSec ++ toBE 4 (s.rd GLB_SEAL_STATUS)
  ++ toBE 4 (s.rd TIM_STATUS)
  ++ toBE 4 (mode % 2 ^ 16 * 2 ^ 16 + bitsOf mode 21 20 * 2 ^ 12 + bitsOf mode 28 24) ++ toBE 4 spares
  ++ toBE 4 (s.rd (WRK_PRETIRED 2)) ++ toBE 4 (s.rd (WRK_PRETIRED 1)) ++ toBE 4 (s.rd (WRK_PRETIRED 0))
  ++ toBE 2 q.rebuildSec ++ toBE 2 q.lostSec ++ toBE 4 links ++ toBE 4 0
  ++ (countsSince s.healthCounts q.counters0).flatMap (toBE 4) ++ List.replicate (4 * 26) 0
  ++ deg ++ List.replicate 28 0

/-- The report with its CRC. -/
def State.healthBytes (s : State) : List Byte :=
  let b := s.healthBody
  b ++ toBE 4 (b.foldl crc32cByte (0xFFFFFFFF : BitVec 32) ^^^ 0xFFFFFFFF).toNat

/-- The report of this second has been composed. -/
def State.reported (s : State) : Bool :=
  s.rd KPR_HEALTH_SEQ != 0 && s.rd (KPR_HEALTHw 2) * 2 ^ 32 + s.rd (KPR_HEALTHw 3) == s.tick / 1000000 - 1

/-- HEALTH_REPORT (R563): in the first tick of a hive second, or at a second of the local oscillator while TIME_VALID is 0, the report of the
second before. -/
def execHealthReport (s : State) : Res :=
  if !s.inControl || (if s.timeValid then s.tick % 1000000 ≠ 0 || s.tick = 0 || s.reported else s.tim.us / 1000000 ≤ s.kpr.repAt / 1000000) then .next s
  else
    let b := s.healthBytes
    let now := s.healthCounts
    let s := s.each (List.range 128) (fun s w => s.wr (KPR_HEALTHw w) (beAt b (4 * w) 4))
    let s := s.count KPR_HEALTH_SEQ 1
    let s := { s with mon := { s.mon with health := b } }
    .next (s.modKpr (fun q => { q with
      gapSec := q.gap, flagsSec := [], lateSec := false, repAt := s.tim.us, tempSec := s.temp, thermSec := s.thermal, faultSec := 0, rebuildSec := 0, lostSec := 0, degSec := []
      measSum := 0, measCnt := 0, unavail0 := s.rd64 KPR_UNAVAIL_LO KPR_UNAVAIL_HI, counters0 := now }))

end Sys2Proof.Machine
end

