-- ==== Sys2Proof/Machine/Writes.lean ====
section
/-!
DEFINITION. The register writes that have a row of their own: each is a write by the host (R501) of the register the row names,
with every rule of chapter 20 and of the register's block. An index the part does not have names nothing.
-/
namespace Sys2Proof.Machine

/-- A host write of register `a` where its index is one the part has. -/
def hostTo (ok : Bool) (a v : Nat) (s : State) : Res := .next (if ok then s.hostWrite a v else s)

/-- A value with its EN bit at 1. -/
def enOf (v : Nat) : Nat := setBits v 0 0 1

/-- TIM_STEP_THR_WRITE (R82). -/
def execTimStepThrWrite (v : Nat) (s : State) : Res := hostTo true TIM_STEP_THR v s

/-- PTP_CFG_WRITE (R73). -/
def execPtpCfgWrite (n v : Nat) (s : State) : Res := hostTo (n < 8) (PTPn_CFG n) v s

/-- CLK_CTRL_WRITE (R100). -/
def execClkCtrlWrite (v : Nat) (s : State) : Res := hostTo true CLK_CTRL v s

/-- CLK_OUT_CFG_WRITE (R110): the frequency (`delay` false) or the delay of output n. -/
def execClkOutCfgWrite (n : Nat) (delay : Bool) (v : Nat) (s : State) : Res :=
  hostTo (n < 4) (if delay then CLK_OUTn_DLY n else CLK_OUTn_CFG n) v s

/-- NEC_PORT_CFG_WRITE (R118). -/
def execNecPortCfgWrite (n v : Nat) (s : State) : Res := hostTo (n < 64) (NEC_PORTn_CFG n) v s

/-- DLY_MODEL_COMMIT (R161): a write of ING_Ii_DLY_REF_HI. -/
def execDlyModelCommit (i v : Nat) (s : State) : Res := hostTo (i < 256) (ING_Ii_DLY_REF_HI i) v s

/-- ING_CFG_WRITE (R164, R171): register r of slot i: 0 CFG, 1 RATE, 2 FIR, 3 SHIFT. -/
def execIngCfgWrite (i r v : Nat) (s : State) : Res := hostTo (i < 256 && r < 4) (ING_Ii_CFG i + 4 * r) v s

/-- COEF_DATA_WRITE (R156). -/
def execCoefDataWrite (e v : Nat) (s : State) : Res := hostTo (e < 8) (ING_FEe_COEF_DATA e) v s

/-- CHN_PROFILE_CFG_WRITE (R173): register r of profile p, in offset order from CFG to EPOCH_HI. -/
def execChnProfileCfgWrite (p r v : Nat) (s : State) : Res := hostTo (p < 4 && r < 6) (CHN_CPp_CFG p + 4 * r) v s

/-- CHN_INPUT_CFG_WRITE (R174): register r of input i: 0 CFG, 1 START_LO, 2 START_HI. -/
def execChnInputCfgWrite (i r v : Nat) (s : State) : Res := hostTo (i < 256 && r < 3) (CHN_Ii_CFG i + 4 * r) v s

/-- WIN_DATA_WRITE (R180). -/
def execWinDataWrite (v : Nat) (s : State) : Res := hostTo true CHN_WIN_DATA v s

/-- GAIN_DATA_WRITE (R187). -/
def execGainDataWrite (v : Nat) (s : State) : Res := hostTo true CHN_GAIN_DATA v s

/-- GAIN_EFF_COMMIT (R188): a write of CHN_GAIN_EFF_HI. -/
def execGainEffCommit (v : Nat) (s : State) : Res := hostTo true CHN_GAIN_EFF_HI v s

/-- ETH_ADDRESS_WRITE (R216, R217): register r of port n: 0 the IPv4 address, 1 IP4_CFG, 2 to 5 the IPv6 address words, 6 IP6_CFG. -/
def execEthAddressWrite (n r v : Nat) (s : State) : Res :=
  hostTo (n < 32 && r < 7) (ETHn_CFG n + nth [0x14, 0x18, 0x20, 0x24, 0x28, 0x2C, 0x30] r 0) v s

/-- CTN_SESSION_ENABLE (R608, R237): CTN_SESx_CFG written with EN 1. -/
def execCtnSessionEnable (x v : Nat) (s : State) : Res := hostTo (x < 1024) (CTN_SESx_CFG x) (enOf v) s

/-- CTN_SESSION_DISABLE (R237): CTN_SESx_CFG written with EN 0, its other fields unchanged. -/
def execCtnSessionDisable (x : Nat) (s : State) : Res := hostTo (x < 1024) (CTN_SESx_CFG x) (setBits (s.rd (CTN_SESx_CFG x)) 0 0 0) s

/-- MAP_COMMIT_WRITE (R229): a write of CTN_SESx_NEXT_EFF_HI. -/
def execMapCommitWrite (x v : Nat) (s : State) : Res := hostTo (x < 1024) (CTN_SESx_NEXT_EFF_HI x) v s

/-- RETIRE_COMB (R281): CMB_RETIRE_CMD with RETIRE. -/
def execRetireComb (c : Nat) (s : State) : Res := hostTo (c < 32) CMB_RETIRE_CMD c s

/-- RESTORE_COMB (R281): CMB_RETIRE_CMD with RESTORE. -/
def execRestoreComb (c : Nat) (s : State) : Res := hostTo (c < 32) CMB_RETIRE_CMD (2 ^ 8 + c) s

/-- WITNESS_ENABLE_WRITE (R273): CMB_CTRL with WIT_EN as given, its other fields unchanged. -/
def execWitnessEnableWrite (on : Bool) (s : State) : Res :=
  hostTo true CMB_CTRL (setBits (s.rd CMB_CTRL) 1 1 (if on then 1 else 0)) s

/-- CMB_SESSION_ENABLE (R259). -/
def execCmbSessionEnable (x v : Nat) (s : State) : Res := hostTo (x < 1024) (CMB_SESx_CFG x) (enOf v) s

/-- CMB_LIST_DATA_WRITE (R255). -/
def execCmbListDataWrite (v : Nat) (s : State) : Res := hostTo true CMB_LIST_DATA v s

/-- SUP_SESSION_ENABLE (R282). -/
def execSupSessionEnable (x v : Nat) (s : State) : Res := hostTo (x < 1024) (SUP_SESx_CFG x) (enOf v) s

/-- WEIGHT_COMMIT_WRITE (R325, R326): a write of WAG_SESx_COMMIT_HI. -/
def execWeightCommitWrite (x v : Nat) (s : State) : Res := hostTo (x < 1024) (WAG_SESx_COMMIT_HI x) v s

/-- WAG_SESSION_ENABLE (R312). -/
def execWagSessionEnable (x v : Nat) (s : State) : Res := hostTo (x < 1024) (WAG_SESx_CFG x) (enOf v) s

/-- WEIGHT_DATA_WRITE (R325). -/
def execWeightDataWrite (v : Nat) (s : State) : Res := hostTo true WAG_WT_DATA v s

/-- GEOMETRY_DATA_WRITE (R325). -/
def execGeometryDataWrite (v : Nat) (s : State) : Res := hostTo true WAG_GEO_DATA v s

/-- RETIRE_CORE (R334): WRK_RETIRE_CMD with RETIRE. -/
def execRetireCore (p : Nat) (s : State) : Res := hostTo (p < 128) WRK_RETIRE_CMD p s

/-- RESTORE_CORE (R334): WRK_RETIRE_CMD with RESTORE. -/
def execRestoreCore (p : Nat) (s : State) : Res := hostTo (p < 128) WRK_RETIRE_CMD (2 ^ 8 + p) s

/-- WORKER_ENABLE (R365): a write of WRK_Wn_CFG. -/
def execWorkerEnable (n v : Nat) (s : State) : Res := hostTo (n < 64) (WRK_Wn_CFG n) v s

/-- WRK_MEM_DATA_ACCESS (R365): a host write of WRK_MEM_DATA_LO, or its read where no value is given. -/
def execWrkMemDataAccess (v : Option Nat) (s : State) : Res := execHostRegisterWrite WRK_MEM_DATA_LO v true s

/-- STING_BEAM_ENABLE (R385). -/
def execStingBeamEnable (b v : Nat) (s : State) : Res := hostTo (b < 128) (STG_Bb_CFG b) (enOf v) s

/-- CONDITION_ENABLE (R395). -/
def execConditionEnable (c v : Nat) (s : State) : Res := hostTo (c < 64) (TRG_TCc_CFG c) (enOf v) s

/-- SEGMENT_RELEASE_COMMIT (R424): a write of ACQ_CGc_REL_EFF_HI. -/
def execSegmentReleaseCommit (c v : Nat) (s : State) : Res := hostTo (c < 64) (ACQ_CGc_REL_EFF_HI c) v s

/-- CAPTURE_GROUP_ENABLE (R416). -/
def execCaptureGroupEnable (c v : Nat) (s : State) : Res := hostTo (c < 64) (ACQ_CGc_CFG c) (enOf v) s

/-- DDR_ENABLE (R438). -/
def execDdrEnable (s : State) : Res := hostTo true DDR_CTRL (enOf (s.rd DDR_CTRL)) s

/-- DDR_PARTITION_WRITE (R445): the base of partition p, or its size. -/
def execDdrPartitionWrite (p : Nat) (size : Bool) (v : Nat) (s : State) : Res :=
  hostTo (p < 6) (if size then DDR_PARTp_SIZE p else DDR_PARTp_BASE p) v s

/-- FORAGER_START (R475). -/
def execForagerStart (n : Nat) (s : State) : Res := hostTo (n < 32) (FDM_CHn_CMD n) 1 s

/-- FORAGER_STOP (R475). -/
def execForagerStop (n : Nat) (s : State) : Res := hostTo (n < 32) (FDM_CHn_CMD n) 2 s

/-- FORAGER_RESUME (R474). -/
def execForagerResume (n : Nat) (s : State) : Res := hostTo (n < 32) (FDM_CHn_CMD n) 3 s

/-- FORAGER_SKIP (R474). -/
def execForagerSkip (n : Nat) (s : State) : Res := hostTo (n < 32) (FDM_CHn_CMD n) 4 s

/-- FORAGER_ABORT (R474). -/
def execForagerAbort (n : Nat) (s : State) : Res := hostTo (n < 32) (FDM_CHn_CMD n) 5 s

/-- FORAGER_CHANNEL_DISABLE (R476): FDM_CHn_CFG written with EN 0, its other fields unchanged. -/
def execForagerChannelDisable (n : Nat) (s : State) : Res :=
  hostTo (n < 32) (FDM_CHn_CFG n) (setBits (s.rd (FDM_CHn_CFG n)) 0 0 0) s

/-- RETIRE_KEEPER (R560): KPR_CMD with RETIRE. -/
def execRetireKeeper (k : Nat) (s : State) : Res := hostTo (k < 2) KPR_CMD k s

/-- RESTORE_KEEPER (R560): KPR_CMD with RESTORE. -/
def execRestoreKeeper (k : Nat) (s : State) : Res := hostTo (k < 2) KPR_CMD (2 ^ 8 + k) s

end Sys2Proof.Machine
end

