-- ==== Sys2Proof/Machine/All.lean ====
section
/-!
DEFINITION. Every family of commands.
-/
end

