-- ==== Sys2Proof/Machine/Dispatch.lean ====
section
/-!
DEFINITION. One arm per command: a direct call of its meaning, or a refusal by name.
-/
namespace Sys2Proof.Machine

def exec (i : Instr) (s : State) : Host.Outcome State Fault Refusal :=
  match i with
  | .tickStrobe => Sys2Proof.Machine.execTickStrobe s
  | .blockDeadline b k => Sys2Proof.Machine.execBlockDeadline b k s
  | .waitAbandon => Sys2Proof.Machine.execWaitAbandon s
  | .timNowFracRead cycles => Sys2Proof.Machine.execTimNowFracRead cycles s
  | .timeSet => Sys2Proof.Machine.execTimeSet s
  | .timeOfDayLoad => Sys2Proof.Machine.execTimeOfDayLoad s
  | .ptpMessageReceive n m => Sys2Proof.Machine.execPtpMessageReceive n m s
  | .ptpMessageSend n kind predicted capture => Sys2Proof.Machine.execPtpMessageSend n kind predicted capture s
  | .announceReceiptTimeout n => Sys2Proof.Machine.execAnnounceReceiptTimeout n s
  | .timeAcceptStep => Sys2Proof.Machine.execTimeAcceptStep s
  | .stepApply => Sys2Proof.Machine.execStepApply s
  | .timStepThrWrite v => Sys2Proof.Machine.execTimStepThrWrite v s
  | .ptpCfgWrite n v => Sys2Proof.Machine.execPtpCfgWrite n v s
  | .ppsRefEdge c edge fofs => Sys2Proof.Machine.execPpsRefEdge c edge fofs s
  | .candidateQualify c fofs => Sys2Proof.Machine.execCandidateQualify c fofs s
  | .candidateLoss c phaseFar => Sys2Proof.Machine.execCandidateLoss c phaseFar s
  | .waitToRestoreExpire c => Sys2Proof.Machine.execWaitToRestoreExpire c s
  | .dpllLock => Sys2Proof.Machine.execDpllLock s
  | .esmcPduReceive port ssm => Sys2Proof.Machine.execEsmcPduReceive port ssm s
  | .esmcTimeout port => Sys2Proof.Machine.execEsmcTimeout port s
  | .pullDone => Sys2Proof.Machine.execPullDone s
  | .refMode => Sys2Proof.Machine.execRefMode s
  | .clkCtrlWrite v => Sys2Proof.Machine.execClkCtrlWrite v s
  | .clkOutCfgWrite n delay v => Sys2Proof.Machine.execClkOutCfgWrite n delay v s
  | .ppsOutPulse n sec => Sys2Proof.Machine.execPpsOutPulse n sec s
  | .tickOutPulse k => Sys2Proof.Machine.execTickOutPulse k s
  | .laneMarkerCheck b u line arrival ctle => Sys2Proof.Machine.execLaneMarkerCheck b u line arrival ctle s
  | .dfeAdapt b u sgns => Sys2Proof.Machine.execDfeAdapt b u sgns s
  | .nectarBlockReceive n w0 words => Sys2Proof.Machine.execNectarBlockReceive n w0 words s
  | .nectarPortAbsent n k => Sys2Proof.Machine.execNectarPortAbsent n k s
  | .rateMeasurementLatch ckofs => Sys2Proof.Machine.execRateMeasurementLatch ckofs s
  | .necPortCfgWrite n v => Sys2Proof.Machine.execNecPortCfgWrite n v s
  | .slotBlockIntake i0 => Sys2Proof.Machine.execSlotBlockIntake i0 s
  | .resampleGridTick i0 k => Sys2Proof.Machine.execResampleGridTick i0 k s
  | .dlyModelCommit i0 v => Sys2Proof.Machine.execDlyModelCommit i0 v s
  | .dlyModelApply i0 => Sys2Proof.Machine.execDlyModelApply i0 s
  | .slotStart i0 => Sys2Proof.Machine.execSlotStart i0 s
  | .ingCfgWrite i0 r v => Sys2Proof.Machine.execIngCfgWrite i0 r v s
  | .slotStop i0 => Sys2Proof.Machine.execSlotStop i0 s
  | .coefDataWrite e v => Sys2Proof.Machine.execCoefDataWrite e v s
  | .spectrumCompute i0 n => Sys2Proof.Machine.execSpectrumCompute i0 n s
  | .chnProfileCfgWrite p r v => Sys2Proof.Machine.execChnProfileCfgWrite p r v s
  | .chnInputCfgWrite i0 r v => Sys2Proof.Machine.execChnInputCfgWrite i0 r v s
  | .chnInputStop i0 => Sys2Proof.Machine.execChnInputStop i0 s
  | .winDataWrite v => Sys2Proof.Machine.execWinDataWrite v s
  | .gainDataWrite v => Sys2Proof.Machine.execGainDataWrite v s
  | .gainEffCommit v => Sys2Proof.Machine.execGainEffCommit v s
  | .gainCommit => Sys2Proof.Machine.execGainCommit s
  | .gainBankSwitch => Sys2Proof.Machine.execGainBankSwitch s
  | .gainSwitchDone => Sys2Proof.Machine.execGainSwitchDone s
  | .linkUp n => Sys2Proof.Machine.execLinkUp n s
  | .linkDown n => Sys2Proof.Machine.execLinkDown n s
  | .frameReceive n f => Sys2Proof.Machine.execFrameReceive n f s
  | .mmVerifySend n => Sys2Proof.Machine.execMmVerifySend n s
  | .frameEnqueue n q => Sys2Proof.Machine.execFrameEnqueue n q s
  | .bulkSend n => Sys2Proof.Machine.execBulkSend n s
  | .txFrameStart n => Sys2Proof.Machine.execTxFrameStart n s
  | .queueAgePromote n q => Sys2Proof.Machine.execQueueAgePromote n q s
  | .arpRequest n request senderIp senderMac targetIp => Sys2Proof.Machine.execArpRequest n request senderIp senderMac targetIp s
  | .neighbourSolicitation n target probe => Sys2Proof.Machine.execNeighbourSolicitation n target probe s
  | .dadComplete n conflict => Sys2Proof.Machine.execDadComplete n conflict s
  | .neighbourRefresh e mac => Sys2Proof.Machine.execNeighbourRefresh e mac s
  | .icmpEchoRequest n v6 dst payload => Sys2Proof.Machine.execIcmpEchoRequest n v6 dst payload s
  | .multicastQuery n kind groups maxMs => Sys2Proof.Machine.execMulticastQuery n kind groups maxMs s
  | .multicastReportSend n => Sys2Proof.Machine.execMulticastReportSend n s
  | .groupStateChange => Sys2Proof.Machine.execGroupStateChange s
  | .stateChangeReportRepeat => Sys2Proof.Machine.execStateChangeReportRepeat s
  | .ethAddressWrite n r v => Sys2Proof.Machine.execEthAddressWrite n r v s
  | .broodSend x e k => Sys2Proof.Machine.execBroodSend x e k s
  | .broodFrameReceive => Sys2Proof.Machine.execBroodFrameReceive s
  | .presenceFinalise x d => Sys2Proof.Machine.execPresenceFinalise x d s
  | .broodWindowRelease x d => Sys2Proof.Machine.execBroodWindowRelease x d s
  | .ctnSessionEnable x v => Sys2Proof.Machine.execCtnSessionEnable x v s
  | .ctnSessionDisable x => Sys2Proof.Machine.execCtnSessionDisable x s
  | .mapCommitWrite x v => Sys2Proof.Machine.execMapCommitWrite x v s
  | .mapCommit => Sys2Proof.Machine.execMapCommit s
  | .mapSwitch x => Sys2Proof.Machine.execMapSwitch x s
  | .hiveAnnounceSend n => Sys2Proof.Machine.execHiveAnnounceSend n s
  | .hiveAnnounceReceive => Sys2Proof.Machine.execHiveAnnounceReceive s
  | .peerAge h => Sys2Proof.Machine.execPeerAge h s
  | .combTickWork c k errs => Sys2Proof.Machine.execCombTickWork c k errs s
  | .combDump x d errs => Sys2Proof.Machine.execCombDump x d errs s
  | .witnessCompare => Sys2Proof.Machine.execWitnessCompare s
  | .retireComb c => Sys2Proof.Machine.execRetireComb c s
  | .restoreComb c => Sys2Proof.Machine.execRestoreComb c s
  | .combRetire => Sys2Proof.Machine.execCombRetire s
  | .witnessEnableWrite on => Sys2Proof.Machine.execWitnessEnableWrite on s
  | .cmbSessionEnable x v => Sys2Proof.Machine.execCmbSessionEnable x v s
  | .cmbListDataWrite v => Sys2Proof.Machine.execCmbListDataWrite v s
  | .superDumpApply x errs => Sys2Proof.Machine.execSuperDumpApply x errs s
  | .honeyDrainStart x j => Sys2Proof.Machine.execHoneyDrainStart x j s
  | .honeySend x errs => Sys2Proof.Machine.execHoneySend x errs s
  | .drainOverrun x => Sys2Proof.Machine.execDrainOverrun x s
  | .supSessionEnable x v => Sys2Proof.Machine.execSupSessionEnable x v s
  | .waggleTickWork k errs => Sys2Proof.Machine.execWaggleTickWork k errs s
  | .phaseEngineRelease x e errs => Sys2Proof.Machine.execPhaseEngineRelease x e errs s
  | .epochMiss x e => Sys2Proof.Machine.execEpochMiss x e s
  | .weightCommitWrite x v => Sys2Proof.Machine.execWeightCommitWrite x v s
  | .weightCommit => Sys2Proof.Machine.execWeightCommit s
  | .weightBankSwitch x => Sys2Proof.Machine.execWeightBankSwitch x s
  | .wagSessionEnable x v => Sys2Proof.Machine.execWagSessionEnable x v s
  | .weightDataWrite v => Sys2Proof.Machine.execWeightDataWrite v s
  | .geometryDataWrite v => Sys2Proof.Machine.execGeometryDataWrite v s
  | .workerRunStart n => Sys2Proof.Machine.execWorkerRunStart n s
  | .workerTimerInterrupt n => Sys2Proof.Machine.execWorkerTimerInterrupt n s
  | .workerWarnInterrupt n => Sys2Proof.Machine.execWorkerWarnInterrupt n s
  | .workerOverrun n => Sys2Proof.Machine.execWorkerOverrun n s
  | .workerSwitchInterval => Sys2Proof.Machine.execWorkerSwitchInterval s
  | .resultCollect k => Sys2Proof.Machine.execResultCollect k s
  | .retireCore p => Sys2Proof.Machine.execRetireCore p s
  | .restoreCore p => Sys2Proof.Machine.execRestoreCore p s
  | .coreMigrateComplete n => Sys2Proof.Machine.execCoreMigrateComplete n s
  | .workerEnable n v => Sys2Proof.Machine.execWorkerEnable n v s
  | .workerStart => Sys2Proof.Machine.execWorkerStart s
  | .wrkMemDataAccess v => Sys2Proof.Machine.execWrkMemDataAccess v s
  | .nop n errs => Sys2Proof.Machine.execNop n errs s
  | .mpy n errs => Sys2Proof.Machine.execMpy n errs s
  | .mpyn n errs => Sys2Proof.Machine.execMpyn n errs s
  | .mac n errs => Sys2Proof.Machine.execMac n errs s
  | .macn n errs => Sys2Proof.Machine.execMacn n errs s
  | .pwr n errs => Sys2Proof.Machine.execPwr n errs s
  | .add n errs => Sys2Proof.Machine.execAdd n errs s
  | .sub n errs => Sys2Proof.Machine.execSub n errs s
  | .adda n errs => Sys2Proof.Machine.execAdda n errs s
  | .suba n errs => Sys2Proof.Machine.execSuba n errs s
  | .cmp n errs => Sys2Proof.Machine.execCmp n errs s
  | .cmpa n errs => Sys2Proof.Machine.execCmpa n errs s
  | .abs n errs => Sys2Proof.Machine.execAbs n errs s
  | .neg n errs => Sys2Proof.Machine.execNeg n errs s
  | .clr n errs => Sys2Proof.Machine.execClr n errs s
  | .mova n errs => Sys2Proof.Machine.execMova n errs s
  | .lda n errs => Sys2Proof.Machine.execLda n errs s
  | .ldl n errs => Sys2Proof.Machine.execLdl n errs s
  | .asr n errs => Sys2Proof.Machine.execAsr n errs s
  | .asl n errs => Sys2Proof.Machine.execAsl n errs s
  | .max n errs => Sys2Proof.Machine.execMax n errs s
  | .min n errs => Sys2Proof.Machine.execMin n errs s
  | .divs n errs => Sys2Proof.Machine.execDivs n errs s
  | .ldx n errs => Sys2Proof.Machine.execLdx n errs s
  | .ldy n errs => Sys2Proof.Machine.execLdy n errs s
  | .stx n errs => Sys2Proof.Machine.execStx n errs s
  | .sty n errs => Sys2Proof.Machine.execSty n errs s
  | .ldi n errs => Sys2Proof.Machine.execLdi n errs s
  | .ldxp n errs => Sys2Proof.Machine.execLdxp n errs s
  | .ldyp n errs => Sys2Proof.Machine.execLdyp n errs s
  | .stxp n errs => Sys2Proof.Machine.execStxp n errs s
  | .styp n errs => Sys2Proof.Machine.execStyp n errs s
  | .mov n errs => Sys2Proof.Machine.execMov n errs s
  | .and n errs => Sys2Proof.Machine.execAnd n errs s
  | .or n errs => Sys2Proof.Machine.execOr n errs s
  | .xor n errs => Sys2Proof.Machine.execXor n errs s
  | .not n errs => Sys2Proof.Machine.execNot n errs s
  | .addr n errs => Sys2Proof.Machine.execAddr n errs s
  | .subr n errs => Sys2Proof.Machine.execSubr n errs s
  | .cmpr n errs => Sys2Proof.Machine.execCmpr n errs s
  | .lsl n errs => Sys2Proof.Machine.execLsl n errs s
  | .lsr n errs => Sys2Proof.Machine.execLsr n errs s
  | .asrr n errs => Sys2Proof.Machine.execAsrr n errs s
  | .mvr n errs => Sys2Proof.Machine.execMvr n errs s
  | .br n errs => Sys2Proof.Machine.execBr n errs s
  | .brx n errs => Sys2Proof.Machine.execBrx n errs s
  | .rte n errs => Sys2Proof.Machine.execRte n errs s
  | .tend n errs => Sys2Proof.Machine.execTend n errs s
  | .trap n errs => Sys2Proof.Machine.execTrap n errs s
  | .repImmediate n errs => Sys2Proof.Machine.execRepImmediate n errs s
  | .repRegister n errs => Sys2Proof.Machine.execRepRegister n errs s
  | .repx n errs => Sys2Proof.Machine.execRepx n errs s
  | .stingReport b j => Sys2Proof.Machine.execStingReport b j s
  | .trigInEdge n t => Sys2Proof.Machine.execTrigInEdge n t s
  | .conditionEvaluate => Sys2Proof.Machine.execConditionEvaluate s
  | .digestReceive => Sys2Proof.Machine.execDigestReceive s
  | .collectorEvaluate => Sys2Proof.Machine.execCollectorEvaluate s
  | .triggerMessageReceive => Sys2Proof.Machine.execTriggerMessageReceive s
  | .heartbeatSend g => Sys2Proof.Machine.execHeartbeatSend g s
  | .heartbeatReceive => Sys2Proof.Machine.execHeartbeatReceive s
  | .collectorTakeover g => Sys2Proof.Machine.execCollectorTakeover g s
  | .trigOutPulse n => Sys2Proof.Machine.execTrigOutPulse n s
  | .stingBeamEnable b v => Sys2Proof.Machine.execStingBeamEnable b v s
  | .conditionEnable c v => Sys2Proof.Machine.execConditionEnable c v s
  | .trigSlotSet => Sys2Proof.Machine.execTrigSlotSet s
  | .captureRingWrite c k => Sys2Proof.Machine.execCaptureRingWrite c k s
  | .decisionTake c => Sys2Proof.Machine.execDecisionTake c s
  | .segmentSwitch c => Sys2Proof.Machine.execSegmentSwitch c s
  | .captureSeal c => Sys2Proof.Machine.execCaptureSeal c s
  | .eventRecordEmit t => Sys2Proof.Machine.execEventRecordEmit t s
  | .segmentReleaseCommit c v => Sys2Proof.Machine.execSegmentReleaseCommit c v s
  | .segRelease => Sys2Proof.Machine.execSegRelease s
  | .segmentFree c => Sys2Proof.Machine.execSegmentFree c s
  | .hitChangeRecord k => Sys2Proof.Machine.execHitChangeRecord k s
  | .powerHistoryFrame k => Sys2Proof.Machine.execPowerHistoryFrame k s
  | .captureGroupEnable c v => Sys2Proof.Machine.execCaptureGroupEnable c v s
  | .replaySupply x c ev k => Sys2Proof.Machine.execReplaySupply x c ev k s
  | .ddrEnable => Sys2Proof.Machine.execDdrEnable s
  | .ddrTrainingComplete res spd => Sys2Proof.Machine.execDdrTrainingComplete res spd s
  | .ddrRequest rs errs => Sys2Proof.Machine.execDdrRequest rs errs s
  | .ddrAgePromote i0 => Sys2Proof.Machine.execDdrAgePromote i0 s
  | .ddrRefresh c r temp => Sys2Proof.Machine.execDdrRefresh c r temp s
  | .dqsIntervalCheck c drifts => Sys2Proof.Machine.execDqsIntervalCheck c drifts s
  | .patrolScrub errs => Sys2Proof.Machine.execPatrolScrub errs s
  | .ddrPartitionWrite p size v => Sys2Proof.Machine.execDdrPartitionWrite p size v s
  | .bar2Access off data len errs => Sys2Proof.Machine.execBar2Access off data len errs s
  | .commandRingDoorbell r v => Sys2Proof.Machine.execCommandRingDoorbell r v s
  | .foragerDoorbell n v => Sys2Proof.Machine.execForagerDoorbell n v s
  | .descriptorFetch n d g => Sys2Proof.Machine.execDescriptorFetch n d g s
  | .descriptorComplete n data errs => Sys2Proof.Machine.execDescriptorComplete n data errs s
  | .streamUnitDeliver n => Sys2Proof.Machine.execStreamUnitDeliver n s
  | .busError n data part src addr => Sys2Proof.Machine.execBusError n data part src addr s
  | .foragerStart n => Sys2Proof.Machine.execForagerStart n s
  | .foragerStop n => Sys2Proof.Machine.execForagerStop n s
  | .foragerResume n => Sys2Proof.Machine.execForagerResume n s
  | .foragerSkip n => Sys2Proof.Machine.execForagerSkip n s
  | .foragerAbort n => Sys2Proof.Machine.execForagerAbort n s
  | .foragerChannelDisable n => Sys2Proof.Machine.execForagerChannelDisable n s
  | .foragerAgePromote n us => Sys2Proof.Machine.execForagerAgePromote n us s
  | .msixVectorUnmask v => Sys2Proof.Machine.execMsixVectorUnmask v s
  | .perstLAssert => Sys2Proof.Machine.execPerstLAssert s
  | .commandPacketArrive src => Sys2Proof.Machine.execCommandPacketArrive src s
  | .regGather n => Sys2Proof.Machine.execRegGather n s
  | .regScatter n => Sys2Proof.Machine.execRegScatter n s
  | .identify => Sys2Proof.Machine.execIdentify s
  | .healthRead => Sys2Proof.Machine.execHealthRead s
  | .sessionSet => Sys2Proof.Machine.execSessionSet s
  | .sessionRemove => Sys2Proof.Machine.execSessionRemove s
  | .streamSet => Sys2Proof.Machine.execStreamSet s
  | .keyLoad => Sys2Proof.Machine.execKeyLoad s
  | .keyRevoke => Sys2Proof.Machine.execKeyRevoke s
  | .auditRead => Sys2Proof.Machine.execAuditRead s
  | .auditClear => Sys2Proof.Machine.execAuditClear s
  | .sealCommit => Sys2Proof.Machine.execSealCommit s
  | .keeperSwitch => Sys2Proof.Machine.execKeeperSwitch s
  | .budgetSet => Sys2Proof.Machine.execBudgetSet s
  | .delayModel => Sys2Proof.Machine.execDelayModel s
  | .hostRegisterWrite off v dw => Sys2Proof.Machine.execHostRegisterWrite off v dw s
  | .domainAccessTimeout a read => Sys2Proof.Machine.execDomainAccessTimeout a read s
  | .blockDisable b => Sys2Proof.Machine.execBlockDisable b s
  | .sealPass => Sys2Proof.Machine.execSealPass s
  | .sessionActivate x => Sys2Proof.Machine.execSessionActivate x s
  | .sessionRemoveApply x => Sys2Proof.Machine.execSessionRemoveApply x s
  | .sessionFree x => Sys2Proof.Machine.execSessionFree x s
  | .thermalSample t sensor => Sys2Proof.Machine.execThermalSample t sensor s
  | .thermalStep => Sys2Proof.Machine.execThermalStep s
  | .railRead rails => Sys2Proof.Machine.execRailRead rails s
  | .mirrorRecord acked => Sys2Proof.Machine.execMirrorRecord acked s
  | .mirrorAckTimeout => Sys2Proof.Machine.execMirrorAckTimeout s
  | .keeperFault k cause => Sys2Proof.Machine.execKeeperFault k cause s
  | .keeperSwitchover => Sys2Proof.Machine.execKeeperSwitchover s
  | .keeperLogicResetDone k => Sys2Proof.Machine.execKeeperLogicResetDone k s
  | .keeperSyncComplete k => Sys2Proof.Machine.execKeeperSyncComplete k s
  | .keeperRevert => Sys2Proof.Machine.execKeeperRevert s
  | .keeperMemoryPatrol k corr uncorr => Sys2Proof.Machine.execKeeperMemoryPatrol k corr uncorr s
  | .retireKeeper k => Sys2Proof.Machine.execRetireKeeper k s
  | .restoreKeeper k => Sys2Proof.Machine.execRestoreKeeper k s
  | .healthReport => Sys2Proof.Machine.execHealthReport s
  | .porLLow => Sys2Proof.Machine.execPorLLow s
  | .pwrgoodFall => Sys2Proof.Machine.execPwrgoodFall s
  | .resetEnd mode => Sys2Proof.Machine.execResetEnd mode s
  | .autoWarmReset => Sys2Proof.Machine.execAutoWarmReset s
  | .bootImageSelect c0 c1 => Sys2Proof.Machine.execBootImageSelect c0 c1 s
  | .bootPacket => Sys2Proof.Machine.execBootPacket s
  | .bootWait => Sys2Proof.Machine.execBootWait s
  | .bootWaitTimeout => Sys2Proof.Machine.execBootWaitTimeout s
  | .bootEnd => Sys2Proof.Machine.execBootEnd s
  | .monHelp => Sys2Proof.Machine.execMonHelp s
  | .monId => Sys2Proof.Machine.execMonId s
  | .monStatus => Sys2Proof.Machine.execMonStatus s
  | .monLogin role slot => Sys2Proof.Machine.execMonLogin role slot s
  | .monLoginResponse b => Sys2Proof.Machine.execMonLoginResponse b s
  | .monLogout => Sys2Proof.Machine.execMonLogout s
  | .loginLockExpire => Sys2Proof.Machine.execLoginLockExpire s
  | .loginIdleTimeout => Sys2Proof.Machine.execLoginIdleTimeout s
  | .monHealth => Sys2Proof.Machine.execMonHealth s
  | .monPkt b => Sys2Proof.Machine.execMonPkt b s
  | .monBaud n => Sys2Proof.Machine.execMonBaud n s
  | .monResetWarm => Sys2Proof.Machine.execMonResetWarm s
  | .uartFramingError => Sys2Proof.Machine.execUartFramingError s
  | .perstLDeassert speed width bar2 bme => Sys2Proof.Machine.execPerstLDeassert speed width bar2 bme s
  | .undefinedEncoding n errs => Sys2Proof.Machine.execUndefinedEncoding n errs s
  | .unknownOpcode => Sys2Proof.Machine.execUnknownOpcode s
  | .monSyntaxError => Sys2Proof.Machine.execMonSyntaxError s

end Sys2Proof.Machine
end

