-- ==== Sys2Proof/WellFormed.lean ====
section
/-!
DEFINITION. Well-formed commands: each index a command carries is one the part has, each register value fits its register. Where a
command is not well-formed, it names an object the part does not have or a value no register holds.
-/
namespace Sys2Proof

/-- A PTP instance (R71). -/
def okPtp (n : Nat) : Bool := decide (n < 8)
/-- A reference candidate (Table 4-1). -/
def okCand (n : Nat) : Bool := decide (n < 13)
/-- An Ethernet port (R1). -/
def okPort (n : Nat) : Bool := decide (n < 32)
/-- A clock or pulse output. -/
def okClkOut (n : Nat) : Bool := decide (n < 4)
/-- A nectar bundle. -/
def okBundle (n : Nat) : Bool := decide (n < 16)
/-- A lane of a bundle, the parity lane being 16. -/
def okLane (n : Nat) : Bool := decide (n < 17)
/-- A nectar port. -/
def okNecPort (n : Nat) : Bool := decide (n < 64)
/-- A hive input. -/
def okInput (n : Nat) : Bool := decide (n < 256)
/-- A coefficient set FEe of ingest (R156). -/
def okFir (n : Nat) : Bool := decide (n < 8)
/-- A channeliser profile. -/
def okProfile (n : Nat) : Bool := decide (n < 4)
/-- A transmit queue. -/
def okQueue (n : Nat) : Bool := decide (n < 8)
/-- A session. -/
def okSession (n : Nat) : Bool := decide (n < 1024)
/-- A hive of a swarm. -/
def okHive (n : Nat) : Bool := decide (n < 1024)
/-- A comb, CW being 16. -/
def okComb (n : Nat) : Bool := decide (n < 17)
/-- A logical worker. -/
def okWorker (n : Nat) : Bool := decide (n < 64)
/-- A physical worker core (R333). -/
def okCore (n : Nat) : Bool := decide (n < 68)
/-- A trigger condition. -/
def okCond (n : Nat) : Bool := decide (n < 64)
/-- A sting beam. -/
def okBeam (n : Nat) : Bool := decide (n < 128)
/-- A TRIG_IN or TRIG_OUT pin. -/
def okTrig (n : Nat) : Bool := decide (n < 8)
/-- A trigger slot. -/
def okTrigSlot (n : Nat) : Bool := decide (n < 8)
/-- A capture group. -/
def okGroup (n : Nat) : Bool := decide (n < 64)
/-- A DDR5 channel. -/
def okDdr (n : Nat) : Bool := decide (n < 16)
/-- A rank of a DDR5 channel. -/
def okRank (n : Nat) : Bool := decide (n < 2)
/-- A DDR partition. -/
def okPart (n : Nat) : Bool := decide (n < 6)
/-- A forager channel. -/
def okFdm (n : Nat) : Bool := decide (n < 32)
/-- A client of the PCIe link: a forager channel, or 32 + a command ring. -/
def okBus (n : Nat) : Bool := decide (n < 96)
/-- An MSI-X vector. -/
def okVector (n : Nat) : Bool := decide (n < 2048)
/-- A command ring. -/
def okRing (n : Nat) : Bool := decide (n < 64)
/-- A keeper: 0 A, 1 B. -/
def okKeeper (n : Nat) : Bool := decide (n < 2)
/-- A block with an EN bit, or GLB (R494). -/
def okBlock (n : Nat) : Bool := decide (n < 20)
/-- A 32-bit value. -/
def okWord (n : Nat) : Bool := decide (n < 2 ^ 32)
/-- An index of four. -/
def okFour (n : Nat) : Bool := decide (n < 4)
/-- An index of three. -/
def okThree (n : Nat) : Bool := decide (n < 3)
/-- An index of seven. -/
def okSeven (n : Nat) : Bool := decide (n < 7)
/-- An index of six. -/
def okSix (n : Nat) : Bool := decide (n < 6)

/-- The command is well-formed. -/
def Instr.wf (i : Instr) : Bool :=
  match i with
  | .tickStrobe => true
  | .blockDeadline b _ => okBlock b
  | .waitAbandon => true
  | .timNowFracRead _ => true
  | .timeSet => true
  | .timeOfDayLoad => true
  | .ptpMessageReceive n _ => okPtp n
  | .ptpMessageSend n _ _ _ => okPtp n
  | .announceReceiptTimeout n => okPtp n
  | .timeAcceptStep => true
  | .stepApply => true
  | .timStepThrWrite v => okWord v
  | .ptpCfgWrite n v => okPtp n && okWord v
  | .ppsRefEdge c _ _ => okCand c
  | .candidateQualify c _ => okCand c
  | .candidateLoss c _ => okCand c
  | .waitToRestoreExpire c => okCand c
  | .dpllLock => true
  | .esmcPduReceive port _ => okPort port
  | .esmcTimeout port => okPort port
  | .pullDone => true
  | .refMode => true
  | .clkCtrlWrite v => okWord v
  | .clkOutCfgWrite n _ v => okClkOut n && okWord v
  | .ppsOutPulse n _ => okClkOut n
  | .tickOutPulse _ => true
  | .laneMarkerCheck b u _ _ _ => okBundle b && okLane u
  | .dfeAdapt b u _ => okBundle b && okLane u
  | .nectarBlockReceive n _ _ => okNecPort n
  | .nectarPortAbsent n _ => okNecPort n
  | .rateMeasurementLatch _ => true
  | .necPortCfgWrite n v => okNecPort n && okWord v
  | .slotBlockIntake i => okInput i
  | .resampleGridTick i _ => okInput i
  | .dlyModelCommit i v => okInput i && okWord v
  | .dlyModelApply i => okInput i
  | .slotStart i => okInput i
  | .ingCfgWrite i r v => okInput i && okFour r && okWord v
  | .slotStop i => okInput i
  | .coefDataWrite e v => okFir e && okWord v
  | .spectrumCompute i _ => okInput i
  | .chnProfileCfgWrite p r v => okProfile p && okSix r && okWord v
  | .chnInputCfgWrite i r v => okInput i && okThree r && okWord v
  | .chnInputStop i => okInput i
  | .winDataWrite v => okWord v
  | .gainDataWrite v => okWord v
  | .gainEffCommit v => okWord v
  | .gainCommit => true
  | .gainBankSwitch => true
  | .gainSwitchDone => true
  | .linkUp n => okPort n
  | .linkDown n => okPort n
  | .frameReceive n _ => okPort n
  | .mmVerifySend n => okPort n
  | .frameEnqueue n q => okPort n && okQueue q
  | .bulkSend n => okPort n
  | .txFrameStart n => okPort n
  | .queueAgePromote n q => okPort n && okQueue q
  | .arpRequest n _ _ _ _ => okPort n
  | .neighbourSolicitation n _ _ => okPort n
  | .dadComplete n _ => okPort n
  | .neighbourRefresh _ _ => true
  | .icmpEchoRequest n _ _ _ => okPort n
  | .multicastQuery n _ _ _ => okPort n
  | .multicastReportSend n => okPort n
  | .groupStateChange => true
  | .stateChangeReportRepeat => true
  | .ethAddressWrite n r v => okPort n && okSeven r && okWord v
  | .broodSend x _ _ => okSession x
  | .broodFrameReceive => true
  | .presenceFinalise x _ => okSession x
  | .broodWindowRelease x _ => okSession x
  | .ctnSessionEnable x v => okSession x && okWord v
  | .ctnSessionDisable x => okSession x
  | .mapCommitWrite x v => okSession x && okWord v
  | .mapCommit => true
  | .mapSwitch x => okSession x
  | .hiveAnnounceSend n => okPort n
  | .hiveAnnounceReceive => true
  | .peerAge h => okHive h
  | .combTickWork c _ _ => okComb c
  | .combDump x _ _ => okSession x
  | .witnessCompare => true
  | .retireComb c => okComb c
  | .restoreComb c => okComb c
  | .combRetire => true
  | .witnessEnableWrite _ => true
  | .cmbSessionEnable x v => okSession x && okWord v
  | .cmbListDataWrite v => okWord v
  | .superDumpApply x _ => okSession x
  | .honeyDrainStart x _ => okSession x
  | .honeySend x _ => okSession x
  | .drainOverrun x => okSession x
  | .supSessionEnable x v => okSession x && okWord v
  | .waggleTickWork _ _ => true
  | .phaseEngineRelease x _ _ => okSession x
  | .epochMiss x _ => okSession x
  | .weightCommitWrite x v => okSession x && okWord v
  | .weightCommit => true
  | .weightBankSwitch x => okSession x
  | .wagSessionEnable x v => okSession x && okWord v
  | .weightDataWrite v => okWord v
  | .geometryDataWrite v => okWord v
  | .workerRunStart n => okWorker n
  | .workerTimerInterrupt n => okWorker n
  | .workerWarnInterrupt n => okWorker n
  | .workerOverrun n => okWorker n
  | .workerSwitchInterval => true
  | .resultCollect _ => true
  | .retireCore p => okCore p
  | .restoreCore p => okCore p
  | .coreMigrateComplete n => okWorker n
  | .workerEnable n v => okWorker n && okWord v
  | .workerStart => true
  | .wrkMemDataAccess _ => true
  | .nop n _ => okWorker n
  | .mpy n _ => okWorker n
  | .mpyn n _ => okWorker n
  | .mac n _ => okWorker n
  | .macn n _ => okWorker n
  | .pwr n _ => okWorker n
  | .add n _ => okWorker n
  | .sub n _ => okWorker n
  | .adda n _ => okWorker n
  | .suba n _ => okWorker n
  | .cmp n _ => okWorker n
  | .cmpa n _ => okWorker n
  | .abs n _ => okWorker n
  | .neg n _ => okWorker n
  | .clr n _ => okWorker n
  | .mova n _ => okWorker n
  | .lda n _ => okWorker n
  | .ldl n _ => okWorker n
  | .asr n _ => okWorker n
  | .asl n _ => okWorker n
  | .max n _ => okWorker n
  | .min n _ => okWorker n
  | .divs n _ => okWorker n
  | .ldx n _ => okWorker n
  | .ldy n _ => okWorker n
  | .stx n _ => okWorker n
  | .sty n _ => okWorker n
  | .ldi n _ => okWorker n
  | .ldxp n _ => okWorker n
  | .ldyp n _ => okWorker n
  | .stxp n _ => okWorker n
  | .styp n _ => okWorker n
  | .mov n _ => okWorker n
  | .and n _ => okWorker n
  | .or n _ => okWorker n
  | .xor n _ => okWorker n
  | .not n _ => okWorker n
  | .addr n _ => okWorker n
  | .subr n _ => okWorker n
  | .cmpr n _ => okWorker n
  | .lsl n _ => okWorker n
  | .lsr n _ => okWorker n
  | .asrr n _ => okWorker n
  | .mvr n _ => okWorker n
  | .br n _ => okWorker n
  | .brx n _ => okWorker n
  | .rte n _ => okWorker n
  | .tend n _ => okWorker n
  | .trap n _ => okWorker n
  | .repImmediate n _ => okWorker n
  | .repRegister n _ => okWorker n
  | .repx n _ => okWorker n
  | .stingReport b _ => okBeam b
  | .trigInEdge n _ => okTrig n
  | .conditionEvaluate => true
  | .digestReceive => true
  | .collectorEvaluate => true
  | .triggerMessageReceive => true
  | .heartbeatSend g => okTrigSlot g
  | .heartbeatReceive => true
  | .collectorTakeover g => okTrigSlot g
  | .trigOutPulse n => okTrig n
  | .stingBeamEnable b v => okBeam b && okWord v
  | .conditionEnable c v => okCond c && okWord v
  | .trigSlotSet => true
  | .captureRingWrite c _ => okGroup c
  | .decisionTake c => okGroup c
  | .segmentSwitch c => okGroup c
  | .captureSeal c => okGroup c
  | .eventRecordEmit _ => true
  | .segmentReleaseCommit c v => okGroup c && okWord v
  | .segRelease => true
  | .segmentFree c => okGroup c
  | .hitChangeRecord _ => true
  | .powerHistoryFrame _ => true
  | .captureGroupEnable c v => okGroup c && okWord v
  | .replaySupply x c _ _ => okSession x && okGroup c
  | .ddrEnable => true
  | .ddrTrainingComplete _ _ => true
  | .ddrRequest _ _ => true
  | .ddrAgePromote _ => true
  | .ddrRefresh c r _ => okDdr c && okRank r
  | .dqsIntervalCheck c _ => okDdr c
  | .patrolScrub _ => true
  | .ddrPartitionWrite p _ v => okPart p && okWord v
  | .bar2Access _ _ _ _ => true
  | .commandRingDoorbell r v => okRing r && okWord v
  | .foragerDoorbell n v => okFdm n && okWord v
  | .descriptorFetch n _ _ => okFdm n
  | .descriptorComplete n _ _ => okFdm n
  | .streamUnitDeliver n => okFdm n
  | .busError n _ _ _ _ => okBus n
  | .foragerStart n => okFdm n
  | .foragerStop n => okFdm n
  | .foragerResume n => okFdm n
  | .foragerSkip n => okFdm n
  | .foragerAbort n => okFdm n
  | .foragerChannelDisable n => okFdm n
  | .foragerAgePromote n _ => okFdm n
  | .msixVectorUnmask v => okVector v
  | .perstLAssert => true
  | .commandPacketArrive _ => true
  | .regGather _ => true
  | .regScatter _ => true
  | .identify => true
  | .healthRead => true
  | .sessionSet => true
  | .sessionRemove => true
  | .streamSet => true
  | .keyLoad => true
  | .keyRevoke => true
  | .auditRead => true
  | .auditClear => true
  | .sealCommit => true
  | .keeperSwitch => true
  | .budgetSet => true
  | .delayModel => true
  | .hostRegisterWrite _ _ _ => true
  | .domainAccessTimeout _ _ => true
  | .blockDisable b => okBlock b
  | .sealPass => true
  | .sessionActivate x => okSession x
  | .sessionRemoveApply x => okSession x
  | .sessionFree x => okSession x
  | .thermalSample _ _ => true
  | .thermalStep => true
  | .railRead _ => true
  | .mirrorRecord _ => true
  | .mirrorAckTimeout => true
  | .keeperFault k _ => okKeeper k
  | .keeperSwitchover => true
  | .keeperLogicResetDone k => okKeeper k
  | .keeperSyncComplete k => okKeeper k
  | .keeperRevert => true
  | .keeperMemoryPatrol k _ _ => okKeeper k
  | .retireKeeper k => okKeeper k
  | .restoreKeeper k => okKeeper k
  | .healthReport => true
  | .porLLow => true
  | .pwrgoodFall => true
  | .resetEnd mode => okFour mode
  | .autoWarmReset => true
  | .bootImageSelect _ _ => true
  | .bootPacket => true
  | .bootWait => true
  | .bootWaitTimeout => true
  | .bootEnd => true
  | .monHelp => true
  | .monId => true
  | .monStatus => true
  | .monLogin _ _ => true
  | .monLoginResponse _ => true
  | .monLogout => true
  | .loginLockExpire => true
  | .loginIdleTimeout => true
  | .monHealth => true
  | .monPkt _ => true
  | .monBaud _ => true
  | .monResetWarm => true
  | .uartFramingError => true
  | .perstLDeassert _ _ _ _ => true
  | .undefinedEncoding n _ => okWorker n
  | .unknownOpcode => true
  | .monSyntaxError => true

end Sys2Proof
end

