-- ==== Sys2Proof/Safety.lean ====
section
/-!
DEFINITION. What claims are stated in: a command that answers a next state, and registers that are left alone.
-/
namespace Sys2Proof.Machine

/-- Command `c` answers a next state, of which `P` holds. -/
def Takes (c : Instr) (s : State) (P : State → Prop) : Prop := ∃ t, exec c s = .next t ∧ P t

/-- Every register outside `l` reads in `t` as in `s`. -/
def State.sameRegs (s t : State) (l : List Nat) : Prop := ∀ a, a ∉ l → t.rd a = s.rd a

/-- Command `c` leaves the part as it is. -/
def Idle (c : Instr) (s : State) : Prop := exec c s = .next s

/-- A host write of `v` arrives at the register at `a`, of access type `acc`, where it would make the contents `new`: the endpoint,
R501, R503 and the guard (R499) let it through. -/
def State.hostArrives (s : State) (acc : Access) (a v new : Nat) : Prop :=
  s.pci.held = false ∧ inMsix a = false ∧ inPba a = false ∧ permitted .host a = true ∧ s.domainStopped a = false
  ∧ s.bar0Open a = true
  ∧ ∃ r, rowOf a = some r ∧ r.acc = acc ∧ new = r.merge (s.rd a) (v % 2 ^ 32) ∧ s.guardStops r a (s.rd a) new = false

/-- The same, and the rules of the register's block let the write through too. -/
def State.hostReaches (s : State) (acc : Access) (a v new : Nat) : Prop :=
  s.hostArrives acc a v new ∧ blockPre a new s = none

/-- States equal but for the mark of a seal pass that a sealed register was written (R508). -/
def State.butPass (t u : State) : Prop := t = { u with pass := t.pass }

/-- Packet `p` is the next command. It passes R479 with slot `k` and its key, runs in its turn (R481) and passes the common checks;
`u` is the state its body runs in. -/
def State.accepts (s : State) (p : Pkt) (k : Nat) (key : List Byte) (u : State) : Prop :=
  s.nextCmd = some p ∧ s.popCmd.gate p.bytes = .pass k key ∧ s.popCmd.turn p k = (.run, u) ∧ u.precheck ⟨p, k, key⟩ = 0

/-- Row `c` runs the accepted packet: it ends with status `st` and reply parameters `ps`, and `P` holds of what its body leaves. -/
def Runs (c : Instr) (s : State) (p : Pkt) (k : Nat) (key : List Byte) (st : Nat) (ps : List Byte) (P : State → Prop) : Prop :=
  ∃ t, exec c s = .next (t.endCmd 1 true p k key st ps) ∧ P t

/-- The write queue holds each line once, and the bytes of a line in rising order (R452). -/
def State.wqWf (s : State) : Prop :=
  (s.ddr.wq.map (·.1)).Nodup ∧ ∀ e ∈ s.ddr.wq, (e.2.map (·.1)).Pairwise (· < ·) ∧ ∀ o ∈ e.2, o.1 < 64

/-- The bytes `b` lie from address `addr` of DDR on, and every other byte is as it was. -/
def State.holdsAt (s t : State) (addr : Nat) (b : List Byte) : Prop :=
  (∀ i, i < b.length → t.ddrByte (addr + i) = nth b i 0) ∧ ∀ a, a < addr ∨ addr + b.length ≤ a → t.ddrByte a = s.ddrByte a

/-- Every register reads as before but for those in `l` and the counters and logs of the errors a DDR line shows (R457). -/
def State.butLines (s t : State) (l : List Nat) : Prop :=
  ∀ a, a ∉ [DDR_ERR, DDR_ELOG_LO, DDR_ELOG_HI, DDR_CLOG, PCI_ERR] ++ l → (∀ c, c < 16 → a ≠ DDR_CHc_CORR c ∧ a ≠ DDR_CHc_UNCORR c) → t.rd a = s.rd a

/-- The writes to host memory among outputs, newest first. -/
def hostWrites (l : List Out) : List (Nat × List Byte) :=
  l.filterMap (fun o => match o with | .hostWrite a b => some (a, b) | _ => none)

/-- The write-back of a descriptor (R463), oldest first: STATUS, GSTAT, CTRL with OWN at 0. -/
def backWrites (ring : Nat) (d : FdmDesc) (code : Nat) (eop : Bool) : List (Nat × List Byte) :=
  [(ring + d.idx * 32 + 4, toLE 4 (code * 2 ^ 28 + (if eop then 2 ^ 27 else 0) + d.bytes % 2 ^ 24)),
   (ring + d.idx * 32 + 28, toLE 4 (d.fail * 2 ^ 16 + d.done)), (ring + d.idx * 32, toLE 4 (d.ctrl % 2 ^ 31))]

/-- The writes of elements read from DDR address `a` on, oldest first (R468); `part` bytes of the first are moved already. -/
def State.elWrites (s : State) : Nat → Nat → List (Nat × Nat) → List (Nat × List Byte)
  | _, _, [] => []
  | a, part, e :: r => (e.1 + part, (List.range (e.2 - part)).map (fun i => s.ddrByte (a + part + i))) :: s.elWrites (a + e.2) 0 r

/-- The writes of a unit into the buffers of the descriptors, oldest first (R470). -/
def streamWrites (ring : Nat) : List FdmDesc → List Byte → List (Nat × List Byte)
  | [], _ => []
  | d :: r, b =>
    let len := d.ctrl % 2 ^ 24
    (d.host, b.take len)
      :: backWrites ring { d with bytes := min len b.length, done := if len ≤ b.length then 1 else 0 } 0 (decide (b.length ≤ len))
      ++ (if b.length ≤ len then [] else streamWrites ring r (b.drop len))

/-- Channel n of `t` stands at the boundary after the descriptor at ring index `idx` of `s` (R475, R476), which counts. -/
def State.pastDesc (s t : State) (n idx bytes : Nat) : Prop :=
  t.chHead n = (idx + 1) % s.chSize n % 2 ^ 16 ∧ t.fd (FDM_CHn_STATE n) FDM_CHn_STATE_CAUSE = 0
  ∧ t.rd (FDM_CHn_DESC n) = (s.rd (FDM_CHn_DESC n) + 1) % 2 ^ 32 ∧ t.rd (FDM_CHn_BYTES n) = (s.rd (FDM_CHn_BYTES n) + bytes) % 2 ^ 32
  ∧ (s.chEn n = false → t.chState n = 0 ∧ t.chPre n = [] ∧ t.stopPend n = false)
  ∧ (s.chEn n = true → (s.stopPend n = true ∨ s.chState n = 2) → t.chState n = 3 ∧ t.chPre n = [] ∧ t.stopPend n = false)
  ∧ (s.chEn n = true → s.stopPend n = false → s.chState n ≠ 2 → t.chState n = 1 ∧ t.chPre n = (s.chPre n).drop 1)
  ∧ ∀ m, m ≠ n → t.chPre m = s.chPre m

/-- Channel n of `t` halted on a bus error (R473). -/
def State.haltedAt (s t : State) (n src addr idx dir : Nat) : Prop :=
  t.chState n = 4 ∧ t.fd (FDM_CHn_STATE n) FDM_CHn_STATE_CAUSE = 1 ∧ t.chHead n = s.chHead n
  ∧ t.stopPend n = (s.stopPend n || s.chState n == 2)
  ∧ t.rd (FDM_CHn_ERR_LO n) = addr % 2 ^ 32 ∧ t.rd (FDM_CHn_ERR_HI n) = addr / 2 ^ 32 % 2 ^ 32
  ∧ t.rd (FDM_CHn_ERR_INFO n) = (idx * 2 ^ 16 + dir * 2 ^ 8 + src * 2 ^ 4) % 2 ^ 32 ∧ t.bit FDM_ERR 2 = 1
  ∧ t.bit PCI_ERR (if src = 1 then 2 else if src = 3 then 3 else 1) = 1 ∧ ∀ m, m ≠ n → t.chPre m = s.chPre m

/-- The message that ends descriptor `d` of channel n (R463, R464): sent where its IRQ bit asks and vector `v` is unmasked; masked, it
stays pending. -/
def State.messaged (s t : State) (n : Nat) (d : FdmDesc) : Prop :=
  let v := bitsOf (s.rd (FDM_CHn_CFG n)) 31 21
  bitOf d.ctrl 30 = 1 → (spGet msixReset s.pci.msix (v * 4 + 3) % 2 = 0 → t.out.head? = some (.msix v))
    ∧ (spGet msixReset s.pci.msix (v * 4 + 3) % 2 = 1 → spGet zeroNat t.pci.pba v = 1)

/-! ### Workers (R333 to R382) -/

/-- A bank of worker registers holds as many as R337 gives it, each within its width. -/
def WBank.wf (b : WBank) : Prop :=
  b.xy.length = 16 ∧ b.a.length = 4 ∧ b.p.length = 8 ∧ (∀ v ∈ b.xy, v < 2 ^ 24) ∧ (∀ v ∈ b.a, -2 ^ 55 ≤ v ∧ v < 2 ^ 55)
  ∧ (∀ v ∈ b.p, v < 2 ^ 16) ∧ b.sr < 512

/-- So do both banks and the registers that exist once; PC, RTA and the addresses of branches and loops are 15 bits, and no
pending load names a register that R369 does not let a load write. -/
def WCore.wf (c : WCore) : Prop :=
  c.cur.wf ∧ c.oth.wf ∧ c.m.length = 8 ∧ c.l.length = 8 ∧ (∀ v ∈ c.m, v < 2 ^ 16) ∧ (∀ v ∈ c.l, v < 2 ^ 16) ∧ c.mr < 512
  ∧ (∀ v, c.mrNext = some v → v < 512) ∧ c.smr < 512 ∧ c.rta < 2 ^ 15 ∧ c.pc < 2 ^ 15 ∧ (∀ e ∈ c.stack, e.2.1 < 2 ^ 15 ∧ e.2.2 < 2 ^ 15)
  ∧ (∀ sl, c.slot = some sl → sl.from_ < 2 ^ 15 ∧ ∀ a, sl.target = some a → a < 2 ^ 15)
  ∧ (∀ l ∈ c.loads, l.1 < 52 ∨ 64 ≤ l.1 ∧ l.1 < 68)

/-- All 64 logical workers are so. -/
def State.workersWf (s : State) : Prop := s.wrk.cores.length = 64 ∧ ∀ c ∈ s.wrk.cores, c.wf

/-- Worker n stands before a word that spells `i` (`none`: no instruction), its run in progress with cycles left (R344, R358). -/
def State.stands (s : State) (n : Nat) (i : Option WInsn) : Prop :=
  n < 64 ∧ s.runOpen (s.core n) = true ∧ s.blockOn 13 = true ∧ (s.core n).cyc < s.wrkBudget n ∧ wDecode (s.pmGet n (s.core n).pc) = i

/-- It issues `i` now: `i` raises no exception and no interrupt comes first (R351, R352). -/
def State.issues (s : State) (n : Nat) (i : WInsn) : Prop :=
  s.stands n (some i) ∧ (s.core n).fault (some i) (fun _ _ => false) = none
  ∧ ((s.core n).open_ && (s.timerDue n (s.core n) || s.warnDue n (s.core n))) = false

/-- The instruction that issues is not the second delay slot of an RTE. -/
def WCore.stays (c : WCore) : Prop := ∀ sl, c.slot = some sl → sl.rte = true → 1 < sl.left

/-- Control flow after an instruction that is no branch, REP or REPX, with `st` the repeat stack its writes leave and `u` the core after
it: the delay slots of a branch (R347) and the end of a loop's body (R349). -/
def WCore.follows (c : WCore) (st : List (Nat × Nat × Nat)) (u : WCore) : Prop :=
  let next := (c.pc + 1) % 2 ^ 15
  (c.slot = none → u.slot = none
    ∧ ((∀ e, st.head? = some e → e.2.2 ≠ c.pc) → u.pc = next ∧ u.stack = st ∧ u.popped = c.popped)
    ∧ (∀ k top r, st = (k, top, c.pc) :: r → (2 ≤ k → u.pc = top ∧ u.stack = (k - 1, top, c.pc) :: r ∧ u.popped = c.popped)
        ∧ (k ≤ 1 → u.pc = next ∧ u.stack = r ∧ u.popped = some (0, top, c.pc))))
  ∧ (∀ sl, c.slot = some sl → u.stack = st ∧ u.popped = c.popped
    ∧ (1 < sl.left → u.pc = next ∧ u.slot = some { sl with left := sl.left - 1 })
    ∧ (sl.left ≤ 1 → u.pc = sl.target.getD next ∧ u.slot = none))

/-- Every store of the part is in its canonical form (Sparse.lean): the registers, DDR memory, brood memory, the stores behind
the blocks' windows, the words of the supers, the worker memories and the MSI-X table. -/
def Memory.wf (s : State) : Bool :=
  spWf resetVal s.regs && spWf zeroByte s.ddr.mem && spWf zeroByte s.ctn.brood && spWf zeroNat s.ing.coef
  && spWf zeroNat s.chn.win && spWf zeroNat s.chn.gain && spWf zeroNat s.cmb.list && spWf zeroNat s.sup.words
  && spWf zeroNat s.wag.wt && spWf zeroNat s.wag.geo && spWf zeroNat s.wrk.pm && spWf zeroNat s.wrk.xm
  && spWf zeroNat s.wrk.ym && spWf zeroNat s.pci.pba && spWf msixReset s.pci.msix

end Sys2Proof.Machine
end

