-- ==== Sys2Proof/Certificates/Slice0/Obligations.lean ====
section
/-!
DEFINITION. The statements for the provers, chapter by chapter.
The rules a docstring names are those its statement is drawn from: it claims of them what its own words and its Lean say. Whole rules
are stated by StepThresholdHasItsRange (R82), PtpConfigurationRestartsAnInstance (R73), AuditReadReturnsTheEntries (R531) and
AuditClearLeavesItsOwnEntry (R532).
-/
open Sys2Proof Sys2Proof.Machine

/-! ### The block as a machine -/

/-- A step is the command at the front of the queue, run on the state with the queue's rest; on an empty queue the block idles (the
model's choice, log entry 1). -/
def Obligations.StepRunsTheFrontCommand : Prop :=
  (∀ (c : Instr) (s : State) (rest : List Instr), s.pending = c :: rest → step s = exec c { s with pending := rest })
  ∧ (∀ s : State, s.pending = [] → step s = .next s)

/-- No command stops the block: whatever the state, exec answers a next state (R27 and R44: nothing the spec describes ends a run). -/
def Obligations.EveryCommandAnswersANextState : Prop := ∀ (c : Instr) (s : State), ∃ t, exec c s = .next t

/-- Reset (R9, R68): every register at the value its header states (a value the spec does not state is the model's, log entries 5 and
10), TIME_VALID 0, no tick strobe issued, the guard of every block with one closed, keeper A ACTIVE and keeper B in SYNC. -/
def Obligations.ResetLeavesTheStatedValues : Prop :=
  (∀ a, State.reset.rd a = (resetVal a).toNat) ∧ State.reset.timeValid = false ∧ State.reset.tim.lastTick = none
  ∧ (∀ b, 1 ≤ b → b ≤ 19 → State.reset.guarded b = (State.reset.bit (b * 0x100000) 0 == 1))
  ∧ State.reset.keeperState 0 = 4 ∧ State.reset.keeperState 1 = 2 ∧ State.reset.pending = []
  ∧ State.reset.cmd.ordQ = [] ∧ State.reset.cmd.urgQ = [] ∧ State.reset.cmd.keys = []

/-! ### Hive time (chapter 03) -/

/-- R67: a read of TIM_NOW_FRAC latches fraction, nanoseconds, seconds and tick of one instant.
R68, R84: the time of day loads a pending TIME_SET at its edge while TIME_VALID is 0, and at no other moment; a scheduled step makes hive time S + Δ
where hive time would reach S seconds, and not before. -/
def Obligations.HiveTimeIsReadLoadedAndStepped : Prop :=
  (∀ (cycles : Nat) (s : State), Takes (.timNowFracRead cycles) s (fun t =>
    let u := s.elapse cycles
    t.rd TIM_NOW_FRAC = u.fraction ∧ t.rd TIM_NOW_NS = u.nanoseconds
    ∧ t.rd64 TIM_NOW_SEC_LO TIM_NOW_SEC_HI = u.seconds ∧ t.rd64 TIM_TICK_LO TIM_TICK_HI = u.tim.now / tickU % 2 ^ 64
    ∧ s.sameRegs t [TIM_NOW_FRAC, TIM_NOW_NS, TIM_NOW_SEC_LO, TIM_NOW_SEC_HI, TIM_TICK_LO, TIM_TICK_HI]
    ∧ t = { s with regs := t.regs, tim := { s.tim with now := u.tim.now } }))
  ∧ ((∀ (sec at_ : Nat) (s : State), s.tim.todPend = some (sec, at_) → s.timeValid = false →
    (if s.candIsPps (s.fd CLK_STATUS CLK_STATUS_ACTIVE) = true then s.tim.todEdge = true else s.tim.now % secU < s.clockStep ∧ at_ < s.tim.now) →
    Takes .timeOfDayLoad s (fun t =>
      t.timeValid = true ∧ t.tim = { s.tim with now := sec % 2 ^ 48 * secU, todPend := none, todEdge := false }
      ∧ s.sameRegs t [TIM_STATUS, MON_STATE] ∧ t = { s with regs := t.regs, tim := t.tim }))
  ∧ (∀ s : State, s.timeValid = true → Idle .timeOfDayLoad s)
  ∧ (∀ (sec at_ : Nat) (s : State), s.tim.todPend = some (sec, at_) →
    s.candIsPps (s.fd CLK_STATUS CLK_STATUS_ACTIVE) = false → s.tim.now ≤ at_ → Idle .timeOfDayLoad s)
  ∧ (∀ (d : Int) (sec : Nat) (s : State), s.tim.step = some (d, sec) → sec * secU ≤ s.nextTick * tickU → 0 ≤ (sec * 1000000000 * 2 ^ 16 : Nat) + d →
    Takes .stepApply s (fun t =>
      (t.tim.now : Int) = ((sec * 1000000000 * 2 ^ 16 : Nat) + d) * 2 ^ 32 ∧ t.tim.step = none
      ∧ t.bit TIM_STATUS 1 = 0 ∧ t.bit TIM_STATUS 2 = 0 ∧ t.bit TIM_HIST 2 = 1 ∧ t.tim.lastTick = s.tim.lastTick
      ∧ s.sameRegs t [TIM_STATUS, TIM_HIST, PCI_ERR] ∧ t = { s with regs := t.regs, tim := t.tim, pci := t.pci, out := t.out }))
  ∧ (∀ s : State, s.tim.step = none ∨ (∃ d sec, s.tim.step = some (d, sec) ∧ s.nextTick * tickU < sec * secU) → Idle .stepApply s))

/-- R72: what an instance discards is counted and does nothing else. R77, R80: a one-step Sync of the parent, with the path delay known, gives the offset
(t2 − t1) − corr − mpd − asym from the timestamp captured with its frame. R76, R79: a message that is due goes to the instance's port with its fields and bytes, an
event message on express queue 7, a general one on queue 6; a one-step Sync carries the whole nanoseconds of its egress timestamp and the rest as correction.
R92: when announces cease for announceReceiptTimeout intervals the best master is forgotten and the instance serves, or listens. -/
def Obligations.PtpMessagesMeasureTheOffset : Prop :=
  (∀ (n : Nat) (m : PtpMsg) (s : State), s.ptpRuns n = true →
    m.kind = .management ∨ m.kind = .signaling ∨ m.domain ≠ s.fd (PTPn_CFG n) PTPn_CFG_DOMAIN ∨ m.sdo ≠ s.fd (PTPn_CFG n) PTPn_CFG_MAJOR_SDO
      ∨ m.transport ≠ s.fd (PTPn_CFG n) PTPn_CFG_TRANSPORT →
    Takes (.ptpMessageReceive n m) s (fun t =>
      t.rd (PTPn_DISCARD n) = (s.rd (PTPn_DISCARD n) + 1) % 2 ^ 32 ∧ s.sameRegs t [PTPn_DISCARD n] ∧ t = { s with regs := t.regs }))
  ∧ (∀ (n : Nat) (m : PtpMsg) (mpd : Int) (s : State), s.ptpRuns n = true → m.kind = .sync → m.twoStep = false →
    m.domain = s.fd (PTPn_CFG n) PTPn_CFG_DOMAIN → m.sdo = s.fd (PTPn_CFG n) PTPn_CFG_MAJOR_SDO →
    m.transport = s.fd (PTPn_CFG n) PTPn_CFG_TRANSPORT → s.portState n = 9 → n ≠ s.timeSource →
    (s.ptpInst n).best.map (·.source) = some m.source → (s.ptpInst n).mpd = some mpd → n < s.tim.ptp.length →
    Takes (.ptpMessageReceive n m) s (fun t =>
      let x := s.eth.inbox.find? (fun x => x.kind == .ptp && x.port == s.fd (PTPn_CFG n) PTPn_CFG_PORT)
      let t2 : Int := (match x with | some x => x.stamp | none => s.capture m.capture) - (s.rd (PTPn_RXLAT n) : Nat)
      let off := t2 - m.ts - m.corr - mpd - s.ptpAsym n
      t.rd64 (PTPn_OFFSET_LO n) (PTPn_OFFSET_HI n) = unsigned 64 off
      ∧ s.sameRegs t [PTPn_OFFSET_LO n, PTPn_OFFSET_HI n]
      ∧ t = { s with regs := t.regs, tim := { s.tim with ptp := t.tim.ptp }, eth := { s.eth with inbox := t.eth.inbox } }))
  ∧ (∀ (n : Nat) (kind : PtpKind) (pre cap : Int) (s : State), s.ptpRuns n = true → s.ptpMay n kind = true →
    Takes (.ptpMessageSend n kind pre cap) s (fun t =>
      let m := s.ptpMsgOut n kind (s.capture pre)
      let port := s.fd (PTPn_CFG n) PTPn_CFG_PORT
      (∃ f, t.eth.outbox = s.eth.outbox ++ [(port, f)] ∧ f.queue = (if ptpEvent kind then 7 else 6)
        ∧ f.kind = (if ptpEvent kind then .ptpEvent else .ptpGeneral) ∧ f.ptp = some m ∧ f.bytes = s.ptpFrame port m (s.ptpLog n kind)
        ∧ f.age = s.tick)
      ∧ (kind = .sync → s.bit (PTPn_CFG n) 9 = 1 → n < s.tim.ptp.length →
          (t.ptpInst n).syncTx = some (m.seq, s.capture cap + (s.rd (PTPn_TXLAT n) : Nat)))
      ∧ t.regs = s.regs ∧ (∀ i, i ≠ n → t.ptpInst i = s.ptpInst i)
      ∧ t = { s with tim := { s.tim with ptp := t.tim.ptp }, eth := { s.eth with outbox := t.eth.outbox } }))
  ∧ (∀ (n : Nat) (cap : Int) (s : State), s.bit (PTPn_CFG n) 9 = 0 →
    let m := s.ptpMsgOut n .sync cap
    m.ts % 65536 = 0 ∧ m.ts + m.corr = cap + (s.rd (PTPn_TXLAT n) : Nat) ∧ 0 ≤ m.corr ∧ m.corr < 65536)
  ∧ (∀ (n : Nat) (s : State), s.ptpRuns n = true → s.portState n = 4 ∨ s.portState n = 7 ∨ s.portState n = 8 ∨ s.portState n = 9 → n ≠ s.timeSource →
    (s.ptpInst n).since + s.fd (PTPn_INTV n) ⟨27, 24⟩ * s.annUs n ≤ s.tim.us →
    Takes (.announceReceiptTimeout n) s (fun t =>
      t.portState n = (if s.fd (PTPn_CFG n) PTPn_CFG_SLAVE_ONLY = 1 then 4 else 6)
      ∧ (n < s.tim.ptp.length → (t.ptpInst n).best = none) ∧ (∀ i, i ≠ n → t.ptpInst i = s.ptpInst i)
      ∧ s.sameRegs t [PTPn_STATE n] ∧ t = { s with regs := t.regs, tim := { s.tim with ptp := t.tim.ptp } }))

/-! ### References (chapter 04) -/

/-- R92, R93, R94, R99: a candidate whose conditions have held for QUAL_TIME becomes QUALIFIED, and waits to restore when it lost QUALIFIED before while
enabled; one that fails a condition loses it; a 1PPS edge near its second keeps the conditions holding, one far from it sets PHASE_FAR and loses QUALIFIED; the
last tick of a wait ends it; the quality level follows the SSM received, and is 15 after 5 s without one. ACTIVITY and the moment of a re-mapping are
the model's choices (log entries 86 and 87). -/
def Obligations.CandidatesQualifyAndFail : Prop :=
  (∀ (c since : Nat) (fofs : Int) (s : State), c < 13 → nth s.clk.okSince c none = some since →
    since + bitsOf (s.rd (CANDc_QTOL c)) 23 16 * 1000000 ≤ s.tim.us → s.candQualified c = false → s.candHolds c = true →
    c = 8 ∨ fofs.natAbs * 1000000000 ≤ bitsOf (s.rd (CANDc_QTOL c)) 15 0 * 2 ^ 40 →
    Takes (.candidateQualify c fofs) s (fun t =>
      t.candQualified c = true ∧ t.bit CLK_QUALIFIED c = 1 ∧ t.rd (CANDc_FOFS c) = unsigned 32 fofs
      ∧ (nth s.clk.lostOnce c false = false → t.clk = s.clk ∧ t.candInWtr c = s.candInWtr c ∧ s.sameRegs t [CANDc_FOFS c, CANDc_STATUS c, CLK_QUALIFIED])
      ∧ (nth s.clk.lostOnce c false = true → c < s.clk.wtrTicks.length →
          nth t.clk.wtrTicks c 0 = bitsOf (s.rd CLK_WTR) 11 0 * 1000000 ∧ (t.candInWtr c = true ↔ bitsOf (s.rd CLK_WTR) 11 0 ≠ 0))
      ∧ s.sameRegs t [CANDc_FOFS c, CANDc_STATUS c, CLK_QUALIFIED, CLK_IN_WTR] ∧ t = { s with regs := t.regs, clk := t.clk }))
  ∧ (∀ (c : Nat) (far : Bool) (s : State), c < 13 → c ≠ 8 ∨ s.candHolds 8 = false →
    Takes (.candidateLoss c far) s (fun t =>
      t.candQualified c = false ∧ nth t.clk.okSince c none = none
      ∧ (s.candQualified c = true → t.bit CLK_QUALIFIED c = 0 ∧ t.candInWtr c = false ∧ (s.candEn c = true → t.bit CLK_HIST 0 = 1))
      ∧ (far = true → s.candIsPps c = true → s.timeValid = true → t.bit CLK_HIST 6 = 1)
      ∧ s.sameRegs t [CANDc_STATUS c, CLK_QUALIFIED, CLK_IN_WTR, CLK_HIST, PCI_ERR]
      ∧ t = { s with regs := t.regs, clk := t.clk, pci := t.pci, out := t.out }))
  ∧ (∀ (c : Nat) (edge fofs : Int) (s : State), c < 8 → s.candIsPps c = true →
    let e := s.capture edge
    let off := fromSecond (e - signed 32 (s.rd (CANDc_DLY c)) * 16384)
    let near := s.timeValid = false ∨ (off.natAbs : Int) ≤ s.stepThr
    Takes (.ppsRefEdge c edge fofs) s (fun t =>
      t.bit (CANDc_STATUS c) 0 = 1 ∧ t.rd (CANDc_FOFS c) = unsigned 32 fofs
      ∧ (c < s.clk.edgeAt.length → nth t.clk.edgeAt c none = some s.tim.us)
      ∧ (near → s.fofsOk c fofs = true → s.candHolds c = true → t.candQualified c = s.candQualified c)
      ∧ (near → s.fofsOk c fofs = true → c < s.clk.okSince.length → (nth t.clk.okSince c none).isSome = true)
      ∧ (¬ near ∨ s.fofsOk c fofs = false → t.candQualified c = false ∧ nth t.clk.okSince c none = none)
      ∧ (¬ near → s.fofsOk c fofs = true → t.bit CLK_HIST 6 = 1)
      ∧ (s.fd CLK_STATUS CLK_STATUS_ACTIVE = c → t.clk.ppsEdge = some e ∧ (near → t.clk.phase = off) ∧ (¬ near → t.clk.phase = s.clk.phase))
      ∧ (s.fd CLK_STATUS CLK_STATUS_ACTIVE ≠ c → t.clk.ppsEdge = s.clk.ppsEdge ∧ t.clk.phase = s.clk.phase ∧ t.tim = s.tim)
      ∧ s.sameRegs t [CANDc_FOFS c, CANDc_STATUS c, CLK_QUALIFIED, CLK_IN_WTR, CLK_HIST, PCI_ERR]
      ∧ t = { s with regs := t.regs, clk := t.clk, tim := { s.tim with todEdge := t.tim.todEdge }, pci := t.pci, out := t.out }))
  ∧ (∀ (c : Nat) (s : State), c < 13 → s.candInWtr c = true →
    (nth s.clk.wtrTicks c 0 ≤ 1 → Takes (.waitToRestoreExpire c) s (fun t =>
      t.candInWtr c = false ∧ t.bit CLK_IN_WTR c = 0 ∧ t.candQualified c = s.candQualified c
      ∧ s.sameRegs t [CANDc_STATUS c, CLK_IN_WTR] ∧ t = { s with regs := t.regs, clk := { s.clk with wtrTicks := setNth s.clk.wtrTicks c 0 } }))
    ∧ (1 < nth s.clk.wtrTicks c 0 → Idle (.waitToRestoreExpire c) s))
  ∧ (∀ (p ssm : Nat) (s : State), p < 4 →
    Takes (.esmcPduReceive p ssm) s (fun t =>
      t.candQl (9 + p) = s.rd64 CLK_SSM_MAP_LO CLK_SSM_MAP_HI / 2 ^ (4 * (ssm % 16)) % 16
      ∧ t.clk = { s.clk with esmcAt := setNth s.clk.esmcAt p s.tim.us }
      ∧ s.sameRegs t [CANDc_STATUS (9 + p)] ∧ t = { s with regs := t.regs, clk := t.clk, eth := { s.eth with inbox := t.eth.inbox } })
    ∧ (nth s.clk.esmcAt p 0 + 5000000 ≤ s.tim.us → Takes (.esmcTimeout p) s (fun t =>
      t.candQl (9 + p) = 15 ∧ s.sameRegs t [CANDc_STATUS (9 + p)] ∧ t = { s with regs := t.regs }))
    ∧ (s.tim.us < nth s.clk.esmcAt p 0 + 5000000 → Idle (.esmcTimeout p) s))

/-- R101, R102, R107: in ACQUIRE with an active reference the lock condition, held for LOCK_TIME, makes the DPLL LOCKED; a pull whose difference is gone ends. R112,
R113: a pulse of an enabled output that is not squelched leaves the part at the instant the registers give, but for its edge in a keeper gap (R115). What the fallback of an
unmeasured 1PPS input does is the model's choice (log entry 85). R104, R106: a tick of slewing moves the phase difference towards zero by no more than SLOPE ns per
second. -/
def Obligations.DpllLocksAndPulsesLeave : Prop :=
  (∀ (s : State), let act := s.fd CLK_STATUS CLK_STATUS_ACTIVE
    s.dpll = 1 → act < 13 → bitsOf (s.rd CLK_LOCK) 23 16 * 1000000 ≤ s.clk.lockFor →
    (if s.candHasPhase act = true ∧ s.timeValid = true then s.clk.phase.natAbs ≤ bitsOf (s.rd CLK_LOCK) 13 0 * 65536
      else (signed 32 (s.rd (CANDc_FOFS act)) - signed 32 (s.rd TIM_INCR)).natAbs * 1000000000 ≤ 2 ^ 40) →
    Takes .dpllLock s (fun t =>
      t.dpll = 2 ∧ t.bit CLK_HIST 3 = 1 ∧ t.clk = { s.clk with yLog := [signed 32 (s.rd TIM_INCR)] }
      ∧ s.sameRegs t [CLK_STATUS, CLK_HIST, MON_STATE, PCI_ERR]
      ∧ t = { s with regs := t.regs, clk := t.clk, pci := t.pci, out := t.out }))
  ∧ (∀ (s : State), s.dpll ≠ 1 ∨ s.clk.lockFor < bitsOf (s.rd CLK_LOCK) 23 16 * 1000000 → Idle .dpllLock s)
  ∧ (∀ s : State, s.bit CLK_STATUS 2 = 1 → s.clk.phase = 0 →
    Takes .pullDone s (fun t =>
      t.bit CLK_STATUS 2 = 0 ∧ t.bit CLK_HIST 5 = 1 ∧ t.dpll = s.dpll
      ∧ s.sameRegs t [CLK_STATUS, CLK_HIST, PCI_ERR] ∧ t = { s with regs := t.regs, pci := t.pci, out := t.out }))
  ∧ (∀ s : State, s.clk.phase ≠ 0 → Idle .pullDone s)
  ∧ (∀ s : State, let p := s.slew.2.clk.phase
    (p.natAbs * 1000000 ≤ s.clk.phase.natAbs * 1000000)
    ∧ ((s.clk.phase - p).natAbs * 1000000 ≤ bitsOf (s.rd CLK_PULL) 9 0 * 65536 + s.clk.slewRem)
    ∧ (s.timeValid = false → p = s.clk.phase) ∧ s.slew.2 = { s with clk := { s.clk with phase := p, slewRem := s.slew.2.clk.slewRem } })
  ∧ (∀ (n sec : Nat) (s : State), n < 4 → s.bit (PPS_OUTn_CFG n) 0 = 1 → s.squelched (PPS_OUTn_CFG n) = false →
    let own := s.bit (PPS_OUTn_CFG n) 1 = 0
    let edge := if s.candIsPps (s.fd CLK_STATUS CLK_STATUS_ACTIVE) = true then s.clk.ppsEdge else none
    let start : Int := (sec * 4000000000 : Nat) + (if own then 0 else match edge with | some e => fromSecond e / 16384 | none => 0)
      + signed 32 (s.rd (PPS_OUTn_OFS n))
    s.edgeDue (.ppsOut n) start = true →
    Takes (.ppsOutPulse n sec) s (fun t =>
      t.out = (if s.kpr.gap = true then s.out else
        .pulse (.ppsOut n) start (s.rd (PPS_OUTn_WIDTH n)) (s.bit (PPS_OUTn_CFG n) 3 == 1) :: s.out)
      ∧ t.bit (PPS_OUTn_STATUS n) 0 = (if own ∨ edge.isSome = true then 0 else 1)
      ∧ s.sameRegs t [PPS_OUTn_STATUS n] ∧ t = { s with regs := t.regs, clk := { s.clk with pulses := t.clk.pulses }, out := t.out }))
  ∧ (∀ (k : Nat) (s : State), s.bit TICK_OUT_CFG 0 = 1 → s.squelched TICK_OUT_CFG = false →
    s.fd TICK_OUT_CFG TICK_OUT_CFG_DIV ∣ k →
    let start : Int := (k * 4000 : Nat) + signed 32 (s.rd TICK_OUT_OFS)
    s.edgeDue .tickOut start = true →
    Takes (.tickOutPulse k) s (fun t =>
      t.out = (if s.kpr.gap = true then s.out else .pulse .tickOut start (s.rd TICK_OUT_WIDTH) (s.bit TICK_OUT_CFG 3 == 1) :: s.out)
      ∧ t = { s with clk := { s.clk with pulses := t.clk.pulses }, out := t.out }))

/-! ### Nectar links (chapter 05) -/

/-- R127, R128, Table 5-2: markers move a lane from HUNT through VERIFY to LOCKED, misses back through SLIPPING. R126: the violations met in the
marker's line bits are counted. R131: every DFE tap moves by one step with the sign given and is clamped. -/
def Obligations.LanesFollowTheirMarkers : Prop :=
  (∀ (b u ctle : Nat) (line : LaneBits) (arrival : Int) (s : State), s.blockOn 5 = true → b < 16 → u < 17 → s.laneOn b u = true →
    s.laneState b u < 4 →
    let word := line.word
    let st := s.laneState b u
    let l := s.necLane b u
    let misses := s.fd (NEC_LANE_STATUS b u) NEC_LANE_STATUS_MISSES
    let good := markerSound word = true ∧ markerPosOk b u word = true ∧ (st = 0 ∨ bitsOf word 55 40 = (l.seq + 1) % 65536)
    Takes (.laneMarkerCheck b u line arrival ctle) s (fun t =>
      (good → t.laneState b u = (if st = 0 ∨ (st = 1 ∧ l.verified + 1 < 3) then 1 else 2)
        ∧ t.fd (NEC_LANE_STATUS b u) NEC_LANE_STATUS_MISSES = 0 ∧ t.rd (NEC_LANE_MISS_CNT b u) = s.rd (NEC_LANE_MISS_CNT b u))
      ∧ (¬ good → t.laneState b u = (if st = 0 ∨ st = 1 ∨ (st = 3 ∧ 2 ≤ misses) then 0 else 3)
        ∧ t.rd (NEC_LANE_MISS_CNT b u) = (s.rd (NEC_LANE_MISS_CNT b u) + if st = 0 then 0 else 1) % 2 ^ 32
        ∧ (st ≠ 0 → t.bit (NEC_BUNDLEb_HIST b) 2 = 1) ∧ (st = 3 → 2 ≤ misses → t.bit (NEC_BUNDLEb_HIST b) 0 = 1))
      ∧ (st ≠ t.laneState b u → t.bit (NEC_BUNDLEb_STATUS b) u = if t.laneState b u = 2 then 1 else 0)
      ∧ t.rd (NEC_LANE_STUFF_CNT b u) = (s.rd (NEC_LANE_STUFF_CNT b u) + line.viol) % 2 ^ 32
      ∧ (line.viol ≠ 0 → t.bit (NEC_BUNDLEb_HIST b) 1 = 1)
      ∧ s.sameRegs t ([NEC_BUNDLEb_STATUS b, NEC_BUNDLEb_HIST b, NEC_LANE_MISS_CNT b u, NEC_LANE_STUFF_CNT b u, MON_STATE, PCI_ERR]
          ++ (List.range 17).map (NEC_LANE_STATUS b))
      ∧ t = { s with regs := t.regs, nec := t.nec, pci := t.pci, out := t.out }))
  ∧ (∀ (b u : Nat) (sgns : List Int) (s : State), s.blockOn 5 = true → b < 16 → u < 17 → s.laneOn b u = true →
    Takes (.dfeAdapt b u sgns) s (fun t =>
      (∀ k, k < 5 → signed 6 (t.rd (NEC_LANE_DFE b u) / 2 ^ (6 * k))
        = dfeTap k (signed 6 (s.rd (NEC_LANE_DFE b u) / 2 ^ (6 * k))) (Int.sign (nth sgns k 0)))
      ∧ s.sameRegs t [NEC_LANE_DFE b u] ∧ t = { s with regs := t.regs }))

/-- R136 to R144: a block that fills the words received on lanes that are all LOCKED is accepted, counted and delivered to its inputs, in tick order, or
discarded and counted under its first cause; R133: a word that can be rebuilt from the parity lane is the one that was sent; R143: a port without an
accepted block makes its inputs absent; R147: the measurements of the second that ended are latched. -/
def Obligations.NectarBlocksReachTheirInputs : Prop :=
  (∀ (n w0 : Nat) (words : List NecWord) (s : State), n < 64 → s.blockOn 5 = true → s.portEn n = true → s.bit (NEC_BUNDLEb_CFG (n / 4)) 0 = 1 →
    s.bundleAligned (n / 4) = true → (nth s.nec.ports n NecPort.reset).buf = [] → (∀ x ∈ words, ∀ l ∈ x.lanes, l.viol = 0) →
    (∀ q, q < 4 → s.laneState (n / 4) (4 * (n % 4) + q) = 2 ∧ s.laneExcluded (n / 4) (4 * (n % 4) + q) = false) →
    s.fd (NEC_BUNDLEb_CFG (n / 4)) NEC_BUNDLEb_CFG_FORCE_EN = 0 → s.bit (NEC_BUNDLEb_STATUS (n / 4)) 30 = 0 →
    let ws := words.zipIdx.map (fun q => q.1.data (n / 4) (wordLane n (w0 + q.2)) ((w0 + q.2) / 4 % 512))
    let h := necHeader (nth ws 0 0) (nth ws 1 0)
    let k := extendTick48 h.tick s.tick
    let cause := s.necCause n s.tick h false (ws.take (h.length + 2)) (nth ws (h.length + 2) 0)
    let todo := (nth s.nec.ports n NecPort.reset).todo
    let native := (List.range h.count).map (fun j => (⟨s.fd (NEC_PORTn_CFG n) NEC_PORTn_CFG_INPUT_BASE + j, k, h.phase, necBits h.format,
            necSamples ((ws.take (h.length + 2)).drop 2) (necBits h.format) h.spi j, .none⟩ : NativeTick))
    h.ok = true → ws.length = h.length + 3 → n < s.nec.ports.length → (nth s.nec.ports n NecPort.reset).wait = [] →
    Takes (.nectarBlockReceive n w0 words) s (fun t =>
      t.rd (necCounter n cause) = (s.rd (necCounter n cause) + 1) % 2 ^ 32
      ∧ (cause ≠ .none → t.ing.inbox = s.ing.inbox)
      ∧ (cause = .none → ((∀ r ∈ todo, ¬ (r.1 ≤ k ∧ k ≤ r.2)) ∨ ∃ b rest, todo = (k, b) :: rest) → t.ing.inbox = s.ing.inbox ++ native)
      ∧ (cause = .none → (∃ a b rest, todo = (a, b) :: rest ∧ a ≠ k) → (∃ r ∈ todo, r.1 ≤ k ∧ k ≤ r.2) →
          t.ing.inbox = s.ing.inbox ∧ (nth t.nec.ports n NecPort.reset).wait = [(k, native)])
      ∧ s.sameRegs t [necCounter n cause]
      ∧ t = { s with regs := t.regs, nec := { s.nec with ports := t.nec.ports, lanes := t.nec.lanes }, ing := { s.ing with inbox := t.ing.inbox },
                     acq := { s.acq with native := t.acq.native } }))
  ∧ (∀ (n w : Nat) (x : NecWord) (sent : Nat → Nat) (s : State), n < 64 → s.portEn n = true →
    let b := n / 4
    let u := wordLane n w
    let q := w / 4 % 512
    s.bit (NEC_BUNDLEb_CFG b) 1 = 1 → s.laneState b 16 = 2 → (x.lane 16).viol = 0 →
    (∀ v ∈ s.usedLanes b, v ≠ u → s.laneState b v = 2 ∧ s.laneExcluded b v = false ∧ (x.lane v).viol = 0 ∧ x.data b v q = sent v) →
    x.data b 16 q = (s.usedLanes b).foldl (fun acc v => Nat.xor acc (sent v)) 0 →
    s.laneState b u ≠ 2 ∨ s.laneExcluded b u = true ∨ (x.lane u).viol ≠ 0 →
    (s.necWord n w x).1 = (sent u, false) ∧ (s.necWord n w x).2.fd (NEC_BUNDLEb_STATUS b) NEC_BUNDLEb_STATUS_REBUILD_LANE = u)
  ∧ (∀ (n k b : Nat) (rest : List (Nat × Nat)) (s : State), n < 64 → s.bit GLB_DOMAINS 4 = 1 → s.portEn n = true → s.tickClosed k = true →
    (nth s.nec.ports n NecPort.reset).todo = (k, b) :: rest → (∀ r ∈ rest, k < r.1) → k ≤ b → (nth s.nec.ports n NecPort.reset).wait = [] →
    Takes (.nectarPortAbsent n k) s (fun t => ∃ cause : NecCause,
      (s.tickSkipped k = true → cause = .stepped)
      ∧ (s.tickSkipped k = false → (∀ c ∈ (nth s.nec.ports n NecPort.reset).causes, c.1 ≠ k) → cause = .noneReceived)
      ∧ (s.tickSkipped k = false → ∀ c rest, (nth s.nec.ports n NecPort.reset).causes = (k, c) :: rest → cause = c)
      ∧ t.rd (NEC_PORTn_NONE n) = (s.rd (NEC_PORTn_NONE n) + if cause = .noneReceived then 1 else 0) % 2 ^ 32
      ∧ t.ing.inbox = s.ing.inbox ++ (List.range (s.fd (NEC_PORTn_CFG n) NEC_PORTn_CFG_INPUTS_M1 + 1)).map (fun j =>
          ⟨s.fd (NEC_PORTn_CFG n) NEC_PORTn_CFG_INPUT_BASE + j, k, 0, 8, [], cause⟩)
      ∧ s.sameRegs t [NEC_PORTn_NONE n]
      ∧ t = { s with regs := t.regs, nec := { s.nec with ports := t.nec.ports }, ing := { s.ing with inbox := t.ing.inbox },
                     acq := { s.acq with native := t.acq.native } }))
  ∧ (∀ (ckofs : List Int) (s : State), s.nec.due = true → s.bit GLB_DOMAINS 4 = 1 →
    Takes (.rateMeasurementLatch ckofs) s (fun t =>
      (∀ b, b < 16 → t.rd (NEC_BUNDLEb_CKOFS b)
          = (if (nth s.nec.ended b (false, 0)).1 = true then unsigned 32 (nth ckofs b 0) else 0x80000000)
        ∧ t.rd (NEC_BUNDLEb_SKEW b) = min (nth s.nec.ended b (false, 0)).2 0xFFF)
      ∧ (∀ n, n < 64 → let p := nth s.nec.ports n NecPort.reset
        t.rd64 (NEC_PORTn_SPS_LO n) (NEC_PORTn_SPS_HI n) = p.spsEnd % 2 ^ 33 ∧ t.rd (NEC_PORTn_MISSING n) = p.missEnd % 2 ^ 32)
      ∧ s.sameRegs t ((List.range 16).map (fun b => NEC_BUNDLEb_CKOFS b) ++ (List.range 16).map (fun b => NEC_BUNDLEb_SKEW b)
          ++ (List.range 64).flatMap (fun n => [NEC_PORTn_SPS_LO n, NEC_PORTn_SPS_HI n, NEC_PORTn_MISSING n]))
      ∧ t = { s with regs := t.regs, nec := { s.nec with due := false } }))
/-! ### Ingest and channeliser (chapters 06 and 07) -/

/-- R157, R159, R161, R167, R171: a model comes into force at its tick; an armed slot starts at its model's tick with ordinal 0 and stops at a boundary;
it takes the next native tick, whose ordinals follow those of the tick before, or notes its absence.
R162, R166, R167, R169: the grid tick a slot computes holds the samples of its canonical rate, 16 bits each, 0 where absent, with a hit bit each that
is 0 where the sample is absent; a tick with an absent sample is counted. -/
def Obligations.SlotsTakeTheirTicksAndMakeGridTicks : Prop :=
  (let others (i : Nat) (s t : State) : Prop :=
    (∀ j, j ≠ i → t.slot j = s.slot j) ∧ t = { s with regs := t.regs, ing := { s.ing with inbox := t.ing.inbox, replayIn := t.ing.replayIn, slots := t.ing.slots, debt := t.ing.debt } }
  (∀ (i : Nat) (m : DlyModel) (s : State), i < 256 → i < s.ing.slots.length → (s.slot i).pend = some m → s.slotBegun i m.kr = true →
    Takes (.dlyModelApply i) s (fun t =>
      t.slot i = { s.slot i with pend := none, models := m :: (s.slot i).models.take 7 } ∧ t.bit (ING_Ii_STATUS i) 26 = 0
      ∧ s.sameRegs t [ING_Ii_STATUS i] ∧ others i s t))
  ∧ (∀ (i kr : Nat) (s : State), i < 256 → i < s.ing.slots.length → (s.slot i).startAt = some kr → s.blockOn 6 = true →
    s.bit (ING_Ii_CFG i) 0 = 1 → s.slotRunning i = false → s.slotBegun i kr = true →
    Takes (.slotStart i) s (fun t =>
      t.slotRunning i = true ∧ t.slotHalted i = false ∧ t.slotTainted i = false
      ∧ t.slot i = { Slot.reset with kStart := kr, pend := (t.slot i).pend, models := (t.slot i).models,
                                     cfgLog := [(kr, s.rd (ING_Ii_CFG i), s.rd (ING_Ii_HIT i))] }
      ∧ (∀ m, (s.slot i).pend = some m → m.kr = kr → (t.slot i).modelAt kr = some m) ∧ s.sameRegs t [ING_Ii_STATUS i]
      ∧ (s.slotReplay i = false → others i s t) ∧ (s.slotReplay i = true → others i (s.dropReplay i) t)))
  ∧ (∀ (i : Nat) (s : State), i < 256 → i < s.ing.slots.length → ∀ b, (s.slot i).stopAt = some b → s.begun b = true →
    Takes (.slotStop i) s (fun t =>
      t.slotRunning i = false ∧ t.slot i = { s.slot i with stopAt := none } ∧ s.sameRegs t [ING_Ii_STATUS i] ∧ others i s t))
  ∧ (∀ (i : Nat) (b : NativeTick) (s : State), i < 256 → i < s.ing.slots.length →
    let queue := if s.slotReplay i then s.ing.replayIn else s.ing.inbox
    let taken (t : State) : Prop := (if s.slotReplay i then t.ing.replayIn else t.ing.inbox) = queue.erase b
      ∧ (if s.slotReplay i then t.ing.inbox = s.ing.inbox else t.ing.replayIn = s.ing.replayIn)
    let cfg := ((s.replayCfg i b.tick).slotCfgAt i b.tick).1
    nextBlock queue i = some b → s.bit GLB_DOMAINS 4 = 1 → (s.slotReplay i = true → s.replayTurn i = true) →
    (s.slotRunning i = false ∨ s.slotHalted i = true ∨ b.tick < (s.slot i).kStart → Takes (.slotBlockIntake i) s (fun t =>
      taken t ∧ t = { s with ing := { s.ing with inbox := t.ing.inbox, replayIn := t.ing.replayIn, debt := t.ing.debt } }))
    ∧ (s.slotRunning i = true → s.slotHalted i = false → (s.slot i).kStart ≤ b.tick → s.blockOn 6 = true →
      (b.cause ≠ .none → Takes (.slotBlockIntake i) s (fun t =>
        taken t ∧ (t.slot i).ticks = ⟨b.tick, 0, 0, 0, b.cause⟩ :: (s.slot i).ticks.take slotKeep ∧ (t.slot i).lastCause = b.cause
        ∧ t.slotHalted i = (b.tick == (s.slot i).kStart)
        ∧ (bitOf cfg 2 = 1 → bitOf cfg 3 = 0 → t.slotTainted i = true)
        ∧ s.sameRegs t [ING_Ii_STATUS i, ING_ERR, PCI_ERR] ∧ (∀ j, j ≠ i → t.slot j = s.slot j)))
      ∧ (∀ o, b.cause = .none →
          (match (s.slot i).ticks.find? (fun e => e.cause == .none) with
            | none => o = 0 ∧ b.tick = (s.slot i).kStart
            | some j => o = j.o + j.spi ∧ b.tick = j.tick + 1) →
          Takes (.slotBlockIntake i) s (fun t =>
            taken t ∧ (t.slot i).ticks = ⟨b.tick, o, b.phase, b.samples.length, .none⟩ :: (s.slot i).ticks.take slotKeep
            ∧ (t.slot i).nextOrd = (s.slot i).nextOrd + b.samples.length
            ∧ (firStages (s.rd (ING_Ii_FIR i)) = 0 → bitOf cfg 2 = 0 →
                (t.slot i).dec = ((b.samples.map (fun x => (⟨x * (2 ^ (16 - b.bits) : Nat), .none, false⟩ : Smp))).reverse ++ (s.slot i).dec).take decKeep
                ∨ decKeep < (s.slot i).dec.length)
            ∧ s.sameRegs t [ING_Ii_SAT_CNT i] ∧ others i s t)))))
  ∧ (∀ (i k : Nat) (s : State), i < 256 → i < s.ing.slots.length → s.blockOn 6 = true → s.slotRunning i = true → (s.slot i).kStart ≤ k →
    (s.slotHalted i = true ∨ ∃ b rest, (s.slot i).ticks = b :: rest ∧ k + 1 ≤ b.tick) →
    (∀ c ∈ s.ing.canon, ¬ (c.input = i ∧ c.tick = k ∧ c.replay = s.slotReplay i)) → (s.slotReplay i = false → s.begun (k + 5) = false) →
    Takes (.resampleGridTick i k) s (fun t => ∃ (xs : List Smp) (hits : List Bool),
      t.ing.canon = ((⟨i, k, s.slotReplay i, xs, hits⟩ : CanonTick) :: s.ing.canon).take canonKeep
      ∧ xs.length = canonNs (bitsOf (s.rd (ING_Ii_CFG i)) 26 24) ∧ hits.length = xs.length
      ∧ (∀ x ∈ xs, -32768 ≤ x.v ∧ x.v ≤ 32767 ∧ (x.gap = true → x.v = 0)) ∧ (s.slotHalted i = true → ∀ x ∈ xs, x.gap = true)
      ∧ (∀ q ∈ List.zip xs hits, q.1.gap = true → q.2 = false)
      ∧ t.rd (ING_Ii_ABSENT_CNT i) = (s.rd (ING_Ii_ABSENT_CNT i) + if xs.any (·.gap) then 1 else 0) % 2 ^ 32
      ∧ s.sameRegs t [ING_Ii_ABSENT_CNT i, ING_Ii_SAT_CNT i, ING_Ii_STATUS i, ING_Ii_RATIO i]
      ∧ (t.slot i) = { s.slot i with hit := hits.getLastD (s.slot i).hit } ∧ (∀ j, j ≠ i → t.slot j = s.slot j)
      ∧ t = { s with regs := t.regs, ing := { s.ing with slots := t.ing.slots, canon := t.ing.canon } }))

/-- R181 to R191: a spectrum handed on holds the channels of its profile's range, clamped to the format, all 0 where a sample of its window is absent.
R188: a bank switch changes no spectrum's bank but by its home tick. R179: an input stops at a boundary. -/
def Obligations.SpectraAreCompleteAndGainsSwitchByTick : Prop :=
  (∀ (i n : Nat) (s : State),
    let p := s.inputProfile i
    let cfg := s.cpCfg p
    let h := homeTick (s.cpEpoch p) cfg n
    let k0 : Int := (s.cpEpoch p : Int) + (specStart cfg n).fdiv (cpNs cfg)
    let w := s.windowOf i p (specStart cfg n) (cpP cfg * cpL cfg)
    i < 256 → s.blockOn 7 = true → bitOf cfg 0 = 1 → s.inputOn i h = true → s.specExists i n = true →
    (∀ q, q < h + 1 - k0.toNat → s.canonDue i (k0 + q) = true) →
    s.specDone i n = false → (if s.inputReplay i = true then s.chn.debt < s.chnIdle else s.begun (h + 3) = false) →
    Takes (.spectrumCompute i n) s (fun t => ∃ (mark : NecCause) (vals : List (Int × Int)),
      t.chn = { s.chn with debt := t.chn.debt, spectra := (putSpectrum ⟨i, n, h, p, s.inputReplay i, w.any (·.gap), mark, s.cpFirst p, vals⟩
          (s.chn.spectra.filter (fun y => !(y.input == i && y.n == n && y.profile == p && y.replay == s.inputReplay i)))).take specKeep }
      ∧ (s.inputReplay i = false → t.chn.debt = s.chn.debt)
      ∧ vals.length = s.cpCount p
      ∧ (∀ v ∈ vals, v.1.natAbs ≤ (if bitOf cfg 7 = 1 then 127 else 7) ∧ v.2.natAbs ≤ (if bitOf cfg 7 = 1 then 127 else 7))
      ∧ (w.any (·.gap) = true → ∀ v ∈ vals, v = (0, 0)) ∧ ((∀ x ∈ w, x.c = .none) → mark = .none)
      ∧ s.sameRegs t [CHN_CPp_PFB_SAT p, CHN_CPp_OVF_CNT p, CHN_CPp_OVF_STG p, CHN_ERR, PCI_ERR, CHN_Ii_CLIP i, CHN_CPp_LAST_LO p,
          CHN_CPp_LAST_HI p]
      ∧ t = { s with regs := t.regs, chn := t.chn, pci := t.pci, out := t.out }))
  ∧ (∀ (i : Nat) (s : State), Takes (.chnInputStop i) s (fun t =>
      (∀ e, e ∈ t.chn.stopAt ↔ e ∈ s.chn.stopAt ∧ ¬ (e.1 = i ∧ s.begun (e.2 + 2) = true))
      ∧ t = { s with chn := { s.chn with stopAt := t.chn.stopAt } }))
  ∧ (∀ (k : Nat) (s : State), s.chn.gainEff = some k → s.begun k = true → s.chn.switched = false →
    Takes .gainBankSwitch s (fun t =>
      t.bit CHN_GAIN_STATUS 0 = 1 - s.bit CHN_GAIN_STATUS 0 ∧ (∀ h, t.gainBank h = s.gainBank h)
      ∧ s.sameRegs t [CHN_GAIN_STATUS] ∧ t = { s with regs := t.regs, chn := { s.chn with switched := true, banks := t.chn.banks } }))
  ∧ (∀ (k : Nat) (s : State), s.chn.gainEff = some k → s.begun (k + 2) = true → s.chn.switched = true →
    Takes .gainSwitchDone s (fun t =>
      t.bit CHN_GAIN_STATUS 1 = 0 ∧ (∀ h, t.gainBank h = s.gainBank h)
      ∧ s.sameRegs t [CHN_GAIN_STATUS] ∧ t = { s with regs := t.regs, chn := { s.chn with gainEff := none, switched := false } }))
/-! ### Ethernet ports (chapter 08) -/

/-- R197, R205 to R213: a port that reaches LINK_UP starts verification and announces its addresses; one that leaves it discards what it holds. A frame goes to
its queue while there is room; queue 7 goes first, then a promoted queue, then the highest; a bulk send is cut into frames of its granule. -/
def Obligations.PortsSendTheirQueuesInOrder : Prop :=
  (∀ (n : Nat) (s : State), n < s.eth.ports.length → s.ethOn n = true → s.linkUp n = false →
    Takes (.linkUp n) s (fun t =>
      t.linkUp n = true ∧ t.bit (ETHn_HIST n) 1 = 1 ∧ (t.port n).tries = 0
      ∧ t.mmState n = (if s.bit (ETHn_CFG n) 5 = 1 ∧ s.bit (ETHn_CFG n) 8 = 0 then 1 else 0)
      ∧ (t.preemptActive n = true ↔ s.bit (ETHn_CFG n) 5 = 1 ∧ s.bit (ETHn_CFG n) 8 = 1)
      ∧ (s.v4On n = true → ∃ p ∈ t.eth.outbox, p.1 = n ∧ p.2.kind = .arp ∧ p.2.age = s.tick)
      ∧ (s.v6On n = true → ∀ a, (a = linkLocal (s.portMac n) ∨ a = s.ip6 n) → a ≠ 0 →
          (a, s.us) ∈ (t.port n).dad ∧ (n, { s.solicit n 0 a with age := s.tick }) ∈ t.eth.outbox)
      ∧ (∀ m, m ≠ n → t.port m = s.port m) ∧ s.sameRegs t [ETHn_STATUS n, ETHn_HIST n, MON_STATE, PCI_ERR]
      ∧ t = { s with regs := t.regs, eth := { s.eth with ports := t.eth.ports, outbox := t.eth.outbox }, pci := t.pci, out := t.out }))
  ∧ (∀ (n : Nat) (s : State), n < 32 → n < s.eth.ports.length → s.linkUp n = true →
    Takes (.linkDown n) s (fun t =>
      let lost := sumL ((s.port n).queues.map List.length) + (s.eth.outbox.filter (·.1 == n)).length
      t.linkUp n = false ∧ t.bit (ETHn_HIST n) 0 = 1 ∧ t.rd (ETHn_TX_DROP n) = (s.rd (ETHn_TX_DROP n) + lost) % 2 ^ 32
      ∧ t.port n = { EthPort.reset with ident := (s.port n).ident, v6Bad := (s.port n).v6Bad, echoes := (s.port n).echoes }
      ∧ t.eth.outbox = s.eth.outbox.filter (·.1 != n) ∧ (∀ m, m ≠ n → t.port m = s.port m)
      ∧ s.sameRegs t [ETHn_STATUS n, ETHn_HIST n, ETHn_TX_DROP n, PCI_ERR]
      ∧ t = { s with regs := t.regs, eth := { s.eth with ports := t.eth.ports, outbox := t.eth.outbox }, pci := t.pci, out := t.out }))
  ∧ (∀ (n q : Nat) (f : TxFrame) (rest : List (Nat × TxFrame)) (s : State), n < s.eth.ports.length → q < (s.port n).queues.length →
    takeOut n q s.eth.outbox = (some f, rest) → s.tick ≤ f.age → s.ethOn n = true → s.linkUp n = true → s.ipOff n f.bytes = false →
    s.resolved n f.dst = true →
    (s.txRoom n f = true → Takes (.frameEnqueue n q) s (fun t =>
      let v4 := tmplType f.bytes == 0x0800
      t.eth.outbox = rest
      ∧ nth (t.port n).queues q [] = nth (s.port n).queues q [] ++ [if v4 then { f with bytes := withIdent f.bytes (s.port n).ident } else f]
      ∧ (t.port n).ident = (if v4 then ((s.port n).ident + 1) % 65536 else (s.port n).ident)
      ∧ (∀ r, r ≠ q → nth (t.port n).queues r [] = nth (s.port n).queues r []) ∧ (∀ m, m ≠ n → t.port m = s.port m)
      ∧ (q ≠ 7 → t.regs = s.regs ∧ (t.port n).cur = (s.port n).cur) ∧ s.sameRegs t [ETHn_TX_PREEMPT n]
      ∧ (∀ c, q = 7 → (s.port n).cur = some c → (s.port n).susp = none → txQueue c ≠ 7 → s.preemptActive n = true →
          let least := 64 * (1 + s.fd (ETHn_CFG n) ETHn_CFG_ADD_FRAG)
          if least + 60 ≤ (s.port n).left then
            (t.port n).cur = none ∧ (t.port n).susp = some c ∧ 64 ≤ (t.port n).left ∧ (t.port n).left + least ≤ (s.port n).left + 4
            ∧ t.rd (ETHn_TX_PREEMPT n) = (s.rd (ETHn_TX_PREEMPT n) + 1) % 2 ^ 32
            ∧ t.out = .cut n ((s.port n).left - (t.port n).left) :: s.out
          else (t.port n).cur = some c ∧ (t.port n).susp = none ∧ t.regs = s.regs ∧ t.out = s.out)
      ∧ t = { s with regs := t.regs, eth := { s.eth with ports := t.eth.ports, outbox := rest }, out := t.out, freeCtr := t.freeCtr }))
    ∧ (s.txRoom n f = false → Idle (.frameEnqueue n q) s))
  ∧ (∀ (n q : Nat) (f : TxFrame) (rest : List (Nat × TxFrame)) (s : State), takeOut n q s.eth.outbox = (some f, rest) → f.age < s.tick →
    Idle (.frameEnqueue n q) s)
  ∧ (∀ p : EthPort, (nth p.queues 7 [] ≠ [] → txChoice p = some 7)
    ∧ (nth p.queues 7 [] = [] → (∀ r ∈ p.promoted, nth p.queues r [] = []) → ∀ q, q < 7 → nth p.queues q [] ≠ [] →
        (∀ r, q < r → r < 7 → nth p.queues r [] = []) → txChoice p = some q))
  ∧ (∀ (n q : Nat) (f : TxFrame) (rest : List TxFrame) (s : State), n < s.eth.ports.length → s.ethOn n = true → s.linkUp n = true →
    txChoice (s.port n) = some q → q = 7 ∨ (s.port n).susp = none → nth (s.port n).queues q [] = f :: rest →
    Takes (.txFrameStart n) s (fun t =>
      t.out = .frame n f :: s.out
      ∧ t.port n = { s.port n with queues := setNth (s.port n).queues q rest, cur := some f, left := if q = 7 then (s.port n).left else f.len
                                   headAt := setNth (s.port n).headAt q s.us, promoted := (s.port n).promoted.filter (· != q) }
      ∧ t.rd (ETHn_TX_FRAMES n) = (s.rd (ETHn_TX_FRAMES n) + 1) % 2 ^ 32
      ∧ t.rd (ETHn_TX_EXPRESS n) = (s.rd (ETHn_TX_EXPRESS n) + if q = 7 then 1 else 0) % 2 ^ 32
      ∧ (∀ m, m ≠ n → t.port m = s.port m) ∧ s.sameRegs t [ETHn_TX_FRAMES n, ETHn_TX_EXPRESS n]
      ∧ t = { s with regs := t.regs, eth := { s.eth with ports := t.eth.ports }, out := t.out }))
  ∧ (∀ (n q : Nat) (s : State), n < s.eth.ports.length → s.ethOn n = true → q < 7 → nth (s.port n).queues q [] ≠ [] →
    nth (s.port n).headAt q 0 + bitsOf (s.rd ETH_AGE) 9 0 ≤ s.us →
    Takes (.queueAgePromote n q) s (fun t =>
      t.port n = { s.port n with promoted := (t.port n).promoted } ∧ (∀ r, r ∈ (t.port n).promoted ↔ r ∈ (s.port n).promoted ∨ r = q)
      ∧ (∀ m, m ≠ n → t.port m = s.port m) ∧ t = { s with eth := { s.eth with ports := t.eth.ports } }))
  ∧ (∀ (n : Nat) (x : Send) (s : State), s.eth.sends.find? (·.port == n) = some x → s.tick ≤ x.age →
    let p := segSize (bitsOf (s.rd (ETHn_CFG2 n)) 13 0) (tmplV6 x.tmpl) x.hdr.length x.gran
    0 < p →
    Takes (.bulkSend n) s (fun t =>
      t.eth.sends = s.eth.sends.erase x
      ∧ (∃ fs, t.eth.outbox = s.eth.outbox ++ fs ∧ fs.length = ceilDiv x.data.length p
          ∧ ∀ f ∈ fs, f.1 = n ∧ f.2.kind = x.kind ∧ f.2.src = x.src ∧ f.2.sid = x.sid ∧ f.2.queue = x.queue ∧ f.2.age = x.age
            ∧ f.2.dst = tmplDst x.tmpl)
      ∧ t = { s with eth := { s.eth with outbox := t.eth.outbox, sends := t.eth.sends } }))
  ∧ (∀ (n : Nat) (s : State), n < s.eth.ports.length → s.ethOn n = true → s.linkUp n = true →
    s.mmState n = 1 ∨ s.mmState n = 2 ∧ (s.port n).verAt + s.fd (ETHn_CFG n) ETHn_CFG_VERIFY_MS * 1000 ≤ s.us →
    ((s.port n).tries < 3 → Takes (.mmVerifySend n) s (fun t =>
      t.mmState n = 2 ∧ t.port n = { s.port n with tries := (s.port n).tries + 1, verAt := s.us }
      ∧ t.eth.outbox = s.eth.outbox ++ [(n, { mmFrame .verify n with age := s.tick })] ∧ s.sameRegs t [ETHn_STATUS n]
      ∧ (∀ m, m ≠ n → t.port m = s.port m)
      ∧ t = { s with regs := t.regs, eth := { s.eth with ports := t.eth.ports, outbox := t.eth.outbox } }))
    ∧ (3 ≤ (s.port n).tries → Takes (.mmVerifySend n) s (fun t =>
      t.mmState n = 4 ∧ t.bit (ETHn_HIST n) 2 = 1 ∧ s.sameRegs t [ETHn_STATUS n, ETHn_HIST n, PCI_ERR]
      ∧ t = { s with regs := t.regs, pci := t.pci, out := t.out })))

/-- R201, R202, R210, R216 to R220: a frame that passes the checks goes to its handler, one that fails is counted; the services answer ARP, neighbour
solicitations, echo requests within their rate and membership queries, and announce a change of address or of a group. -/
def Obligations.FramesAndServicesAreHandled : Prop :=
  let sends (s t : State) (n : Nat) (l : List TxFrame) : Prop := t.eth.outbox = s.eth.outbox ++ l.map (fun f => (n, { f with age := s.tick }))
  (∀ (n : Nat) (f : RxFrame) (s : State), s.ethOn n = true → s.linkUp n = true →
    (f.mpkt = .verify → f.checkOk = true → f.fecBad = false → Takes (.frameReceive n f) s (fun t =>
      sends s t n [mmFrame .respond n] ∧ t = { s with eth := { s.eth with outbox := t.eth.outbox } }))
    ∧ (f.mpkt = .respond → f.checkOk = true → f.fecBad = false → s.mmState n = 2 → Takes (.frameReceive n f) s (fun t =>
      t.mmState n = 3 ∧ t.preemptActive n = true ∧ s.sameRegs t [ETHn_STATUS n] ∧ t = { s with regs := t.regs }))
    ∧ (f.mpkt = .express → f.fecBad = false → f.checkOk = false → Takes (.frameReceive n f) s (fun t =>
      t.rd (ETHn_RX_FCS_ERR n) = (s.rd (ETHn_RX_FCS_ERR n) + 1) % 2 ^ 32 ∧ t.bit (ETHn_HIST n) 4 = 1
      ∧ s.sameRegs t [ETHn_RX_FCS_ERR n, ETHn_HIST n, PCI_ERR] ∧ t = { s with regs := t.regs, pci := t.pci, out := t.out }))
    ∧ (f.mpkt = .express → f.fecBad = false → f.checkOk = true → f.bytes.length < 64 ∨ 9022 < f.bytes.length →
      Takes (.frameReceive n f) s (fun t =>
        t.rd (ETHn_RX_OVERSIZE n) = (s.rd (ETHn_RX_OVERSIZE n) + 1) % 2 ^ 32 ∧ t.bit (ETHn_HIST n) 4 = 1
        ∧ s.sameRegs t [ETHn_RX_OVERSIZE n, ETHn_HIST n, PCI_ERR] ∧ t = { s with regs := t.regs, pci := t.pci, out := t.out }))
    ∧ (f.mpkt = .express → f.fecBad = false → f.checkOk = true → 64 ≤ f.bytes.length → f.bytes.length ≤ 9022 → beAt f.bytes 12 2 = 0x0806 →
      s.macOk n (beAt f.bytes 0 6) = true → Takes (.frameReceive n f) s (fun t =>
        t.eth.inbox = s.eth.inbox ++ [⟨.arp, n, beAt f.bytes 6 6, f.bytes, s.capture f.stamp, 0, beAt f.bytes 6 6⟩]
        ∧ t.rd (ETHn_RX_FRAMES n) = (s.rd (ETHn_RX_FRAMES n) + 1) % 2 ^ 32 ∧ s.sameRegs t [ETHn_RX_FRAMES n]
        ∧ t = { s with regs := t.regs, eth := { s.eth with inbox := t.eth.inbox } })))
  ∧ (∀ (n ip mac : Nat) (s : State), s.ethOn n = true → s.v4On n = true → ip ≠ s.rd (ETHn_IP4 n) →
    Takes (.arpRequest n true ip mac (s.rd (ETHn_IP4 n))) s (fun t =>
      sends s t n [s.arpFrame n 2 mac mac ip]
      ∧ t = { s with eth := { s.eth with outbox := t.eth.outbox, inbox := t.eth.inbox } }))
  ∧ (∀ (n mac target : Nat) (request : Bool) (s : State), s.ethOn n = true → s.v4On n = true → mac ≠ s.portMac n →
    Takes (.arpRequest n request (s.rd (ETHn_IP4 n)) mac target) s (fun t => t.bit (ETHn_HIST n) 6 = 1))
  ∧ (∀ (n target : Nat) (probe : Bool) (s : State), n < s.eth.ports.length → s.ethOn n = true → s.v6On n = true →
    (target ∈ s.ip6Used n → Takes (.neighbourSolicitation n target probe) s (fun t =>
      let x := s.eth.inbox.find? (fun x => x.kind == .neighbour && x.port == n)
      sends s t n [s.advertise n (match x with | some x => x.smac | none => 0)
        (match x with | some x => if probe then 0 else x.src | none => 0) target]
      ∧ t = { s with eth := { s.eth with outbox := t.eth.outbox, inbox := t.eth.inbox } }))
    ∧ ((∃ p ∈ (s.port n).dad, p.1 = target) → Takes (.neighbourSolicitation n target true) s (fun t =>
      target ∈ (t.port n).v6Bad ∧ t.bit (ETHn_HIST n) 6 = 1 ∧ s.sameRegs t [ETHn_HIST n, PCI_ERR] ∧ t.eth.outbox = s.eth.outbox)))
  ∧ (∀ (n a at_ : Nat) (rest : List (Nat × Nat)) (conflict : Bool) (s : State), n < s.eth.ports.length → s.ethOn n = true →
    (s.port n).dad = (a, at_) :: rest → at_ + 1000000 ≤ s.us ∨ conflict = true →
    Takes (.dadComplete n conflict) s (fun t =>
      t.port n = { s.port n with dad := rest, v6Bad := if conflict then addNew (s.port n).v6Bad a else (s.port n).v6Bad } ∧ (conflict = true → t.bit (ETHn_HIST n) 6 = 1)
      ∧ (∀ m, m ≠ n → t.port m = s.port m) ∧ s.sameRegs t [ETHn_HIST n, PCI_ERR]
      ∧ t = { s with regs := t.regs, eth := { s.eth with ports := t.eth.ports }, pci := t.pci, out := t.out }))
  ∧ (∀ (e : Nat) (x : Neigh) (mac : Option Nat) (s : State), s.eth.neigh[e]? = some x →
    x.mac = none ∨ x.at_ + bitsOf (s.rd ETH_NEIGH_CFG) 11 0 * 1000000 ≤ s.us →
    Takes (.neighbourRefresh e mac) s (fun t =>
      t.eth.neigh = setNth s.eth.neigh e { x with mac := mac, at_ := s.us }
      ∧ sends s t x.port [if x.v6 then s.solicit x.port (s.ip6 x.port) x.ip else s.arpFrame x.port 1 (2 ^ 48 - 1) 0 x.ip]
      ∧ t = { s with eth := { s.eth with neigh := t.eth.neigh, outbox := t.eth.outbox } }))
  ∧ (∀ (n dst : Nat) (v6 : Bool) (payload : List Byte) (x : RxItem) (s : State), n < s.eth.ports.length → s.ethOn n = true →
    dst ∈ s.unicast n v6 → s.eth.inbox.find? (fun x => x.kind == .icmp && x.port == n) = some x →
    ((s.port n).echoes < bitsOf (s.rd ETH_ICMP_RATE) 15 0 → Takes (.icmpEchoRequest n v6 dst payload) s (fun t =>
      sends s t n [svcFrame .icmp n (if v6 then s.icmp6 n x.smac dst x.src (Config.ipTtl % 256) [] ([129, 0, 0, 0] ++ payload)
        else s.ip4Msg n x.smac x.src (Config.ipTtl % 256) 1 [] ([0, 0, 0, 0] ++ payload))]
      ∧ t.port n = { s.port n with echoes := (s.port n).echoes + 1 }
      ∧ t = { s with eth := { s.eth with ports := t.eth.ports, outbox := t.eth.outbox, inbox := t.eth.inbox } }))
    ∧ (bitsOf (s.rd ETH_ICMP_RATE) 15 0 ≤ (s.port n).echoes → Takes (.icmpEchoRequest n v6 dst payload) s (fun t =>
      t.rd (ETHn_ICMP_LIMITED n) = (s.rd (ETHn_ICMP_LIMITED n) + 1) % 2 ^ 32 ∧ s.sameRegs t [ETHn_ICMP_LIMITED n]
      ∧ t = { s with regs := t.regs, eth := { s.eth with inbox := t.eth.inbox } })))
  ∧ (∀ (n maxMs : Nat) (kind : QueryKind) (groups : List Nat) (s : State), n < s.eth.ports.length → s.ethOn n = true →
    Takes (.multicastQuery n kind groups maxMs) s (fun t =>
      (∃ gs, t.port n = { s.port n with queries := (s.port n).queries ++ [(s.us + n * maxMs * 1000 / 32, gs)] }
        ∧ ∀ g, g ∈ gs ↔ g < 64 ∧ s.joined g n = true ∧ s.grpV6 g = kind.v6 ∧ (groups = [] ∨ s.grpAddr g ∈ groups))
      ∧ t.rd (ETHn_RX_OLD_QUERY n) = (s.rd (ETHn_RX_OLD_QUERY n) + if kind.old then 1 else 0) % 2 ^ 32 ∧ s.sameRegs t [ETHn_RX_OLD_QUERY n]
      ∧ t = { s with regs := t.regs, eth := { s.eth with ports := t.eth.ports, inbox := t.eth.inbox } }))
  ∧ (∀ (n due : Nat) (gs : List Nat) (rest : List (Nat × List Nat)) (s : State), n < s.eth.ports.length →
    (s.port n).queries = (due, gs) :: rest → due ≤ s.us → Takes (.multicastReportSend n) s (fun t =>
      (t.port n).queries = rest
      ∧ (∃ f, f.kind = .membership ∧ f.queue = 6 ∧ sends s t n (if gs = [] then [] else [f]))
      ∧ t.eth.outbox = (s.stateReport n gs).eth.outbox
      ∧ t = { s with eth := { s.eth with ports := t.eth.ports, outbox := t.eth.outbox } }))
  ∧ (∀ (g n : Nat) (j : Bool) (rest : List (Nat × Nat × Bool)) (s : State),
    (s.eth.grpPend = (g, n, j) :: rest → Takes .groupStateChange s (fun t =>
      t.eth.grpPend = rest ∧ t.eth.grpRep = s.eth.grpRep ++ [(g, n, j, s.us)] ∧ t.eth.outbox = (s.changeReport g n j).eth.outbox
      ∧ (∃ f, f.kind = .membership ∧ f.queue = 6 ∧ sends s t n [f])
      ∧ t = { s with eth := { s.eth with grpPend := rest, grpRep := t.eth.grpRep, outbox := t.eth.outbox } }))
)
  ∧ (∀ (g n at_ : Nat) (j : Bool) (rest : List (Nat × Nat × Bool × Nat)) (s : State), s.eth.grpRep = (g, n, j, at_) :: rest →
    at_ + 1000000 ≤ s.us → Takes .stateChangeReportRepeat s (fun t =>
      t.eth.grpRep = rest ∧ t.eth.outbox = (s.changeReport g n j).eth.outbox
      ∧ t = { s with eth := { s.eth with grpRep := rest, outbox := t.eth.outbox } }))
  ∧ (∀ (n r v new : Nat) (s : State), n < 32 → n < s.eth.ports.length → r < 7 →
    let a := ETHn_CFG n + nth [0x14, 0x18, 0x20, 0x24, 0x28, 0x2C, 0x30] r 0
    s.hostReaches .rw a v new →
    Takes (.ethAddressWrite n r v) s (fun t =>
      t.rd a = new % 2 ^ 32 ∧ s.sameRegs t [a]
      ∧ (s.rd a = new → t.eth = s.eth)
      ∧ (s.rd a ≠ new → r < 2 → s.linkUp n = true → t.v4On n = true →
          sends s t n [t.arpFrame n 1 (2 ^ 48 - 1) 0 (t.rd (ETHn_IP4 n))])
      ∧ (s.rd a ≠ new → 2 ≤ r → s.linkUp n = true → t.v6On n = true →
          let l := [linkLocal (t.portMac n), t.ip6 n].filter (· != 0)
          (t.port n).dad = l.map (fun x => (x, s.us)) ∧ (t.port n).v6Bad = [] ∧ sends s t n (l.map (t.solicit n 0)))
      ∧ t = { s with regs := t.regs, eth := { s.eth with ports := t.eth.ports, outbox := t.eth.outbox }, pass := t.pass }))
/-! ### Corner turn and brood assembly (chapter 09) -/

/-- R230 to R247: a producer sends an owned entry on the internal path as one send of a header and its records; a record that is on time, in its window and new is
stored, and a late one is counted; presence becomes final W ticks after its dwell and the window passes on; a map switch takes effect at its dwell;
announces go out by the period, are kept or dropped, and members that fall silent are removed. -/
def Obligations.BroodMovesFromProducersToOwners : Prop :=
  (∀ (x e k d : Nat) (c : CtnSes) (ns : List Nat) (en : SliceEnt) (s : State),
    let g := c.inCount * c.bytes
    s.ctnAt x k = some (c, ns) → s.worksOn 8 k = true → c.produce = true → s.begun k = true → s.specsReady c x k ns = true →
    s.ctn.sent.contains (x, e, k) = false → (s.sesReplay x = false → s.begun (k + 4) = false) →
    (s.sesReplay x = true → ∀ n ∈ ns, c.waits (n / c.d) = false) → (∀ n ∈ ns, n / c.d = d) →
    (s.slices (c.mapsAt d).map)[e]? = some en → s.ownsEnt en = true → en.sbEn = false →
    0 < en.count → g * (1 + en.count * ns.length) ≤ 4194304 →
    Takes (.broodSend x e k) s (fun t => ∃ (b : List Byte) (m : Nat), m < 2
      ∧ t.eth = { s.eth with inbox := s.eth.inbox ++ [⟨.brood x, 32, 0, b, s.time16, 0, 0⟩] }
      ∧ b.length = 64 + g * (m + en.count * ns.length) ∧ beAt b 4 2 = x % 2 ^ 16 ∧ beAt b 10 2 = en.count % 2 ^ 16
      ∧ beAt b 12 2 = en.first % 2 ^ 16 ∧ beAt b 32 8 = k % 2 ^ 64
      ∧ t.rd CTN_TX_LOCAL = (s.rd CTN_TX_LOCAL + 1) % 2 ^ 32 ∧ s.sameRegs t [CTN_TX_LOCAL]
      ∧ t = { s with regs := t.regs, eth := t.eth, ctn := { s.ctn with sent := ((x, e, k) :: s.ctn.sent).take 65536 } }))
  ∧ (∀ (x n tick src dst si cnt ch port ip sp sm : Nat) (data : List Byte) (stamp : Int) (c : CtnSes) (s : State),
    let m := c.mapsAt (n / c.d)
    let b := broodHeader (if c.wide then 32 else 0) x src dst 1 ch cnt si 1 n tick 0 data.length (s.rd CTN_SWARM_ID) m.version ++ data
    let item : RxItem := ⟨.brood x, port, ip, b, stamp, sp, sm⟩
    let key : Arrival := ⟨x, n / c.d, (idxOf (s.owned m.map) ch).getD 0, n, si⟩
    let place := c.place (s.numInputs m.inmap) key.l n si
    let late := s.sesReplay x = false ∧ c.home n + c.w < tickOfStamp stamp
    s.eth.inbox.find? (fun y => match y.kind with | .brood _ => true | _ => false) = some item → s.blockOn 8 = true →
    s.ctnForSpec x n = some c →
    c.own = true → 0 < c.d → 0 < cnt → ch ∈ s.owned m.map → (src, si, cnt) ∈ s.inputs m.inmap → data.length = cnt * c.bytes →
    x < 2 ^ 16 → src < 2 ^ 16 → cnt < 2 ^ 16 → ch < 2 ^ 16 → si < 2 ^ 32 → n < 2 ^ 64 → data.length < 2 ^ 32 → m.version < 2 ^ 32 →
    (¬ late → c.assigned (n / c.d) = true → s.ctn.arrived.contains key = false →
      Takes .broodFrameReceive s (fun t =>
        t.ctn = { s.ctn with arrived := key :: s.ctn.arrived, brood := spSetAll zeroByte s.ctn.brood place data, bad := t.ctn.bad }
        ∧ (∀ a, a ∈ t.ctn.bad ↔ a ∈ s.ctn.bad ∧ ¬ (place ≤ a ∧ a < place + data.length))
        ∧ t = { s with eth := { s.eth with inbox := s.eth.inbox.erase item }, ctn := t.ctn }))
    ∧ (late → Takes .broodFrameReceive s (fun t =>
        t.rd CTN_RX_LATE = (s.rd CTN_RX_LATE + 1) % 2 ^ 32 ∧ (x < 1024 → t.rd (CTN_SESx_LATE x) = (s.rd (CTN_SESx_LATE x) + 1) % 2 ^ 32)
        ∧ s.sameRegs t [CTN_RX_LATE, CTN_SESx_LATE x] ∧ t = { s with regs := t.regs, eth := { s.eth with inbox := s.eth.inbox.erase item } })))
  ∧ (∀ (x d : Nat) (c : CtnSes) (s : State), s.ctnFor x d = some c → s.ownsAt c d = true → c.assigned d = true →
    (s.sesReplay x = false → s.begun (c.endTick d + c.w + 1) = true) → (s.sesReplay x = true → s.replayOver c x d = true) →
    (∀ f ∈ s.ctn.final, ¬ (f.1 = x ∧ f.2.1 = d)) →
    let nx := s.numInputs (c.mapsAt d).inmap
    Takes (.presenceFinalise x d) s (fun t =>
      (∀ i, i < nx → t.presence x d i = s.presenceCode c x d i)
      ∧ t.rd (CTN_SESx_ABSENT x) = (s.rd (CTN_SESx_ABSENT x) + ((List.range nx).filter (fun i => s.presenceCode c x d i % 2 == 0)).length) % 2 ^ 32
      ∧ s.sameRegs t [CTN_SESx_ABSENT x] ∧ t = { s with regs := t.regs, ctn := { s.ctn with final := t.ctn.final } }))
  ∧ (∀ (x d : Nat) (c : CtnSes) (s : State), s.ctnOf x = some c → (∀ e ∈ s.ctn.ending, e.1 ≠ x) → c.assigned d = true →
    s.sesReplay x = false → s.begun (c.endTick d + c.w + 5) = true → (∃ f ∈ s.ctn.final, f.1 = x ∧ f.2.1 = d) → c.last = none →
    Takes (.broodWindowRelease x d) s (fun t =>
      (∃ c', t.ctnOf x = some c' ∧ c'.assigned (d + 2) = true ∧ c'.assigned d = false ∧ c' = { c with win := c'.win })
      ∧ (∀ a, a ∈ t.ctn.arrived ↔ a ∈ s.ctn.arrived ∧ ¬ (a.x = x ∧ a.d = d)) ∧ (∀ y, y ≠ x → t.ctnOf y = s.ctnOf y)
      ∧ t = { s with ctn := { s.ctn with ses := t.ctn.ses, arrived := t.ctn.arrived, marked := t.ctn.marked, marks := t.ctn.marks,
                                         final := t.ctn.final } }))
  ∧ (∀ (x tk d : Nat) (m : CtnMaps) (c : CtnSes) (s : State), x < 1024 → s.ctnOf x = some c → c.pend = some (tk, d, m) →
    s.begun (c.home (d * c.d)) = true →
    Takes (.mapSwitch x) s (fun t =>
      t.ctnOf x = some { c with pend := none, maps := (tlPut c.maps d m).take 64 } ∧ (∀ c', t.ctnOf x = some c' → ∀ e, d ≤ e → c'.mapsAt e = m)
      ∧ t.rd (CTN_SESx_MAP x) = m.map % 2 ^ 32 ∧ t.rd (CTN_SESx_INMAP x) = m.inmap % 2 ^ 32 ∧ t.rd (CTN_SESx_VERSION x) = m.version % 2 ^ 32
      ∧ t.rd (CTN_SESx_CFG x) = s.rd (CTN_SESx_CFG x) - (if s.numOwned m.map = 0 then 4 * s.bit (CTN_SESx_CFG x) 2 else 0)
      ∧ (∀ w, s.cmbOf x = some w → w.last = none → t.fd (CMB_SESx_STATUS x) ⟨25, 16⟩ = ceilDiv (s.gx m) 16 % 2 ^ 10)
      ∧ s.sameRegs t [CTN_SESx_MAP x, CTN_SESx_INMAP x, CTN_SESx_VERSION x, CTN_SESx_CFG x, CMB_SESx_STATUS x, CMB_LOAD, CMB_PEAK, SUP_USE,
          WAG_LOAD, WAG_WUSE, WAG_GUSE]
      ∧ (∀ y, y ≠ x → t.ctnOf y = s.ctnOf y) ∧ t = { s with regs := t.regs, ctn := { s.ctn with ses := t.ctn.ses } }))
  ∧ (∀ (n seq : Nat) (sent : Option Nat) (s : State), s.blockOn 8 = true → n < 32 → s.bit CTN_ANN_PORTS n = 1 → s.linkUp n = true →
    s.annPeriod * 1000 ∣ s.tick → s.ctn.annSeq[n]? = some (seq, sent) → sent ≠ some s.tick →
    Takes (.hiveAnnounceSend n) s (fun t =>
      t.ctn.annSeq[n]? = some ((seq + 1) % 2 ^ 32, some s.tick)
      ∧ (∃ f, t.eth.outbox = s.eth.outbox ++ [(n, f)] ∧ f.kind = .announce ∧ f.queue = 6 ∧ f.age = s.tick ∧ f.len = f.bytes.length + 4)
      ∧ t = { s with eth := { s.eth with ports := t.eth.ports, outbox := t.eth.outbox }, ctn := { s.ctn with annSeq := t.ctn.annSeq } }))
  ∧ (∀ (a : RxItem) (s : State), s.eth.inbox.find? (·.kind == .announce) = some a → s.blockOn 8 = true →
    let h := beAt a.bytes 8 2
    let good := beAt a.bytes 0 2 = 0xB7A0 ∧ beAt a.bytes 2 1 = 1 ∧ beAt a.bytes 4 4 = s.rd CTN_SWARM_ID ∧ h ≤ 1023 ∧ h ≠ s.hiveId
      ∧ s.bit (CTN_PEERh_MASK h) a.port ≠ 0
    Takes .hiveAnnounceReceive s (fun t =>
      t.ctn.annIn = (if good then s.ctn.annIn ++ [(a.port, h, a.src)] else s.ctn.annIn)
      ∧ t.rd CTN_ANN_DROP = (s.rd CTN_ANN_DROP + if good then 0 else 1) % 2 ^ 32 ∧ s.sameRegs t [CTN_ANN_DROP]
      ∧ t = { s with regs := t.regs, eth := { s.eth with inbox := s.eth.inbox.erase a }, ctn := { s.ctn with annIn := t.ctn.annIn } }))
  ∧ (∀ (h : Nat) (s : State), h < 1024 → (∃ m ∈ s.ctn.members, m.hive = h ∧ s.memberGone m = true) →
    Takes (.peerAge h) s (fun t =>
      (∀ m, m ∈ t.ctn.members ↔ m ∈ s.ctn.members ∧ ¬ (m.hive = h ∧ s.memberGone m = true))
      ∧ t.rd (CTN_PEERh_STATUS h) = peerStatus (t.peerPorts h) % 2 ^ 32 ∧ t.bit (CTN_PEERh_HIST h) 2 = 1 ∧ t.bit CTN_ERR 2 = 1
      ∧ s.sameRegs t [CTN_PEERh_STATUS h, CTN_PEERh_HIST h, CTN_ERR, PCI_ERR]
      ∧ t = { s with regs := t.regs, ctn := { s.ctn with members := t.ctn.members }, pci := t.pci, out := t.out }))
/-! ### The comb correlator (chapter 10) -/

/-- R252, R254, R256, R262 to R264, R537: in the tick after reference tick k, from its stagger on, or in the one after that, a comb takes what is left of the
block-spectra of k of the one session that has work, as many as its power grant and the cycles left in the tick allow, and adds to each cell the product of its row and its column sample; its other slots stay.
R266 to R268, R278 to R281: the dump of the session's next dwell carries its input list, presence codes and one block for each of its slots, the rows and
columns of absent inputs zero, and clears the bank read; the last dump of a session ends its comb work. -/
def Obligations.CombTakesTheWorkOfATickAndDumpsADwell : Prop :=
  (∀ (c k x n : Nat) (m : CmbSes) (s : State),
    let g := s.cmbGrid x m
    let left := s.combLeft x m c k
    let dc (it : Nat × Nat × (Nat × Nat × Nat × Nat × Nat)) : CtnSes := (s.ctnFor x (it.1 / g.d)).getD g
    let key (it : Nat × Nat × (Nat × Nat × Nat × Nat × Nat)) : Nat := dsKey c it.2.2.2.1 (it.1 / g.d % 2)
    let nx (it : Nat × Nat × (Nat × Nat × Nat × Nat × Nat)) : Nat := s.numInputs (g.mapsAt (it.1 / g.d)).inmap
    let smp (it : Nat × Nat × (Nat × Nat × Nat × Nat × Nat)) (p : Nat) : Int × Int :=
      if p < nx it then s.broodRead (dc it) x it.2.2.2.2.1 it.1 (nth (s.inputList x (nx it)) p 0) else (0, 0)
    let fit := (1000 - (if s.begun (k + 2) then s.combPos c else max (s.combPos c) (200 + 16 * c))) / g.mCycles
    c ≤ 16 → s.worksOn 10 k = true → s.begun (k + 1) = true → s.begun (k + 3) = false → s.cmbOf x = some m → s.combOrder = [x] →
    s.sesReplay x = false → (k = 0 ∨ s.begun (k + 2) = true ∨ s.combLeft x m c (k - 1) = []) →
    (∀ u ∈ s.cmb.used, ¬ (u.1 = s.tick ∧ u.2.1 = x ∧ u.2.2.1 = c)) →
    (s.grants = [] ∧ n = min left.length fit
      ∨ c < 16 ∧ ∃ r, s.grants.find? (fun r => r.x == x && r.unit == 0) = some r ∧ r.got < r.want
          ∧ (∀ it ∈ left, it.2.1 = c) ∧ n = min left.length (min ((r.got / 16 + if c < r.got % 16 then 1 else 0) / g.mCycles) fit)) →
    Takes (.combTickWork c k []) s (fun t =>
      (t.combDone x c k).1 = (s.combDone x c k).1 + n
      ∧ (∀ y cb e, ¬ (y = x ∧ cb = c ∧ e = k) → (t.combDone y cb e).1 = (s.combDone y cb e).1)
      ∧ (∀ a i j, i < 128 → j < 128 → (s.dsGet a).length = 16384 →
          nth (t.dsGet a) (i * 128 + j) (0, 0)
            = ((left.take n).filter (fun it => key it == a)).foldl (fun v it =>
                let p := cellProd (smp it (it.2.2.2.2.2.1 * 128 + i)) (smp it (it.2.2.2.2.2.2 * 128 + j))
                (v.1 + p.1, v.2 + p.2)) (nth (s.dsGet a) (i * 128 + j) (0, 0)))
      ∧ (∀ a, (∀ it ∈ left.take n, key it ≠ a) → t.dsGet a = s.dsGet a) ∧ (s.ctn.bad = [] → t.cmb.noted = s.cmb.noted)
      ∧ t = { s with cmb := { s.cmb with dstore := t.cmb.dstore, work := t.cmb.work, used := t.cmb.used, busy := t.cmb.busy
                                         noted := t.cmb.noted } }))
  ∧ (∀ (x d : Nat) (m : CmbSes) (s : State),
    let c := s.cmbGrid x m
    let maps := c.mapsAt d
    let nx := s.numInputs maps.inmap
    let md := s.modeAt c d
    let n := ceilDiv (s.gx maps) 16
    let own (a : Nat) : Prop := ∃ cb j, cb < 17 ∧ j < n ∧ a = dsKey cb (s.slotBase x + j) (d % 2)
    let list := s.inputList x nx
    s.cmbOf x = some m → s.dumpDue x m d = true → s.presenceFinal x d = true → s.sesReplay x = true ∨ c.endTick d + c.w < m.judged →
    m.renew = none → x < 1024 →
    Takes (.combDump x d []) s (fun t =>
      (∃ D : Dump, t.cmb.dumps = s.cmb.dumps ++ [D] ∧ D.x = x ∧ D.d = d ∧ D.nx = nx ∧ D.list = list ∧ D.cx = s.numOwned maps.map
        ∧ D.codes = (List.range nx).map (fun i => s.presence x d i)
        ∧ (∀ w g, w < 16 → g ∈ s.combBlocks x c d w → ∃ b ∈ D.blocks, b.g = g.1 ∧ b.comb = w ∧ b.slot = g.2.1
            ∧ (∀ r, r ∈ b.exRows ↔ r < 128 ∧ g.2.2.2.1 * 128 + r < nx ∧ nth D.codes (nth list (g.2.2.2.1 * 128 + r) 0) 0 % 2 = 0)
            ∧ (∀ q, q ∈ b.exCols ↔ q < 128 ∧ g.2.2.2.2 * 128 + q < nx ∧ nth D.codes (nth list (g.2.2.2.2 * 128 + q) 0) 0 % 2 = 0)
            ∧ (w ∉ md.retired → b.withheld = false ∧ b.suspect = s.retiredSince c d w
                ∧ (s.cmb.bad = [] → b.vals = maskCells b.exRows b.exCols (s.dsGet (dsKey w g.2.1 (d % 2))) ∧ b.uncorr = []))
            ∧ (w ∈ md.retired → md.cw = 1 → md.standin = some w → b.withheld = false ∧ b.suspect = false
                ∧ (s.cmb.bad = [] → b.vals = maskCells b.exRows b.exCols (s.dsGet (dsKey 16 g.2.1 (d % 2)))))
            ∧ (w ∈ md.retired → ¬ (md.cw = 1 ∧ md.standin = some w) → b.withheld = true)))
      ∧ (∀ a, own a → t.dsGet a = zeroBlock) ∧ (∀ a, ¬ own a → t.dsGet a = s.dsGet a)
      ∧ t.rd (CMB_SESx_DWELL_LO x) = d % 2 ^ 32
      ∧ (m.last = some d → t.cmbOf x = none) ∧ (m.last ≠ some d → t.cmbOf x = some { m with dumped := some d, grid := c })
      ∧ (∀ y, y ≠ x → t.cmbOf y = s.cmbOf y)
      ∧ s.sameRegs t [CMB_SESx_DWELL_LO x, CMB_SESx_SUSPECT x, CMB_SESx_STATUS x, CMB_LOAD, CMB_PEAK]
      ∧ t = { s with regs := t.regs, cmb := { s.cmb with ses := t.cmb.ses, dstore := t.cmb.dstore, bad := t.cmb.bad, seen := t.cmb.seen
                                                         lost := t.cmb.lost, noted := t.cmb.noted, work := t.cmb.work, skip := t.cmb.skip
                                                         wit := t.cmb.wit, dumps := t.cmb.dumps } }))

/-- R272 to R276: of the comparisons that wait, that of the lowest session comes next. What it finds takes effect at the end of the tick (R273):
agreement clears a PENDING comb, a first MISMATCH makes the comb PENDING and witnesses it again two dwells on, a second retires it with CW in its place,
and one beside another PENDING comb makes CW FAULT. While CW does not witness it changes no state. -/
def Obligations.WitnessFindsTheFailingComb : Prop :=
  ∀ (p : WitPend) (k : Nat) (s : State), nextWit s.cmb.wit = some p → p.comb < 16 → p.x < 1024 →
    let left : Cmb := { s.cmb with wit := s.cmb.wit.erase p }
    let st := s.combState p.comb
    let other := ∃ c, c < 16 ∧ c ≠ p.comb ∧ s.combState c = 1
    let f := (diffs p).headD (0, 0)
    (p.skipped = true → Takes .witnessCompare s (fun t => t.rd CMB_WIT_SKIPPED = (s.rd CMB_WIT_SKIPPED + 1) % 2 ^ 32
      ∧ s.sameRegs t [CMB_WIT_SKIPPED] ∧ t = { s with regs := t.regs, cmb := left }))
    ∧ (p.skipped = false → p.inconc = true → Takes .witnessCompare s (fun t => t.rd CMB_WIT_INCONC = (s.rd CMB_WIT_INCONC + 1) % 2 ^ 32
      ∧ s.sameRegs t [CMB_WIT_INCONC] ∧ t = { s with regs := t.regs, cmb := left }))
    ∧ (p.skipped = false → p.inconc = false → diffs p = [] → Takes .witnessCompare s (fun t =>
      let u := t.cmbTick k
      t.rd (CMB_Cc_WITNESSED p.comb) = (s.rd (CMB_Cc_WITNESSED p.comb) + 1) % 2 ^ 32 ∧ t.rd CMB_WIT_AGREE = (s.rd CMB_WIT_AGREE + 1) % 2 ^ 32
      ∧ s.sameRegs t [CMB_Cc_WITNESSED p.comb, CMB_WIT_AGREE]
      ∧ t = { s with regs := t.regs, cmb := { left with todo := s.cmb.todo ++ [.agree p.comb] } }
      ∧ (s.cmb.todo = [] → s.cmbMode.cw = 0 → st = 1 → u.combState p.comb = 0
          ∧ u.rd (CMB_Cc_TRANSIENT p.comb) = (s.rd (CMB_Cc_TRANSIENT p.comb) + 1) % 2 ^ 32
          ∧ t.sameRegs u [CMB_Cc_STATE p.comb, CMB_Cc_TRANSIENT p.comb] ∧ u = { t with regs := u.regs, cmb := left })
      ∧ (s.cmb.todo = [] → s.cmbMode.cw = 0 → st ≠ 1 → u = { t with cmb := left })
      ∧ (s.cmbMode.cw ≠ 0 → t.combEvent k (.agree p.comb) = t)))
    ∧ (p.skipped = false → p.inconc = false → diffs p ≠ [] → Takes .witnessCompare s (fun t =>
      let u := t.cmbTick k
      t.rd (CMB_Cc_WITNESSED p.comb) = (s.rd (CMB_Cc_WITNESSED p.comb) + 1) % 2 ^ 32
      ∧ t.rd (CMB_Cc_MISMATCH p.comb) = (s.rd (CMB_Cc_MISMATCH p.comb) + 1) % 2 ^ 32
      ∧ t.rd CMB_WIT_MISMATCH = (s.rd CMB_WIT_MISMATCH + 1) % 2 ^ 32 ∧ t.bit CMB_ERR 3 = 1
      ∧ t.rd CMB_WIT_LAST0 = p.comb * 2 ^ 16 + p.x ∧ t.rd CMB_WIT_LAST1 = p.d % 2 ^ 32
      ∧ t.rd CMB_WIT_LAST2 = (diffs p).length % 2 ^ 32 ∧ t.rd CMB_WIT_LAST3 = (f.1 * 2 ^ 16 + f.2) % 2 ^ 32
      ∧ t.rd (CMB_SESx_SUSPECT p.x) = (s.rd (CMB_SESx_SUSPECT p.x) + 1) % 2 ^ 32
      ∧ (∀ D ∈ t.cmb.dumps, D.x = p.x → D.d = p.d → ∀ b ∈ D.blocks, b.comb = p.comb → b.suspect = true)
      ∧ s.sameRegs t [CMB_Cc_WITNESSED p.comb, CMB_Cc_MISMATCH p.comb, CMB_WIT_MISMATCH, CMB_ERR, CMB_WIT_LAST0, CMB_WIT_LAST1, CMB_WIT_LAST2,
          CMB_WIT_LAST3, CMB_SESx_SUSPECT p.x, PCI_ERR]
      ∧ t = { s with regs := t.regs, pci := t.pci, out := t.out
                     cmb := { left with dumps := t.cmb.dumps, todo := s.cmb.todo ++ [.mismatch p.x p.d p.comb] } }
      ∧ (s.cmb.todo = [] → s.cmbMode.cw = 0 →
          (st = 0 → ¬ other → u.combState p.comb = 1 ∧ u.cmbMode = s.cmbMode ∧ u.witnessed p.x (p.d + 2) = p.comb
              ∧ u.fd (CMB_Cc_STATE p.comb) CMB_Cc_STATE_PENDING_SES = p.x)
          ∧ (st = 1 → ¬ other → u.combState p.comb = 2 ∧ u.combState 16 = 1 ∧ u.bit CMB_ERR 4 = 1
              ∧ p.comb ∈ u.cmbMode.retired ∧ u.cmbMode.cw = 1 ∧ u.cmbMode.standin = some p.comb)
          ∧ (other → u.combState 16 = 2 ∧ u.cmbMode = { s.cmbMode with cw := 2 } ∧ u.bit CMB_ERR 5 = 1 ∧ ∀ c, c < 16 → u.combState c ≠ 1)
          ∧ t.sameRegs u ([CMB_ERR, CMB_STATUS, PCI_ERR] ++ (List.range 17).map CMB_Cc_STATE)
          ∧ u = { t with regs := u.regs, pci := u.pci, out := u.out
                         cmb := { left with dumps := t.cmb.dumps, modes := u.cmb.modes, rewit := u.cmb.rewit } })
      ∧ (s.cmbMode.cw ≠ 0 → t.combEvent k (.mismatch p.x p.d p.comb) = t)))
/-! ### Supers and the honey drain (chapter 11) -/

/-- R284 to R291: a dump whose comparison has been made enters the filling super: visibility (p, q) of each unmarked block takes its dwell sum, exactly or
with stochastic rounding by the seed, afresh in the first dwell of an integration; a poisoned one stays poisoned until then; no other word moves. -/
def Obligations.DumpsAccumulateInTheFillingSuper : Prop :=
  ∀ (x : Nat) (p : Dump) (f : SupSes) (s : State), s.cmb.dumps.find? (·.x == x) = some p → (∀ w ∈ s.cmb.wit, ¬ (w.x = x ∧ w.d = p.d)) →
    s.supOf x = some f → s.blockOn 11 = true → x < 1024 →
    let l := s.layoutOf x f p
    let seed := (s.supCfg x p.d).2
    let fresh := decide (p.d % l.i = 0)
    let at_ (b : DumpBlock) : Nat × Nat := nth (blockPairs l.nx) (b.g % (blockPairs l.nx).length) (0, 0)
    let vis (b : DumpBlock) (i j : Nat) : Nat :=
      b.g / (blockPairs l.nx).length * triOf l.nx + visOfs l.nx ((at_ b).1 * 128 + i) ((at_ b).2 * 128 + j)
    let cell (b : DumpBlock) (i j : Nat) : Prop := i < 128 ∧ j < 128 ∧ (at_ b).1 * 128 + i ≤ (at_ b).2 * 128 + j ∧ (at_ b).2 * 128 + j < l.nx
    s.dumpLate p = false → f.clash l p = false → 0 < l.nx → (p.blocks.map (·.g)).Nodup →
    (∀ b ∈ p.blocks, b.vals.length = 16384 ∧ b.reasons = [] ∧ b.uncorr = [] ∧ b.suspect = false ∧ b.withheld = false) →
    Takes (.superDumpApply x []) s (fun t =>
      (∀ b ∈ p.blocks, ∀ i j, cell b i j →
        let v := vis b i j
        let a := nth b.vals (i * 128 + j) (0, 0)
        let w := s.visWord l v
        (fresh = true ∨ s.poisoned l v = false →
          t.poisoned l v = false
          ∧ t.visWord l v = if l.exact then (exactAdd w.1 a.1 fresh, exactAdd w.2 a.2 fresh)
              else (hfAdd w.1 a.1 fresh (rbits seed p.d v 0), hfAdd w.2 a.2 fresh (rbits seed p.d v 1)))
        ∧ (fresh = false → s.poisoned l v = true → t.poisoned l v = true))
      ∧ (∀ k, (∀ b ∈ p.blocks, ∀ i j, cell b i j → k ∉ l.keys (vis b i j)) → t.supWord k = s.supWord k)
      ∧ (∃ f', t.supOf x = some f' ∧ l ∈ f'.lays ∧ f'.pres = (p.d, p.list.map (fun i => nth p.codes i 0)) :: f.pres ∧ f'.drain = f.drain
          ∧ f'.loss = f.loss ∧ ((∀ b ∈ p.blocks, b.noted = []) → f'.flags = f.flags))
      ∧ (∀ y, y ≠ x → t.supOf y = s.supOf y)
      ∧ s.sameRegs t [SUP_SESx_STATUS x, SUP_USE, SUP_SAT_CNT, SUP_ECC_CORR, SUP_ECC_UNCORR, SUP_ERR, PCI_ERR]
      ∧ t = { s with regs := t.regs, cmb := { s.cmb with dumps := s.cmb.dumps.erase p }, sup := t.sup, pci := t.pci, out := t.out })

/-- R296 to R307: the drain of a whole integration begins four ticks after its last dwell is final; its sends follow the plan at the session's rate, the
session whose send is due first being served first, each a 64-byte header and its records, END last; what is left when integration j + 2 arrives is not produced. -/
def Obligations.IntegrationsDrainByTheirPlan : Prop :=
  (∀ (x j : Nat) (c : CtnSes) (l : Layout) (f : SupSes) (s : State), s.supOf x = some f → f.drain = none → f.lays.find? (·.j == j) = some l →
    s.ctnOf x = some c → s.blockOn 11 = true → x < 1024 → l.first = j * l.i → f.start ≤ j * l.i → (∃ q ∈ f.pres, q.1 = j * l.i + l.i - 1) →
    s.sesReplay x = true ∨ s.begun (c.endTick (j * l.i + l.i - 1) + c.w + 5) = true →
    Takes (.honeyDrainStart x j) s (fun t =>
      (∃ (f' : SupSes) (d : Drain), t.supOf x = some f' ∧ f' = { f with lays := f.lays.filter (fun m => m.j != j), drain := some d }
        ∧ d.lay = l ∧ d.home = c.home (j * l.i * l.d) ∧ d.t0 = (if s.sesReplay x then s.tick else c.endTick (j * l.i + l.i - 1) + c.w + 5)
        ∧ d.next = 0 ∧ d.lost = 0 ∧ d.bytes = 0
        ∧ (rUntimed ∈ d.extra ↔ x ∈ s.untimed)
        ∧ (rTimeStep ∈ d.extra ↔ s.specsStepped c (j * l.i * l.d) ((j * l.i + l.i) * l.d - 1) = true))
      ∧ t.bit (SUP_SESx_STATUS x) 30 = 1 ∧ s.sameRegs t [SUP_SESx_STATUS x] ∧ (∀ y, y ≠ x → t.supOf y = s.supOf y)
      ∧ t = { s with regs := t.regs, sup := { s.sup with ses := t.sup.ses }, untimed := t.untimed }))
  ∧ (∀ (x : Nat) (f : SupSes) (d : Drain) (s : State), s.supOf x = some f → f.drain = some d → s.blockOn 11 = true → x < 1024 →
    s.honeyTurn x = true → (s.rd (SUP_SESx_RATE x) % 2 ^ 17 = 0 ∨ s.begun (d.t0 + 8 * d.bytes / (s.rd (SUP_SESx_RATE x) % 2 ^ 17)) = true) →
    let dest := bitsOf (s.rd (SUP_SESx_CFG x)) 13 12
    (∀ h, d.lay.plan[d.next]? = some h →
      (dest = 2 → Takes (.honeySend x []) s (fun t => ∃ b : List Byte,
        t.units = s.units ++ [⟨bitsOf (s.rd (SUP_SESx_CFG x)) 8 4, .honey, honeySrc x d.lay.j, s.tick, b⟩] ∧ 64 ∣ b.length
        ∧ beAt b 0 2 = 0xB70E ∧ beAt b 3 1 = h.kind % 2 ^ 8 ∧ beAt b 4 2 = x ∧ beAt b 16 8 = d.lay.j % 2 ^ 64 ∧ beAt b 24 4 = h.first % 2 ^ 32
        ∧ (h.kind ≠ 4 → beAt b 28 4 = h.count % 2 ^ 32)
        ∧ (h.kind = 2 → ∀ o, o < h.count →
            let w := s.visWord d.lay (h.l * triOf d.lay.nx + h.first + o)
            beAt b (64 + 8 * d.lay.wx * o) (4 * d.lay.wx) = w.1 % 2 ^ (32 * d.lay.wx)
            ∧ beAt b (64 + 8 * d.lay.wx * o + 4 * d.lay.wx) (4 * d.lay.wx) = w.2 % 2 ^ (32 * d.lay.wx))
        ∧ (∃ n, t.supOf x = some { f with drain := some { d with next := d.next + 1, bytes := n } })
        ∧ s.sameRegs t [] ∧ (h.kind ≠ 5 → t = { s with units := t.units, sup := { s.sup with ses := t.sup.ses } })))
      ∧ (dest = 3 → h.kind ≠ 5 → Takes (.honeySend x []) s (fun t =>
        t.rd (SUP_SESx_LOST x) = (s.rd (SUP_SESx_LOST x) + 1) % 2 ^ 32 ∧ t.bit SUP_ERR 4 = 1
        ∧ (∃ n, t.supOf x = some { f with drain := some { d with next := d.next + 1, lost := d.lost + 1, bytes := n } })
        ∧ s.sameRegs t [SUP_SESx_LOST x, SUP_ERR, PCI_ERR]
        ∧ t = { s with regs := t.regs, sup := { s.sup with ses := t.sup.ses }, pci := t.pci, out := t.out })))
    ∧ (d.lay.plan.length ≤ d.next → dest = 2 → f.stop = false → Takes (.honeySend x []) s (fun t =>
        (∃ b : List Byte, t.units = s.units ++ [⟨bitsOf (s.rd (SUP_SESx_CFG x)) 8 4, .honey, honeySrc x d.lay.j, s.tick, b⟩] ∧ beAt b 3 1 = 5
          ∧ beAt b 64 4 = d.lay.plan.length % 2 ^ 32 ∧ beAt b 68 4 = d.lost % 2 ^ 32)
        ∧ (∃ f', t.supOf x = some f' ∧ f'.drain = none ∧ f'.lays = f.lays ∧ (∀ e, e ∈ f'.loss ↔ e ∈ f.loss ∧ e.j ≠ d.lay.j))
        ∧ t.rd (SUP_SESx_INTEG_LO x) = d.lay.j % 2 ^ 32 ∧ t.bit (SUP_SESx_STATUS x) 30 = 0
        ∧ s.sameRegs t [SUP_SESx_INTEG_LO x, SUP_SESx_STATUS x]
        ∧ t = { s with regs := t.regs, units := t.units, sup := { s.sup with ses := t.sup.ses }, kpr := t.kpr, degraded := t.degraded })))
  ∧ (∀ (x : Nat) (f : SupSes) (d : Drain) (p : Dump) (s : State), s.supOf x = some f → f.drain = some d → x < 1024 →
    s.cmb.dumps.find? (·.x == x) = some p → s.sesReplay x = false → (d.lay.j + 2) * d.lay.i ≤ p.d →
    let n := d.lay.plan.length - d.next
    Takes (.drainOverrun x) s (fun t =>
      t.rd (SUP_SESx_OVERRUN x) = (s.rd (SUP_SESx_OVERRUN x) + n) % 2 ^ 32 ∧ t.rd (SUP_SESx_INTEG_LO x) = d.lay.j % 2 ^ 32
      ∧ (f.stop = false → ∃ f', t.supOf x = some f' ∧ f'.drain = none) ∧ (f.stop = true → t.supOf x = none)
      ∧ (n ≠ 0 → t.bit SUP_ERR 3 = 1 ∧ t.bit GLB_FAULT 11 = 1 ∧ t.kpr.badTick = true)
      ∧ t.cmb = s.cmb ∧ t.sup.words = s.sup.words))
/-! ### The waggle beamformer (chapter 12) -/

/-- R313 to R318: in the tick after reference tick k the engine forms every beam sample of k of the one session that has work, as the shifted and clamped sum of
its weighted inputs, counts the components clamped and delivers each local channel's block; under a short grant it forms the first of them only. -/
def Obligations.WaggleFormsTheBeamsOfATick : Prop :=
  ∀ (k x d : Nat) (f : WagSes) (c : CtnSes) (s : State),
    let e := s.wagEpoch x (k - c.w)
    let items := s.wagItems c x k f
    let f8 := s.wagFmt8 x
    let beam (i : Nat × Nat × Nat) : Int × Int :=
      let v := s.beamSum c x f [] i.1 i.2.1 i.2.2
      (wagClamp f8 v.1, wagClamp f8 v.2)
    let clips (l : List (Nat × Nat × Nat)) : Nat :=
      (l.filter (fun i => (beam i).1 != (s.beamSum c x f [] i.1 i.2.1 i.2.2).1)).length
      + (l.filter (fun i => (beam i).2 != (s.beamSum c x f [] i.1 i.2.1 i.2.2).2)).length
    let cost := s.wagNb x * c.mCycles
    s.wagFor x k = some f → s.wagCtn x k = some c → s.ctnOf x = some c → s.blockOn 12 = true → s.begun (k + 1) = true → x < 1024 →
    s.wagOrder = [x] →
    (s.sesReplay x = true ∧ (s.wagReplayTicks x).head? = some k
      ∨ s.sesReplay x = false ∧ s.begun (k + 3) = false ∧ s.worksOn 12 k = true
        ∧ (k = 0 ∨ s.begun (k + 2) = true ∨ ∀ f' c', s.wagFor x (k - 1) = some f' → s.wagCtn x (k - 1) = some c' →
            s.epochLate x (s.wagEpoch x (k - 1 - c'.w)) f' = false ∧ s.wagIdle x (k - 1) c' f' = true)) →
    s.epochLate x e f = false → (∀ m ∈ f.missed, m.1 ≠ e) → (∀ m, f.stop = some m → s.sesReplay x = false ∧ k ≤ m) →
    (s.sesReplay x = true → s.wagExplicit x = false → e ∈ f.done) → (x, k) ∉ s.wag.fin → items ≠ [] → (∀ i ∈ items, i.1 / c.d = d) →
    (∀ q ∈ s.wag.work, ¬ (q.x = x ∧ q.k = k)) → (∀ u ∈ s.wag.used, u.1 ≠ s.tick) →
    (s.grants = [] → items.length * cost ≤ 65536000 → s.numOwned (c.mapsAt d).map ≤ 32768 → Takes (.waggleTickWork k []) s (fun t =>
      (∀ l, l < s.numOwned (c.mapsAt d).map → ∃ b ∈ t.acq.beams, b.x = x ∧ b.h = k - c.w ∧ b.l = l
        ∧ b.vals = (items.filter (fun i => i.2.1 == l)).map beam)
      ∧ (x, k) ∈ t.wag.fin ∧ t.rd (WAG_SESx_OCLIP x) = (s.rd (WAG_SESx_OCLIP x) + clips items) % 2 ^ 32
      ∧ bitsOf (t.rd (WAG_SESx_STATUS x)) 15 0 = e % 2 ^ 16
      ∧ (bitsOf (s.rd (WAG_SESx_OUT x)) 2 0 = 0 → s.sameRegs t [WAG_SESx_OCLIP x, WAG_SESx_STATUS x, WAG_SESx_ABSENT x]
          ∧ t = { s with regs := t.regs, wag := { s.wag with work := t.wag.work, used := t.wag.used, fin := t.wag.fin }, kpr := t.kpr
                         acq := { s.acq with beams := t.acq.beams }, degraded := t.degraded, untimed := t.untimed })))
    ∧ (∀ g, s.grants.find? (fun g => g.x == x && g.unit == 2) = some g → g.got < g.want → g.got / cost < items.length →
      Takes (.waggleTickWork k []) s (fun t =>
        let n := min (g.got / cost) (65536000 / cost)
        (∃ bad why, t.wag.work = ⟨x, k, (items.take n).map beam, bad, why⟩ :: s.wag.work
          ∧ (s.ctn.bad = [] → bad = false) ∧ (g.got / cost < 65536000 / cost → why = withheldReasons (g.got / cost) (g.cool / cost) items.length))
        ∧ t.rd (WAG_SESx_OCLIP x) = (s.rd (WAG_SESx_OCLIP x) + clips (items.take n)) % 2 ^ 32
        ∧ s.sameRegs t [WAG_SESx_OCLIP x, WAG_SESx_STATUS x]
        ∧ t = { s with regs := t.regs, wag := { s.wag with work := t.wag.work, used := t.wag.used } }))

/-- R323 to R326: the weights of an epoch are released for computation at the start of tick r_(e−1) + 2 with the deadline r_e; an epoch whose computation is
incomplete then is missed and counted; a committed bank shows in the status once its epoch's reference tick (its release, for geometry) has begun. -/
def Obligations.WeightEpochsAreComputedOrMissed : Prop :=
  (∀ (x e c0 : Nat) (errs : List WordErr) (c : CtnSes) (f : WagSes) (s : State), s.wagOf x = some f → s.ctnOf x = some c → f.first = some c0 → c0 ≤ e →
    (∀ k, f.stop = some k → s.wagR x e ≤ k) → s.wagExplicit x = false → s.blockOn 12 = true → e ∉ f.done →
    (s.sesReplay x = false → s.begun (s.wagRelease x e) = true) → (s.sesReplay x = true → s.wagDue x e = true) →
    (∀ m ∈ f.missed, m.1 ≠ e) → (∀ j ∈ s.wag.jobs, ¬ (j.x = x ∧ j.e = e)) →
    let cx := s.numOwned (c.mapsAt (c.dwellFrom (s.wagKe x + e * s.wagE x))).map
    let bad := errs.filter (·.uncorr)
    Takes (.phaseEngineRelease x e errs) s (fun t =>
      t.wag = { s.wag with jobs := s.wag.jobs ++ [⟨x, e, s.wagKe x + e * s.wagE x + s.wagW x,
        ceilDiv (s.wagBeams x * s.wagNb x * cx) 1024, bad.map (·.addr)⟩] }
      ∧ t.rd WAG_ECC_CORR = (s.rd WAG_ECC_CORR + (errs.length - bad.length)) % 2 ^ 32
      ∧ t.rd WAG_ECC_UNCORR = (s.rd WAG_ECC_UNCORR + bad.length) % 2 ^ 32 ∧ (bad ≠ [] → t.bit WAG_ERR 4 = 1)
      ∧ (bad = [] → s.sameRegs t [WAG_ECC_CORR]) ∧ s.sameRegs t [WAG_ECC_CORR, WAG_ECC_UNCORR, WAG_ERR, PCI_ERR]
      ∧ t = { s with regs := t.regs, wag := t.wag, pci := t.pci, out := t.out }))
  ∧ (∀ (x e c0 : Nat) (f : WagSes) (s : State), s.wagOf x = some f → x < 1024 → f.first = some c0 → c0 ≤ e → s.wagExplicit x = false →
    s.sesReplay x = false → f.stop = none → s.begun (s.wagR x e) = true → s.begun (s.wagR x (e + 1) + 3) = false → e ∉ f.done →
    (∀ m ∈ f.missed, m.1 ≠ e) →
    Takes (.epochMiss x e) s (fun t =>
      (∃ why, t.wagOf x = some { f with missed := ((e, why) :: f.missed).take 16 }
        ∧ (s.blockOn 12 = false → why = [rUntimed])
        ∧ (∀ g, s.blockOn 12 = true → s.grants.find? (fun g => g.x == x && g.unit == 1) = some g → g.got < g.want → why = withheldReasons g.got g.cool g.want))
      ∧ t.wag.jobs = s.wag.jobs.filter (fun j => !(j.x == x && j.e == e)) ∧ (∀ y, y ≠ x → t.wagOf y = s.wagOf y)
      ∧ t.rd (WAG_SESx_EPOCH_MISS x) = (s.rd (WAG_SESx_EPOCH_MISS x) + 1) % 2 ^ 32 ∧ t.bit WAG_ERR 5 = 1
      ∧ s.sameRegs t [WAG_SESx_EPOCH_MISS x, WAG_ERR, PCI_ERR]
      ∧ t = { s with regs := t.regs, wag := { s.wag with ses := t.wag.ses, jobs := t.wag.jobs }, pci := t.pci, out := t.out }))
  ∧ (∀ (x e : Nat) (f : WagSes) (s : State), s.wagOf x = some f → x < 1024 → f.pend = some e →
    (s.sesReplay x = false → s.begun (if s.wagExplicit x then s.wagR x e else s.wagRelease x e) = true) →
    (s.sesReplay x = true → s.wagBegun x e = true) →
    Takes (.weightBankSwitch x) s (fun t =>
      t.wagOf x = some { f with pend := none } ∧ t.bit (WAG_SESx_STATUS x) 30 = 0
      ∧ t.bit (WAG_SESx_STATUS x) (if s.wagExplicit x then 29 else 28) = (if (bankAt f.banks e).2 = 1 then 1 else 0)
      ∧ s.sameRegs t [WAG_SESx_STATUS x] ∧ (∀ y, y ≠ x → t.wagOf y = s.wagOf y)
      ∧ t = { s with regs := t.regs, wag := { s.wag with ses := t.wag.ses } }))
/-! ### Worker instructions (chapter 14) -/

/-- R366 to R381, Tables 14-1 to 14-8: the word of an instruction whose fields hold admitted values decodes to it, and every word that decodes is the word of the
instruction it spells: no bit of an encoding is dropped and no instruction has two words. -/
def Obligations.WorkerWordsAndInstructionsMatch : Prop :=
  (∀ i : WInsn, i.ok = true → wEncode i < 2 ^ 48 ∧ wDecode (wEncode i) = some i)
  ∧ ∀ (w : Nat) (i : WInsn), w < 2 ^ 48 → wDecode w = some i → i.ok = true ∧ wEncode i = w

/-- R337, R347, R349, R369: every command keeps each worker's registers within their widths, so that none ever holds a value it has no bits for. -/
def Obligations.WorkerRegistersKeepTheirWidths : Prop :=
  ∀ s t : State, s.workersWf → step s = .next t → t.workersWf

/-- R337, R338, R369 (Table 14-2): after reset every worker register is 0; a write of a register code changes that register alone, keeps the bits the register
has, and is read back extended as its row says. -/
def Obligations.RegisterCodesHoldTheirBits : Prop :=
  (State.reset.workersWf ∧ ∀ n code, n < 64 → code < 64 → (State.reset.core n).read code = 0)
  ∧ ∀ (c : WCore) (code v : Nat), c.wf → code < 64 → regWritable code = true → v < 2 ^ 24 →
    let same (x : Nat) : Prop := (c.write code v).read x = c.read x
    (∀ x, x < 64 → canonReg x ≠ canonReg code → same x)
    ∧ (code < 24 ∨ code = 58 ∧ c.stack ≠ [] → (c.write code v).read code = v)
    ∧ (∀ j, j < 4 → (code = 16 + j → same (20 + j) ∧ (c.write code v).read (24 + j) = if 2 ^ 23 ≤ v then 2 ^ 24 - 1 else 0)
        ∧ (code = 20 + j → same (16 + j) ∧ same (24 + j))
        ∧ (code = 24 + j → same (16 + j) ∧ same (20 + j) ∧ (c.write code v).read code = unsigned 24 (signed 8 v)))
    ∧ (28 ≤ code ∧ code < 36 ∨ 44 ≤ code ∧ code < 52 → (c.write code v).read code = v % 2 ^ 16)
    ∧ (36 ≤ code ∧ code < 44 → (c.write code v).read code = unsigned 24 (signed 16 v))
    ∧ (code = 52 → (c.write code v).read code = Nat.land v 0x1DF)
    ∧ (code = 53 → (c.write code v).mrNext = some (v % 2 ^ 9) ∧ (c.write code v).mr = c.mr)
    ∧ (code = 54 → (c.write code v).read code = v % 2 ^ 9) ∧ (code = 55 → (c.write code v).read code = v % 2 ^ 15)

/-- R343, R345, R368, R371 to R376, R382 (Table 14-5): an ALU operation of class P or I writes its accumulator with the exact result, clamped or wrapped, and sets
the flags of its row and no other; its parallel moves load, store and modify pointers from what stood before it. -/
def Obligations.AluOperationsComputeTheirRow : Prop :=
  ∀ (n op d s1 s2 : Nat) (imm : Option Nat) (sat rnd : Bool) (x y : WMove) (s : State),
    let i : WInsn := .alu op imm sat rnd d s1 s2 x y
    let c := s.core n
    let o := c.land
    let D := nth c.cur.a d 0
    let A := nth c.cur.a s1 0
    let X : Int := match imm with | some v => signed 24 v | none => signed 24 (nth c.cur.xy s1 0)
    let Y : Int := signed 24 (nth c.cur.xy s2 0)
    let M := X * 2 ^ 24
    let k := imm.getD s2
    let r : Int := match op with
      | 1 => X * Y | 2 => -(X * Y) | 3 => D + X * Y | 4 => D - X * Y | 5 => D + X * X + Y * Y | 6 => D + M | 7 => D - M | 8 => D + A | 9 => D - A
      | 10 => D - M | 11 => D - A | 12 => (D.natAbs : Int) | 13 => -D | 14 => 0 | 15 => A | 16 => M | 17 => X | 18 => D.fdiv (2 ^ k) | 19 => D * 2 ^ k
      | 20 => max D A | 21 => min D A | _ => if M ≤ D * 2 then D * 2 - M + 1 else D * 2
    let wraps : Prop := signed 56 (unsigned 56 r) ≠ r
    let clamps := sat && op != 22
    let v : Int := if clamps then satS 48 r else signed 56 (unsigned 56 r)
    let f : Int := if op = 10 ∨ op = 11 then r else v
    let carry : Prop := match op with
      | 6 => 2 ^ 56 ≤ unsigned 56 D + unsigned 56 M | 7 => unsigned 56 D < unsigned 56 M | 8 => 2 ^ 56 ≤ unsigned 56 D + unsigned 56 A
      | 9 => unsigned 56 D < unsigned 56 A | 10 => unsigned 56 D < unsigned 56 M | 11 => unsigned 56 D < unsigned 56 A | _ => M ≤ D * 2
    let at_ (m : WMove) : Nat := nth c.cur.p m.pn 0
    let kept (m : WMove) : Nat × Bool := if m.kind = 3 then accRead (nth c.cur.a m.reg 0) rnd sat else (nth c.cur.xy m.reg 0, false)
    let stores (m : WMove) : Bool := m.kind == 2 || m.kind == 3
    let load (m : WMove) (w : Nat) : List (Nat × Nat) := if m.kind = 1 then [(m.reg, w)] else if m.kind = 4 then [(64 + m.reg, w)] else []
    s.workersWf → s.issues n i → c.stays →
    ∀ row, (row, op) ∈ [(Instr.nop n [], 0), (.mpy n [], 1), (.mpyn n [], 2), (.mac n [], 3), (.macn n [], 4), (.pwr n [], 5), (.add n [], 6),
        (.sub n [], 7), (.adda n [], 8), (.suba n [], 9), (.cmp n [], 10), (.cmpa n [], 11), (.abs n [], 12), (.neg n [], 13), (.clr n [], 14),
        (.mova n [], 15), (.lda n [], 16), (.ldl n [], 17), (.asr n [], 18), (.asl n [], 19), (.max n [], 20), (.min n [], 21), (.divs n [], 22)] →
    Takes row s (fun t =>
      let u := t.core n
      let sr (b : Nat) : Nat := bitOf u.cur.sr b
      let old (b : Nat) : Nat := bitOf c.cur.sr b
      (∀ j, j < 4 → nth u.cur.a j 0 = if j = d ∧ op ∉ [0, 10, 11] then v else nth o.cur.a j 0)
      ∧ u.cur.xy = o.cur.xy
      ∧ (∀ j, j < 8 → nth u.cur.p j 0 = if x.pmod ≠ 0 ∧ x.pn = j then c.postMod j x.pmod
          else if y.pmod ≠ 0 ∧ y.pn = j then c.postMod j y.pmod else nth o.cur.p j 0)
      ∧ (op ∉ [0, 22] → (sr 3 = 1 ↔ f < 0) ∧ (sr 2 = 1 ↔ f = 0) ∧ (sr 4 = 1 ↔ satHit 48 f = true))
      ∧ (op ∈ [0, 22] → sr 2 = old 2 ∧ sr 3 = old 3 ∧ sr 4 = old 4)
      ∧ (op ≠ 0 → (sr 1 = 1 ↔ clamps = false ∧ wraps ∨ op ∈ [10, 11] ∧ wraps)) ∧ (op = 0 → sr 1 = old 1)
      ∧ (op ∈ [6, 7, 8, 9, 10, 11, 22] → (sr 0 = 1 ↔ carry)) ∧ (op ∉ [6, 7, 8, 9, 10, 11, 22] → sr 0 = old 0)
      ∧ (sr 7 = 1 ↔ old 7 = 1 ∨ (op ∉ [0, 10, 11] ∧ clamps = true ∧ satHit 48 r = true) ∨ (x.kind = 3 ∧ (kept x).2 = true)
          ∨ (y.kind = 3 ∧ (kept y).2 = true))
      ∧ (sr 6 = 1 ↔ old 6 = 1 ∨ (op ∉ [0, 10, 11] ∧ clamps = false ∧ wraps)) ∧ sr 5 = old 5 ∧ sr 8 = old 8
      ∧ u.loads = load x (s.xmGet n (at_ x)) ++ load y (s.ymGet n (at_ y))
      ∧ (∀ a, a < 65536 → t.xmGet n a = if stores x && a == at_ x && !(0xFFC0 ≤ a && a ≤ 0xFFDF) then (kept x).1 else s.xmGet n a)
      ∧ (∀ a, a < 65536 → t.ymGet n a = if stores y && a == at_ y && (List.range 64).all (fun w => !s.inWindow n a w) then (kept y).1 else s.ymGet n a)
      ∧ c.follows c.stack u
      ∧ u = { o with cur := u.cur, mr := c.mrNext.getD c.mr, mrNext := none, fresh := false, loads := u.loads, cyc := c.cyc + 1, pc := u.pc
                     slot := u.slot, stack := u.stack, popped := u.popped }
      ∧ (∀ m, m ≠ n → t.core m = s.core m ∧ ∀ a, t.xmGet m a = s.xmGet m a ∧ t.ymGet m a = s.ymGet m a)
      ∧ (stores y = false → s.sameRegs t []) ∧ s.sameRegs t ((List.range 64).map WRK_WINw_PWR)
      ∧ t = { s with regs := t.regs, wrk := { s.wrk with cores := t.wrk.cores, xm := t.wrk.xm, ym := t.wrk.ym } })
/-- R345, R348, R359, R368, R377, R378 (Tables 14-7 and 14-8): a class M or R instruction reads its operands as they stood, loads, stores or writes its register
and sets the flags of its row and no other; a read of CYC is counted and marks the run. -/
def Obligations.MemoryAndRegisterOperationsMoveAndCompute : Prop :=
  ∀ (n : Nat) (s : State),
    let c := s.core n
    let base : WCore := { c.land with mr := c.mrNext.getD c.mr, mrNext := none, fresh := false }
    let seen (i : WInsn) (t : State) : Prop :=
      (t.core n).rs = (if i.readsCode (· == 62) then addNew c.rs rCycleRead else c.rs)
      ∧ t.rd (WRK_Wn_CYCREAD n) = (s.rd (WRK_Wn_CYCREAD n) + if i.readsCode (· == 62) then 1 else 0) % 2 ^ 32
      ∧ (∀ m, m ≠ n → t.core m = s.core m ∧ ∀ a, t.xmGet m a = s.xmGet m a ∧ t.ymGet m a = s.ymGet m a)
      ∧ s.sameRegs t (WRK_Wn_CYCREAD n :: (List.range 64).map WRK_WINw_PWR)
      ∧ t = { s with regs := t.regs, wrk := { s.wrk with cores := t.wrk.cores, xm := t.wrk.xm, ym := t.wrk.ym } }
    s.workersWf → c.stays →
    (∀ (mop rg addr pn pmod imm : Nat), s.issues n (.mem mop rg addr pn pmod imm) →
      let a := if mop < 4 then addr else nth c.cur.p pn 0
      let b := if mop = 4 then base.write rg imm else base
      let b' := if pmod = 0 then b else b.write (28 + pn) (c.postMod pn pmod)
      ∀ row, (row, mop) ∈ [(Instr.ldx n [], 0), (.ldy n [], 1), (.stx n [], 2), (.sty n [], 3), (.ldi n [], 4), (.ldxp n [], 5), (.ldyp n [], 6),
          (.stxp n [], 7), (.styp n [], 8)] →
      Takes row s (fun t =>
        let u := t.core n
        u = { b' with loads := u.loads, cyc := c.cyc + 1, pc := u.pc, slot := u.slot, stack := u.stack, popped := u.popped, rs := u.rs }
        ∧ u.loads = (if mop ∈ [0, 5] then [(rg, s.xmGet n a)] else if mop ∈ [1, 6] then [(rg, s.ymGet n a)] else [])
        ∧ (∀ e, e < 65536 → t.xmGet n e =
            if mop ∈ [2, 7] ∧ e = a ∧ ¬ (0xFFC0 ≤ e ∧ e ≤ 0xFFDF) then c.read rg % 2 ^ 24 else s.xmGet n e)
        ∧ (∀ e, e < 65536 → t.ymGet n e =
            if mop ∈ [3, 8] ∧ e = a ∧ (List.range 64).all (fun w => !s.inWindow n e w) = true then c.read rg % 2 ^ 24 else s.ymGet n e)
        ∧ c.follows b'.stack u ∧ seen (.mem mop rg addr pn pmod imm) t))
    ∧ (∀ (rop rd rs rt sh : Nat) (sat rnd : Bool), s.issues n (.reg rop rd rs rt sh sat rnd) →
      let a := c.read rs
      let b := c.read rt
      let r : Int := if rop = 5 then signed 24 a + signed 24 b else signed 24 a - signed 24 b
      let acc := accRead (nth c.cur.a (rs - 16) 0) rnd sat
      let v : Nat := match rop with
        | 0 => a | 1 => Nat.land a b | 2 => Nat.lor a b | 3 => Nat.xor a b | 4 => 2 ^ 24 - 1 - a | 8 => a * 2 ^ sh % 2 ^ 24 | 9 => a / 2 ^ sh
        | 10 => unsigned 24 ((signed 24 a).fdiv (2 ^ sh)) | 11 => acc.1 | _ => if sat then unsigned 24 (satS 24 r) else unsigned 24 r
      let f : Int := if rop = 7 then r else signed 24 v
      ∀ row, (row, rop) ∈ [(Instr.mov n [], 0), (.and n [], 1), (.or n [], 2), (.xor n [], 3), (.not n [], 4), (.addr n [], 5), (.subr n [], 6),
          (.cmpr n [], 7), (.lsl n [], 8), (.lsr n [], 9), (.asrr n [], 10), (.mvr n [], 11)] →
      Takes row s (fun t =>
        let u := t.core n
        (∃ sr : Nat, let b' : WCore := { base with cur := { base.cur with sr := sr } }
          let w := if rop = 7 then b' else b'.write rd v
          u = { w with loads := [], cyc := c.cyc + 1, pc := u.pc, slot := u.slot, stack := u.stack, popped := u.popped, rs := u.rs } ∧ c.follows w.stack u
          ∧ (rop ∉ [0, 11] → (bitOf sr 3 = 1 ↔ f < 0) ∧ (bitOf sr 2 = 1 ↔ f = 0))
          ∧ (rop ∈ [0, 11] → bitOf sr 3 = bitOf c.cur.sr 3 ∧ bitOf sr 2 = bitOf c.cur.sr 2)
          ∧ (rop ∈ [1, 2, 3, 4] → bitOf sr 1 = 0) ∧ (rop ∈ [5, 6, 7] → (bitOf sr 1 = 1 ↔ satHit 24 r = true))
          ∧ (rop ∉ [1, 2, 3, 4, 5, 6, 7] → bitOf sr 1 = bitOf c.cur.sr 1)
          ∧ (rop = 5 → (bitOf sr 0 = 1 ↔ 2 ^ 24 ≤ a + b)) ∧ (rop ∈ [6, 7] → (bitOf sr 0 = 1 ↔ a < b))
          ∧ (rop ∉ [5, 6, 7] → bitOf sr 0 = bitOf c.cur.sr 0)
          ∧ (bitOf sr 7 = 1 ↔ bitOf c.cur.sr 7 = 1 ∨ (rop ∈ [5, 6] ∧ sat = true ∧ satHit 24 r = true) ∨ (rop = 11 ∧ acc.2 = true))
          ∧ bitOf sr 4 = bitOf c.cur.sr 4 ∧ bitOf sr 5 = bitOf c.cur.sr 5 ∧ bitOf sr 6 = bitOf c.cur.sr 6 ∧ bitOf sr 8 = bitOf c.cur.sr 8)
        ∧ (∀ e, e < 65536 → t.xmGet n e = s.xmGet n e ∧ t.ymGet n e = s.ymGet n e)
        ∧ seen (.reg rop rd rs rt sh sat rnd) t))

/-- R346, R347, R349, R350, R352 to R354, R357, R358, R366, R379 to R381: branches open two delay slots that end at the target or run on, RTE's end in the level it
returns to, REP and REPX push and take loops, TEND ends the run with its results, and TRAP or a word that is no instruction enters the handler. -/
def Obligations.ControlInstructionsSteerTheRun : Prop :=
  ∀ (n : Nat) (s : State),
    let c := s.core n
    let next := (c.pc + 1) % 2 ^ 15
    let base : WCore := { c.land with mr := c.mrNext.getD c.mr, mrNext := none, fresh := false }
    let only (t : State) : Prop := (∀ m, m ≠ n → t.core m = s.core m)
      ∧ t = { s with regs := t.regs, wrk := { s.wrk with cores := t.wrk.cores } }
    let cycRead (b : Bool) (t : State) : Prop := (t.core n).rs = (if b then addNew c.rs rCycleRead else c.rs)
      ∧ t.rd (WRK_Wn_CYCREAD n) = (s.rd (WRK_Wn_CYCREAD n) + if b then 1 else 0) % 2 ^ 32 ∧ s.sameRegs t [WRK_Wn_CYCREAD n]
    let handler (cause : Nat) (row : Instr) : Prop := c.handler = false → Takes row s (fun t =>
      let u := t.core n
      u = { c.land with cur := c.land.oth, oth := c.land.cur, handler := true, mr := c.mrNext.getD c.mr, smr := c.mrNext.getD c.mr, mrNext := none
                        rta := if cause = 4 then next else (match c.slot with | some sl => sl.from_ | none => c.pc)
                        ecause := u.ecause, eaddr := c.pc, pc := 0, cyc := c.cyc + 3, slot := none, fresh := false }
      ∧ u.ecause % 8 = cause ∧ (u.ecause / 8 % 2 = 1 ↔ c.slot.isSome = true) ∧ (u.ecause / 16 % 2 = 1 ↔ c.mrNext.isSome = true)
      ∧ t.rd (WRK_Wn_LASTEXC n) = u.ecause * 2 ^ 24 + c.pc ∧ t.rd (WRK_Wn_EXC n) = (s.rd (WRK_Wn_EXC n) + 1) % 2 ^ 32
      ∧ s.sameRegs t [WRK_Wn_LASTEXC n, WRK_Wn_EXC n] ∧ only t)
    s.workersWf →
    (∀ bop cond rg target, (bop = 0 ∨ bop = 1) → s.issues n (.ctl bop cond rg target) →
      Takes (if bop = 0 then .br n [] else .brx n []) s (fun t =>
        let u := t.core n
        ∃ r tg, u = { base with loads := [], cyc := c.cyc + 1, pc := next, rs := u.rs
                                slot := some ⟨2, if condHolds c.cur.sr cond then some tg else none, c.pc, r, false⟩ }
        ∧ (bop = 0 → tg = target ∧ r = none)
        ∧ (bop = 1 → r = some (canonReg rg) ∧ tg = c.read rg % 2 ^ 15)
        ∧ cycRead (bop = 1 ∧ rg = 62) t ∧ only t))
    ∧ (s.issues n (.ctl 2 0 0 0) → Takes (.rte n []) s (fun t =>
        t.core n = { base with loads := [], cyc := c.cyc + 1, pc := next, slot := some ⟨2, none, c.pc, none, true⟩ } ∧ cycRead false t ∧ only t))
    ∧ (∀ sl, s.issues n (.alu 0 none false false 0 0 0 noMove noMove) → c.slot = some sl → sl.left = 1 → sl.rte = true →
        Takes (.nop n []) s (fun t =>
          t.core n = { base with loads := [], cyc := c.cyc + 1, pc := c.land.rta, slot := none, cur := c.land.oth, oth := c.land.cur
                                 mr := c.land.smr, handler := false, fresh := true } ∧ cycRead false t ∧ only t))
    ∧ (s.issues n (.ctl 3 0 0 0) → ∀ k, c.run = some k → Takes (.tend n []) s (fun t =>
        let u := t.core n
        u = (if c.again then { WCore.reset with ran := c.ran } else { base with loads := [], cyc := c.cyc + 1, run := none })
        ∧ bitsOf (t.rd (WRK_Wn_STATUS n)) 14 0 = c.pc ∧ t.rd (WRK_Wn_CYCLES n) = c.cyc + 1
        ∧ (∃ r : WSet, t.wrk.sets = s.wrk.sets ++ [r] ∧ r.n = n ∧ r.tick = k ∧ r.words = (List.range 32).map (fun i => s.xmGet n (0xFFE0 + i))
            ∧ (∀ e, e ∈ r.rs ↔ e ∈ c.rs ∨ e ∈ s.winUnion n k ∨ (s.bit (WRK_Wn_STATUS n) 30 = 1 ∧ e = rMemUncorr)
                ∨ (s.ticksStepped k k = true ∧ e = rTimeStep)
                ∨ (bitsOf (s.rd (WRK_Wn_CFG n)) 31 22 ∈ s.untimed ∧ e = rUntimed)))
        ∧ s.sameRegs t [WRK_Wn_STATUS n, WRK_Wn_CYCLES n] ∧ (∀ m, m ≠ n → t.core m = s.core m)
        ∧ t = { s with regs := t.regs, wrk := { s.wrk with cores := t.wrk.cores, sets := t.wrk.sets }, untimed := t.untimed }))
    ∧ (∀ lop bot count, lop < 2 → s.issues n (.rep lop bot count) →
        let k := if lop = 0 then count else nth c.cur.xy count 0
        Takes (if lop = 0 then .repImmediate n [] else .repRegister n []) s (fun t =>
          t.core n = (if k = 0 then { base with loads := [], cyc := c.cyc + 3, pc := (bot + 1) % 2 ^ 15 }
            else { base with loads := [], cyc := c.cyc + 1, pc := next, stack := (k, next, bot) :: c.stack })
          ∧ cycRead false t ∧ only t))
    ∧ (s.issues n (.rep 2 0 0) → (∀ e, c.stack.tail.head? = some e → e.2.2 ≠ c.pc) → Takes (.repx n []) s (fun t =>
        t.core n = { base with loads := [], cyc := c.cyc + 1, pc := next, stack := c.stack.tail, popped := c.stack.head? } ∧ cycRead false t ∧ only t))
    ∧ (s.stands n (some (.ctl 4 0 0 0)) → c.illegal (.ctl 4 0 0 0) = false → handler 4 (.trap n []))
    ∧ (s.stands n none → handler 0 (.undefinedEncoding n [])
        ∧ (c.handler = true → ∀ k, c.run = some k → Takes (.undefinedEncoding n []) s (fun t =>
            (t.core n).run = none ∧ (t.core n).handler = false ∧ (t.core n).stack = [] ∧ (t.core n).cur = (if c.again then WCore.reset.cur else c.land.oth)
            ∧ t.rd (WRK_Wn_OVERRUN n) = (s.rd (WRK_Wn_OVERRUN n) + 1) % 2 ^ 32 ∧ t.bit WRK_ERR 1 = 1
            ∧ (∃ r : WSet, t.wrk.sets = s.wrk.sets ++ [r] ∧ r.n = n ∧ r.tick = k ∧ rWorkerOverrun ∈ r.rs)
            ∧ (∀ m, m ≠ n → t.core m = s.core m))))
/-- R334, R335, R351, R353, R357, R358, R360 to R363, R393: an enabled worker's run for the past tick starts at its entry, or its set is all zeros where it has no core or no
grant; TIMER comes before WARN; a spent budget ends the run; the switch interval writes the context of every enabled worker; sets are collected two ticks on; a
migration that has copied all moves the worker. -/
def Obligations.WorkerRunsStartEndAndReport : Prop :=
  (∀ (n : Nat) (s : State), s.workersWf → n < 64 → s.blockOn 13 = true → s.wrkEn n = true → s.tick ≠ 0 → s.bit (WRK_Wn_STATUS n) 29 = 0 →
    (s.core n).run = none → s.rd64 (WRK_Wn_START_LO n) (WRK_Wn_START_HI n) ≤ s.tick - 1 → (∀ r, (s.core n).ran = some r → r < s.tick - 1) →
    let c := s.core n
    let k := s.tick - 1
    let zero (t : State) (why : List Nat) : Prop := (∃ r : WSet, t.wrk.sets = s.wrk.sets ++ [r] ∧ r.n = n ∧ r.tick = k
        ∧ r.words = List.replicate 32 0 ∧ ∀ e ∈ why, e ∈ r.rs)
      ∧ t.core n = { c with ran := some k } ∧ (∀ m, m ≠ n → t.core m = s.core m)
      ∧ t = { s with wrk := { s.wrk with cores := t.wrk.cores, sets := t.wrk.sets }, untimed := t.untimed }
    (s.grants = [] → n ∉ s.wrk.stopped → Takes (.workerRunStart n) s (fun t =>
      t.core n = { c with pc := s.rd (WRK_Wn_ENTRY n) % 2 ^ 15, cyc := 0, handler := false, slot := none, fresh := false, tTaken := false
                          wTaken := false, run := some k, ran := some k, rs := [] }
      ∧ t.bit (WRK_Wn_STATUS n) 31 = 1 ∧ bitsOf (t.rd (WRK_Wn_STATUS n)) 22 16 = nth s.wrk.phys n n % 2 ^ 7
      ∧ (∀ a, a < 65536 → t.xmGet n a = if s.wrk.interval ≠ some k ∧ 0xFFC0 ≤ a ∧ a ≤ 0xFFDF then (s.wrkContext n k).xmGet n a else s.xmGet n a)
      ∧ s.sameRegs t [WRK_Wn_STATUS n] ∧ (∀ m, m ≠ n → t.core m = s.core m ∧ ∀ a, t.xmGet m a = s.xmGet m a)
      ∧ t = { s with regs := t.regs, wrk := { s.wrk with cores := t.wrk.cores, xm := t.wrk.xm } }))
    ∧ (n ∈ s.wrk.stopped → Takes (.workerRunStart n) s (fun t => zero t [rSpare]))
    ∧ (∀ g, n ∉ s.wrk.stopped → (∀ q ∈ s.grants, q.unit ≠ 5) →
        s.grants.find? (fun g => g.x == bitsOf (s.rd (WRK_Wn_CFG n)) 31 22 && g.unit == 3) = some g → g.got = 0 → 0 < g.want →
        Takes (.workerRunStart n) s (fun t => zero t (withheldReasons g.got g.cool g.want))))
  ∧ (∀ (n : Nat) (timer : Bool) (s : State), s.workersWf → n < 64 → s.runOpen (s.core n) = true → s.blockOn 13 = true →
    (s.core n).cyc < s.wrkBudget n → (s.core n).open_ = true →
    (s.core n).fault (wDecode (s.pmGet n (s.core n).pc)) (fun _ _ => false) = none →
    (if timer then s.timerDue n (s.core n) = true else s.warnDue n (s.core n) = true ∧ s.timerDue n (s.core n) = false) →
    let c := s.core n
    Takes (if timer then .workerTimerInterrupt n else .workerWarnInterrupt n) s (fun t =>
      t.core n = { c.land with cur := c.land.oth, oth := c.land.cur, handler := true, smr := c.mr, rta := c.pc, pc := if timer then 4 else 8
                               cyc := c.cyc + 3, tTaken := if timer then true else c.tTaken, wTaken := if timer then c.wTaken else true }
      ∧ (∀ m, m ≠ n → t.core m = s.core m) ∧ t = { s with wrk := { s.wrk with cores := t.wrk.cores } }))
  ∧ (∀ (n k : Nat) (s : State), s.workersWf → n < 64 → (s.core n).run = some k → s.wrkBudget n ≤ (s.core n).cyc ∨ s.runOpen (s.core n) = false →
    Takes (.workerOverrun n) s (fun t =>
      (t.core n).run = none ∧ (t.core n).stack = [] ∧ (t.core n).slot = none ∧ (t.core n).handler = false
      ∧ t.rd (WRK_Wn_OVERRUN n) = (s.rd (WRK_Wn_OVERRUN n) + 1) % 2 ^ 32 ∧ t.bit WRK_ERR 1 = 1
      ∧ t.rd (WRK_Wn_CYCLES n) = min (s.core n).cyc (s.wrkBudget n)
      ∧ (∃ r : WSet, t.wrk.sets = s.wrk.sets ++ [r] ∧ r.n = n ∧ r.tick = k ∧ r.words = (List.range 32).map (fun i => s.xmGet n (0xFFE0 + i))
          ∧ rWorkerOverrun ∈ r.rs)
      ∧ s.sameRegs t [WRK_Wn_STATUS n, WRK_Wn_CYCLES n, WRK_Wn_OVERRUN n, WRK_ERR, PCI_ERR] ∧ (∀ m, m ≠ n → t.core m = s.core m)
      ∧ t = { s with regs := t.regs, wrk := { s.wrk with cores := t.wrk.cores, sets := t.wrk.sets }, untimed := t.untimed, pci := t.pci
                     out := t.out }))
  ∧ (∀ s : State, s.blockOn 13 = true → s.wrk.interval ≠ some s.tick → Takes .workerSwitchInterval s (fun t =>
      (∀ n, n < 64 → s.wrkEn n = true → t.xmGet n 0xFFC0 = s.tick % 2 ^ 24 ∧ t.xmGet n 0xFFC1 = s.tick / 2 ^ 24 % 2 ^ 24
        ∧ t.xmGet n 0xFFC2 = s.tick / 2 ^ 48 % 2 ^ 16 ∧ t.xmGet n 0xFFC3 = s.rd (WRK_Wn_SEED n) % 2 ^ 24
        ∧ t.xmGet n 0xFFC4 = s.rd (WRK_Wn_SEED n) / 2 ^ 24 % 2 ^ 24 ∧ t.xmGet n 0xFFC5 = n ∧ (∀ a, 0xFFC6 ≤ a → a ≤ 0xFFDF → t.xmGet n a = 0))
      ∧ (∀ n a, n < 64 → s.wrkEn n = false ∨ a < 0xFFC0 ∨ 0xFFDF < a ∧ a < 65536 → t.xmGet n a = s.xmGet n a)
      ∧ t = { s with wrk := { s.wrk with xm := t.wrk.xm, interval := some s.tick
                                         moves := s.wrk.moves.map (fun m => (m.1, m.2.1, min 163840 (m.2.2 + 160))) } }))
  ∧ (∀ (k : Nat) (r : WSet) (s : State), s.bit GLB_DOMAINS 9 = 1 → s.begun (k + 2) = true → s.wrk.recs = [] →
    s.wrk.sets.filter (fun q => q.tick == k) = [r] → (∀ q ∈ s.wrk.sets, k ≤ q.tick) → s.begun (k + 4) = false → r.n < 64 → r.words.length = 32 →
    Takes (.resultCollect k) s (fun t =>
      t.wrk = { s.wrk with sets := s.wrk.sets.filter (fun q => q.tick != k), recs := t.wrk.recs }
      ∧ (s.blockOn 14 = true → ∃ p : TrgRep, t.trg.reps = p :: s.trg.reps ∧ p.src = 0x80 + r.n ∧ p.idx = k
          ∧ let age := bitsOf (nth r.words 0 0) 23 4
            let fires := nth r.words 0 0 % 2 = 1 ∧ age ≤ k ∧ r.rep = false
            p.cons = (if fires then [(k - age, 0)] else []) ∧ p.rs = addReasons r.rs (s.stepReasons (if fires then k - age else k)))
      ∧ (bitsOf (s.rd WRK_RES_CFG) 13 12 = 2 → s.bit (WRK_Wn_CFG r.n) 21 = 1 → ∃ b : List Byte,
          t.units = s.units ++ [⟨bitsOf (s.rd WRK_RES_CFG) 8 4, .workerRecord, 0, s.tick, b⟩] ∧ 64 ∣ b.length
          ∧ beAt b 0 2 = 0xB710 ∧ beAt b 4 2 = 1 ∧ beAt b 8 8 = k % 2 ^ 64 ∧ beAt b 16 8 = 2 ^ r.n
          ∧ ∀ j, j < 32 → beAt b (36 + 4 * j) 4 = unsigned 32 (signed 24 (nth r.words j 0)))
      ∧ (bitsOf (s.rd WRK_RES_CFG) 13 12 ≠ 1 → s.sameRegs t [TRG_LATE_CNT, TRG_ERR, PCI_ERR] ∧ t.wrk.recs = []
          ∧ t = { s with regs := t.regs, wrk := t.wrk, trg := { s.trg with reps := t.trg.reps }, units := t.units, kpr := t.kpr
                         degraded := t.degraded, pci := t.pci, out := t.out })))
  ∧ (∀ (n q done : Nat) (s : State), n < 64 → s.wrk.moves.find? (·.1 == n) = some (n, q, done) → 163840 ≤ done → (s.core n).run = none →
    n < s.wrk.phys.length →
    Takes (.coreMigrateComplete n) s (fun t =>
      nth t.wrk.phys n n = q ∧ (∀ m, m ≠ n → nth t.wrk.phys m m = nth s.wrk.phys m m)
      ∧ bitsOf (t.rd (WRK_Wn_STATUS n)) 22 16 = q % 2 ^ 7 ∧ s.sameRegs t [WRK_Wn_STATUS n]
      ∧ t = { s with regs := t.regs, wrk := { s.wrk with phys := t.wrk.phys, moves := s.wrk.moves.erase (n, q, done) } }))
/-! ### Sting beams and triggers (chapter 15) -/

/-- R386 to R388, R391 to R400, R409 to R412: a sting beam reports the first upward crossing of each quarter; a TRIG_IN edge reports its corrected time once a quarter; a
condition fires on its earliest anchor with enough sources and no veto, counts, records and schedules it; an edge gives a pulse, merges, or is held in a keeper gap. -/
def Obligations.TriggersAreFoundFromReports : Prop :=
  (∀ (b j k0 : Nat) (s : State), s.trg.beams.find? (·.1 == b) = some (b, k0) → s.stgOn = true → s.beamOn b = true → k0 ≤ j → s.begun (j + 1) = true →
    s.begun (j + 5) = true ∨ (∀ e ∈ s.beamEntries b, ∃ c ∈ s.ing.canon, c.input = e.1 ∧ c.tick = j ∧ c.replay = false) →
    (∀ r ∈ s.trg.reps, ¬ (r.src = b ∧ r.idx = j)) → s.blockOn 14 = true →
    let ns := s.beamNs b
    let win := bitsOf (s.rd (STG_Bb_CFG b)) 29 24 + 1
    let thr := s.rd64 (STG_Bb_THR_LO b) (STG_Bb_THR_HI b) % 2 ^ 40
    let box (m : Nat) : Nat := sumL ((List.range win).map (fun i => (s.stingPower b k0 ns ((j * ns + m : Nat) - (win : Nat) + (i : Nat))).1))
    let cross (m : Nat) : Prop := m < ns ∧ thr ≤ box (m + 1) ∧ box m < thr
    Takes (.stingReport b j) s (fun t => ∃ (hits : List Nat) (p : TrgRep),
      hits.Pairwise (· < ·) ∧ (∀ m, m ∈ hits ↔ cross m ∧ ∀ i, i < m → cross i → i * 4 / ns ≠ m * 4 / ns)
      ∧ t.trg.reps = p :: s.trg.reps ∧ p.src = b ∧ p.idx = j ∧ p.cons = hits.map (fun m => (j, m * 4000 / ns))
      ∧ t.rd (STG_Bb_CAND b) = (s.rd (STG_Bb_CAND b) + hits.length) % 2 ^ 32
      ∧ s.sameRegs t [STG_Bb_CAND b, STG_Bb_SUPP b, STG_Bb_SAT b, STG_ERR, TRG_LATE_CNT, TRG_ERR, PCI_ERR]
      ∧ t = { s with regs := t.regs, trg := { s.trg with reps := t.trg.reps }, pci := t.pci, out := t.out }))
  ∧ (∀ (n e : Nat) (s : State), n < 8 → s.bit (TRIG_INn_CFG n) 0 = 1 → s.blockOn 14 = true → s.trg.quarter.length = 8 →
    s.begun ((e + 4 * bitsOf (s.rd (TRIG_INn_CFG n)) 15 8) / 4000) = true →
    let ev := e - s.rd (TRIG_INn_DLY n) % 2 ^ 22
    (nth s.trg.quarter n none = some (e / 1000) → Takes (.trigInEdge n e) s (fun t =>
      t.rd (TRIG_INn_SUPP n) = (s.rd (TRIG_INn_SUPP n) + 1) % 2 ^ 32 ∧ s.sameRegs t [TRIG_INn_SUPP n] ∧ t = { s with regs := t.regs }))
    ∧ (nth s.trg.quarter n none ≠ some (e / 1000) → Takes (.trigInEdge n e) s (fun t =>
      (∃ p : TrgRep, t.trg.reps = p :: s.trg.reps ∧ p.src = 0xC0 + n ∧ p.idx = ev / 4000 ∧ p.cons = [(ev / 4000, ev % 4000)]
        ∧ p.rs = s.stepReasons (ev / 4000))
      ∧ nth t.trg.quarter n none = some (e / 1000) ∧ t.rd (TRIG_INn_EDGES n) = (s.rd (TRIG_INn_EDGES n) + 1) % 2 ^ 32
      ∧ s.sameRegs t [TRIG_INn_EDGES n, TRG_LATE_CNT, TRG_ERR, PCI_ERR]
      ∧ t = { s with regs := t.regs, trg := { s.trg with reps := t.trg.reps, quarter := t.trg.quarter }, pci := t.pci, out := t.out })))
  ∧ (∀ (c T : Nat) (s : State), s.blockOn 14 = true → s.tim.lastTick = some T → s.trg.lastEval ≠ some T →
    (List.range 64).filter (fun c => s.tcOn c && s.tcLag c + 1 ≤ T) = [c] → (∀ g, g < 8 → s.slotMember g = false) →
    let j := T - s.tcLag c - 1
    let srcs := s.tcSources c
    let win := s.rd (TRG_TCc_WIN c) % 2 ^ 19
    let hits (a : Nat) : List Nat :=
      (List.range srcs.length).filter (fun i => (s.consOf c (nth srcs i 0)).any (fun e => a ≤ e.1 + win && e.1 ≤ a))
    let veto (a : Nat) : Prop := ∃ v ∈ s.tcVetoes c, ∃ e ∈ s.consOf c v, a ≤ e.1 + s.rd (TRG_TCc_VPRE c) % 2 ^ 19 ∧ e.1 ≤ a + s.rd (TRG_TCc_VPOST c) % 2 ^ 16
    let anchor (a : Nat) : Prop := a / 4000 = j ∧ ∃ v ∈ srcs, ∃ e ∈ s.consOf c v, e.1 = a
    let good (a : Nat) : Prop := anchor a ∧ bitsOf (s.rd (TRG_TCc_CFG c)) 12 8 ≤ (hits a).length ∧ ¬ veto a
    let fl := s.condFlags c j
    let frame (t : State) : Prop :=
      s.sameRegs t ([TRG_TCc_FIRED c, TRG_TCc_VETOED c, TRG_TCc_PRESCALED c, TRG_TCc_SUPPRESSED c, TRG_TCc_NOTES c, TRG_TCc_COUNT c, TRG_ERR, PCI_ERR]
        ++ (List.range 8).map TRIG_OUTn_LATE)
      ∧ t.trg.lastEval = some T
      ∧ t = { s with regs := t.regs, trg := { s.trg with reps := t.trg.reps, lastEval := t.trg.lastEval, evals := t.trg.evals, decs := t.trg.decs, sched := t.trg.sched }
                     kpr := t.kpr, pci := t.pci, out := t.out }
    (∀ a, good a → (∀ a', a' < a → ¬ good a') →
      let fire := s.rd (TRG_TCc_COUNT c) % (s.rd (TRG_TCc_PRESCALE c) % 2 ^ 24) = 0
      let edge (n : Nat) : Nat := a + s.rd (TRIG_OUTn_LAT n) % 2 ^ 20
      let late := ∃ n ∈ s.outsOfTc c, edge n < T * 4000 + 1400
      Takes .conditionEvaluate s (fun t =>
        t.rd (TRG_TCc_COUNT c) = (s.rd (TRG_TCc_COUNT c) + 1) % 2 ^ 32
        ∧ (fire → t.rd (TRG_TCc_FIRED c) = (s.rd (TRG_TCc_FIRED c) + 1) % 2 ^ 32
            ∧ (∃ r ∈ t.trg.decs, r.kind = 1 ∧ r.origin = c ∧ r.count = (hits a).length ∧ r.tick = j ∧ r.sub = a % 4000
                ∧ r.mask = sumL ((hits a).map (2 ^ ·)) ∧ r.number = (s.rd (TRG_TCc_COUNT c) + 1) % 2 ^ 32 ∧ r.handed = T
                ∧ (¬ late → r.rs = fl.1 ∧ r.late = fl.2) ∧ (late → r.rs = addNew fl.1 rTriggerLate ∧ r.late = true))
            ∧ (∀ n ∈ s.outsOfTc c, (T * 4000 + 1400 ≤ edge n → (n, edge n) ∈ t.trg.sched)
                ∧ (edge n < T * 4000 + 1400 → t.rd (TRIG_OUTn_LATE n) = (s.rd (TRIG_OUTn_LATE n) + 1) % 2 ^ 32 ∧ t.bit TRG_ERR 3 = 1)))
        ∧ (¬ fire → t.rd (TRG_TCc_PRESCALED c) = (s.rd (TRG_TCc_PRESCALED c) + 1) % 2 ^ 32 ∧ t.trg.sched = s.trg.sched)
        ∧ frame t))
    ∧ ((∀ a, ¬ good a) → Takes .conditionEvaluate s (fun t =>
        t.rd (TRG_TCc_COUNT c) = s.rd (TRG_TCc_COUNT c) ∧ t.rd (TRG_TCc_FIRED c) = s.rd (TRG_TCc_FIRED c) ∧ t.trg.sched = s.trg.sched
        ∧ (fl.1 = [] → t.trg.decs = s.trg.decs)
        ∧ (fl.1 ≠ [] → t.rd (TRG_TCc_NOTES c) = (s.rd (TRG_TCc_NOTES c) + 1) % 2 ^ 32
            ∧ ∃ r ∈ t.trg.decs, r.kind = 2 ∧ r.origin = c ∧ r.tick = j ∧ r.rs = fl.1 ∧ r.late = fl.2 ∧ r.handed = T)
        ∧ frame t)))
  ∧ (∀ (n at_ : Nat) (s : State), nextEdge n s.trg.sched = some (n, at_) → n < 8 → s.begun (at_ / 4000) = true → s.trg.busy.length = 8 →
    let rest : Trg := { s.trg with sched := s.trg.sched.erase (n, at_) }
    let w : Nat := s.rd (TRIG_OUTn_WIDTH n) % 2 ^ 20
    let on : Prop := s.bit (TRIG_OUTn_CFG n) 0 = 1 ∧ s.blockOn 14 = true
    let kept : Clk := { s.clk with pulses := (.trigOut n, at_, at_ + 4 * (w : Int)) :: s.clk.pulses.filter (·.1 != .trigOut n) }
    (¬ on → Takes (.trigOutPulse n) s (fun t => t = { s with trg := rest }))
    ∧ (on → s.kpr.gap = true → Takes (.trigOutPulse n) s (fun t => t.rd TRG_HELD_CNT = (s.rd TRG_HELD_CNT + 1) % 2 ^ 32 ∧ t.bit TRG_ERR 4 = 1
      ∧ s.sameRegs t [TRG_HELD_CNT, TRG_ERR, PCI_ERR] ∧ t = { s with regs := t.regs, trg := rest, clk := kept, pci := t.pci, out := t.out }))
    ∧ (on → s.kpr.gap = false → at_ < nth s.trg.busy n 0 → Takes (.trigOutPulse n) s (fun t =>
      t.rd (TRIG_OUTn_MERGED n) = (s.rd (TRIG_OUTn_MERGED n) + 1) % 2 ^ 32 ∧ s.sameRegs t [TRIG_OUTn_MERGED n]
      ∧ t = { s with regs := t.regs, trg := rest }))
    ∧ (on → s.kpr.gap = false → nth s.trg.busy n 0 ≤ at_ → Takes (.trigOutPulse n) s (fun t =>
      t.out = .pulse (.trigOut n) at_ w (s.bit (TRIG_OUTn_CFG n) 1 == 1) :: s.out
      ∧ t.trg = { rest with busy := t.trg.busy } ∧ nth t.trg.busy n 0 = at_ + max 1 (4 * w)
      ∧ t.rd (TRIG_OUTn_PULSES n) = (s.rd (TRIG_OUTn_PULSES n) + 1) % 2 ^ 32 ∧ s.sameRegs t [TRIG_OUTn_PULSES n]
      ∧ t = { s with regs := t.regs, trg := t.trg, clk := kept, out := t.out })))

/-- R401 to R408: a digest of a slot's session that is no copy fills the collector's store; a collecting slot numbers and keeps the earliest event with enough hives, the
active hive issues it; a member accepts one trigger for each event tick; heartbeats go out by their period, move the active hive and show what was missed; the passive
hive takes over when they stop. -/
def Obligations.TriggerSessionsAgreeAndRecover : Prop :=
  let msg (s : State) (g type : Nat) (x : RxItem) : Prop :=
    s.eth.inbox.find? (fun x => x.kind == .trigger && (if type = 1 then beAt x.bytes 3 1 != 2 && beAt x.bytes 3 1 != 3 else beAt x.bytes 3 1 == type)) = some x
    ∧ beAt x.bytes 3 1 = type ∧ s.blockOn 14 = true ∧ beAt x.bytes 0 2 = 0xB711 ∧ beAt x.bytes 2 1 = 1 ∧ beAt x.bytes 8 4 = s.rd CTN_SWARM_ID
    ∧ g < 8 ∧ s.slotOn g = true ∧ s.slotSession g = beAt x.bytes 4 2 ∧ (∀ e, e < g → ¬ (s.slotOn e = true ∧ s.slotSession e = beAt x.bytes 4 2))
    ∧ s.trg.slots.length = 8
  let new (s : State) (g type : Nat) (x : RxItem) : Prop := msg s g type x ∧ ∀ d ∈ s.trg.dups, ¬ (d.g = g ∧ d.hive = beAt x.bytes 6 2 ∧ d.type = type)
  (∀ (g : Nat) (x : RxItem) (s : State), new s g 1 x → s.slotCollects g = true → Takes .digestReceive s (fun t =>
      (∀ i, i < beAt x.bytes 14 1 → ∃ d ∈ t.trg.digs, d.g = g ∧ d.hive = beAt x.bytes 6 2 ∧ d.tick = beAt x.bytes 16 8 + i
        ∧ d.at_ = s.trgNow s.trg.lastColl
        ∧ d.fire = (if bitOf (beAt x.bytes (32 + 4 * i) 4) 31 = 1 then some (beAt x.bytes (32 + 4 * i) 4 % 4096) else none)
        ∧ d.late = (bitOf (beAt x.bytes (32 + 4 * i) 4) 28 == 1))
      ∧ t.rd (TRG_SESg_DIGESTS g) = (s.rd (TRG_SESg_DIGESTS g) + 1) % 2 ^ 32 ∧ s.sameRegs t [TRG_SESg_DIGESTS g]
      ∧ t = { s with regs := t.regs, eth := { s.eth with inbox := s.eth.inbox.erase x }, trg := { s.trg with digs := t.trg.digs, dups := t.trg.dups } }))
  ∧ (∀ (g type : Nat) (x : RxItem) (d : TrgDup) (s : State), msg s g type x → (type = 1 ∨ type = 2 ∨ type = 3) →
    s.trg.dups.find? (fun d => d.g == g && d.hive == beAt x.bytes 6 2 && d.type == type) = some d → d.a = beAt x.bytes 24 4 →
    Takes (if type = 1 then .digestReceive else if type = 2 then .triggerMessageReceive else .heartbeatReceive) s (fun t =>
      t.rd (TRG_SESg_DUP g) = (s.rd (TRG_SESg_DUP g) + 1) % 2 ^ 32 ∧ s.sameRegs t [TRG_SESg_DUP g]
      ∧ t = { s with regs := t.regs, eth := { s.eth with inbox := s.eth.inbox.erase x } }))
  ∧ (∀ (g T : Nat) (s : State), s.blockOn 14 = true → s.tim.lastTick = some T → s.trg.lastColl ≠ some T → g < 8 → s.trg.slots.length = 8 →
    (List.range 8).filter (fun g => s.slotCollects g && s.slotEs g + 1 ≤ T) = [g] →
    let j := T - s.slotEs g - 1
    let win := s.rd (TRG_SESg_WIN g) % 2 ^ 19
    let fire (a h : Nat) : Prop := ∃ d ∈ s.trg.digs, ∃ u, d.g = g ∧ d.hive = h ∧ s.isMemberHive g h = true ∧ onTime d.at_ d.tick (s.slotEs g) = true
      ∧ d.fire = some u ∧ d.tick * 4000 + u = a
    let n := (s.rd64 (TRG_SESg_TSEQ_LO g) (TRG_SESg_TSEQ_HI g) + 1) % 2 ^ 64
    (∀ a h hs, a / 4000 = j → fire a h → (∀ e, e < h → ¬ fire a e) → (∀ e, e ∈ hs ↔ ∃ b, fire b e ∧ a ≤ b + win ∧ b ≤ a) → hs.Pairwise (· < ·) →
      s.rd (TRG_SESg_CFG2 g) % 2048 ≤ hs.length →
      (∀ (b hb : Nat) (l : List Nat), b < a → b / 4000 = j → fire b hb → (∀ e, e ∈ l ↔ ∃ b', fire b' e ∧ b ≤ b' + win ∧ b' ≤ b) → l.Nodup →
        l.length < s.rd (TRG_SESg_CFG2 g) % 2048) →
      Takes .collectorEvaluate s (fun t =>
        t.rd64 (TRG_SESg_TSEQ_LO g) (TRG_SESg_TSEQ_HI g) = n
        ∧ (∃ e : GlobTrig, (t.trgSlot g).evald.head? = some e ∧ e.tick = j ∧ e.sub = a % 4000 ∧ e.hives = hs ∧ e.anchor = h ∧ e.tseq = n
            ∧ (s.slotActive g = true → ∃ r ∈ t.trg.decs, r.kind = 4 ∧ r.origin = 2 ^ 15 + s.slotSession g ∧ r.count = hs.length ∧ r.tick = j
                ∧ r.sub = a % 4000 ∧ r.number = n ∧ r.handed = T ∧ r.rs = addReasons e.rs (if s.slotSession g ∈ s.untimed then [rUntimed] else []))
            ∧ (s.slotActive g = true → s.slotMember g = true → ∃ x ∈ t.eth.inbox, x.kind = .trigger ∧ x.bytes.drop 32 = trigBody e
                ∧ beAt x.bytes 3 1 = 2 ∧ beAt x.bytes 16 8 = j % 2 ^ 64))
        ∧ t.trg.lastColl = some T ∧ s.sameRegs t [TRG_SESg_TSEQ_LO g, TRG_SESg_TSEQ_HI g, TRG_SESg_DLATE g, TRG_ERR, PCI_ERR]
        ∧ t = { s with regs := t.regs, trg := { s.trg with lastColl := some T, slots := t.trg.slots, decs := t.trg.decs }, eth := t.eth, pci := t.pci
                       out := t.out, kpr := t.kpr, degraded := t.degraded, untimed := t.untimed })))
  ∧ (∀ (g : Nat) (x : RxItem) (s : State), new s g 2 x → s.slotMember g = true → beAt x.bytes 6 2 ∈ s.slotHives g →
    let k := beAt x.bytes 16 8
    (∀ a ∈ (s.trgSlot g).accepted, a.1 ≠ k) → s.slotSession g ∉ s.untimed → s.outsOfSlot g = [] → Takes .triggerMessageReceive s (fun t =>
      t.trgSlot g = { s.trgSlot g with
        known := max (s.trgSlot g).known (beAt x.bytes 32 8)
        accepted := ((k, beAt x.bytes 32 8, beAt x.bytes 40 2, beAt x.bytes 42 2) :: (s.trgSlot g).accepted).take 65536 }
      ∧ (∃ r ∈ t.trg.decs, r.kind = 3 ∧ r.origin = 2 ^ 15 + s.slotSession g ∧ r.count = beAt x.bytes 42 2 ∧ r.tick = k ∧ r.sub = beAt x.bytes 40 2
          ∧ r.number = beAt x.bytes 32 8 ∧ r.handed = s.tick ∧ r.late = (bitOf (beAt x.bytes 12 2) 12 == 1))
      ∧ s.sameRegs t []
      ∧ t = { s with eth := { s.eth with inbox := s.eth.inbox.erase x }, trg := { s.trg with slots := t.trg.slots, decs := t.trg.decs, dups := t.trg.dups }
                     kpr := t.kpr, degraded := t.degraded }))
  ∧ (∀ (g : Nat) (x : RxItem) (a : Nat × Nat × Nat × Nat) (s : State), new s g 2 x → s.slotMember g = true → beAt x.bytes 6 2 ∈ s.slotHives g →
    (s.trgSlot g).accepted.find? (·.1 == beAt x.bytes 16 8) = some a → Takes .triggerMessageReceive s (fun t =>
      t.rd (TRG_SESg_DUP g) = (s.rd (TRG_SESg_DUP g) + 1) % 2 ^ 32
      ∧ (a.2 ≠ (beAt x.bytes 32 8, beAt x.bytes 40 2, beAt x.bytes 42 2) → t.bit TRG_ERR 6 = 1)
      ∧ s.sameRegs t [TRG_SESg_DUP g, TRG_ERR, PCI_ERR]
      ∧ t = { s with regs := t.regs, eth := { s.eth with inbox := s.eth.inbox.erase x }, trg := { s.trg with dups := t.trg.dups }, pci := t.pci
                     out := t.out }))
  ∧ (∀ (g T : Nat) (s : State), g < 8 → s.blockOn 14 = true → s.slotCollects g = true → s.slotActive g = true → s.slotMember g = true →
    s.tim.lastTick = some T → s.rd (TRG_SESg_HB g) % 1024 ∣ T → s.rd (TRG_SESg_HB g) % 1024 ≠ 0 → s.trg.slots.length = 8 →
    (s.trgSlot g).hbSent ≠ some T → s.trg.lastColl = some T →
    Takes (.heartbeatSend g) s (fun t =>
      (t.trgSlot g).hbSent = some T ∧ (t.trgSlot g).lateTicks = 0
      ∧ (∃ x ∈ t.eth.inbox, x.kind = .trigger ∧ beAt x.bytes 3 1 = 3 ∧ beAt x.bytes 4 2 = s.slotSession g ∧ beAt x.bytes 6 2 = s.hiveId
          ∧ beAt x.bytes 16 8 = (T - s.slotEs g - 1) % 2 ^ 64 ∧ beAt x.bytes 32 2 = s.hiveId ∧ beAt x.bytes 36 4 = (s.trgSlot g).lateTicks % 2 ^ 32
          ∧ beAt x.bytes 40 8 = (s.rd64 (TRG_SESg_TSEQ_LO g) (TRG_SESg_TSEQ_HI g) + 1) % 2 ^ 64)
      ∧ s.sameRegs t [] ∧ t = { s with regs := t.regs, eth := t.eth, trg := { s.trg with slots := t.trg.slots } }))
  ∧ (∀ (g : Nat) (x : RxItem) (s : State), new s g 3 x → beAt x.bytes 6 2 ∈ s.slotHives g → beAt x.bytes 14 1 = 0 →
    let act := beAt x.bytes 32 2 % 1024
    let known := (s.trgSlot g).known
    let miss := known + 1 < beAt x.bytes 40 8 ∧ s.slotMember g = true
    Takes .heartbeatReceive s (fun t =>
      bitsOf (t.rd (TRG_SESg_STATUS g)) 25 16 = act
      ∧ (s.slotCollects g = true → act ≠ s.hiveId → s.slotActive g = true → t.slotActive g = false)
      ∧ (act ≠ s.hiveId → (t.trgSlot g).lastHb = s.tick ∧ (t.trgSlot g).hbTick = beAt x.bytes 16 8)
      ∧ (s.slotMember g = true → (t.trgSlot g).known = max known (beAt x.bytes 40 8 - 1))
      ∧ (miss → t.rd (TRG_SESg_MISSED g) = (s.rd (TRG_SESg_MISSED g) + 1) % 2 ^ 32 ∧ t.bit TRG_ERR 7 = 1)
      ∧ (¬ miss → s.sameRegs t [TRG_SESg_STATUS g])
      ∧ s.sameRegs t [TRG_SESg_STATUS g, TRG_SESg_MISSED g, TRG_ERR, PCI_ERR]
      ∧ t = { s with regs := t.regs, eth := { s.eth with inbox := s.eth.inbox.erase x }, trg := { s.trg with slots := t.trg.slots, dups := t.trg.dups }
                     pci := t.pci, out := t.out }))
  ∧ (∀ (g : Nat) (s : State), g < 8 → s.blockOn 14 = true → s.slotCollects g = true → s.slotActive g = false → s.trg.slots.length = 8 →
    let hb := s.rd (TRG_SESg_HB g)
    s.begun ((s.trgSlot g).lastHb + bitsOf hb 19 16 * (hb % 1024) + 1) = true →
    Takes (.collectorTakeover g) s (fun t =>
      t.slotActive g = true ∧ t.rd (TRG_SESg_TAKEOVER g) = (s.rd (TRG_SESg_TAKEOVER g) + 1) % 2 ^ 32 ∧ t.bit TRG_ERR 5 = 1
      ∧ (t.trgSlot g).hbSent = some s.tick
      ∧ (∀ e ∈ (s.trgSlot g).evald, (s.trgSlot g).hbTick < e.tick → ∃ r ∈ t.trg.decs, r.kind = 4 ∧ r.tick = e.tick ∧ r.number = e.tseq ∧ r.sub = e.sub)
      ∧ s.sameRegs t [TRG_SESg_STATUS g, TRG_SESg_TAKEOVER g, TRG_ERR, PCI_ERR]
      ∧ t = { s with regs := t.regs, eth := t.eth, trg := { s.trg with slots := t.trg.slots, decs := t.trg.decs }, pci := t.pci, out := t.out
                     kpr := t.kpr, degraded := t.degraded, untimed := t.untimed }))
/-! ### Acquisition and capture (chapter 16) -/

/-- R417 to R424, R427: a tick of the members enters its slots and index entries and no byte outside its segment moves; a decision record captures, joins a capture, is not
retained, or is dropped from the fifth of a tick on; the segment of a capture is switched after tick e, sealed Δ later with its record, and freed by its release. -/
def Obligations.CapturesAreTakenFromTheRing : Prop :=
  (∀ (c k seg : Nat) (g : AcqGrp) (s : State), s.acqGrp c = some g → s.cgSettled c g = g → g.segOf k = some seg → s.worksOn 15 k = true → (∀ e ∈ g.ticks, e.k ≠ k) →
    s.begun (k + 1) = true → s.begun (k + s.acqDelta g + 1) = false →
    s.begun (k + s.acqDelta g) = true ∨ (∀ m, m < g.cfg.q.length → s.tapReady g k m = true) →
    s.ddrReady = true → s.ddr.bad = [] → 0 < g.cfg.st → g.cfg.st * (sumL g.cfg.q + 8 * g.cfg.q.length) ≤ g.cfg.segBytes →
    g.cfg.base + (seg + 1) * g.cfg.segBytes ≤ s.ddrCapacity → (∀ m, m < g.cfg.q.length → (s.tapData g k m).bytes.length ≤ nth g.cfg.q m 0) →
    Takes (.captureRingWrite c k) s (fun t =>
      (∀ m, m < g.cfg.q.length →
        (∀ o, o < (s.tapData g k m).bytes.length → t.ddrByte (g.cfg.slotAddr seg k m + o) = nth (s.tapData g k m).bytes o 0)
        ∧ ∀ o, o < 8 → t.ddrByte (g.cfg.indexAddr seg k m + o) = nth (indexEntry (s.tapData g k m) true) o 0)
      ∧ (∀ a, a < g.cfg.base + seg * g.cfg.segBytes ∨ g.cfg.base + (seg + 1) * g.cfg.segBytes ≤ a → t.ddrByte a = s.ddrByte a)
      ∧ (∃ g', t.acqGrp c = some g' ∧ g' = { g with ticks := g'.ticks }
          ∧ g'.ticks.head? = some ⟨k, true, (List.range g.cfg.q.length).map (fun m => (s.tapData g k m).mark), []⟩)
      ∧ s.sameRegs t [] ∧ t = { s with ddr := { s.ddr with mem := t.ddr.mem, wq := t.ddr.wq, bad := t.ddr.bad }
                                       acq := { s.acq with grps := t.acq.grps } }))
  ∧ (∀ (c i : Nat) (g : AcqGrp) (r : DecRec) (s : State), c < 64 → s.acqGrp c = some g → s.cgSettled c g = g → s.blockOn 15 = true → s.cgState c ≠ 0 →
    s.cgNext c g = some (i, r) →
    let j := r.tick
    let ev := s.rd64 (ACQ_CGc_EVENT_LO c) (ACQ_CGc_EVENT_HI c)
    let few := g.taken.1 = r.handed → g.taken.2 < 4
    let late := s.rd (ACQ_CGc_LAG c) % 256 < r.handed - j
    let regs (t : State) (l : List Nat) : Prop := s.sameRegs t ([ACQ_CGc_EVENT_LO c, ACQ_CGc_EVENT_HI c, ACQ_CGc_STATUS c] ++ l)
      ∧ t.rd64 (ACQ_CGc_EVENT_LO c) (ACQ_CGc_EVENT_HI c) = (ev + 1) % 2 ^ 64
      ∧ t = { s with regs := t.regs, acq := { s.acq with grps := t.acq.grps, recs := t.acq.recs }, kpr := t.kpr, degraded := t.degraded
                     pci := t.pci, out := t.out }
    let record (t : State) (kind cause link : Nat) : Prop := ∃ e ∈ t.acq.recs, e.tick = r.handed ∧ e.cap = false ∧ e.c = c ∧ e.ev = ev
      ∧ e.x = s.cgSession c ∧ beAt e.bytes 0 1 = kind ∧ beAt e.bytes 1 1 = cause ∧ beAt e.bytes 8 8 = ev ∧ beAt e.bytes 24 8 = j % 2 ^ 64
      ∧ beAt e.bytes 64 8 = link % 2 ^ 64
    (¬ few → Takes (.decisionTake c) s (fun t =>
      t.rd (ACQ_CGc_DROPPED c) = (s.rd (ACQ_CGc_DROPPED c) + 1) % 2 ^ 32 ∧ (∃ g', t.acqGrp c = some g' ∧ g'.drop = g.drop + 1 ∧ g'.caps = g.caps)
      ∧ s.sameRegs t [ACQ_CGc_DROPPED c] ∧ t = { s with regs := t.regs, acq := { s.acq with grps := t.acq.grps } }))
    ∧ (∀ p, few → (g.caps.filter (fun p => p.first ≤ j && j ≤ p.last)).getLast? = some p → Takes (.decisionTake c) s (fun t =>
      t.rd (ACQ_CGc_JOINED c) = (s.rd (ACQ_CGc_JOINED c) + 1) % 2 ^ 32 ∧ record t 2 0 p.ev
      ∧ (∃ g', t.acqGrp c = some g' ∧ g'.caps = g.caps ∧ g'.spans = g.spans ∧ g'.drop = 0) ∧ regs t [ACQ_CGc_JOINED c]))
    ∧ (∀ d, few → (∀ p ∈ g.caps, ¬ (p.first ≤ j ∧ j ≤ p.last)) → g.dead = some d → d ≤ j → Takes (.decisionTake c) s (fun t =>
      t.rd (ACQ_CGc_MISSED c) = (s.rd (ACQ_CGc_MISSED c) + 1) % 2 ^ 32 ∧ t.bit ACQ_ERR 2 = 1 ∧ record t 3 1 (2 ^ 64 - 1)
      ∧ (∃ g', t.acqGrp c = some g' ∧ g'.caps = g.caps ∧ g'.spans = g.spans ∧ g'.drop = 0) ∧ regs t [ACQ_CGc_MISSED c, ACQ_ERR, PCI_ERR]))
    ∧ (∀ sp older, few → (∀ p ∈ g.caps, ¬ (p.first ≤ j ∧ j ≤ p.last)) → g.dead = none → g.spans = sp :: older → sp.last = none →
      max sp.s0 (r.handed + 1 - g.cfg.st) ≤ j → s.cgFallback c = false → Takes (.decisionTake c) s (fun t =>
        (∃ (g' : AcqGrp) (p : AcqCap), t.acqGrp c = some g' ∧ g'.caps = p :: g.caps ∧ g'.spans = { sp with last := some p.e } :: older ∧ g'.drop = 0
          ∧ p.ev = ev ∧ p.seg = sp.seg ∧ p.first = max (j - s.rd (ACQ_CGc_PRE c) % 2 ^ 24) (max sp.s0 (r.handed + 1 - g.cfg.st))
          ∧ p.last = j + s.rd (ACQ_CGc_POST c) % 2 ^ 24 ∧ p.e = max p.last r.handed ∧ p.dec = r ∧ p.sealed_ = false ∧ p.cfg = g.cfg
          ∧ p.late = (r.late || decide late) ∧ (late → rTriggerLate ∈ p.rs))
        ∧ t.rd (ACQ_CGc_CAPTURES c) = (s.rd (ACQ_CGc_CAPTURES c) + 1) % 2 ^ 32 ∧ t.acq.recs = s.acq.recs
        ∧ regs t [ACQ_CGc_CAPTURES c, ACQ_CGc_DEAD_LO c, ACQ_CGc_DEAD_HI c])))
  ∧ (∀ (c seg s0 e : Nat) (older : List AcqSpan) (g : AcqGrp) (s : State), c < 64 → s.acqGrp c = some g → g.spans = ⟨seg, s0, some e⟩ :: older →
    s.cgState c = 1 → g.dead = none → s.begun (e + 1) = true → (∀ q ∈ g.rel, s.begun q.2.1 = true → e + 1 < q.2.1) →
    (∀ i r, s.cgFree c g = i :: r → Takes (.segmentSwitch c) s (fun t =>
      t.acqGrp c = some { g with spans := (⟨i, e + 1, none⟩ :: g.spans).take 16 } ∧ bitsOf (t.rd (ACQ_CGc_STATUS c)) 27 24 = i % 16
      ∧ s.sameRegs t [ACQ_CGc_STATUS c] ∧ t = { s with regs := t.regs, acq := { s.acq with grps := t.acq.grps } }))
    ∧ (s.cgFree c g = [] → s.bit (ACQ_CGc_CFG c) 0 = 1 → Takes (.segmentSwitch c) s (fun t =>
      t.acqGrp c = some { g with dead := some (e + 1) } ∧ t.cgState c = 2 ∧ t.bit ACQ_ERR 3 = 1
      ∧ s.sameRegs t [ACQ_CGc_STATUS c, ACQ_ERR, PCI_ERR]
      ∧ t = { s with regs := t.regs, acq := { s.acq with grps := t.acq.grps }, pci := t.pci, out := t.out })))
  ∧ (∀ (c : Nat) (p : AcqCap) (g : AcqGrp) (s : State), c < 64 → s.acqGrp c = some g →
    g.caps.reverse.find? (fun p => !p.sealed_ && s.begun (p.e + s.acqDelta g + 1)) = some p →
    let held := g.ticks.filter (fun t => p.first ≤ t.k && t.k ≤ p.last)
    Takes (.captureSeal c) s (fun t =>
      t.acqGrp c = some { g with caps := g.caps.map (fun q => if q.ev = p.ev then { q with sealed_ := true } else q) }
      ∧ (∃ e ∈ t.acq.recs, e.tick = p.e + s.acqDelta g + 1 ∧ e.cap = true ∧ e.c = c ∧ e.ev = p.ev ∧ e.bytes.length = 128
          ∧ beAt e.bytes 0 1 = 1 ∧ beAt e.bytes 4 2 = c ∧ beAt e.bytes 8 8 = p.ev % 2 ^ 64 ∧ beAt e.bytes 48 8 = p.first % 2 ^ 64
          ∧ beAt e.bytes 56 8 = p.last % 2 ^ 64 ∧ beAt e.bytes 64 8 = p.link % 2 ^ 64
          ∧ beAt e.bytes 80 8 = (g.cfg.base + p.seg * g.cfg.segBytes) % 2 ^ 64
          ∧ beAt e.bytes 92 4 = (p.last + 1 - p.first - (held.filter (·.written)).length) % 2 ^ 32)
      ∧ s.sameRegs t [ACQ_CGc_STATUS c]
      ∧ t = { s with regs := t.regs, acq := { s.acq with grps := t.acq.grps, recs := t.acq.recs }, kpr := t.kpr, degraded := t.degraded
                     untimed := t.untimed }))
  ∧ (∀ (c seg r : Nat) (u : Bool) (g : AcqGrp) (s : State), c < 64 → s.acqGrp c = some g →
    (s.cgDue g).head? = some (seg, r, u) →
    let n := if g.before r then g else s.cgSwitched c g
    let caps := g.caps.filter (fun p => p.seg != seg || !p.sealed_)
    Takes (.segmentFree c) s (fun t =>
      (∃ g', t.acqGrp c = some g' ∧ g'.caps = caps ∧ g'.rel = g.rel.filter (·.1 != seg)
        ∧ (n.dead = none → g'.spans = n.spans ∧ g'.dead = none)
        ∧ (∀ d i l, n.dead = some d → s.cgState c ≠ 0 → s.cgFree c { n with caps := caps } = i :: l →
            g'.dead = none ∧ g'.spans = (⟨i, r, none⟩ :: n.spans).take 16 ∧ (d * 4000, r * 4000) ∈ g'.ivals))
      ∧ (n = g → s.sameRegs t [ACQ_CGc_STATUS c] ∧ t.pci = s.pci ∧ t.out = s.out) ∧ s.sameRegs t [ACQ_CGc_STATUS c, ACQ_ERR, PCI_ERR]
      ∧ t = { s with regs := t.regs, acq := { s.acq with grps := t.acq.grps }, pci := t.pci, out := t.out }))

/-- R13, R430 to R433: the event records of a tick leave as one send; change records and power-history frames of a tick go to their rings, or are counted lost where a
ring is full; a replay's tick is supplied as it was recorded. -/
def Obligations.EventsHistoriesAndReplaysLeave : Prop :=
  let room (s : State) (rb rs rw rr len : Nat) : Prop := ringFits (s.rd rw) (s.rd rr) (s.rd rs * 1024) (ceilDiv len 64) = true
    ∧ s.rd rw < s.rd rs * 1024 ∧ s.ddrReady = true ∧ s.ddr.bad = [] ∧ s.rd rb * 65536 + s.rd rs * 65536 ≤ s.ddrCapacity
  let ring (s t : State) (rb rs rw : Nat) (b : List Byte) : Prop := t.rd rw = (s.rd rw + ceilDiv b.length 64) % (s.rd rs * 1024)
    ∧ (∀ o, o < b.length → t.ddrByte (s.rd rb * 65536 + (s.rd rw * 64 + o) % (s.rd rs * 65536)) = nth b o 0)
    ∧ (∀ a, a < s.rd rb * 65536 ∨ s.rd rb * 65536 + s.rd rs * 65536 ≤ a → t.ddrByte a = s.ddrByte a) ∧ s.sameRegs t [rw]
  (∀ (tk q : Nat) (s : State), s.begun (tk + 1) = true → bitsOf (s.rd ACQ_EVT_CFG) 2 0 = 4 →
    let rs := s.acq.recs.filter (·.tick == tk)
    let d := rs.flatMap (·.bytes)
    rs ≠ [] → s.blockOn 15 = true → (∀ r ∈ rs, s.productQueue r.x 5 = q) → Takes (.eventRecordEmit tk) s (fun t => ∃ (b : List Byte) (x : Nat),
      t.units = s.units ++ [⟨bitsOf (s.rd ACQ_EVT_CFG) 8 4, .event, x, s.tick, b⟩] ∧ 64 ∣ b.length ∧ (b.drop 64).take d.length = d
      ∧ beAt b 0 2 = 0xB712 ∧ beAt b 6 2 = s.hiveId ∧ beAt b 8 4 = rs.length % 2 ^ 32 ∧ beAt b 16 8 = tk % 2 ^ 64
      ∧ beAt b 24 8 = s.acq.evtSeq % 2 ^ 64 ∧ beAt b 44 4 = d.length % 2 ^ 32
      ∧ t = { s with units := t.units, acq := { s.acq with recs := s.acq.recs.filter (·.tick != tk), evtSeq := s.acq.evtSeq + 1 } }))
  ∧ (∀ (tk : Nat) (s : State), s.begun (tk + 1) = true → s.blockOn 15 = false → (∃ r ∈ s.acq.recs, r.tick = tk) →
    Takes (.eventRecordEmit tk) s (fun t => t.rd ACQ_EVT_LOST = (s.rd ACQ_EVT_LOST + 1) % 2 ^ 32 ∧ t.bit ACQ_ERR 6 = 1
      ∧ s.sameRegs t [ACQ_EVT_LOST, ACQ_ERR, PCI_ERR]
      ∧ t = { s with regs := t.regs, acq := { s.acq with recs := s.acq.recs.filter (·.tick != tk) }, pci := t.pci, out := t.out }))
  ∧ (∀ (k : Nat) (s : State),
    let ins := (List.range 256).filter (fun i => s.bit (ING_Ii_CFG i) 0 == 1 && s.bit (ING_Ii_CFG i) 4 == 1 && !s.slotReplay i)
    let recs := ins.flatMap (fun i => (s.chgOf i k).1)
    s.bit ACQ_CHG_CFG 31 = 1 → s.blockOn 15 = true → (∀ o, s.acq.chgLast = some o → o < k) → s.begun (k + 1) = true → s.begun (k + 7) = false →
    s.canonReady ins k = true → (∀ i ∈ ins, (s.chgOf i k).2 = 0) → s.acq.chgLost = 0 →
    let fit := recs.length ≤ 4 * s.ringFree ACQ_CHG_RING_SIZE ACQ_CHG_RING_WR ACQ_CHG_RING_RD
    (recs = [] → Takes (.hitChangeRecord k) s (fun t => s.sameRegs t []
      ∧ t = { s with regs := t.regs, acq := { s.acq with chgLast := some k } }))
    ∧ (recs ≠ [] → fit → room s ACQ_CHG_RING_BASE ACQ_CHG_RING_SIZE ACQ_CHG_RING_WR ACQ_CHG_RING_RD (16 * recs.length) →
      Takes (.hitChangeRecord k) s (fun t =>
        ring s t ACQ_CHG_RING_BASE ACQ_CHG_RING_SIZE ACQ_CHG_RING_WR (recs.flatMap (fun w => toLE 8 k ++ toLE 8 w))
        ∧ t = { s with regs := t.regs, ddr := { s.ddr with mem := t.ddr.mem, wq := t.ddr.wq, bad := t.ddr.bad }
                       acq := { s.acq with chgLast := some k } }))
    ∧ (s.ringFree ACQ_CHG_RING_SIZE ACQ_CHG_RING_WR ACQ_CHG_RING_RD = 0 → recs ≠ [] → Takes (.hitChangeRecord k) s (fun t =>
        t.rd ACQ_CHG_LOST = (s.rd ACQ_CHG_LOST + recs.length) % 2 ^ 32 ∧ t.bit ACQ_ERR 6 = 1 ∧ s.sameRegs t [ACQ_CHG_LOST, ACQ_ERR, PCI_ERR]
        ∧ t = { s with regs := t.regs, acq := { s.acq with chgLast := some k, chgLost := recs.length }, pci := t.pci, out := t.out })))
  ∧ (∀ (k : Nat) (s : State),
    let ins := (List.range 256).filter (fun i => s.bit (ACQ_HIST_IN (i / 32)) (i % 32) == 1)
    let b := s.histFrame ins k
    s.bit ACQ_HIST_CFG 31 = 1 → s.blockOn 15 = true → (∀ o, s.acq.histLast = some o → o < k) → k % (s.rd ACQ_HIST_CFG % 2 ^ 20) = 0 →
    s.begun (k + 1) = true → s.begun (k + 7) = false → s.canonReady ins k = true →
    (room s ACQ_HIST_RING_BASE ACQ_HIST_RING_SIZE ACQ_HIST_RING_WR ACQ_HIST_RING_RD b.length → Takes (.powerHistoryFrame k) s (fun t =>
      ring s t ACQ_HIST_RING_BASE ACQ_HIST_RING_SIZE ACQ_HIST_RING_WR b ∧ b.length = 64 + 8 * ins.length
      ∧ t = { s with regs := t.regs, ddr := { s.ddr with mem := t.ddr.mem, wq := t.ddr.wq, bad := t.ddr.bad }
                     acq := { s.acq with histLast := some k } }))
    ∧ (ringFits (s.rd ACQ_HIST_RING_WR) (s.rd ACQ_HIST_RING_RD) (s.rd ACQ_HIST_RING_SIZE * 1024) (ceilDiv b.length 64) = false →
      Takes (.powerHistoryFrame k) s (fun t => t.rd ACQ_HIST_LOST = (s.rd ACQ_HIST_LOST + 1) % 2 ^ 32 ∧ t.bit ACQ_ERR 6 = 1
        ∧ s.sameRegs t [ACQ_HIST_LOST, ACQ_ERR, PCI_ERR]
        ∧ t = { s with regs := t.regs, acq := { s.acq with histLast := some k }, pci := t.pci, out := t.out })))
  ∧ (∀ (x c ev k : Nat) (g : AcqGrp) (p : AcqCap) (s : State), s.acqGrp c = some g → g.caps.find? (fun p => p.ev == ev && p.sealed_) = some p →
    s.blockOn 15 = true → s.sesReplay x = true →
    let next := s.acq.replay.find? (fun q => q.1 == x && q.2.1 == c && q.2.2.1 == ev)
    (next = none ∧ k = p.first ∨ next = some (x, c, ev, k)) → s.ddrReady = true → s.ddr.bad = [] →
    (∀ m, m < p.cfg.q.length → p.cfg.indexAddr p.seg k m + 8 ≤ s.ddrCapacity ∧ p.cfg.slotAddr p.seg k m + 16384 ≤ s.ddrCapacity) →
    let e (m : Nat) : Nat := (s.indexRead p k m).1.1
    let n (m : Nat) : Nat := bitsOf (e m) 55 43
    let bw (m : Nat) : Nat := necBits (bitsOf (e m) 58 56)
    let slot (m len : Nat) : List Byte := (s.slotRead p k m len).1.1
    Takes (.replaySupply x c ev k) s (fun t =>
      (p.cfg.tap = 0 → t.ing = { s.ing with replayIn := s.ing.replayIn
        ++ ((List.range p.cfg.q.length).filter (fun m => s.slotReplay (p.cfg.first + m))).map (fun m =>
          if bitOf (e m) 59 = 0 ∨ n m = 0 then ⟨p.cfg.first + m, k, 0, 8, [], .noneReceived⟩
          else ⟨p.cfg.first + m, k, e m % 2 ^ 32, bw m, unpackBits (bw m) (n m) (slot m (ceilDiv (n m * bw m) 8)), .none⟩) })
      ∧ (p.cfg.tap = 1 → ∀ m, m < p.cfg.q.length → p.cfg.q.length ≤ 256 → s.bit (CHN_Ii_CFG (p.cfg.first + m)) 1 = 1 →
          ∃ y ∈ t.ing.canon, y.input = p.cfg.first + m ∧ y.tick = k ∧ y.replay = true
          ∧ (bitOf (e m) 59 = 1 → bitOf (e m) 60 = 0 → y.samples.map (·.v) = unpackBits 16 (n m) (slot m (2 * n m)))
          ∧ (bitOf (e m) 59 = 0 ∨ bitOf (e m) 60 = 1 → y.samples.length = s.inputNs (p.cfg.first + m) ∧ ∀ v ∈ y.samples, v.gap = true))
      ∧ (∀ y, y ∈ t.acq.replay ↔ (y ∈ s.acq.replay ∧ ¬ (y.1 = x ∧ y.2.1 = c ∧ y.2.2.1 = ev)) ∨ (k ≠ p.last ∧ y = (x, c, ev, k + 1)))
      ∧ (p.cfg.tap = 0 ∨ p.cfg.tap = 1 → s.sameRegs t []
          ∧ t = { s with ing := t.ing, acq := { s.acq with replay := t.acq.replay } })))

/-! ### The DDR controller and the forager (chapters 17 and 18) -/

/-- R437 to R457: training takes the widest run of each lane and READY rises when every lane of every channel passes; an untrained controller completes
requests at once; the grant follows promotion, shares, client and order; a write is seen by every later read; refresh, the DQS check and the patrol scrub do
their part; a host write takes effect only inside HOST. -/
def Obligations.TheControllerTrainsAndServesItsClients : Prop :=
  (∀ m : Nat, let r := sweepRun m
    r.2 + r.1 ≤ 128 ∧ (∀ i, i < r.1 → bitOf m (r.2 + i) = 1)
    ∧ ∀ f w, f + w ≤ 128 → (∀ i, i < w → bitOf m (f + i) = 1) → w ≤ r.1 ∧ (w = r.1 → r.2 ≤ f))
  ∧ (∀ (res : List (List LaneSweep)) (spd : Nat) (s : State), s.bit DDR_STATUS 30 = 1 → s.bit GLB_DOMAINS (s.blockDomain 15) = 1 →
    Takes (.ddrTrainingComplete res spd) s (fun t =>
      let lane (c l : Nat) := trainLane (nth (nth res c []) l ⟨[], 0, false⟩)
      let fails (c : Nat) : Prop := (∃ l ∈ s.lanesOf, (lane c l).2 = false) ∨ s.bit DDR_CFG 7 = 1 ∧ bitOf spd c = 1
      (∀ c, c < 16 → ∀ l ∈ s.lanesOf, t.rd (DDR_CHc_TRAINl c l) = (lane c l).1)
      ∧ ((∀ c, c < 16 → ¬ fails c) → t.rd DDR_STATUS = 2 ^ 31 ∧ t.rd DDR_ERR = s.rd DDR_ERR)
      ∧ ((∃ c, c < 16 ∧ fails c) → t.ddrReady = false ∧ bitsOf (t.rd DDR_STATUS) 31 16 = 2 ^ 13 ∧ t.bit DDR_ERR 1 = 1
          ∧ ∀ c, c < 16 → (t.bit DDR_STATUS c = 1 ↔ fails c))
      ∧ (∀ a, a ∉ [DDR_STATUS, DDR_ERR, MON_STATE, PCI_ERR] → (∀ c l, c < 16 → l < 40 → a ≠ DDR_CHc_TRAINl c l) → t.rd a = s.rd a)
      ∧ t = { s with regs := t.regs, pci := t.pci, out := t.out }))
  ∧ (∀ (c : Nat) (ds : List (Nat × Int)) (s : State), c < 16 → s.ddrReady = true → (ds.map (·.1)).Nodup →
    Takes (.dqsIntervalCheck c ds) s (fun t =>
      (∀ l d, (l, d) ∈ ds → l ∈ s.lanesOf → 1 < d.natAbs → bitsOf (t.rd (DDR_CHc_TRAINl c l)) 13 7
          = (if d < 0 then bitsOf (s.rd (DDR_CHc_TRAINl c l)) 13 7 - 1 else min 127 (bitsOf (s.rd (DDR_CHc_TRAINl c l)) 13 7 + 1))
        ∧ bitsOf (t.rd (DDR_CHc_TRAINl c l)) 31 14 = bitsOf (s.rd (DDR_CHc_TRAINl c l)) 31 14
        ∧ t.rd (DDR_CHc_TRAINl c l) % 128 = s.rd (DDR_CHc_TRAINl c l) % 128)
      ∧ (∀ a, (∀ l d, (l, d) ∈ ds → l ∈ s.lanesOf → 1 < d.natAbs → a ≠ DDR_CHc_TRAINl c l) → t.rd a = s.rd a)
      ∧ t = { s with regs := t.regs }))
  ∧ (∀ (r : DdrReq) (errs : List DdrErr) (s : State), r.client < 12 → s.ddrReady = false →
    Takes (.ddrRequest [r] errs) s (fun t =>
      t.rd DDR_NOTREADY = (s.rd DDR_NOTREADY + linesOf r.addr (if r.write then r.data.length else r.len)) % 2 ^ 32 ∧ t.bit DDR_ERR 4 = 1
      ∧ (r.write = true → t.ddr = s.ddr)
      ∧ (r.write = false → t.ddr = { s.ddr with reply := ((r.client, r.addr, List.replicate r.len 0, true) :: s.ddr.reply).take 256 })
      ∧ s.sameRegs t [DDR_NOTREADY, DDR_ERR, PCI_ERR] ∧ t = { s with regs := t.regs, ddr := t.ddr, pci := t.pci, out := t.out }))
  ∧ (∀ (s : State) (r : DdrReq), s.ddrNext = some r →
    let stands (q : DdrReq) : Prop := s.ddrMay q = true ∧ (q.write = true ∨ s.ddr.drain = false)
      ∧ ∃ before after, s.ddr.queue = before ++ q :: after ∧ ∀ p ∈ before, p.client ≠ q.client
    stands r ∧ ∀ q, stands q → q ≠ r → s.ddrClass r < s.ddrClass q ∨ s.ddrClass r = s.ddrClass q ∧ r.client < q.client)
  ∧ (∀ (r : DdrReq) (s : State), r.client < 12 → s.ddrReady = true → s.ddr.queue = [] → s.wqWf →
    r.addr + (if r.write then r.data.length else r.len) ≤ s.ddrCapacity →
    let n := linesOf r.addr (if r.write then r.data.length else r.len)
    let rest (t : State) : Prop := t.ddr.served = spPut s.ddr.served r.client (s.ddrServed r.client + n * 64) ∧ t.ddr.queue = [] ∧ t.wqWf ∧ (∀ l ∈ t.ddr.bad, l ∈ s.ddr.bad)
      ∧ (∀ k, k < 12 → t.rd (DDR_CLk_OVER k)
          = if k = r.client ∧ r.client < 8 then (s.rd (DDR_CLk_OVER k) + (n - (s.ddrShare r.client - s.ddrServed r.client) / 64)) % 2 ^ 32
            else s.rd (DDR_CLk_OVER k))
      ∧ s.butLines t [DDR_CLk_OVER r.client] ∧ t.ddr.scrub = s.ddr.scrub ∧ t.ddr.late = s.ddr.late
      ∧ t = { s with regs := t.regs, ddr := t.ddr, pci := t.pci, out := t.out }
    (r.write = true → s.ddrMay r = true → Takes (.ddrRequest [r] []) s (fun t => s.holdsAt t r.addr r.data ∧ t.ddr.reply = s.ddr.reply ∧ rest t))
    ∧ (r.write = false → s.ddr.wq.length < 96 → s.ddr.drain = false → Takes (.ddrRequest [r] []) s (fun t =>
        s.holdsAt t 0 []
        ∧ (∃ u, t.ddr.reply = ((r.client, r.addr, (List.range r.len).map (fun i => s.ddrByte (r.addr + i)), u) :: s.ddr.reply).take 256
            ∧ (u = true ↔ ∃ l ∈ s.ddr.bad, r.addr < l * 64 + 64 ∧ l * 64 < r.addr + r.len ∧ ∀ e ∈ s.ddr.wq, e.1 = l → e.2.length ≠ 64))
        ∧ rest t))
    ∧ (r.write = false → 96 ≤ s.ddr.wq.length → Takes (.ddrRequest [r] []) s (fun t =>
        t.ddr.queue = [{ r with tick := s.tick, prom := false }] ∧ t.ddr.wq = s.ddr.wq.tail ∧ t.ddr.reply = s.ddr.reply ∧ s.holdsAt t 0 []
        ∧ s.butLines t [] ∧ t = { s with regs := t.regs, ddr := t.ddr, pci := t.pci, out := t.out })))
  ∧ (∀ (i : Nat) (r : DdrReq) (s : State), s.ddr.queue[i]? = some r →
    (r.client < 12 → r.prom = false → s.rd DDR_AGE % 2 ^ 17 ≤ (s.tick - r.tick) * 1000 + 999 → Takes (.ddrAgePromote i) s (fun t =>
      t.ddr.queue[i]? = some { r with prom := true } ∧ (∀ j, j ≠ i → t.ddr.queue[j]? = s.ddr.queue[j]?)
      ∧ t.ddr = { s.ddr with queue := t.ddr.queue }
      ∧ t.rd (DDR_CLk_PROMOTE r.client) = (s.rd (DDR_CLk_PROMOTE r.client) + 1) % 2 ^ 32 ∧ s.sameRegs t [DDR_CLk_PROMOTE r.client]
      ∧ t = { s with regs := t.regs, ddr := t.ddr }))
    ∧ ((s.tick - r.tick) * 1000 + 999 < s.rd DDR_AGE % 2 ^ 17 → Idle (.ddrAgePromote i) s))
  ∧ (∀ (c r temp : Nat) (s : State), c < 16 → r ≤ s.bit DDR_CFG 5 → temp < 256 → s.ddrReady = true →
    let late (s : State) : Nat := spGet zeroNat s.ddr.late (2 * c + r)
    Takes (.ddrRefresh c r temp) s (fun t =>
      t.rd (DDR_CHc_TEMP c) / 2 ^ (8 * r) % 256 = temp
      ∧ t.rd (DDR_CHc_TEMP c) / 2 ^ (8 - 8 * r) % 256 = s.rd (DDR_CHc_TEMP c) / 2 ^ (8 - 8 * r) % 256
      ∧ (t.bit DDR_STATUS 28 = 1 ↔ ∃ k, k < 16 ∧ (95 < t.rd (DDR_CHc_TEMP k) % 256 ∨ 95 < t.rd (DDR_CHc_TEMP k) / 256 % 256))
      ∧ t.ddrReady = true ∧ (95 < temp → t.bit DDR_ERR 5 = 1) ∧ (temp ≤ 95 → t.rd DDR_ERR = s.rd DDR_ERR)
      ∧ ((∃ q ∈ s.ddr.queue, s.ddrClass q < 2) → late s < 4 → late t = late s + 1)
      ∧ ((∀ q ∈ s.ddr.queue, s.ddrClass q = 2) ∨ 4 ≤ late s → late t = 0)
      ∧ t.ddr.late = spSet zeroNat s.ddr.late (2 * c + r) (late t)
      ∧ s.sameRegs t [DDR_CHc_TEMP c, DDR_STATUS, DDR_ERR, PCI_ERR]
      ∧ t = { s with regs := t.regs, ddr := { s.ddr with late := t.ddr.late }, pci := t.pci, out := t.out }))
  ∧ (∀ (e : DdrErr) (s : State), s.bit DDR_SCRUB 31 = 1 → s.ddrReady = true → e.addr / 64 = s.ddr.scrub →
    let moves (t : State) : Prop :=
      t.ddr.scrub = (if s.ddrCapacity ≤ s.ddr.scrub * 64 + 64 then 0 else s.ddr.scrub + 1)
      ∧ t.rd DDR_SCRUB_PASS = (if s.ddrCapacity ≤ s.ddr.scrub * 64 + 64 then (s.rd DDR_SCRUB_PASS + 1) % 2 ^ 32 else s.rd DDR_SCRUB_PASS)
      ∧ t.ddr = { s.ddr with scrub := t.ddr.scrub, bad := t.ddr.bad } ∧ s.butLines t [DDR_SCRUB_PASS]
      ∧ t = { s with regs := t.regs, ddr := t.ddr, pci := t.pci, out := t.out }
    (s.ddr.scrub ∉ s.ddr.bad → Takes (.patrolScrub []) s (fun t => moves t ∧ t.ddr.bad = s.ddr.bad ∧ t.rd DDR_ERR = s.rd DDR_ERR))
    ∧ (s.ddr.scrub ∉ s.ddr.bad → e.uncorr = false → Takes (.patrolScrub [e]) s (fun t => moves t ∧ t.ddr.bad = s.ddr.bad
        ∧ t.rd (DDR_CHc_CORR (lineChannel s.ddr.scrub)) = (s.rd (DDR_CHc_CORR (lineChannel s.ddr.scrub)) + 1) % 2 ^ 32
        ∧ t.bit DDR_ERR 2 = 1 ∧ t.bit DDR_CLOG 31 = 1 ∧ bitsOf (t.rd DDR_CLOG) 19 16 = lineChannel s.ddr.scrub))
    ∧ (e.uncorr = true → Takes (.patrolScrub [e]) s (fun t => moves t ∧ s.ddr.scrub ∈ t.ddr.bad ∧ (∀ l, l ∈ t.ddr.bad ↔ l ∈ s.ddr.bad ∨ l = s.ddr.scrub)
        ∧ t.rd (DDR_CHc_UNCORR (lineChannel s.ddr.scrub)) = (s.rd (DDR_CHc_UNCORR (lineChannel s.ddr.scrub)) + 1) % 2 ^ 32
        ∧ t.bit DDR_ERR 3 = 1 ∧ t.bit DDR_ELOG_HI 31 = 1
        ∧ (s.bit DDR_ELOG_HI 31 = 0 → t.rd DDR_ELOG_LO = s.ddr.scrub * 64 % 2 ^ 32
            ∧ t.rd DDR_ELOG_HI % 512 = s.ddr.scrub * 64 / 2 ^ 32 % 512)
        ∧ (s.bit DDR_ELOG_HI 31 = 1 → t.rd DDR_ELOG_LO = s.rd DDR_ELOG_LO ∧ t.rd DDR_ELOG_HI = s.rd DDR_ELOG_HI))))
  ∧ (∀ (off : Nat) (b : List Byte) (len : Nat) (s : State), s.pci.held = false →
    let a := s.rd DDR_BAR2_BASE % 2048 * 2 ^ 30 + off
    let n := b.length
    (s.inPartition 5 a n = true → s.ddrReady = true → a + n ≤ s.ddrCapacity → Takes (.bar2Access off (some b) len []) s (fun t =>
      s.holdsAt t a b ∧ s.butLines t [] ∧ t = { s with regs := t.regs, ddr := { s.ddr with mem := t.ddr.mem, wq := t.ddr.wq, bad := t.ddr.bad }
                                                       pci := t.pci, out := t.out }))
    ∧ (s.inPartition 5 a n = false → Takes (.bar2Access off (some b) len []) s (fun t =>
      t.rd DDR_HOST_WDROP = (s.rd DDR_HOST_WDROP + 1) % 2 ^ 32 ∧ t.bit DDR_ERR 6 = 1 ∧ s.sameRegs t [DDR_HOST_WDROP, DDR_ERR, PCI_ERR]
      ∧ t = { s with regs := t.regs, pci := t.pci, out := t.out }))
    ∧ (s.ddrReady = true → a + len ≤ s.ddrCapacity → Takes (.bar2Access off none len []) s (fun t =>
      (∃ u, t.out.head? = some (.readData a ((List.range len).map (fun i => s.ddrByte (a + i))) u)) ∧ t.ddr = s.ddr ∧ s.butLines t []
      ∧ t = { s with regs := t.regs, pci := t.pci, out := t.out })))

/-- R463 to R476: a doorbell moves TAIL; a channel fetches while it may and checks what it fetched; a descriptor's elements move in order while no channel ranks before it
in its direction, one beat where it is promoted, and it completes with its write-back and its message, or the channel halts on a bus error and leaves by RESUME, SKIP or ABORT; a unit fills the
buffers of a STREAM channel; STOP and a disable wait for the boundary; a masked message waits. -/
def Obligations.ForagerChannelsMoveHaltAndRecover : Prop :=
  let fdm (s t : State) : Prop := t = { s with regs := t.regs, fdm := t.fdm, pci := t.pci, out := t.out }
  let halts (n : Nat) : List Nat := [FDM_CHn_STATE n, FDM_CHn_ERR_LO n, FDM_CHn_ERR_HI n, FDM_CHn_ERR_INFO n, FDM_ERR, PCI_ERR, PCI_CPL_TO_CNT]
  let within (d : FdmDesc) : Prop := ∀ e ∈ (d.els.drop d.done).take 1, d.part < e.2
  let ends (n : Nat) : List Nat := [FDM_CHn_STATE n, FDM_CHn_DESC n, FDM_CHn_BYTES n, PCI_ERR]
  (∀ (n v : Nat) (s : State), s.pci.held = false →
    (n < 32 → v < s.chSize n → Takes (.foragerDoorbell n v) s (fun t =>
      t.rd (FDM_CHn_TAIL n) = v ∧ s.sameRegs t [FDM_CHn_TAIL n] ∧ t = { s with regs := t.regs }))
    ∧ (n < 32 → s.chSize n ≤ v → Takes (.foragerDoorbell n v) s (fun t =>
      t.bit FDM_ERR 1 = 1 ∧ s.sameRegs t [FDM_ERR, PCI_ERR] ∧ t = { s with regs := t.regs, pci := t.pci, out := t.out }))
    ∧ (32 ≤ n → Takes (.foragerDoorbell n v) s (fun t =>
      t.rd PCI_BAD_CNT = (s.rd PCI_BAD_CNT + 1) % 2 ^ 32 ∧ s.sameRegs t [PCI_BAD_CNT] ∧ t = { s with regs := t.regs })))
  ∧ (∀ (n : Nat) (b g : List Byte) (d g' : HostRead) (s : State), n < s.fdm.pre.length → s.chCanFetch n = true →
    (s.bme = false → Takes (.descriptorFetch n d g') s (fun t => s.haltedAt t n 3 (s.chRing n + s.chNext n * 32) 0x1F 0 ∧ t.fdm = s.fdm
      ∧ s.sameRegs t (halts n) ∧ fdm s t))
    ∧ (∀ src, s.bme = true → src < 3 → Takes (.descriptorFetch n (.bad src) g') s (fun t =>
      s.haltedAt t n src (s.chRing n + s.chNext n * 32) 0x1F 0 ∧ t.fdm = s.fdm ∧ hostWrites t.out = hostWrites s.out ∧ s.sameRegs t (halts n) ∧ fdm s t))
    ∧ (s.bme = true → bitOf (leAt b 0 4) 31 = 0 → Takes (.descriptorFetch n (.data b) g') s (fun t =>
      t.chState n = 4 ∧ t.fd (FDM_CHn_STATE n) FDM_CHn_STATE_CAUSE = 2 ∧ t.bit FDM_ERR 3 = 1 ∧ t.fdm = s.fdm
      ∧ hostWrites t.out = hostWrites s.out ∧ s.sameRegs t [FDM_CHn_STATE n, FDM_ERR, PCI_ERR] ∧ fdm s t))
    ∧ (s.bme = true → bitOf (leAt b 0 4) 31 = 1 → Takes (.descriptorFetch n (.data b) (.data g)) s (fun t =>
      ∃ x : FdmDesc, t.chPre n = s.chPre n ++ [x] ∧ (∀ m, m ≠ n → t.chPre m = s.chPre m) ∧ t.fdm.prom = s.fdm.prom
        ∧ t = { s with fdm := t.fdm }
        ∧ x.idx = s.chNext n ∧ x.ctrl = leAt b 0 4 ∧ x.host = leAt b 8 8 ∧ x.ddr = leAt b 16 8 ∧ x.done = 0 ∧ x.bytes = 0 ∧ x.fail = 0x1F ∧ x.known = true
        ∧ (bitOf x.ctrl 29 = 0 → x.els = [(x.host, x.ctrl % 2 ^ 24)])
        ∧ (s.chMode n = 0 → bitOf x.ctrl 29 = 1 → x.ctrl % 2 ^ 24 ≤ 16 →
            x.els = (List.range (x.ctrl % 2 ^ 24)).map (fun i => (leAt g (16 * i) 8, leAt g (16 * i + 8) 4)))
        ∧ (bitsOf x.ctrl 27 24 ≠ 0 ∨ 2 ^ 41 ≤ x.ddr ∨ x.ctrl % 2 ^ 24 = 0 → x.code = 4)
        ∧ (s.chMode n = 1 → bitOf x.ctrl 28 = 0 ∨ bitOf x.ctrl 29 = 1 → x.code = 4)
        ∧ (bitsOf x.ctrl 27 24 = 0 → x.ddr < 2 ^ 41 → x.ctrl % 2 ^ 24 ≠ 0 → bitOf x.ctrl 29 = 0 → (s.chMode n = 1 → bitOf x.ctrl 28 = 1) →
            x.code = if bitOf x.ctrl 28 = 0 ∧ s.inPartition 5 x.ddr (x.ctrl % 2 ^ 24) = false then 5 else 0))))
  ∧ (∀ (n : Nat) (d : FdmDesc) (data : List (List Byte)) (s : State), n < s.fdm.pre.length → s.chMode n = 0 → s.chWork n = some d → d.known = true →
    (s.bme = false → ∀ e rest, d.code = 0 → d.els.drop d.done = e :: rest → Takes (.descriptorComplete n data []) s (fun t =>
      s.haltedAt t n 3 e.1 d.done (bitOf d.ctrl 28) ∧ t.chPre n = s.chPre n ∧ s.sameRegs t (halts n) ∧ fdm s t))
    ∧ (s.bme = true → d.code ≠ 0 → Takes (.descriptorComplete n data []) s (fun t =>
      hostWrites t.out = (backWrites (s.chRing n) d d.code false).reverse ++ hostWrites s.out ∧ s.pastDesc t n d.idx d.bytes ∧ s.messaged t n d
      ∧ (d.code = 5 → t.rd DDR_HOST_WDROP = (s.rd DDR_HOST_WDROP + 1) % 2 ^ 32 ∧ t.bit DDR_ERR 6 = 1)
      ∧ (d.code ≠ 5 → t.rd DDR_HOST_WDROP = s.rd DDR_HOST_WDROP ∧ t.rd DDR_ERR = s.rd DDR_ERR)
      ∧ s.sameRegs t (ends n ++ [DDR_HOST_WDROP, DDR_ERR]) ∧ fdm s t))
    ∧ (s.bme = true → d.code = 0 → bitOf d.ctrl 28 = 0 → data.map List.length = (d.els.drop d.done).map (·.2) → s.ddrReady = true →
        d.ddr + d.bytes + data.flatten.length ≤ s.ddrCapacity → d.done ≤ d.els.length → s.chTop n 0 = true → within d →
      Takes (.descriptorComplete n data []) s (fun t =>
        let e : FdmDesc := { d with done := d.els.length, bytes := d.bytes + data.flatten.length, fail := 0x1F }
        s.holdsAt t (d.ddr + d.bytes + d.part) (data.flatten.drop d.part)
        ∧ hostWrites t.out = (backWrites (s.chRing n) e (if d.uncorr then 6 else 0) false).reverse ++ hostWrites s.out
        ∧ s.pastDesc t n d.idx e.bytes ∧ s.messaged t n d ∧ s.butLines t (ends n)
        ∧ t = { s with regs := t.regs, ddr := { s.ddr with mem := t.ddr.mem, wq := t.ddr.wq, bad := t.ddr.bad }, fdm := t.fdm
                       pci := t.pci, out := t.out }))
    ∧ (s.bme = true → d.code = 0 → bitOf d.ctrl 28 = 1 → (∀ e ∈ d.els, 1 ≤ e.2) → s.ddrReady = true →
        d.ddr + d.bytes + sumL ((d.els.drop d.done).map (·.2)) ≤ s.ddrCapacity → d.done ≤ d.els.length → s.chTop n 1 = true → within d →
      Takes (.descriptorComplete n data []) s (fun t =>
        let e : FdmDesc := { d with done := d.els.length, bytes := d.bytes + sumL ((d.els.drop d.done).map (·.2)), fail := 0x1F }
        (∃ code, hostWrites t.out = (backWrites (s.chRing n) e code false).reverse ++ (s.elWrites (d.ddr + d.bytes) d.part (d.els.drop d.done)).reverse
              ++ hostWrites s.out ∧ (code = 0 ∨ code = 6) ∧ (d.uncorr = true → code = 6) ∧ (s.ddr.bad = [] → d.uncorr = false → code = 0))
        ∧ s.pastDesc t n d.idx e.bytes ∧ s.messaged t n d ∧ t.ddr = s.ddr ∧ s.butLines t (ends n) ∧ fdm s t))
    ∧ (s.bme = true → d.code = 0 → bitOf d.ctrl 28 = 1 → s.chTop n 1 = false → s.chProm n = false → Idle (.descriptorComplete n data []) s)
    ∧ (∀ e rest, s.bme = true → d.code = 0 → bitOf d.ctrl 28 = 1 → s.chTop n 1 = false → s.chProm n = true → d.els.drop d.done = e :: rest →
        d.part + 64 < e.2 → s.ddrReady = true → d.ddr + d.bytes + e.2 ≤ s.ddrCapacity →
      Takes (.descriptorComplete n data []) s (fun t =>
        hostWrites t.out = (e.1 + d.part, (List.range 64).map (fun i => s.ddrByte (d.ddr + d.bytes + d.part + i))) :: hostWrites s.out
        ∧ (∃ u, t.chPre n = { d with part := d.part + 64, uncorr := u } :: (s.chPre n).drop 1) ∧ (∀ m, m ≠ n → t.chPre m = s.chPre m)
        ∧ t.fdm.prom = s.fdm.prom.filter (· != n) ∧ t.ddr = s.ddr ∧ s.butLines t [] ∧ fdm s t)))
  ∧ (∀ (n src addr : Nat) (d : FdmDesc) (data : List (List Byte)) (part : List Byte) (s : State), n < s.fdm.pre.length → s.chMode n = 0 →
    s.chWork n = some d → src < 3 → d.code = 0 → bitOf d.ctrl 28 = 0 → data = [] ∨ d.part = 0 ∧ s.chTop n 0 = true → data.length < (d.els.drop d.done).length →
    data.map List.length = ((d.els.drop d.done).take data.length).map (·.2) → s.ddrReady = true →
    d.ddr + d.bytes + data.flatten.length + part.length ≤ s.ddrCapacity →
    Takes (.busError n data part src addr) s (fun t =>
      let e : FdmDesc := { d with done := d.done + data.length, bytes := d.bytes + data.flatten.length, fail := d.done + data.length, part := 0 }
      s.haltedAt t n src addr e.fail 0 ∧ s.holdsAt t (d.ddr + d.bytes) (data.flatten ++ part)
      ∧ hostWrites t.out = (if s.bme then ((backWrites (s.chRing n) e 1 false).take 2).reverse else []) ++ hostWrites s.out
      ∧ t.chPre n = e :: (s.chPre n).drop 1 ∧ s.butLines t (halts n)
      ∧ t = { s with regs := t.regs, ddr := { s.ddr with mem := t.ddr.mem, wq := t.ddr.wq, bad := t.ddr.bad }, fdm := t.fdm
                     pci := t.pci, out := t.out }))
  ∧ (∀ (r src addr : Nat) (s : State), r < 64 → src < 3 → Takes (.busError (32 + r) [] [] src addr) s (fun t =>
      t.bit (CMD_RINGr_STATUS r) 31 = 1 ∧ t.bit CMD_ERR 3 = 1 ∧ t.bit PCI_ERR (if src = 1 then 2 else 1) = 1
      ∧ s.sameRegs t [CMD_RINGr_STATUS r, CMD_ERR, PCI_ERR, PCI_CPL_TO_CNT] ∧ t = { s with regs := t.regs, pci := t.pci, out := t.out }))
  ∧ (∀ (n : Nat) (u : FdmUnit) (s : State), n < 32 → n < s.fdm.pre.length → s.fdmOn = true → s.chMode n = 1 → s.chState n = 1 →
    s.units.find? (·.ch == n) = some u → u.bytes ≠ [] → (s.chPre n).length ≤ 8 → (∀ d ∈ s.chPre n, d.code = 0 ∧ d.known = true ∧ 1 ≤ d.ctrl % 2 ^ 24) →
    (s.bme = true → s.chEn n = true → s.stopPend n = false → u.bytes.length ≤ sumL ((s.chPre n).map (fun d => d.ctrl % 2 ^ 24)) →
        s.chTop n 1 = true →
      Takes (.streamUnitDeliver n) s (fun t =>
        hostWrites t.out = (streamWrites (s.chRing n) (s.chPre n) u.bytes).reverse ++ hostWrites s.out ∧ t.units = s.units.erase u
        ∧ t.chState n = 1 ∧ (∃ k, t.chPre n = (s.chPre n).drop k ∧ t.rd (FDM_CHn_DESC n) = (s.rd (FDM_CHn_DESC n) + k) % 2 ^ 32)
        ∧ t.rd (FDM_CHn_BYTES n) = (s.rd (FDM_CHn_BYTES n) + u.bytes.length) % 2 ^ 32 ∧ (∀ m, m ≠ n → t.chPre m = s.chPre m)
        ∧ s.sameRegs t (ends n) ∧ t = { s with regs := t.regs, fdm := t.fdm, pci := t.pci, out := t.out, units := t.units }))
    ∧ (s.bme = false → u.kind = .honey → u.src < 1024 → u.bytes.length ≤ sumL ((s.chPre n).map (fun d => d.ctrl % 2 ^ 24)) →
      Takes (.streamUnitDeliver n) s (fun t => t.chState n = 4 ∧ t.bit PCI_ERR 3 = 1 ∧ t.units = s.units.erase u ∧ t.fdm = s.fdm
        ∧ hostWrites t.out = hostWrites s.out))
    ∧ (sumL ((s.chPre n).map (fun d => d.ctrl % 2 ^ 24)) < u.bytes.length → Idle (.streamUnitDeliver n) s))
  ∧ (∀ (n us : Nat) (s : State), s.chPend n 0 = true ∨ s.chPend n 1 = true → n ∉ s.fdm.prom →
    (s.rd FDM_AGE % 1024 ≤ us → Takes (.foragerAgePromote n us) s (fun t =>
      t.fdm = { s.fdm with prom := s.fdm.prom ++ [n] } ∧ t.rd (FDM_CHn_PROMOTE n) = (s.rd (FDM_CHn_PROMOTE n) + 1) % 2 ^ 32
      ∧ s.sameRegs t [FDM_CHn_PROMOTE n] ∧ t = { s with regs := t.regs, fdm := t.fdm }))
    ∧ (us < s.rd FDM_AGE % 1024 → Idle (.foragerAgePromote n us) s))
  ∧ (∀ (n new : Nat) (s : State), n < 32 → n < s.fdm.pre.length → 
    let again (t : State) : Prop := t.chPre n = (s.chPre n).map (fun d => { d with part := 0 }) ∧ (∀ m, m ≠ n → t.chPre m = s.chPre m)
      ∧ t.fdm = { s.fdm with pre := t.fdm.pre }
    let comes (v : Nat) : Prop := s.hostReaches .wo (FDM_CHn_CMD n) v new
    let runs (c : Instr) (l : List Nat) (P : State → Prop) : Prop := Takes c s (fun t => P t ∧ s.sameRegs t (FDM_CHn_CMD n :: l)
      ∧ t = { s with regs := t.regs, fdm := t.fdm, pci := t.pci, out := t.out, pass := t.pass })
    let refused (c : Instr) : Prop := runs c [FDM_ERR, PCI_ERR] (fun t => t.bit FDM_ERR 1 = 1 ∧ t.fdm = s.fdm)
    let ended (c : Instr) (code : Nat) (P : State → Prop) : Prop := ∀ d, (s.chPre n).head? = some d → d.known = true → s.bme = true →
      runs c (ends n) (fun t => hostWrites t.out = (backWrites (s.chRing n) d code false).reverse ++ hostWrites s.out
        ∧ t.chHead n = (d.idx + 1) % s.chSize n % 2 ^ 16 ∧ s.messaged t n d ∧ P t)
    (comes 1 → (s.chState n = 3 → runs (.foragerStart n) [FDM_CHn_STATE n] (fun t => t.chState n = 1 ∧ t.fdm = s.fdm ∧ t.chHead n = s.chHead n))
      ∧ (s.chState n ≠ 3 → refused (.foragerStart n)))
    ∧ (comes 2 →
        (s.chState n = 1 → s.chEn n = true → s.chMode n = 1 ∨ s.chPre n = [] →
          runs (.foragerStop n) [FDM_CHn_STATE n] (fun t => t.chState n = 3 ∧ t.chPre n = [] ∧ t.chHead n = s.chHead n))
        ∧ (s.chState n = 1 → s.chMode n = 0 → s.chPre n ≠ [] →
          runs (.foragerStop n) [FDM_CHn_STATE n] (fun t => t.chState n = 2 ∧ t.stopPend n = true ∧ t.fdm = s.fdm))
        ∧ (s.chState n = 4 → s.stopPend n = false → s.chEn n = true →
          runs (.foragerStop n) [FDM_CHn_STATE n] (fun t => t.chState n = 4 ∧ t.stopPend n = true ∧ t.fdm = s.fdm))
        ∧ (s.chState n = 0 ∨ s.chState n = 2 ∨ s.chState n = 3 → refused (.foragerStop n)))
    ∧ (comes 3 →
        (s.chState n = 4 → s.stopPend n = false →
          runs (.foragerResume n) [FDM_CHn_STATE n] (fun t => t.chState n = 1 ∧ t.fd (FDM_CHn_STATE n) FDM_CHn_STATE_CAUSE = 0 ∧ again t))
        ∧ (s.chState n = 4 → s.stopPend n = true → s.chPre n ≠ [] →
          runs (.foragerResume n) [FDM_CHn_STATE n] (fun t => t.chState n = 2 ∧ t.stopPend n = true ∧ again t))
        ∧ (s.chState n ≠ 4 → refused (.foragerResume n)))
    ∧ (comes 4 →
        (s.chState n = 4 → s.stopPend n = false → s.chEn n = true →
          ended (.foragerSkip n) 2 (fun t => t.chState n = 1 ∧ t.chPre n = (s.chPre n).drop 1))
        ∧ (s.chState n ≠ 4 → refused (.foragerSkip n)))
    ∧ (comes 5 →
        (s.chState n = 4 → s.chEn n = true → ended (.foragerAbort n) 3 (fun t => t.chState n = 3 ∧ t.chPre n = [] ∧ t.stopPend n = false))
        ∧ (s.chState n ≠ 4 → refused (.foragerAbort n)))
    ∧ (s.hostReaches .rw (FDM_CHn_CFG n) (setBits (s.rd (FDM_CHn_CFG n)) 0 0 0) new → s.chEn n = true → bitOf new 0 = 0 →
        (s.chState n = 3 ∨ s.chState n = 1 ∧ (s.chMode n = 1 ∨ s.chPre n = []) →
          runs (.foragerChannelDisable n) [FDM_CHn_CFG n, FDM_CHn_STATE n] (fun t => t.chEn n = false ∧ t.chState n = 0 ∧ t.chPre n = []))
        ∧ (s.chState n = 1 → s.chMode n = 0 → s.chPre n ≠ [] →
          runs (.foragerChannelDisable n) [FDM_CHn_CFG n, FDM_CHn_STATE n] (fun t => t.chEn n = false ∧ t.chState n = 2 ∧ t.fdm = s.fdm))))
  ∧ (∀ (v : Nat) (s : State), v < 2048 → s.pci.held = false →
    Takes (.msixVectorUnmask v) s (fun t =>
      (∀ i, i ≠ v * 4 + 3 → spGet msixReset t.pci.msix i = spGet msixReset s.pci.msix i)
      ∧ spGet msixReset t.pci.msix (v * 4 + 3) = spGet msixReset s.pci.msix (v * 4 + 3) / 2 * 2
      ∧ (spGet zeroNat s.pci.pba v = 1 → spGet zeroNat t.pci.pba v = 0 ∧ (s.bme = true → t.out = .msix v :: s.out ∧ t.regs = s.regs))
      ∧ (spGet zeroNat s.pci.pba v ≠ 1 → t.pci.pba = s.pci.pba ∧ t.out = s.out ∧ t.regs = s.regs)
      ∧ (∀ w, w ≠ v → spGet zeroNat t.pci.pba w = spGet zeroNat s.pci.pba w)
      ∧ s.sameRegs t [PCI_ERR] ∧ t = { s with regs := t.regs, pci := t.pci, out := t.out }))
/-! ### Register writes of the host (chapter 20) -/

/-- R496: a write of a register that only holds what is written leaves every other register and everything else as it was. HOST_REGISTER_WRITE
says so for the power registers that no field of is written by hardware. R110: a clock output stops low and starts again at its next aligned edge
where its frequency changes. Writing RATE or FIR also renews the group delay (R150). -/
def Obligations.PlainRegistersTakeTheValueWritten : Prop :=
  (∀ (a v new : Nat) (s : State), a ∈ [PWR_STEP, PWR_AGE, PWR_THERM] → s.hostReaches .rw a v new →
    Takes (.hostRegisterWrite a (some v) true) s (fun t => t.butPass (s.wr a new)))
  ∧ (∀ (v new : Nat) (s : State), s.hostReaches .rw TIM_STEP_THR v new →
    Takes (.timStepThrWrite v) s (fun t => t.butPass (s.wr TIM_STEP_THR new)))
  ∧ (∀ (v new : Nat) (s : State), s.hostReaches .rw CLK_CTRL v new → bitOf new 0 = 1 → s.bit CLK_CTRL 0 = 1 →
    Takes (.clkCtrlWrite v) s (fun t => t.butPass (s.wr CLK_CTRL new)))
  ∧ (∀ (n v new : Nat) (s : State), n < 4 → s.hostReaches .rw (CLK_OUTn_DLY n) v new →
    Takes (.clkOutCfgWrite n true v) s (fun t => t.butPass (s.wr (CLK_OUTn_DLY n) new)))
  ∧ (∀ (n v new : Nat) (s : State), n < 4 → n < s.clk.outs.length → s.hostReaches .rw (CLK_OUTn_CFG n) v new →
    Takes (.clkOutCfgWrite n false v) s (fun t =>
      let a := CLK_OUTn_CFG n
      let dly := s.rd (CLK_OUTn_DLY n) % 4096
      let runs : Prop := s.bit a 0 = 1 ∧ s.rd a / 1024 = t.rd a / 1024
      t.rd a = new % 2 ^ 32 ∧ (t.bit a 0 = 0 → ∀ i, t.clkOutLevel n i = false)
      ∧ (t.bit a 0 = 1 → runs → ∀ i, t.clkOutLevel n i = s.clkOutLevel n i)
      ∧ (t.bit a 0 = 1 → ¬ runs → ∃ e, s.quarters < e ∧ e % 4000000 = dly ∧ (∀ i, e ≤ i → t.clkOutLevel n i = clkHigh (t.rd a / 1024) dly i)
          ∧ ∀ i j, s.quarters ≤ i → i ≤ j → j < e → t.clkOutLevel n i = false → t.clkOutLevel n j = false)
      ∧ (∀ m, m ≠ n → t.clkOutCfg m = s.clkOutCfg m) ∧ s.sameRegs t [a]
      ∧ t = { s with regs := t.regs, clk := { s.clk with outs := t.clk.outs }, pass := t.pass }))
  ∧ (∀ (n v new : Nat) (s : State), n < 64 → s.hostReaches .rw (NEC_PORTn_CFG n) v new →
    Takes (.necPortCfgWrite n v) s (fun t => t.butPass (s.wr (NEC_PORTn_CFG n) new)))
  ∧ (∀ (p r v new : Nat) (s : State), p < 4 → r < 6 → s.hostReaches .rw (CHN_CPp_CFG p + 4 * r) v new →
    Takes (.chnProfileCfgWrite p r v) s (fun t => t.butPass (s.wr (CHN_CPp_CFG p + 4 * r) new)))
  ∧ (∀ (i r v new : Nat) (s : State), i < 256 → r < 3 → s.hostReaches .rw (CHN_Ii_CFG i + 4 * r) v new → (r = 0 → bitOf new 0 = 1) →
    Takes (.chnInputCfgWrite i r v) s (fun t => t.butPass (s.wr (CHN_Ii_CFG i + 4 * r) new)))
  ∧ (∀ (p : Nat) (size : Bool) (v new : Nat) (s : State), p < 6 →
    s.hostReaches .rw (if size then DDR_PARTp_SIZE p else DDR_PARTp_BASE p) v new →
    Takes (.ddrPartitionWrite p size v) s (fun t => t.butPass (s.wr (if size then DDR_PARTp_SIZE p else DDR_PARTp_BASE p) new)))
  ∧ (∀ (i r v new : Nat) (s : State), i < 256 → 1 ≤ r → r < 4 → s.hostReaches .rw (ING_Ii_CFG i + 4 * r) v new →
    Takes (.ingCfgWrite i r v) s (fun t =>
      let u := s.wr (ING_Ii_CFG i + 4 * r) new
      t.butPass (if r = 3 then u
        else u.wr (ING_Ii_GDELAY i) (gdelay i (u.fd (ING_Ii_RATE i) ING_Ii_RATE_RATE_KSPS) (u.rd (ING_Ii_FIR i))))))

/-- R82: TIM_STEP_THR holds the step threshold in ns and resets to 1,000. A write of 100 to 1,000,000,000 that arrives is stored; one
outside leaves the register unchanged and sets TIM_HIST.RANGE_ERR. -/
def Obligations.StepThresholdHasItsRange : Prop :=
  State.reset.stepThr = 1000 * 2 ^ 16
  ∧ (∀ s : State, s.rd TIM_STEP_THR < 2 ^ 30 → s.stepThr = (s.rd TIM_STEP_THR : Int) * 2 ^ 16)
  ∧ (∀ (v new : Nat) (s : State), s.hostArrives .rw TIM_STEP_THR v new → 100 ≤ v → v ≤ 1000000000 → s.rd TIM_STEP_THR < 2 ^ 30 →
    Takes (.timStepThrWrite v) s (fun t => t.rd TIM_STEP_THR = v ∧ t.butPass (s.wr TIM_STEP_THR v)))
  ∧ (∀ (v new : Nat) (s : State), s.hostArrives .rw TIM_STEP_THR v new → v < 2 ^ 30 → v < 100 ∨ 1000000000 < v →
    s.rd TIM_STEP_THR < 2 ^ 30 →
    Takes (.timStepThrWrite v) s (fun t => t.rd TIM_STEP_THR = s.rd TIM_STEP_THR ∧ t.bit TIM_HIST 4 = 1
      ∧ s.sameRegs t [TIM_HIST, PCI_ERR]))

/-- R73: of two enabled instances on one port with one domainNumber the higher is FAULTY after any write of PTPn_CFG that arrives; the
instance written restarts, in INITIALIZING, or DISABLED where its EN is 0. -/
def Obligations.PtpConfigurationRestartsAnInstance : Prop :=
  ∀ (n v new : Nat) (s : State), n < 8 → n < s.tim.ptp.length → s.hostReaches .rw (PTPn_CFG n) v new →
    Takes (.ptpCfgWrite n v) s (fun t =>
      let clash := fun m => t.bit (PTPn_CFG m) 0 = 1 ∧ ∃ j, j < m ∧ t.bit (PTPn_CFG j) 0 = 1
        ∧ t.fd (PTPn_CFG j) PTPn_CFG_PORT = t.fd (PTPn_CFG m) PTPn_CFG_PORT
        ∧ t.fd (PTPn_CFG j) PTPn_CFG_DOMAIN = t.fd (PTPn_CFG m) PTPn_CFG_DOMAIN
      t.rd (PTPn_CFG n) = new % 2 ^ 32 ∧ t.ptpInst n = PtpInst.reset ∧ (∀ m, m < 8 → clash m → t.portState m = 2)
      ∧ (¬ clash n → t.portState n = if bitOf new 0 = 1 then 1 else 3)
      ∧ (∀ m, m < 8 → m ≠ n → ¬ clash m → t.portState m = s.portState m)
      ∧ (∀ m, m < 8 → m ≠ n → t.ptpInst m = s.ptpInst m)
      ∧ s.sameRegs t (PTPn_CFG n :: (List.range 8).map (fun m => PTPn_STATE m))
      ∧ t = { s with regs := t.regs, tim := { s.tim with ptp := t.tim.ptp }, pass := t.pass })

/-- R156, R180, R187, R255, R325, R365: a write of a store's data register that arrives writes the word the address register names, in a store that
nothing running selects, and advances the address; a worker's memory is also read so. Nothing else changes. -/
def Obligations.StoresAreWrittenThroughTheirWindows : Prop :=
  (∀ (e v new : Nat) (s : State), e < 8 → s.hostReaches .rw (ING_FEe_COEF_DATA e) v new →
    let a := s.fd (ING_FEe_COEF_ADDR e) ING_FEe_COEF_ADDR_ADDR
    coefReserved a = false → (s.wr (ING_FEe_COEF_DATA e) 0).coefBusy e a = false →
    Takes (.coefDataWrite e v) s (fun t =>
      spGet zeroNat t.ing.coef (e * 32768 + a) = bitsOf new 17 0
      ∧ (∀ k, k ≠ e * 32768 + a → spGet zeroNat t.ing.coef k = spGet zeroNat s.ing.coef k)
      ∧ t.fd (ING_FEe_COEF_ADDR e) ING_FEe_COEF_ADDR_ADDR = (a + 1) % 2 ^ 15
      ∧ s.sameRegs t [ING_FEe_COEF_ADDR e, ING_FEe_COEF_DATA e]
      ∧ t = { s with regs := t.regs, ing := { s.ing with coef := t.ing.coef }, pass := t.pass }))
  ∧ (∀ (v new : Nat) (s : State), s.hostReaches .rw CHN_WIN_DATA v new →
    let w := s.rd CHN_WIN_ADDR
    (s.wr CHN_WIN_DATA 0).winBusy w = false →
    Takes (.winDataWrite v) s (fun t =>
      spGet zeroNat t.chn.win w = new % 2 ^ 32 ∧ (∀ k, k ≠ w → spGet zeroNat t.chn.win k = spGet zeroNat s.chn.win k)
      ∧ t.rd CHN_WIN_ADDR = (w + 1) % 2 ^ 20 ∧ s.sameRegs t [CHN_WIN_ADDR, CHN_WIN_DATA]
      ∧ t = { s with regs := t.regs, chn := { s.chn with win := t.chn.win }, pass := t.pass }))
  ∧ (∀ (v new : Nat) (s : State), s.hostReaches .rw CHN_GAIN_DATA v new →
    let w := s.rd CHN_GAIN_ADDR
    w % 2 ^ 22 < 2097152 → s.bit CHN_GAIN_STATUS 1 ≠ 1 → bitOf w 22 ≠ s.bit CHN_GAIN_STATUS 0 →
    Takes (.gainDataWrite v) s (fun t =>
      spGet zeroNat t.chn.gain w = new % 2 ^ 32 ∧ (∀ k, k ≠ w → spGet zeroNat t.chn.gain k = spGet zeroNat s.chn.gain k)
      ∧ t.rd CHN_GAIN_ADDR = (w + 1) % 2 ^ 23 ∧ s.sameRegs t [CHN_GAIN_ADDR, CHN_GAIN_DATA]
      ∧ t = { s with regs := t.regs, chn := { s.chn with gain := t.chn.gain }, pass := t.pass }))
  ∧ (∀ (v new : Nat) (s : State), s.hostReaches .rw CMB_LIST_DATA v new →
    let e := s.rd CMB_LIST_ADDR
    (s.wr CMB_LIST_DATA 0).listUsed e = false →
    Takes (.cmbListDataWrite v) s (fun t =>
      spGet zeroNat t.cmb.list e = new % 2 ^ 32 ∧ (∀ k, k ≠ e → spGet zeroNat t.cmb.list k = spGet zeroNat s.cmb.list k)
      ∧ t.rd CMB_LIST_ADDR = (e + 1) % 2 ^ 18 ∧ s.sameRegs t [CMB_LIST_ADDR, CMB_LIST_DATA]
      ∧ t = { s with regs := t.regs, cmb := { s.cmb with list := t.cmb.list }, pass := t.pass }))
  ∧ (∀ (v new : Nat) (s : State), s.hostReaches .rw WAG_WT_DATA v new →
    let p := s.rd WAG_WT_ADDR % 2 ^ 25
    (s.wr WAG_WT_DATA new).wtBusy (p / 2 ^ 24) (p % 2 ^ 24) = false →
    Takes (.weightDataWrite v) s (fun t =>
      t.wtGet (p / 2 ^ 24) (p % 2 ^ 24) = new % 2 ^ 16 ∧ (∀ k, k ≠ p → spGet zeroNat t.wag.wt k = spGet zeroNat s.wag.wt k)
      ∧ t.rd WAG_WT_ADDR = (p + 1) % 2 ^ 25 ∧ s.sameRegs t [WAG_WT_ADDR, WAG_WT_DATA]
      ∧ t = { s with regs := t.regs, wag := { s.wag with wt := t.wag.wt }, pass := t.pass }))
  ∧ (∀ (v new : Nat) (s : State), s.hostReaches .rw WAG_GEO_DATA v new →
    let p := s.rd WAG_GEO_ADDR % 2 ^ 23
    (s.wr WAG_GEO_DATA new).geoBusy (p / 2 ^ 22) (p % 2 ^ 22) = false →
    Takes (.geometryDataWrite v) s (fun t =>
      spGet zeroNat t.wag.geo p = new % 2 ^ 32 ∧ (∀ k, k ≠ p → spGet zeroNat t.wag.geo k = spGet zeroNat s.wag.geo k)
      ∧ t.rd WAG_GEO_ADDR = (p + 1) % 2 ^ 23 ∧ s.sameRegs t [WAG_GEO_ADDR, WAG_GEO_DATA]
      ∧ t = { s with regs := t.regs, wag := { s.wag with geo := t.wag.geo }, pass := t.pass }))
  ∧ (∀ (v new : Nat) (s : State), s.hostReaches .rw WRK_MEM_DATA_LO v new →
    let n := bitsOf (s.rd WRK_MEM_ADDR) 29 24
    let a := bitsOf (s.rd WRK_MEM_ADDR) 15 0
    s.wrkEn n = false →
    (bitsOf (s.rd WRK_MEM_ADDR) 17 16 = 0 → a < 32768 → Takes (.wrkMemDataAccess (some v)) s (fun t =>
      t.pmGet n a = s.rd WRK_MEM_DATA_HI % 2 ^ 16 * 2 ^ 32 + new % 2 ^ 32
      ∧ s.sameRegs t [WRK_MEM_ADDR, WRK_MEM_DATA_LO] ∧ t = { s with regs := t.regs, wrk := { s.wrk with pm := t.wrk.pm }, pass := t.pass }))
    ∧ (bitsOf (s.rd WRK_MEM_ADDR) 17 16 = 1 → Takes (.wrkMemDataAccess (some v)) s (fun t =>
      t.xmGet n a = new % 2 ^ 24
      ∧ s.sameRegs t [WRK_MEM_ADDR, WRK_MEM_DATA_LO] ∧ t = { s with regs := t.regs, wrk := { s.wrk with xm := t.wrk.xm }, pass := t.pass }))
    ∧ (bitsOf (s.rd WRK_MEM_ADDR) 17 16 = 2 → Takes (.wrkMemDataAccess (some v)) s (fun t =>
      t.ymGet n a = new % 2 ^ 24
      ∧ s.sameRegs t [WRK_MEM_ADDR, WRK_MEM_DATA_LO] ∧ t = { s with regs := t.regs, wrk := { s.wrk with ym := t.wrk.ym }, pass := t.pass })))
  ∧ (∀ s : State, s.pci.held = false → s.domainStopped WRK_MEM_DATA_LO = false → bitsOf (s.rd WRK_MEM_ADDR) 17 16 = 1 →
    Takes (.wrkMemDataAccess none) s (fun t =>
      ∃ w, w = s.xmGet (bitsOf (s.rd WRK_MEM_ADDR) 29 24) (bitsOf (s.rd WRK_MEM_ADDR) 15 0) % 2 ^ 32
        ∧ t.out = .readData WRK_MEM_DATA_LO (toLE 4 w) false :: s.out
        ∧ s.sameRegs t [WRK_MEM_ADDR, WRK_MEM_DATA_LO, WRK_MEM_DATA_HI] ∧ t = { s with regs := t.regs, out := t.out }))

/-! ### Enables and commits written by the host -/

/-- Enabling a session's or a unit's work with a write that arrives (R157, R237, R259, R282, R312, R338, R385, R395, R416): what the block
holds for it starts afresh, and nothing else changes but the registers named. CTN_SESSION_DISABLE (R237, R238): no dwell after the
one in progress is assigned a window; a session whose first dwell has not begun is gone. -/
def Obligations.EnablesStartTheWorkOfABlock : Prop :=
  (∀ (i v new : Nat) (s : State), i < 256 → i < s.ing.slots.length → s.hostReaches .rw (ING_Ii_CFG i) v new →
    s.bit (ING_Ii_CFG i) 0 = 0 → bitOf new 0 = 1 →
    Takes (.ingCfgWrite i 0 v) s (fun t =>
      (t.slot i).startAt = (s.slot i).pend.map (·.kr) ∧ t.slot i = { s.slot i with startAt := (t.slot i).startAt }
      ∧ t.slotHalted i = false ∧ t.slotTainted i = false ∧ t.rd (ING_Ii_CFG i) = new % 2 ^ 32
      ∧ t.fd ING_ROYAL ING_ROYAL_COUNT = t.royalCount % 2 ^ ING_ROYAL_COUNT.width
      ∧ s.sameRegs t [ING_Ii_CFG i, ING_Ii_GDELAY i, ING_Ii_STATUS i, ING_ROYAL]
      ∧ t = { s with regs := t.regs, ing := { s.ing with slots := t.ing.slots }, pass := t.pass }))
  ∧ (∀ (x v new : Nat) (s : State), x < 1024 → s.hostReaches .rw (CTN_SESx_CFG x) (enOf v) new →
    s.bit (CTN_SESx_CFG x) 0 = 0 → bitOf new 0 = 1 →
    Takes (.ctnSessionEnable x v) s (fun t =>
      (∃ c, t.ctnOf x = some c ∧ c.cfg = new % 2 ^ 32 ∧ c.grid = s.rd (CTN_SESx_GRID x)
        ∧ c.maps = [(0, ⟨s.rd (CTN_SESx_MAP x), s.rd (CTN_SESx_INMAP x), s.rd (CTN_SESx_VERSION x)⟩)] ∧ c.pend = none ∧ c.last = none
        ∧ c.first = c.dwellFrom s.tick ∧ nth c.win (c.first % 2) none = some c.first
        ∧ nth c.win ((c.first + 1) % 2) none = some (c.first + 1))
      ∧ (∀ y, y ≠ x → t.ctnOf y = s.ctnOf y) ∧ s.sameRegs t [CTN_SESx_CFG x]
      ∧ t = { s with regs := t.regs, ctn := { s.ctn with ses := t.ctn.ses }, pass := t.pass }))
  ∧ (∀ (x new : Nat) (c : CtnSes) (s : State), x < 1024 → s.bit (CTN_SESx_CFG x) 0 = 1 → s.ctnOf x = some c →
    s.hostReaches .rw (CTN_SESx_CFG x) (setBits (s.rd (CTN_SESx_CFG x)) 0 0 0) new → bitOf new 0 = 0 →
    Takes (.ctnSessionDisable x) s (fun t =>
      (c.dwellAt s.tick < c.first → t.ctnOf x = none)
      ∧ (c.first ≤ c.dwellAt s.tick → ∃ c', t.ctnOf x = some c' ∧ c'.last = some (c.dwellAt s.tick)
          ∧ (∀ e, some e ∈ c'.win → e ≤ c.dwellAt s.tick) ∧ c' = { c with last := c'.last, win := c'.win })
      ∧ (∀ y, y ≠ x → t.ctnOf y = s.ctnOf y) ∧ s.sameRegs t [CTN_SESx_CFG x]
      ∧ t = { s with regs := t.regs, ctn := { s.ctn with ses := t.ctn.ses }, pass := t.pass }))
  ∧ (∀ (x v new : Nat) (c : CtnSes) (s : State), x < 1024 → s.hostReaches .rw (CMB_SESx_CFG x) (enOf v) new →
    s.bit (CMB_SESx_CFG x) 0 = 0 → bitOf new 0 = 1 → s.ctnOf x = some c →
    Takes (.cmbSessionEnable x v) s (fun t =>
      t.cmbOf x = some ⟨c, max c.first (c.dwellFrom (s.rd64 (CMB_SESx_START_LO x) (CMB_SESx_START_HI x))), none, none,
        c.home (max c.first (c.dwellFrom (s.rd64 (CMB_SESx_START_LO x) (CMB_SESx_START_HI x))) * c.d) + c.w, none⟩
      ∧ (∀ y, y ≠ x → t.cmbOf y = s.cmbOf y)
      ∧ s.sameRegs t [CMB_SESx_CFG x, CMB_SESx_STATUS x, CMB_LOAD, CMB_PEAK]
      ∧ t = { s with regs := t.regs, cmb := { s.cmb with ses := t.cmb.ses }, pass := t.pass }))
  ∧ (∀ (x v new : Nat) (m : CmbSes) (s : State), x < 1024 → s.hostReaches .rw (SUP_SESx_CFG x) (enOf v) new →
    s.bit (SUP_SESx_CFG x) 0 = 0 → bitOf new 0 = 1 → s.cmbOf x = some m → m.dumped = none →
    Takes (.supSessionEnable x v) s (fun t =>
      t.supOf x = some ⟨m.first, false, [], [], [], [], [], [], none⟩ ∧ t.rd (SUP_SESx_STATUS x) = 2 ^ 31
      ∧ (∀ y, y ≠ x → t.supOf y = s.supOf y) ∧ s.sameRegs t [SUP_SESx_CFG x, SUP_SESx_STATUS x, SUP_USE]
      ∧ t = { s with regs := t.regs, sup := { s.sup with ses := t.sup.ses }, pass := t.pass }))
  ∧ (∀ (x v new : Nat) (s : State), x < 1024 → s.hostReaches .rw (WAG_SESx_CFG x) (enOf v) new →
    s.bit (WAG_SESx_CFG x) 0 = 0 → bitOf new 0 = 1 →
    Takes (.wagSessionEnable x v) s (fun t =>
      t.wagOf x = some ⟨none, [(0, s.bit (WAG_SESx_STATUS x) (if bitOf new 2 = 1 then 29 else 28))], none, [], [], [], none⟩
      ∧ t.bit (WAG_SESx_STATUS x) 31 = 1 ∧ (∀ y, y ≠ x → t.wagOf y = s.wagOf y)
      ∧ s.sameRegs t [WAG_SESx_CFG x, WAG_SESx_STATUS x, WAG_LOAD, WAG_WUSE, WAG_GUSE]
      ∧ t = { s with regs := t.regs, wag := { s.wag with ses := t.wag.ses }, pass := t.pass }))
  ∧ (∀ (n v new : Nat) (s : State), n < 64 → n < s.wrk.cores.length → s.hostReaches .rw (WRK_Wn_CFG n) v new →
    s.bit (WRK_Wn_CFG n) 0 = 0 → bitOf new 0 = 1 → (s.core n).run = none →
    Takes (.workerEnable n v) s (fun t =>
      t.core n = WCore.reset ∧ (∀ m, m ≠ n → t.core m = s.core m) ∧ t.rd (WRK_Wn_CFG n) = new % 2 ^ 32 ∧ s.sameRegs t [WRK_Wn_CFG n]
      ∧ t = { s with regs := t.regs, wrk := { s.wrk with cores := t.wrk.cores }, pass := t.pass }))
  ∧ (∀ (b v new : Nat) (s : State), b < 128 → s.hostReaches .rw (STG_Bb_CFG b) (enOf v) new →
    s.bit (STG_Bb_CFG b) 0 = 0 → bitOf new 0 = 1 →
    Takes (.stingBeamEnable b v) s (fun t =>
      t.trg.beams = (b, s.tick + 1) :: s.trg.beams.filter (·.1 != b) ∧ t.trg.reps = s.trg.reps.filter (·.src != b)
      ∧ s.sameRegs t [STG_Bb_CFG b, STG_LOAD]
      ∧ t = { s with regs := t.regs, trg := { s.trg with beams := t.trg.beams, reps := t.trg.reps }, pass := t.pass }))
  ∧ (∀ (c v new : Nat) (s : State), c < 64 → s.hostReaches .rw (TRG_TCc_CFG c) (enOf v) new →
    s.bit (TRG_TCc_CFG c) 0 = 0 → bitOf new 0 = 1 →
    Takes (.conditionEnable c v) s (fun t =>
      t.rd (TRG_TCc_COUNT c) = 0 ∧ t.rd (TRG_TCc_CFG c) = new % 2 ^ 32 ∧ s.sameRegs t [TRG_TCc_CFG c, TRG_TCc_COUNT c]
      ∧ t = { s with regs := t.regs, pass := t.pass }))
  ∧ (∀ (c v new : Nat) (a : AcqCfg) (s : State), c < 64 → s.hostReaches .rw (ACQ_CGc_CFG c) (enOf v) new →
    s.bit (ACQ_CGc_CFG c) 0 = 0 → bitOf new 0 = 1 → s.acqGrp c = none → (s.wr (ACQ_CGc_CFG c) new).acqConfig c (new % 2 ^ 32) = some a →
    Takes (.captureGroupEnable c v) s (fun t =>
      (∃ g, t.acqGrp c = some g ∧ g.cfg = a ∧ g.spans = [⟨0, s.cgStart c, none⟩] ∧ g.caps = [] ∧ g.ticks = [] ∧ g.dead = none
        ∧ g.prevTe = s.cgStart c * 4000)
      ∧ t.rd (ACQ_CGc_SEG_BYTES c) = a.segBytes / 65536 % 2 ^ 32
      ∧ (∀ k, k ≠ c → t.acqGrp k = s.acqGrp k) ∧ s.sameRegs t [ACQ_CGc_CFG c, ACQ_CGc_SEG_BYTES c, ACQ_CGc_STATUS c]
      ∧ t = { s with regs := t.regs, acq := { s.acq with grps := t.acq.grps }, pass := t.pass }))

/-- A commit written by the host while it may still take effect (R161, R188, R229, R326, R424): the delay model, gain switch, map switch,
weight commit or release waits for its tick. -/
def Obligations.CommitsWaitForTheirTick : Prop :=
  (∀ (i v new : Nat) (s : State), i < 256 → i < s.ing.slots.length → s.hostReaches .rw (ING_Ii_DLY_REF_HI i) v new →
    let kr := s.rd (ING_Ii_DLY_REF_LO i) + new % 2 ^ 32 * 2 ^ 32
    s.slotBegun i kr = false → (s.slot i).pend = none →
    Takes (.dlyModelCommit i v) s (fun t =>
      (t.slot i).pend = some ⟨signed 48 (s.rd64 (ING_Ii_DLY_D0_LO i) (ING_Ii_DLY_D0_HI i)), signed 32 (s.rd (ING_Ii_DLY_D1 i)),
        signed 32 (s.rd (ING_Ii_DLY_D2 i)), kr⟩
      ∧ (t.slot i).models = (s.slot i).models ∧ t.bit (ING_Ii_STATUS i) 26 = 1
      ∧ s.sameRegs t [ING_Ii_DLY_REF_HI i, ING_Ii_STATUS i]
      ∧ t = { s with regs := t.regs, ing := { s.ing with slots := t.ing.slots }, pass := t.pass }))
  ∧ (∀ (v new : Nat) (s : State), s.hostReaches .rw CHN_GAIN_EFF_HI v new →
    let k := s.rd CHN_GAIN_EFF_LO + new % 2 ^ 32 * 2 ^ 32
    s.begun k = false → s.chn.switched = false →
    Takes (.gainEffCommit v) s (fun t =>
      t.chn.gainEff = some k ∧ t.bit CHN_GAIN_STATUS 1 = 1 ∧ s.sameRegs t [CHN_GAIN_EFF_HI, CHN_GAIN_STATUS]
      ∧ t = { s with regs := t.regs, chn := { s.chn with gainEff := t.chn.gainEff }, pass := t.pass }))
  ∧ (∀ (x v new : Nat) (c : CtnSes) (u : State) (s : State), x < 1024 → s.hostReaches .rw (CTN_SESx_NEXT_EFF_HI x) v new →
    let w := s.wr (CTN_SESx_NEXT_EFF_HI x) new
    let k := s.rd (CTN_SESx_NEXT_EFF_LO x) + new % 2 ^ 32 * 2 ^ 32
    s.ctnOf x = some c → w.mapCommit (w.withPendingMaps k) x k (w.nextMaps x) = (0, none, u) →
    Takes (.mapCommitWrite x v) s (fun t =>
      t.ctnOf x = some { c with pend := some (k, c.dwellFrom k, w.nextMaps x) } ∧ (∀ y, y ≠ x → t.ctnOf y = s.ctnOf y)
      ∧ s.sameRegs t ([CTN_SESx_NEXT_EFF_HI x, DDR_RSV, PWR_EST] ++ (List.range 8).map (fun q => DDR_CLk_RSV q))
      ∧ t = { s with regs := t.regs, ctn := { s.ctn with ses := t.ctn.ses }, pass := t.pass }))
  ∧ (∀ (x v new : Nat) (q : WagSes) (s : State), x < 1024 → s.hostReaches .rw (WAG_SESx_COMMIT_HI x) v new →
    let e := s.rd (WAG_SESx_COMMIT_LO x) + new % 2 ^ 32 * 2 ^ 32
    s.bit (WAG_SESx_CFG x) 0 = 1 → s.wagOf x = some q → q.pend = none →
    s.begun (if s.wagExplicit x then s.wagR x e else s.wagRelease x e) = false →
    Takes (.weightCommitWrite x v) s (fun t =>
      (∃ q', t.wagOf x = some q' ∧ q'.pend = some e ∧ q'.banks.head? = some (e, 1 - q.active)
        ∧ q' = { q with banks := q'.banks, pend := q'.pend, first := q'.first })
      ∧ t.bit (WAG_SESx_STATUS x) 30 = 1 ∧ (∀ y, y ≠ x → t.wagOf y = s.wagOf y)
      ∧ s.sameRegs t [WAG_SESx_COMMIT_HI x, WAG_SESx_STATUS x]
      ∧ t = { s with regs := t.regs, wag := { s.wag with ses := t.wag.ses }, pass := t.pass }))
  ∧ (∀ (c v new : Nat) (g : AcqGrp) (p : AcqCap) (s : State), c < 64 → s.hostReaches .rw (ACQ_CGc_REL_EFF_HI c) v new →
    let seg := s.rd (ACQ_CGc_REL_SEG c) % 16
    let r := s.rd (ACQ_CGc_REL_EFF_LO c) + new % 2 ^ 32 * 2 ^ 32
    s.acqGrp c = some g → g.caps.find? (fun p => p.seg == seg && p.sealed_) = some p → s.replayed c p.ev = false →
    g.rel.any (·.1 == seg) = false → (r = 0 ∨ s.begun r = false) →
    Takes (.segmentReleaseCommit c v) s (fun t =>
      t.acqGrp c = some { g with rel := g.rel ++ [if r = 0 then (seg, s.tick + 1, true) else (seg, r, false)] }
      ∧ (∀ k, k ≠ c → t.acqGrp k = s.acqGrp k) ∧ s.sameRegs t [ACQ_CGc_REL_EFF_HI c]
      ∧ t = { s with regs := t.regs, acq := { s.acq with grps := t.acq.grps }, pass := t.pass }))

/-- Retiring and restoring combs (R276, R281), cores (R334) and keepers (R560), the witness enable (Table 10-5) and the DDR enable (R438),
by writes that arrive; COMB_RETIRE does what the register does. A comb's state changes at the end of the tick (R273), a keeper's at the next tick
boundary (R549). -/
def Obligations.RetireAndRestore : Prop :=
  let waits (s t : State) (a : Nat) (e : CombEvent) : Prop :=
    s.sameRegs t [a] ∧ t = { s with regs := t.regs, cmb := { s.cmb with todo := [e] }, pass := t.pass }
  (∀ (c new k : Nat) (s : State), c < 16 → s.hostReaches .wo CMB_RETIRE_CMD c new → s.combState c < 2 → s.cmbMode.cw = 0 → s.cmb.todo = [] →
    Takes (.retireComb c) s (fun t =>
      let u := t.cmbTick k
      waits s t CMB_RETIRE_CMD (.retire c) ∧ t.rd CMB_RETIRE_CMD = 0
      ∧ u.combState c = 2 ∧ u.cmbMode = ⟨addNew s.cmbMode.retired c, 1, some c⟩ ∧ u.bit CMB_ERR 4 = 1 ∧ u.combState 16 = 1
      ∧ u = { t with regs := u.regs, cmb := { s.cmb with modes := u.cmb.modes }, pci := u.pci, out := u.out }))
  ∧ (∀ (c new k : Nat) (s : State), c < 16 → s.hostReaches .wo CMB_RETIRE_CMD (2 ^ 8 + c) new → s.combState c = 2 → s.cmbMode.cw ≠ 1 → s.cmb.todo = [] →
    Takes (.restoreComb c) s (fun t =>
      let u := t.cmbTick k
      waits s t CMB_RETIRE_CMD (.restore c) ∧ t.rd CMB_RETIRE_CMD = 0
      ∧ u.combState c = 0 ∧ u.cmbMode = { s.cmbMode with retired := s.cmbMode.retired.filter (· != c) }
      ∧ (∀ d, d < 16 → d ≠ c → u.combState d = s.combState d)
      ∧ u = { t with regs := u.regs, cmb := { s.cmb with modes := u.cmb.modes } }))
  ∧ (∀ (on : Bool) (new k : Nat) (s : State),
    s.hostReaches .rw CMB_CTRL (setBits (s.rd CMB_CTRL) 1 1 (if on then 1 else 0)) new → s.rd CMB_CTRL < 4 →
    s.bit CMB_CTRL 1 = (if on then 0 else 1) → (on = true ↔ s.cmbMode.cw = 3) → s.cmb.todo = [] →
    Takes (.witnessEnableWrite on) s (fun t =>
      let u := t.cmbTick k
      waits s t CMB_CTRL (.witness on) ∧ t.bit CMB_CTRL 1 = (if on then 1 else 0) ∧ t.bit CMB_CTRL 0 = s.bit CMB_CTRL 0
      ∧ u.cmbMode = (if on then cwBack s.cmbMode else { s.cmbMode with cw := 3, standin := none })
      ∧ u = { t with regs := u.regs, cmb := { s.cmb with modes := u.cmb.modes } }))
  ∧ (∀ (p : Pkt) (k : Nat) (key : List Byte) (u s : State), pkOp p.bytes = 0x0A01 → s.accepts p k key u →
    (pkParams p.bytes).length = 4 → strayBits 0x11F (beAt (pkParams p.bytes) 0 4) = false →
    Runs .combRetire s p k key 0 [] (fun t => t = u.retireCmd (beAt (pkParams p.bytes) 0 4)))
  ∧ (∀ (p n q new : Nat) (s : State), p < 68 → s.hostReaches .wo WRK_RETIRE_CMD p new → s.coreRetired p = false →
    s.wrk.phys.findIdx? (· == p) = some n → (s.setRetired p true).freeSpare = some q →
    Takes (.retireCore p) s (fun t =>
      t.coreRetired p = true ∧ (∀ r, r ≠ p → r < 68 → t.coreRetired r = s.coreRetired r) ∧ t.wrk.moves = s.wrk.moves ++ [(n, q, 0)]
      ∧ t.bit WRK_ERR 3 = 1
      ∧ t = { s with regs := t.regs, wrk := { s.wrk with moves := t.wrk.moves }, pci := t.pci, out := t.out, pass := t.pass }))
  ∧ (∀ (p new : Nat) (s : State), p < 68 → s.hostReaches .wo WRK_RETIRE_CMD (2 ^ 8 + p) new → s.coreRetired p = true →
    Takes (.restoreCore p) s (fun t =>
      t.coreRetired p = false ∧ (∀ r, r ≠ p → r < 68 → t.coreRetired r = s.coreRetired r) ∧ spGet zeroNat t.wrk.errs p = 0
      ∧ t.wrk.stopped = s.wrk.stopped.filter (fun n => nth s.wrk.phys n 0 != p)
      ∧ t = { s with regs := t.regs, wrk := { s.wrk with errs := t.wrk.errs, stopped := t.wrk.stopped }, pass := t.pass }))
  ∧ (∀ (k new : Nat) (s : State), k < 2 → s.hostReaches .wo KPR_CMD k new → k ≠ s.keeper →
    s.keeperState k ≠ 5 → s.keeperState k ≠ 0 → s.kpr.takeAt = none → s.kpr.moves = [] →
    Takes (.retireKeeper k) s (fun t =>
      let u := t.keeperMoves
      s.sameRegs t [KPR_CMD] ∧ t = { s with regs := t.regs, kpr := { s.kpr with moves := [(k, 5)] }, pass := t.pass }
      ∧ u.keeperState k = 5 ∧ u.keeperState (1 - k) = s.keeperState (1 - k) ∧ u.bit KPR_ERR 5 = 1
      ∧ u = { t with regs := u.regs, kpr := { s.kpr with dirty := true, planned := false, recWait := false }, pci := u.pci, out := u.out }))
  ∧ (∀ (k new : Nat) (s : State), k < 2 → s.hostReaches .wo KPR_CMD (2 ^ 8 + k) new → s.keeperState k = 5 → s.kpr.moves = [] →
    Takes (.restoreKeeper k) s (fun t =>
      let u := t.keeperMoves
      s.sameRegs t [KPR_CMD] ∧ t = { s with regs := t.regs, kpr := { s.kpr with moves := [(k, 2)] }, pass := t.pass }
      ∧ u.keeperState k = 2 ∧ u.keeperState (1 - k) = s.keeperState (1 - k) ∧ u = { t with regs := u.regs, kpr := s.kpr }))
  ∧ (∀ (new : Nat) (s : State), s.hostReaches .rw DDR_CTRL (enOf (s.rd DDR_CTRL)) new → s.bit DDR_CTRL 0 = 0 → bitOf new 0 = 1 →
    Takes .ddrEnable s (fun t =>
      t.bit DDR_CTRL 0 = 1 ∧ t.rd DDR_PEAK = 128 * (3200 + 400 * (s.rd DDR_CFG % 16)) ∧ t.rd DDR_STATUS = 2 ^ 30
      ∧ s.sameRegs t [DDR_CTRL, DDR_PEAK, DDR_CAP, DDR_STATUS]
      ∧ t = { s with regs := t.regs, enAt := t.enAt, pass := t.pass }))

/-! ### Command packets (chapters 19 and 21) -/

/-- R479, R481, R482, R489, shown on IDENTIFY: a discarded packet is counted and gets no reply; a repeated one gets its cached reply, and nothing
runs; one out of its window is refused and nothing runs. UNKNOWN_OPCODE: an opcode the table does not have is refused with BAD_OPCODE. -/
def Obligations.PacketsPassTheirChecksOrDoNothing : Prop :=
  (∀ (p : Pkt) (cnt : Nat) (auth : Bool) (r i : Nat) (s : State), s.nextCmd = some p → pkOp p.bytes = 0x0003 → p.via = .ring r i →
    s.popCmd.gate p.bytes = .drop cnt auth → cnt ∈ [CMD_DISC_HDR, CMD_DISC_KEY, CMD_DISC_TAG, CMD_DISC_TARGET] →
    Takes .identify s (fun t =>
      t.rd cnt = (s.rd cnt + 1) % 2 ^ 32 ∧ t.bit CMD_ERR 1 = (if auth then 1 else s.bit CMD_ERR 1)
      ∧ s.sameRegs t [cnt, CMD_ERR, PCI_ERR] ∧ t = { s.popCmd with regs := t.regs, pci := t.pci, out := t.out }))
  ∧ (∀ (p : Pkt) (k : Nat) (key reply : List Byte) (t s : State), s.nextCmd = some p → pkOp p.bytes = 0x0003 →
    s.popCmd.gate p.bytes = .pass k key → s.popCmd.turn p k = (.resend reply, t) →
    t = s.popCmd ∧ exec .identify s = .next ((t.countReply (beAt (t.fitReply p.via key (asCached key reply)) 20 2)).sendReply p.via
      (pkUrgent p.bytes) (t.fitReply p.via key (asCached key reply))))
  ∧ (∀ (p : Pkt) (k st : Nat) (key : List Byte) (t s : State), s.nextCmd = some p → pkOp p.bytes = 0x0003 →
    s.popCmd.gate p.bytes = .pass k key → s.popCmd.turn p k = (.refuse st, t) →
    t = s.popCmd ∧ st ∈ [0x0300, 0x0301, 0x0302] ∧ exec .identify s = .next (t.endCmd 1 false p k key st []))
  ∧ (∀ (p : Pkt) (k : Nat) (key : List Byte) (u s : State), s.nextCmd = some p → s.popCmd.gate p.bytes = .pass k key →
    s.popCmd.turn p k = (.run, u) → opCodes.contains (pkOp p.bytes) = false →
    Runs .unknownOpcode s p k key 0x0100 [] (fun t => t = u))

/-- A command of the table ends (R480, R482, R485, R527): its entry is logged, its reply is counted and goes back the way it came. The reply's
header carries STATUS, and its TAG is that of R478.
IDENTIFY (R491), HEALTH_READ (R563), SEAL_COMMIT (R510), KEEPER_SWITCH (R557) with no parameters. -/
def Obligations.CommandsEndWithEntryCountAndReply : Prop :=
  (∀ (p : Pkt) (k st : Nat) (key ps : List Byte) (u : State) (r i : Nat), p.via = .ring r i → 48 ≤ p.bytes.length → st < 2 ^ 16 → u.pci.held = false →
    u.bit PCI_STATUS 11 = 1 → u.cmd.audit.length < 8192 → u.rd CMD_AUDIT_NEXT + 1 < 2 ^ 32 →
    let reply := u.replyBytes key p.bytes st ps
    let t := u.endCmd 1 true p k key st ps
    tagOf key reply = pkTag reply ∧ beAt reply 20 2 = st ∧ reply.drop 48 = ps
    ∧ t.cmd.audit.length = u.cmd.audit.length + 1 ∧ t.rd CMD_AUDIT_NEXT = u.rd CMD_AUDIT_NEXT + 1
    ∧ (∃ e, t.cmd.audit = u.cmd.audit ++ [e] ∧ beAt e 0 4 = u.rd CMD_AUDIT_NEXT ∧ beAt e 18 2 = st ∧ beAt e 16 2 = pkOp p.bytes)
    ∧ t.rd CMD_EXECUTED = (u.rd CMD_EXECUTED + if st < 2 then 1 else 0) % 2 ^ 32
    ∧ t.rd CMD_REFUSED = (u.rd CMD_REFUSED + if st < 2 then 0 else 1) % 2 ^ 32
    ∧ .hostWrite (u.ringSlot r i + 8200) reply ∈ t.out
    ∧ t.cached [0, r] k (pkSeq p.bytes) = some ⟨pkSeq p.bytes, pkTag p.bytes, if ps.length ≤ 1024 then some reply else none⟩)
  ∧ ((∀ (p : Pkt) (k : Nat) (key : List Byte) (u s : State), pkOp p.bytes = 0x0003 → s.accepts p k key u → pkParams p.bytes = [] →
    Runs .identify s p k key 0 (toBE 4 (u.rd GLB_ID) ++ toBE 4 (u.rd GLB_UID_LO) ++ toBE 4 (u.rd GLB_UID_HI)) (fun t => t = u))
  ∧ (∀ (p : Pkt) (k : Nat) (key : List Byte) (u s : State), pkOp p.bytes = 0x0004 → s.accepts p k key u → pkParams p.bytes = [] →
    Runs .healthRead s p k key 0 ((List.range 128).flatMap (fun w => toBE 4 (u.rd (KPR_HEALTHw w)))) (fun t => t = u))
  ∧ (∀ (p : Pkt) (k : Nat) (key : List Byte) (u s : State), pkOp p.bytes = 0x0108 → s.accepts p k key u → pkParams p.bytes = [] →
    Runs .sealCommit s p k key 0 [] (fun t => t.bit GLB_SEAL_STATUS 30 = 1 ∧ u.sameRegs t [GLB_SEAL_STATUS] ∧ t = { u with regs := t.regs }))
  ∧ (∀ (p : Pkt) (k : Nat) (key : List Byte) (u s : State), pkOp p.bytes = 0x0109 → s.accepts p k key u → pkParams p.bytes = [] →
    u.keeperState (1 - u.keeper) = 3 →
    Runs .keeperSwitch s p k key 0 [] (fun t => t = { u with kpr := { u.kpr with planned := true } })))

/-- R531: AUDIT_READ's parameters and reply, and its refusals. -/
def Obligations.AuditReadReturnsTheEntries : Prop :=
  ∀ (p : Pkt) (k : Nat) (key : List Byte) (u s : State), pkOp p.bytes = 0x0106 → s.accepts p k key u → (pkParams p.bytes).length = 8 →
    let start := beAt (pkParams p.bytes) 0 4
    let n := beAt (pkParams p.bytes) 4 2
    let old := u.rd CMD_AUDIT_OLDEST
    let next := u.rd CMD_AUDIT_NEXT
    (1 ≤ n → n ≤ 254 → beAt (pkParams p.bytes) 6 2 = 0 → start < next →
      ∃ es : List (List Byte), Runs .auditRead s p k key 0 (toBE 4 old ++ toBE 4 next ++ es.flatten) (fun t => t = u) ∧ es.length ≤ n
        ∧ es.length = min n (u.cmd.audit.length - (max start old - old))
        ∧ ∀ j, j < es.length → es[j]? = u.cmd.audit[max start old - old + j]?)
    ∧ (1 ≤ n → n ≤ 254 → beAt (pkParams p.bytes) 6 2 = 0 → next ≤ start → Runs .auditRead s p k key 0x0405 [] (fun t => t = u))
    ∧ (n = 0 ∨ 254 < n → Runs .auditRead s p k key 0x0102 [] (fun t => t = u))

/-- R532: AUDIT_CLEAR empties the log and writes its CLEAR entry, whose INDEX continues; OLDEST becomes that INDEX. -/
def Obligations.AuditClearLeavesItsOwnEntry : Prop :=
  ∀ (p : Pkt) (k : Nat) (key : List Byte) (u s : State), pkOp p.bytes = 0x0107 → s.accepts p k key u → pkParams p.bytes = [] →
    ∃ (w : State) (e : List Byte), exec .auditClear s = .next (w.sendReply p.via (pkUrgent p.bytes) (w.fitReply p.via key (u.replyBytes key p.bytes 0 [])))
      ∧ w.cmd.audit = [e] ∧ beAt e 0 4 = u.rd CMD_AUDIT_NEXT ∧ beAt e 4 4 / 2 ^ 28 = 4
      ∧ w.rd CMD_AUDIT_OLDEST = u.rd CMD_AUDIT_NEXT ∧ w.rd CMD_AUDIT_NEXT = (u.rd CMD_AUDIT_NEXT + 1) % 2 ^ 32

/-- R519, R520: a key loaded is ACTIVE with H 0 and its cached replies freed, the key being that of the packet unmasked; one revoked is REVOKED, and
a monitor login on it ends. -/
def Obligations.KeysAreLoadedAndRevoked : Prop :=
  (∀ (p : Pkt) (k j : Nat) (key : List Byte) (u s : State), pkOp p.bytes = 0x0104 → s.accepts p k key u →
    keyField (beAt (pkParams p.bytes) 0 2) = some j → j < 68 → (pkParams p.bytes).length = (if j < 64 then 164 else 36) →
    beAt (pkParams p.bytes) 2 2 = 0 →
    ∃ t : State, exec .keyLoad s = .next (t.endCmd 1 (decide (j ≠ k)) p k key 0 [])
      ∧ t.keyOf j = some (xorBytes (slice (pkParams p.bytes) 4 32)
        (hmac key (asc "FV9600 KEY" ++ pkNonce p.bytes ++ toBE 2 (beAt (pkParams p.bytes) 0 2))))
      ∧ t.rd (CMD_KEYk_STATE j) = 1 ∧ t.rd (CMD_KEYk_H j) = 0 ∧ t.seenOf j = [] ∧ (∀ src q, t.cached src j q = none)
      ∧ (∀ w, w < 32 → j < 64 → t.rd (CMD_BINDs_w j w) = leAt (slice (pkParams p.bytes) 36 128) (4 * w) 4)
      ∧ u.sameRegs t ([CMD_KEYk_STATE j, CMD_KEYk_H j] ++ (List.range 32).map (CMD_BINDs_w j))
      ∧ (∀ i, i < 70 → i ≠ j → t.keyOf i = u.keyOf i ∧ t.seenOf i = u.seenOf i)
      ∧ t = { u with regs := t.regs, cmd := { u.cmd with keys := t.cmd.keys, seen := t.cmd.seen, cache := t.cmd.cache } })
  ∧ (∀ (p : Pkt) (k j : Nat) (key : List Byte) (u s : State), pkOp p.bytes = 0x0105 → s.accepts p k key u →
    (pkParams p.bytes).length = 4 → keyField (beAt (pkParams p.bytes) 0 2) = some j → beAt (pkParams p.bytes) 2 2 = 0 →
    u.rd (CMD_KEYk_STATE j) % 4 = 1 → (slotRole k = 2 ∨ (slotRole k = 0 ∧ j = k) ∨ (slotRole k = 1 ∧ j < 68 ∧ u.installers ≠ [j])) →
    Runs .keyRevoke s p k key 0 [] (fun t =>
      t.rd (CMD_KEYk_STATE j) = 2 ∧ t.keyOf j = none ∧ (u.mon.login = some j → t.mon.login = none)
      ∧ (u.mon.login ≠ some j → t.mon.login = u.mon.login) ∧ (68 ≤ j → j - 68 ∈ t.mon.revoked) ∧ (j < 68 → t.mon.revoked = u.mon.revoked)
      ∧ u.sameRegs t [CMD_KEYk_STATE j]
      ∧ t = { u with regs := t.regs, mon := { u.mon with login := t.mon.login, revoked := t.mon.revoked } }))

/-- R68, R83, R100, R55: the time-of-day second waits for its edge; an accepted step is scheduled; a change of the reference mode with an effective
tick that has not begun waits for it. -/
def Obligations.TimeAndReferenceCommands : Prop :=
  (∀ (p : Pkt) (k : Nat) (key : List Byte) (u s : State), pkOp p.bytes = 0x0401 → s.accepts p k key u → (pkParams p.bytes).length = 8 →
    beAt (pkParams p.bytes) 0 8 < 2 ^ 48 → u.fd TIM_CTRL TIM_CTRL_TOD_SRC ≠ 0 → u.timeValid = false →
    Runs .timeSet s p k key 0 [] (fun t => t = { u with tim := { u.tim with todPend := some (beAt (pkParams p.bytes) 0 8, u.tim.now), todEdge := false } }))
  ∧ (∀ (p : Pkt) (k : Nat) (key : List Byte) (u s : State), pkOp p.bytes = 0x0402 → s.accepts p k key u → (pkParams p.bytes).length = 16 →
    let d := signed 64 (beAt (pkParams p.bytes) 0 8)
    let sec := beAt (pkParams p.bytes) 8 8
    sec < 2 ^ 48 → 0 < sec → u.begun ((sec - 1) * 1000000) = false → u.bit TIM_STATUS 1 = 1 → u.bit TIM_STATUS 2 = 0 →
    d + u.stepOfs ≤ u.stepThr → -u.stepThr ≤ d + u.stepOfs →
    Runs .timeAcceptStep s p k key 0 [] (fun t =>
      t.tim = { u.tim with step := some (d, sec) } ∧ t.bit TIM_STATUS 2 = 1 ∧ t.bit TIM_STATUS 1 = 1 ∧ u.sameRegs t [TIM_STATUS]
      ∧ t = { u with regs := t.regs, tim := t.tim }))
  ∧ (∀ (p : Pkt) (k : Nat) (key : List Byte) (u s : State), pkOp p.bytes = 0x0301 → s.accepts p k key u → (pkParams p.bytes).length = 16 →
    let tk := beAt (pkParams p.bytes) 0 8
    let img := beAt (pkParams p.bytes) 12 4
    beAt (pkParams p.bytes) 8 4 = 0 → strayBits 0xF1C img = false → clkInRange CLK_CTRL img u = true → u.timeValid = true → tk ≠ 0 →
    u.begun tk = false →
    Runs .refMode s p k key 0 [] (fun t =>
      t.cmd.pend = insPend ⟨tk, false, .refMode img⟩ u.cmd.pend ∧ t.bit GLB_SEAL_STATUS 30 = (if u.bit GLB_SEAL_CFG 1 = 1 then 1 else u.bit GLB_SEAL_STATUS 30)
      ∧ u.sameRegs t [GLB_SEAL_STATUS] ∧ t = { u with regs := t.regs, cmd := { u.cmd with pend := t.cmd.pend } }))

/-- Commits by command at a tick that has not begun (R161, R188, R326, R424): the block's commit takes that tick, and no reply carries parameters. -/
def Obligations.CommitCommands : Prop :=
  (∀ (p : Pkt) (k : Nat) (key : List Byte) (u s : State), pkOp p.bytes = 0x0601 → s.accepts p k key u → (pkParams p.bytes).length = 28 →
    let b := pkParams p.bytes
    let tk := beAt b 0 8
    let i := beAt b 8 4
    i < 256 → i < u.ing.slots.length → strayBits (rwMask (ING_Ii_DLY_D0_HI 0)) (beAt b 16 4) = false → u.timeValid = true → tk ≠ 0 →
    u.begun tk = false → u.slotBegun i tk = false → (u.slot i).pend = none →
    Runs .delayModel s p k key 0 [] (fun t =>
      (t.slot i).pend = some ⟨signed 48 (beAt b 12 4 + beAt b 16 4 * 2 ^ 32), signed 32 (beAt b 20 4), signed 32 (beAt b 24 4), tk⟩
      ∧ t.bit (ING_Ii_STATUS i) 26 = 1
      ∧ u.sameRegs t [ING_Ii_DLY_D0_LO i, ING_Ii_DLY_D0_HI i, ING_Ii_DLY_D1 i, ING_Ii_DLY_D2 i, ING_Ii_DLY_REF_LO i, ING_Ii_DLY_REF_HI i,
          ING_Ii_STATUS i]
      ∧ t = { u with regs := t.regs, ing := { u.ing with slots := t.ing.slots } }))
  ∧ (∀ (p : Pkt) (k : Nat) (key : List Byte) (u s : State), pkOp p.bytes = 0x0701 → s.accepts p k key u → (pkParams p.bytes).length = 12 →
    let tk := beAt (pkParams p.bytes) 0 8
    beAt (pkParams p.bytes) 8 4 = 0 → u.timeValid = true → tk ≠ 0 → u.begun tk = false → u.chn.switched = false →
    Runs .gainCommit s p k key 0 [] (fun t =>
      t.chn = { u.chn with gainEff := some tk } ∧ t.rd64 CHN_GAIN_EFF_LO CHN_GAIN_EFF_HI = tk ∧ t.bit CHN_GAIN_STATUS 1 = 1
      ∧ u.sameRegs t [CHN_GAIN_EFF_LO, CHN_GAIN_EFF_HI, CHN_GAIN_STATUS, GLB_SEAL_STATUS]
      ∧ t = { u with regs := t.regs, chn := t.chn, pass := { u.pass with dirty := true } }))
  ∧ (∀ (p : Pkt) (k : Nat) (key : List Byte) (q : WagSes) (u s : State), pkOp p.bytes = 0x0C01 → s.accepts p k key u →
    (pkParams p.bytes).length = 12 →
    let e := beAt (pkParams p.bytes) 0 8
    let x := beAt (pkParams p.bytes) 8 4
    x < 1024 → (slotRole k ≠ 0 ∨ x = pkSession p.bytes) → u.timeValid = true → u.wagOf x = some q → q.pend = none →
    u.bit (WAG_SESx_CFG x) 0 = 1 → u.begun (if u.wagExplicit x then u.wagR x e else u.wagRelease x e) = false →
    Runs .weightCommit s p k key 0 [] (fun t =>
      (∃ q', t.wagOf x = some q' ∧ q'.pend = some e ∧ q'.banks.head? = some (e, 1 - q.active)) ∧ t.bit (WAG_SESx_STATUS x) 30 = 1
      ∧ (∀ y, y ≠ x → t.wagOf y = u.wagOf y) ∧ u.sameRegs t [WAG_SESx_COMMIT_LO x, WAG_SESx_COMMIT_HI x, WAG_SESx_STATUS x, GLB_SEAL_STATUS]
      ∧ t = { u with regs := t.regs, wag := { u.wag with ses := t.wag.ses }, pass := { u.pass with dirty := true } }))
  ∧ (∀ (p : Pkt) (k : Nat) (key : List Byte) (g : AcqGrp) (cap : AcqCap) (u s : State), pkOp p.bytes = 0x0F01 → s.accepts p k key u →
    (pkParams p.bytes).length = 16 →
    let r := beAt (pkParams p.bytes) 0 8
    let c := beAt (pkParams p.bytes) 8 4
    let seg := beAt (pkParams p.bytes) 12 4
    c < 64 → seg < 16 → (slotRole k ≠ 0 ∨ u.cgSession c = pkSession p.bytes) → u.timeValid = true → u.acqGrp c = some g →
    g.caps.find? (fun q => q.seg == seg && q.sealed_) = some cap → u.replayed c cap.ev = false → g.rel.any (·.1 == seg) = false →
    (r = 0 ∨ u.begun r = false) →
    Runs .segRelease s p k key 0 [] (fun t =>
      t.acqGrp c = some { g with rel := g.rel ++ [if r = 0 then (seg, u.tick + 1, true) else (seg, r, false)] }
      ∧ (∀ d, d ≠ c → t.acqGrp d = u.acqGrp d)
      ∧ u.sameRegs t [ACQ_CGc_REL_SEG c, ACQ_CGc_REL_EFF_LO c, ACQ_CGc_REL_EFF_HI c, GLB_SEAL_STATUS]
      ∧ t = { u with regs := t.regs, acq := { u.acq with grps := t.acq.grps }, pass := { u.pass with dirty := true } }))
  ∧ (∀ (p : Pkt) (k : Nat) (key : List Byte) (c : CtnSes) (v u s : State), pkOp p.bytes = 0x0801 → s.accepts p k key u →
    (pkParams p.bytes).length = 24 →
    let b := pkParams p.bytes
    let tk := beAt b 0 8
    let x := beAt b 8 4
    let w := (((u.wr (CTN_SESx_NEXT_MAP x) (beAt b 12 4)).wr (CTN_SESx_NEXT_INMAP x) (beAt b 16 4)).wr (CTN_SESx_NEXT_VERSION x) (beAt b 20 4)).wr64
      (CTN_SESx_NEXT_EFF_LO x) (CTN_SESx_NEXT_EFF_HI x) tk
    x < 1024 → strayBits (rwMask (CTN_SESx_NEXT_MAP x)) (beAt b 12 4) = false → strayBits (rwMask (CTN_SESx_NEXT_INMAP x)) (beAt b 16 4) = false →
    strayBits (rwMask (CTN_SESx_NEXT_VERSION x)) (beAt b 20 4) = false → (slotRole k ≠ 0 ∨ x = pkSession p.bytes) → u.ctnOf x = some c →
    u.bit (CTN_SESx_CFG x) 0 = 1 → u.timeValid = true → tk ≠ 0 → u.begun tk = false →
    w.mapCommit (u.viewAt tk) x tk (w.nextMaps x) = (0, none, v) →
    Runs .mapCommit s p k key 0 [] (fun t =>
      t.ctnOf x = some { c with pend := some (tk, c.dwellFrom tk, ⟨beAt b 12 4, beAt b 16 4, beAt b 20 4⟩) }
      ∧ (∀ y, y ≠ x → t.ctnOf y = u.ctnOf y)
      ∧ t = { u with regs := t.regs, ctn := { u.ctn with ses := t.ctn.ses }, pass := { u.pass with dirty := true } }))

/-- SESSION_SET, SESSION_REMOVE, BUDGET_SET and TRIG_SLOT_SET (R55, R58, R59, R60, R515) at a tick that has not begun: a change that every
admission check passes waits for its tick; one that a check fails is refused with that check's values, and nothing changes. -/
def Obligations.SessionChangesAreAdmittedOrRefused : Prop :=
  (∀ (p : Pkt) (k : Nat) (key : List Byte) (u s : State), pkOp p.bytes = 0x0101 → s.accepts p k key u → (pkParams p.bytes).length = 188 →
    let b := pkParams p.bytes
    let tk := beAt b 0 8
    let x := beAt b 8 4
    let imgs := imagesOf (sesRegs x) b
    let cfg := imageAt imgs (CMD_SESx_CFG x)
    let v := (u.viewAt tk).laidChange (.setSes x imgs)
    x < 1024 → strayAny (sesRegs x) imgs = false → bitsOf cfg 5 4 < 3 → (x = 0 → bitsOf cfg 5 4 = 1) →
    (bitOf cfg 1 = 1 → bitsOf cfg 5 4 = 2 ∧ bitOf cfg 0 = 0) →
    (bitOf (imageAt imgs (CTN_SESx_CFG x)) 0 = 1 → dwellOk (imageAt imgs (CTN_SESx_CFG x)) = true) → u.sesState x ≠ 2 → u.timeValid = true →
    tk ≠ 0 → u.begun tk = false →
    ((u.viewAt tk).sesState x = 0 → imageAt imgs (CTN_SESx_EPOCH_LO x) + imageAt imgs (CTN_SESx_EPOCH_HI x) * 2 ^ 32 ≤ tk) →
    (v.admission (some x) = none → Runs .sessionSet s p k key 0 [] (fun t =>
      t.cmd.pend = insPend ⟨tk, false, .setSes x imgs⟩ u.cmd.pend
      ∧ u.sameRegs t ([GLB_SEAL_STATUS, DDR_RSV, PWR_EST] ++ (List.range 8).map (fun c => DDR_CLk_RSV c))
      ∧ t = { u with regs := t.regs, cmd := { u.cmd with pend := t.cmd.pend } }))
    ∧ (∀ r, v.admission (some x) = some r → Runs .sessionSet s p k key 0x0400 r.bytes (fun t => t = u)))
  ∧ (∀ (p : Pkt) (k : Nat) (key : List Byte) (u s : State), pkOp p.bytes = 0x0102 → s.accepts p k key u → (pkParams p.bytes).length = 12 →
    let tk := beAt (pkParams p.bytes) 0 8
    let x := beAt (pkParams p.bytes) 8 4
    0 < x → x < 1024 → u.sesState x ≠ 2 → (u.sesState x ≠ 0 ∨ u.setPending x = true) → u.timeValid = true → tk ≠ 0 → u.begun tk = false →
    ((u.viewAt tk).laidChange (.remove x)).admission none = none →
    Runs .sessionRemove s p k key 0 [] (fun t =>
      t.cmd.pend = insPend ⟨tk, false, .remove x⟩ u.cmd.pend
      ∧ u.sameRegs t ([GLB_SEAL_STATUS, DDR_RSV, PWR_EST] ++ (List.range 8).map (fun c => DDR_CLk_RSV c))
      ∧ t = { u with regs := t.regs, cmd := { u.cmd with pend := t.cmd.pend } }))
  ∧ (∀ (p : Pkt) (k : Nat) (key : List Byte) (u s : State), pkOp p.bytes = 0x0201 → s.accepts p k key u → (pkParams p.bytes).length = 16 →
    let tk := beAt (pkParams p.bytes) 0 8
    let mw := beAt (pkParams p.bytes) 12 4
    let v := u.viewAt tk
    beAt (pkParams p.bytes) 8 4 = 0 → 150000 ≤ mw → mw ≤ 480000 → u.timeValid = true → tk ≠ 0 → u.begun tk = false →
    (v.rd PWR_BUDGET ≤ mw ∨ v.classAPower ≤ mw → Runs .budgetSet s p k key 0 [] (fun t =>
      t.cmd.pend = insPend ⟨tk, false, .budget mw⟩ u.cmd.pend ∧ u.sameRegs t [GLB_SEAL_STATUS]
      ∧ t = { u with regs := t.regs, cmd := { u.cmd with pend := t.cmd.pend } }))
    ∧ (mw < v.rd PWR_BUDGET → mw < v.classAPower →
      Runs .budgetSet s p k key 0x0400 (⟨18, 0, v.classAPower, mw⟩ : Refused).bytes (fun t => t = u)))
  ∧ (∀ (p : Pkt) (k : Nat) (key : List Byte) (u s : State), pkOp p.bytes = 0x0E01 → s.accepts p k key u → (pkParams p.bytes).length = 168 →
    let b := pkParams p.bytes
    let tk := beAt b 0 8
    let g := beAt b 8 4
    let imgs := imagesOf (slotRegs g) b
    let x := bitsOf (imageAt imgs (TRG_SESg_CFG g)) 31 22
    let w := (u.viewAt tk).laidChange (.trigSlot g imgs)
    g < 8 → strayAny (slotRegs g) imgs = false → (slotRole k ≠ 0 ∨ (x = pkSession p.bytes ∧ (u.slotOn g = true → u.slotSession g = pkSession p.bytes))) →
    u.timeValid = true → tk ≠ 0 → u.begun tk = false → (u.viewAt tk).sesState x = 1 → (u.viewAt tk).sesClass x = 0 →
    (slotRegs g).any (fun r => (trgPre r.1 (w.rd r.1) ((u.viewAt tk).setBit (TRG_SESg_CFG g) 0 false)).isSome) = false → w.admission none = none →
    Runs .trigSlotSet s p k key 0 [] (fun t =>
      t.cmd.pend = insPend ⟨tk, false, .trigSlot g imgs⟩ u.cmd.pend
      ∧ u.sameRegs t ([GLB_SEAL_STATUS, DDR_RSV, PWR_EST] ++ (List.range 8).map (fun c => DDR_CLk_RSV c))
      ∧ t = { u with regs := t.regs, cmd := { u.cmd with pend := t.cmd.pend } }))

/-- R515, R516: an admitted SESSION_SET whose tick has begun makes the session ACTIVE with its quotas; an admitted SESSION_REMOVE makes it REMOVING with
its corner turn, combs, supers and waggle disabled; a REMOVING session whose last object had stopped when the tick began is FREE, its
quotas as after reset. -/
def Obligations.SessionsBecomeActiveRemovingAndFree : Prop :=
  (∀ (x k : Nat) (imgs : List (Nat × Nat)) (s : State), x < 1024 → imgs.length = (sesRegs x).length →
    s.dueChange (fun c => match c with | .setSes y _ => y == x | _ => false) = some ⟨k, false, .setSes x imgs⟩ →
    s.sesState x ≠ 2 → s.inControl = true →
    Takes (.sessionActivate x) s (fun t =>
      t.sesState x = 1 ∧ (∀ i, i < 8 → t.rd (CMD_SESx_Q x i) = nth (imgs.map (·.2)) (36 + i) 0 % 2 ^ 32)
      ∧ t.cmd.pend = s.cmd.pend.erase ⟨k, false, .setSes x imgs⟩ ∧ t.pass.dirty = true
      ∧ (∀ y, y < 1024 → y ≠ x → t.rd (CMD_SESx_CFG y) = s.rd (CMD_SESx_CFG y))))
  ∧ (∀ (x k : Nat) (s : State), x < 1024 → s.dueChange (fun c => c == .remove x) = some ⟨k, false, .remove x⟩ → s.sesState x = 1 →
    s.inControl = true →
    Takes (.sessionRemoveApply x) s (fun t =>
      t.sesState x = 2 ∧ t.cmd.pend = s.cmd.pend.erase ⟨k, false, .remove x⟩ ∧ t.pass.dirty = true
      ∧ t.bit (CTN_SESx_CFG x) 0 = 0 ∧ t.bit (CMB_SESx_CFG x) 0 = 0 ∧ t.bit (SUP_SESx_CFG x) 0 = 0 ∧ t.bit (WAG_SESx_CFG x) 0 = 0
      ∧ (∀ y, y < 1024 → y ≠ x → t.rd (CMD_SESx_CFG y) = s.rd (CMD_SESx_CFG y))))
  ∧ (∀ (x : Nat) (s : State), x ∈ s.sesEndTick.cmd.ended ↔ x < 1024 ∧ s.sesState x = 2 ∧ s.sesStopped x = true)
  ∧ (∀ (x : Nat) (s : State), 0 < x → x < 1024 → s.sesState x = 2 → s.sesStopped x = true → x ∈ s.cmd.ended → s.inControl = true →
    Takes (.sessionFree x) s (fun t =>
      t.sesState x = 0 ∧ t.rd (CMD_SESx_CFG x) = 0 ∧ (∀ i, i < 8 → t.rd (CMD_SESx_Q x i) = 2 ^ 32 - 1)
      ∧ (∀ q ∈ t.eth.streams, q.session ≠ x) ∧ x ∉ t.untimed ∧ (∀ y ∈ s.untimed, y ≠ x → y ∈ t.untimed)
      ∧ s.sameRegs t (CMD_SESx_CFG x :: (List.range 8).map (CMD_SESx_Q x))
      ∧ t = { s with regs := t.regs, eth := { s.eth with streams := t.eth.streams }, untimed := t.untimed }))

/-- WORKER_START (R365) enables a worker whose first run serves the effective tick; STREAM_SET (R491) installs a stream from its tick. -/
def Obligations.WorkersAndStreamsAreSetByCommand : Prop :=
  (∀ (p : Pkt) (k : Nat) (key : List Byte) (u s : State), pkOp p.bytes = 0x0D01 → s.accepts p k key u → (pkParams p.bytes).length = 12 →
    let tk := beAt (pkParams p.bytes) 0 8
    let n := beAt (pkParams p.bytes) 8 4
    n < 64 → n < u.wrk.cores.length → u.wrkEn n = false → (slotRole k ≠ 0 ∨ bitsOf (u.rd (WRK_Wn_CFG n)) 31 22 = pkSession p.bytes) →
    (u.core n).run = none → u.timeValid = true → tk ≠ 0 → u.begun tk = false →
    Runs .workerStart s p k key 0 [] (fun t =>
      t.wrkEn n = true ∧ t.rd64 (WRK_Wn_START_LO n) (WRK_Wn_START_HI n) = tk ∧ t.core n = WCore.reset ∧ (∀ m, m ≠ n → t.core m = u.core m)
      ∧ u.sameRegs t [WRK_Wn_CFG n, WRK_Wn_START_LO n, WRK_Wn_START_HI n, GLB_SEAL_STATUS]
      ∧ t = { u with regs := t.regs, wrk := { u.wrk with cores := t.wrk.cores }, pass := { u.pass with dirty := true } }))
  ∧ (∀ (p : Pkt) (k : Nat) (key : List Byte) (w u s : State), pkOp p.bytes = 0x0103 → s.accepts p k key u →
    (pkParams p.bytes).length ∈ [66, 70, 86, 90] →
    let b := pkParams p.bytes
    let tk := beAt b 0 8
    let x := beAt b 8 4
    let kind := beAt b 12 4
    let port := beAt b 16 4
    let q := beAt b 20 4
    x < 1024 → kind < 4 → port < 32 → q < 8 → tmplOk (b.drop 24) = true → (slotRole k ≠ 0 ∨ x = pkSession p.bytes) → u.timeValid = true →
    tk ≠ 0 → u.begun tk = false → u.addNeigh (tmplV6 (b.drop 24)) (tmplDst (b.drop 24)) port = some w →
    Runs .streamSet s p k key 0 [] (fun t =>
      t.streamOf x kind tk = some ⟨x, kind, port, q, b.drop 24, tk⟩ ∧ (∀ j, j < tk → t.streamOf x kind j = w.streamOf x kind j)
      ∧ t = { w with eth := { w.eth with streams := t.eth.streams } }))

/-- R490: REG_GATHER and REG_SCATTER work through their elements; when the last is done they answer OK with the values read; the first that
fails ends them with PARTIAL, its index and cause. -/
def Obligations.GathersAndScattersWorkThroughTheirElements : Prop :=
  ∀ (scatter : Bool) (p : Pkt) (k n cause : Nat) (key : List Byte) (els : List (Nat × Nat)) (r : RegRun) (u w s : State),
    pkOp p.bytes = (if scatter then 0x0002 else 0x0001) → s.accepts p k key u →
    regElems (if scatter then 8 else 4) (pkUrgent p.bytes) (pkParams p.bytes) = (0, els) →
    u.regSteps scatter (Ctx.agent ⟨p, k, key⟩) els (if pkUrgent p.bytes then 512 else n) ⟨p, 0, [], s.popCmd.rd (CMD_KEYk_H k)⟩ = (r, cause, w) →
    let c : Instr := if scatter then .regScatter n else .regGather n
    let ended : State := { w with cmd := { w.cmd with run := none } }
    let left : State := if scatter && sealedAny (els.take r.done) then ended.sealWritten else ended
    (cause = 0 → r.done = els.length → Runs c s p k key 0 (toBE 2 0xFFFF ++ [0, 0] ++ r.vals.flatMap (toBE 4)) (fun t => t = left))
    ∧ (cause ≠ 0 → Runs c s p k key 1 (toBE 2 r.done ++ toBE 1 cause ++ [0] ++ r.vals.flatMap (toBE 4)) (fun t => t = left))
    ∧ (cause = 0 → r.done < els.length → exec c s = .next { w with cmd := { w.cmd with run := some r } })

/-- R480, R483: the next slot of an enabled ring enters its queue and the ring's index advances; a datagram for the command port enters its queue; a
doorbell sets the ring's producer index. -/
def Obligations.PacketsEnterTheQueues : Prop :=
  (∀ (r : Nat) (b : List Byte) (s : State), r < 64 → s.inControl = true → s.bit CMD_CTRL 0 = 1 → s.bit (CMD_RINGr_CFG r) 0 = 1 →
    s.pci.held = false → s.bme = true →
    let i := s.rd (CMD_RINGr_STATUS r) % 65536
    let pkt := slice b 0 (min 8192 (48 + beAt b 16 4))
    i ≠ nth s.cmd.prod r 0 → s.queueFull pkt = false →
    Takes (.commandPacketArrive (.ring r (.data b))) s (fun t =>
      t.cmd.urgQ = (if pkUrgent pkt then s.cmd.urgQ ++ [⟨.ring r i, pkt⟩] else s.cmd.urgQ)
      ∧ t.cmd.ordQ = (if pkUrgent pkt then s.cmd.ordQ else s.cmd.ordQ ++ [⟨.ring r i, pkt⟩])
      ∧ t.rd (CMD_RINGr_STATUS r) % 65536 = (i + 1) % 2 ^ bitsOf (s.rd (CMD_RINGr_CFG r)) 19 16 % 65536
      ∧ s.sameRegs t [CMD_RINGr_STATUS r]
      ∧ t = { s with regs := t.regs, cmd := { s.cmd with urgQ := t.cmd.urgQ, ordQ := t.cmd.ordQ } }))
  ∧ (∀ (x : RxItem) (w s : State), s.takeRx (fun x => x.kind == .command) = (some x, w) → s.inControl = true → s.bit CMD_CTRL 0 = 1 →
    s.queueFull x.bytes = false →
    Takes (.commandPacketArrive .udp) s (fun t =>
      t.cmd.urgQ = (if pkUrgent x.bytes then s.cmd.urgQ ++ [⟨.udp x.port x.src x.sport x.smac, x.bytes⟩] else s.cmd.urgQ)
      ∧ t.cmd.ordQ = (if pkUrgent x.bytes then s.cmd.ordQ else s.cmd.ordQ ++ [⟨.udp x.port x.src x.sport x.smac, x.bytes⟩])
      ∧ t = { s with eth := { s.eth with inbox := t.eth.inbox }, cmd := { s.cmd with urgQ := t.cmd.urgQ, ordQ := t.cmd.ordQ } }))
  ∧ (∀ (r v : Nat) (s : State), r < 64 → r < s.cmd.prod.length → s.pci.held = false → v < 2 ^ bitsOf (s.rd (CMD_RINGr_CFG r)) 19 16 →
    Takes (.commandRingDoorbell r v) s (fun t =>
      nth t.cmd.prod r 0 = v ∧ (∀ q, q ≠ r → nth t.cmd.prod q 0 = nth s.cmd.prod q 0)
      ∧ t = { s with cmd := { s.cmd with prod := t.cmd.prod } }))

/-! ### Keepers, power and temperature (chapters 22 and 23) -/

/-- R549 to R560: a fault takes a keeper from STANDBY, SYNC or ACTIVE to FAULT or RETIRED; that of the ACTIVE keeper begins a gap that ends, at the boundary
two ticks on, with the other keeper ACTIVE, or leaves the hive ORPHAN where there is none to take over; a faulted keeper returns through SYNC to
STANDBY, and takes control back after ten clean seconds. -/
def Obligations.KeepersFaultSwitchAndRecover : Prop :=
  (∀ (acked : Bool) (s : State), s.inControl = true →
    Takes (.mirrorRecord acked) s (fun t =>
      t.kpr.recSeq = s.kpr.recSeq + 1 ∧ (t.kpr.recWait = true ↔ acked = false ∧ s.keeperState (1 - s.keeper) = 3)
      ∧ t.kpr.recAt = (if s.kpr.recWait = true ∧ t.kpr.recWait = true then s.kpr.recAt else s.tim.us)
      ∧ t = { s with kpr := { s.kpr with recSeq := t.kpr.recSeq, recWait := t.kpr.recWait, recAt := t.kpr.recAt } }))
  ∧ (∀ s : State, s.kpr.recWait = true → s.kpr.recAt + 10 ≤ s.tim.us → s.keeperState (1 - s.keeper) = 3 → s.kpr.takeAt = none →
    Takes .mirrorAckTimeout s (fun t =>
      let k := 1 - s.keeper
      t.keeperState k ∈ [1, 5] ∧ t.keeperState s.keeper = s.keeperState s.keeper ∧ t.keeper = s.keeper ∧ t.kpr.recWait = false
      ∧ t.rd (if k = 0 then KPR_FAULTS_A else KPR_FAULTS_B) = (s.rd (if k = 0 then KPR_FAULTS_A else KPR_FAULTS_B) + 1) % 2 ^ 32
      ∧ t.bit KPR_ERR 2 = 1 ∧ t.bit KPR_ERR 3 = 1
      ∧ s.sameRegs t [if k = 0 then KPR_FAULTS_A else KPR_FAULTS_B, KPR_STATUS, KPR_ERR, PCI_ERR]
      ∧ t = { s with regs := t.regs, kpr := t.kpr, pci := t.pci, out := t.out }))
  ∧ (∀ (k cause : Nat) (s : State), k < 2 → cause ∈ [1, 2, 3] → s.keeperState k = 4 →
    Takes (.keeperFault k cause) s (fun t =>
      t.keeperState k ∈ [1, 5] ∧ t.keeperState (1 - k) = s.keeperState (1 - k) ∧ t.kpr.gap = true
      ∧ t.rd (if k = 0 then KPR_FAULTS_A else KPR_FAULTS_B) = (s.rd (if k = 0 then KPR_FAULTS_A else KPR_FAULTS_B) + 1) % 2 ^ 32
      ∧ t.rd KPR_LOCKSTEP = (s.rd KPR_LOCKSTEP + if cause = 1 then 1 else 0) % 2 ^ 32
      ∧ (s.keeperState (1 - k) = 3 → s.bit KPR_CTRL 0 = 1 →
          t.kpr.takeAt = some (s.tim.us + 2) ∧ t.kpr.swTick = s.tick ∧ t.kpr.swCause = (cause, k) ∧ t.kpr.orphan = s.kpr.orphan
          ∧ t.rd KPR_GAP_TICKS = (s.rd KPR_GAP_TICKS + 1) % 2 ^ 32)
      ∧ (s.keeperState (1 - k) ≠ 3 ∨ s.bit KPR_CTRL 0 = 0 → t.kpr.takeAt = none ∧ t.kpr.orphan = true ∧ t.bit MON_STATE 17 = 1)
      ∧ s.sameRegs t [KPR_FAULTS_A, KPR_FAULTS_B, KPR_LOCKSTEP, KPR_STATUS, KPR_ERR, KPR_GAP_TICKS, MON_STATE, PCI_ERR]
      ∧ t = { s with regs := t.regs, kpr := t.kpr, pci := t.pci, out := t.out }))
  ∧ (∀ (b : Nat) (s : State), s.kpr.takeAt = some b → b ≤ s.tim.us → s.kpr.orphan = false →
    Takes .keeperSwitchover s (fun r =>
      let t := s.gapEnds
      r = (if s.timeValid && s.bit GLB_DOMAINS 3 == 1 then t.firstTick else t)
      ∧ t.keeper = 1 - s.keeper ∧ t.keeperState (1 - s.keeper) = 4 ∧ t.kpr.gap = false ∧ t.kpr.takeAt = none
      ∧ t.kpr.revertTo = some s.keeper ∧ t.cmd.run = none ∧ t.cmd.cache = []
      ∧ (∃ e, t.cmd.audit = (if 8192 ≤ s.cmd.audit.length then s.cmd.audit.drop 1 else s.cmd.audit) ++ [e])
      ∧ t.rd KPR_LAST_SW = (2 ^ 31 + s.kpr.swCause.1 * 2 ^ 16 + s.kpr.swCause.2 * 2 ^ 8) % 2 ^ 32 ∧ t.rd KPR_LAST_SW_TICK = s.kpr.swTick % 2 ^ 32
      ∧ (s.cmd.run = none → t.rd KPR_SWITCH_CNT = (s.rd KPR_SWITCH_CNT + 1) % 2 ^ 32 ∧ t.bit KPR_ERR 1 = 1
          ∧ s.sameRegs t [KPR_STATUS, KPR_ERR, KPR_SWITCH_CNT, KPR_LAST_SW, KPR_LAST_SW_TICK, CMD_AUDIT_NEXT, CMD_AUDIT_OLDEST,
              CMD_AUDIT_CHAIN_HI, CMD_AUDIT_CHAIN_LO, CMD_ERR, PCI_ERR])
      ∧ t = { s with regs := t.regs, kpr := t.kpr, cmd := t.cmd, pass := t.pass, pci := t.pci, out := t.out }))
  ∧ (∀ (k : Nat) (s : State), k < 2 → s.keeperState k = 1 → s.kpr.moves = [] →
    Takes (.keeperLogicResetDone k) s (fun t =>
      t = { s with kpr := { s.kpr with moves := [(k, 2)] } }
      ∧ let u := t.keeperMoves
        u.keeperState k = 2 ∧ u.keeperState (1 - k) = s.keeperState (1 - k) ∧ u.keeper = s.keeper ∧ s.sameRegs u [KPR_STATUS]
        ∧ u = { s with regs := u.regs }))
  ∧ (∀ (k : Nat) (s : State), k < 2 → s.keeperState k = 2 → s.keeperState (1 - k) = 4 → s.kpr.moves = [] →
    Takes (.keeperSyncComplete k) s (fun t =>
      t = { s with kpr := { s.kpr with moves := [(k, 3)] } }
      ∧ let u := t.keeperMoves
        u.keeperState k = 3 ∧ u.keeperState (1 - k) = 4 ∧ u.keeper = s.keeper ∧ u.bit MON_STATE 2 = 1
        ∧ s.sameRegs u [KPR_STATUS, MON_STATE] ∧ u = { s with regs := u.regs, kpr := { s.kpr with dirty := true } }))
  ∧ (∀ (k : Nat) (s : State), s.kpr.revertTo = some k → k < 2 → k ≠ s.keeper → s.bit KPR_CTRL 1 = 1 → s.inControl = true → s.timeValid = true →
    s.keeperState k = 3 → 10 ≤ bitsOf (s.rd KPR_STATUS) 11 8 → s.tick % 1000000 = 0 →
    Takes .keeperRevert s (fun t =>
      t.keeper = k ∧ t.keeperState k = 4 ∧ t.keeperState s.keeper = 3 ∧ t.kpr.revertTo = none ∧ t.kpr.gap = s.kpr.gap ∧ t.bit KPR_ERR 4 = 1
      ∧ (s.cmd.run = none → t.rd KPR_REVERT_CNT = (s.rd KPR_REVERT_CNT + 1) % 2 ^ 32)
      ∧ t = { s with regs := t.regs, kpr := t.kpr, cmd := t.cmd, pass := t.pass, pci := t.pci, out := t.out }))
  ∧ (∀ (k corr uncorr : Nat) (s : State), k < 2 → s.keeperState k ∈ [2, 3, 4] →
    Takes (.keeperMemoryPatrol k corr uncorr) s (fun t =>
      t.rd KPR_MEM_CORR = (s.rd KPR_MEM_CORR + corr) % 2 ^ 32 ∧ t.rd KPR_MEM_UNCORR = (s.rd KPR_MEM_UNCORR + uncorr) % 2 ^ 32
      ∧ (uncorr = 0 → s.sameRegs t [KPR_MEM_CORR] ∧ t = { s with regs := t.regs })
      ∧ (uncorr ≠ 0 → t.keeperState k ∈ [1, 5])))

/-- R536, R540, R543, R544: the highest sensor reading is shown, or trips the part at 115 °C; at a tick boundary it moves the thermal state up through SHED_C and
SHED_B, and 10,000 cool ticks end SHED_C; each millisecond in SHED_B the reduction rises, falls or holds; the rails' power over the budget is withheld for 1,000 ticks, and a rail that fails
withholds nothing. -/
def Obligations.TemperatureAndMeasuredPowerBoundTheWork : Prop :=
  (∀ (c : Int) (sensor : Nat) (s : State), s.mon.held = false → s.mon.trip = false → sensor < 32 → s.duePeriod 10 s.pwr.sampled = true →
    (-32768 ≤ c → c < 920 → Takes (.thermalSample c sensor) s (fun t =>
      t.rd PWR_TEMP = sensor * 2 ^ 16 + unsigned 16 c ∧ t.temp = c ∧ s.sameRegs t [PWR_TEMP]
      ∧ t.kpr = { s.kpr with tempSec := max s.kpr.tempSec c }
      ∧ t = { s with regs := t.regs, kpr := t.kpr, pwr := { s.pwr with sampled := some s.tim.us } }))
    ∧ (920 ≤ c → Takes (.thermalSample c sensor) s (fun t =>
      t.thermal = 3 ∧ t.rd GLB_DOMAINS = s.rd GLB_DOMAINS % 8 ∧ t.mon = { s.mon with trip := true } ∧ t.bit MON_STATE 18 = 1
      ∧ s.sameRegs t [PWR_TEMP, PWR_STATUS, GLB_DOMAINS, MON_STATE]
      ∧ t = { s with regs := t.regs, kpr := t.kpr, pwr := { s.pwr with sampled := some s.tim.us }, mon := t.mon })))
  ∧ (∀ s : State,
    let t := s.thermalTick
    (s.thermal = 0 → s.tC ≤ s.temp → t.thermal = 1 ∧ t.rth = 0 ∧ t.rd PWR_SHED_CNT = (s.rd PWR_SHED_CNT + 1) % 2 ^ 32 ∧ t.bit PWR_ERR 3 = 1)
    ∧ (s.thermal = 0 → s.temp < s.tC → t.thermal = 0 ∧ t.regs = s.regs)
    ∧ (s.thermal = 1 → s.tB ≤ s.temp → s.tC - s.hyst ≤ s.temp → t.thermal = 2 ∧ t.rth = 0 ∧ t.bit PWR_ERR 4 = 1)
    ∧ (s.thermal = 1 → s.temp < s.tB → s.temp < s.tC - s.hyst → 9999 ≤ s.pwr.cool → t.thermal = 0)
    ∧ (s.thermal = 1 → s.temp < s.tB → s.tC - s.hyst ≤ s.temp ∨ s.pwr.cool < 9999 → t.thermal = 1 ∧ t.regs = s.regs)
    ∧ s.sameRegs t [PWR_STATUS, PWR_SHED_CNT, PWR_ERR, PCI_ERR]
    ∧ t.pwr = { s.pwr with cool := if s.temp < s.tC - s.hyst then min 10000 (s.pwr.cool + 1) else 0 })
  ∧ (∀ s : State, s.thermal = 2 → s.inControl = true → s.atMs = true → s.pwr.stepped ≠ some s.tim.us →
    let w := s.rd PWR_THERM % 256
    let steps (P : State → Prop) : Prop := Takes .thermalStep s (fun t =>
      P t ∧ s.sameRegs t [PWR_STATUS] ∧ t = { s with regs := t.regs, pwr := { s.pwr with stepped := some s.tim.us } })
    (s.tB ≤ s.temp → steps (fun t => t.thermal = 2 ∧ t.rth = min (s.rth + w) (min 1023 (s.row2Energy / 1000000))))
    ∧ (s.temp < s.tB - s.hyst → w < s.rth → steps (fun t => t.thermal = 2 ∧ t.rth = s.rth - w))
    ∧ (s.temp < s.tB - s.hyst → s.rth ≤ w → steps (fun t => t.thermal = 1 ∧ t.rth = 0))
    ∧ (s.tB - s.hyst ≤ s.temp → s.temp < s.tB → steps (fun t => t.regs = s.regs)))
  ∧ (∀ (rails : List (Option (Nat × Nat))) (s : State), s.bit PWR_CTRL 1 = 1 → s.mon.trip = false → s.inControl = true →
    s.duePeriod 1000 s.pwr.railed = true →
    let on := (List.range 9).filter (fun r => s.bit (PWR_RAILr_CFG r) 16 == 1)
    let p := sumL (on.map (fun r => match nth rails r none with | some m => m.1 % 65536 * (m.2 % 65536) | none => 0)) / 100
    let bad := (on.filter (fun r => (nth rails r none).isNone)).length
    Takes (.railRead rails) s (fun t =>
      (∀ r m, r ∈ on → nth rails r none = some m → t.rd (PWR_RAILr_MEAS r) = m.1 % 65536 * 65536 + m.2 % 65536)
      ∧ (bad = 0 → t.rd PWR_MEAS = p % 2 ^ 20 ∧ t.pwr = { s.pwr with railed := some s.tim.us, meas := p - s.rd PWR_BUDGET, left := if s.rd PWR_BUDGET < p then 1000 else 0 }
          ∧ (s.rd PWR_BUDGET < p → t.bit PWR_ERR 2 = 1))
      ∧ (bad ≠ 0 → t.pwr = { s.pwr with railed := some s.tim.us, meas := 0, left := 0 } ∧ t.rd PWR_RAIL_FAIL_CNT = (s.rd PWR_RAIL_FAIL_CNT + bad) % 2 ^ 32
          ∧ t.bit PWR_ERR 1 = 1)
      ∧ s.sameRegs t ([PWR_MEAS, PWR_RAIL_FAIL_CNT, PWR_ERR, PCI_ERR] ++ (List.range 9).map PWR_RAILr_MEAS)
      ∧ t = { s with regs := t.regs, kpr := t.kpr, pwr := t.pwr, pci := t.pci, out := t.out }))

/-! ### Resets, boot image and monitor (chapter 24) -/

/-- R564 to R568: a power-on reset returns everything but OTP to reset and holds it; its end starts the part up in the mode sampled; a warm reset, of
AUTO_S or of the monitor, keeps hive time's clock, the audit log, OTP and the registers of R566, and adds 1,000 unavailable ticks where a class
A or B session was ACTIVE (that reading of the span is the model's, log entry 16); PERST_L low resets the endpoint's blocks alone. What the model itself records (out, free counter, queue) stays. -/
def Obligations.ResetsStartThePartAgain : Prop :=
  let keys (s : State) := s.mon.revoked.map (fun i => CMD_KEYk_STATE (68 + i))
  let warm (u t : State) (cause : Nat) : Prop :=
    let l := [KPR_UNAVAIL_LO, KPR_UNAVAIL_HI, MON_BOOT, MON_RESET_CAUSE, MON_WARM_CNT, GLB_DOMAINS, MON_STATE, MON_ERR, CMD_ERR, PCI_ERR,
      CMD_AUDIT_NEXT, CMD_AUDIT_OLDEST, CMD_AUDIT_CHAIN_HI, CMD_AUDIT_CHAIN_LO] ++ keys u
    (∀ a, warmKept a = true → a ∉ l → t.rd a = u.rd a) ∧ (∀ a, warmKept a = false → a ∉ l → t.rd a = (resetVal a).toNat)
    ∧ ((∀ i ∈ u.mon.revoked, i < 2) → t.rd MON_RESET_CAUSE = cause ∧ t.bootMode = u.bootMode
        ∧ t.rd MON_WARM_CNT = (u.rd MON_WARM_CNT + 1) % 2 ^ 32
        ∧ t.rd64 KPR_UNAVAIL_LO KPR_UNAVAIL_HI = (u.rd64 KPR_UNAVAIL_LO KPR_UNAVAIL_HI + (if u.operating then 1000 else 0)) % 2 ^ 64
        ∧ t.bit MON_STATE 0 = 1 ∧ t.bit MON_STATE 1 = 1 ∧ t.bit MON_ERR 1 = 1)
    ∧ (∃ e, t.cmd.audit = (if 8192 ≤ u.cmd.audit.length then u.cmd.audit.drop 1 else u.cmd.audit) ++ [e])
    ∧ t = { State.reset with
        regs := t.regs, tim := { Tim.reset with now := u.tim.now, us := u.tim.us + 1000 }, cmd := { Cmd.reset with audit := t.cmd.audit }, out := t.out
        mon := { Mon.reset with held := false, wrong := u.mon.wrong, locked := u.mon.locked, lockAt := u.mon.lockAt, health := u.mon.health,
                                otp := u.mon.otp, revoked := u.mon.revoked }
        pci := { Pci.reset with held := u.pci.held, pba := t.pci.pba }, freeCtr := u.freeCtr, pending := u.pending }
  (∀ (c : Instr) (cause : Nat) (s : State), (c, cause) ∈ [(Instr.porLLow, 0), (Instr.pwrgoodFall, 1)] →
    Takes c s (fun t =>
      (∀ a, a ∉ MON_RESET_CAUSE :: keys s → t.rd a = (resetVal a).toNat)
      ∧ ((∀ i ∈ s.mon.revoked, i < 2) → t.rd MON_RESET_CAUSE = cause ∧ ∀ i ∈ s.mon.revoked, t.rd (CMD_KEYk_STATE (68 + i)) = 2)
      ∧ t.mon.held = true
      ∧ t = { State.reset with regs := t.regs, mon := { Mon.reset with otp := s.mon.otp, revoked := s.mon.revoked }, out := s.out,
                               freeCtr := s.freeCtr, pending := s.pending }))
  ∧ (∀ (mode : Nat) (s : State), s.mon.held = true →
    Takes (.resetEnd mode) s (fun t =>
      t.bootMode = mode % 4 ∧ t.bit MON_STATE 0 = 1 ∧ t.bit MON_STATE 1 = 1
      ∧ t.rd GLB_DOMAINS = (if s.pci.held then 0x7FF else 0xFFF) ∧ (mode % 4 = 3 → t.bit MON_ERR 0 = 1)
      ∧ (∃ e, t.cmd.audit = (if 8192 ≤ s.cmd.audit.length then s.cmd.audit.drop 1 else s.cmd.audit) ++ [e])
      ∧ s.sameRegs t [MON_BOOT, MON_ERR, PCI_ERR, GLB_DOMAINS, MON_STATE, CMD_AUDIT_NEXT, CMD_AUDIT_OLDEST, CMD_AUDIT_CHAIN_HI,
          CMD_AUDIT_CHAIN_LO, CMD_ERR]
      ∧ t = { s with regs := t.regs, mon := { s.mon with held := false }, cmd := { s.cmd with audit := t.cmd.audit }, pci := t.pci,
                     out := t.out }))
  ∧ (∀ s : State, s.kpr.orphan = true → s.bit MON_CTRL 1 = 1 → s.mon.trip = false → s.mon.held = false →
    s.kpr.orphanAt + bitsOf (s.rd MON_CTRL) 15 8 * 1000000 ≤ s.tim.us →
    Takes .autoWarmReset s (fun t => warm s t 3))
  ∧ (∀ (k : Nat) (s : State), s.monOn = true → s.mon.wait = false → s.mon.login = some k → 1 ≤ slotRole k → s.mon.trip = false →
    Takes .monResetWarm s (fun t => warm s t 2))
  ∧ (∀ s : State, Takes .perstLAssert s (fun t =>
      t.fdm = Fdm.reset ∧ t.pci = { Pci.reset with held := true } ∧ t.bit GLB_DOMAINS 11 = 0
      ∧ (∀ a, a / 0x100000 = 17 ∨ a / 0x100000 = 20 → t.rd a = (resetVal a).toNat)
      ∧ (∀ a, a / 0x100000 ≠ 17 → a / 0x100000 ≠ 20 → a ≠ GLB_DOMAINS → t.rd a = s.rd a)
      ∧ t = { s with regs := t.regs, fdm := t.fdm, pci := t.pci }))
  ∧ (∀ (speed width bar2 : Nat) (bme : Bool) (s : State), s.pci.held = true →
    Takes (.perstLDeassert speed width bar2 bme) s (fun t =>
      t.pci = { s.pci with held := false } ∧ t.bit PCI_STATUS 11 = (if bme then 1 else 0) ∧ bitsOf (t.rd PCI_STATUS) 3 0 = speed % 16
      ∧ (s.mon.held = false → s.mon.trip = false → t.bit GLB_DOMAINS 11 = 1)
      ∧ s.sameRegs t [PCI_STATUS, GLB_DOMAINS] ∧ t = { s with regs := t.regs, pci := t.pci }))

/-- R572 to R574: of two valid copies the one of higher GEN is chosen, copy 0 where they are equal; a PACKET entry enters its queue; a WAIT ends when its
bits are set, or fails the image; END ends the image. With no valid copy the image fails. -/
def Obligations.BootImageRunsItsEntries : Prop :=
  let failed (s t : State) (cause : Nat) : Prop :=
    t.bootState = 3 ∧ bitsOf (t.rd MON_BOOT) 26 24 = cause ∧ bitsOf (t.rd MON_BOOT) 15 0 = 0 ∧ t.bit MON_STATE 16 = 1 ∧ t.bit MON_ERR 5 = 1
    ∧ t.mon = { s.mon with image := [], busy := false } ∧ s.sameRegs t [MON_BOOT, MON_STATE, MON_ERR, PCI_ERR]
    ∧ t = { s with regs := t.regs, mon := t.mon, pci := t.pci, out := t.out }
  (∀ (c0 c1 : List Byte) (s : State), s.bootMode = 0 → s.bootState = 0 → s.mon.held = false →
    let best : Option (Nat × Nat × List BootEntry) := match bootCopy c0, bootCopy c1 with
      | some x, some y => if x.1 < y.1 then some (1, y) else some (0, x)
      | some x, none => some (0, x)
      | none, some y => some (1, y)
      | none, none => none
    (∀ b, best = some b → Takes (.bootImageSelect c0 c1) s (fun t =>
      t.bootState = 1 ∧ t.bit MON_BOOT 27 = b.1 ∧ t.rd MON_BOOT_GEN = b.2.1 % 2 ^ 32 ∧ t.rd MON_BOOT_IDX = 0
      ∧ t.mon = { s.mon with image := b.2.2, busy := false, since := s.tim.us }
      ∧ (bootCopy c0 = none ∨ bootCopy c1 = none → t.bit MON_ERR 4 = 1)
      ∧ s.sameRegs t [MON_BOOT, MON_BOOT_GEN, MON_BOOT_IDX, MON_ERR, PCI_ERR]
      ∧ t = { s with regs := t.regs, mon := t.mon, pci := t.pci, out := t.out }))
    ∧ (best = none → Takes (.bootImageSelect c0 c1) s (fun t => failed s t 1)))
  ∧ (∀ (b : List Byte) (rest : List BootEntry) (s : State), s.mon.image = .packet b :: rest → s.mon.busy = false → s.mon.held = false →
    s.queueFull b = false →
    Takes .bootPacket s (fun t =>
      t.mon = { s.mon with busy := true }
      ∧ t.cmd.urgQ = (if bitOf (beAt b 3 1) 6 = 1 then s.cmd.urgQ ++ [⟨.boot, b⟩] else s.cmd.urgQ)
      ∧ t.cmd.ordQ = (if bitOf (beAt b 3 1) 6 = 1 then s.cmd.ordQ else s.cmd.ordQ ++ [⟨.boot, b⟩])
      ∧ t = { s with mon := t.mon, cmd := { s.cmd with urgQ := t.cmd.urgQ, ordQ := t.cmd.ordQ } }))
  ∧ (∀ (cond ms : Nat) (rest : List BootEntry) (s : State), s.mon.image = .wait cond ms :: rest → s.condMet cond = true →
    Takes .bootWait s (fun t =>
      t.mon = { s.mon with image := rest, busy := false, since := s.tim.us } ∧ t.rd MON_BOOT_IDX = (s.rd MON_BOOT_IDX + 1) % 2 ^ 32
      ∧ s.sameRegs t [MON_BOOT_IDX] ∧ t = { s with regs := t.regs, mon := t.mon }))
  ∧ (∀ (cond ms : Nat) (rest : List BootEntry) (s : State), s.mon.image = .wait cond ms :: rest → s.condMet cond = false →
    Idle .bootWait s ∧ (s.mon.since + ms * 1000 ≤ s.tim.us → Takes .bootWaitTimeout s (fun t => failed s t 4))
    ∧ (s.tim.us < s.mon.since + ms * 1000 → Idle .bootWaitTimeout s))
  ∧ (∀ (rest : List BootEntry) (s : State), s.mon.image = .stop :: rest →
    Takes .bootEnd s (fun t =>
      t.bootState = 2 ∧ t.bit MON_STATE 8 = 1 ∧ t.mon = { s.mon with image := [] } ∧ s.sameRegs t [MON_BOOT, MON_STATE]
      ∧ t = { s with regs := t.regs, mon := t.mon }))

/-- R576 to R579: each line of Table 24-7 prints its text and its final line (line ends and prompt: log entry 27); a login takes a challenge and its
response, three wrong ones lock it; what needs a login is refused without one. -/
def Obligations.MonitorLinesAnswer : Prop :=
  let heard (s : State) : Mon := { s.mon with inAt := s.tim.us }
  let fin (s : State) (c : String) : Out := .uart (asc c ++ crlf ++ asc "hive " ++ decOf 4 (s.rd CTN_ID % 1024) ++ asc "> ")
  let idText (s : State) : List Byte := hexOf 8 (s.rd GLB_ID) ++ crlf ++ hexOf 8 (s.rd GLB_UID_HI) ++ hexOf 8 (s.rd GLB_UID_LO) ++ crlf
    ++ decOf 4 (s.rd CTN_ID % 1024) ++ crlf ++ decOf 1 s.bootMode ++ crlf
  let statusText (s : State) : List Byte := hexOf 8 (s.rd MON_STATE) ++ crlf ++ hexOf 8 (s.rd MON_BOOT) ++ crlf ++ hexOf 8 (s.rd MON_RESET_CAUSE)
    ++ crlf ++ hexOf 8 (s.rd KPR_STATUS) ++ crlf
  (∀ s : State, s.monOn = true → s.mon.wait = false →
    Takes .monHelp s (fun t => t = { s with mon := heard s, out := fin s "OK" :: .uart helpText :: s.out })
    ∧ Takes .monId s (fun t => t = { s with mon := heard s, out := fin s "OK" :: .uart (idText s) :: s.out })
    ∧ Takes .monStatus s (fun t => t = { s with mon := heard s, out := fin s "OK" :: .uart (statusText s) :: s.out })
    ∧ Takes .monSyntaxError s (fun t => t = { s with mon := heard s, out := fin s "ERR SYNTAX" :: s.out })
    ∧ Takes .monLogout s (fun t => t = { s with mon := { heard s with login := none, chal := none }, out := fin s "OK" :: s.out }))
  ∧ (∀ (role slot k : Nat) (s : State), s.monOn = true → s.mon.wait = false → role < 3 → slotOf role slot = some k → s.mon.locked = false →
    Takes (.monLogin role slot) s (fun t =>
      let ch := toBE 8 (Config.freeValue s.freeCtr)
      t = { s with mon := { heard s with chal := some (k, ch) }, freeCtr := s.freeCtr + 1
                   out := fin s "OK" :: .uart (ch.flatMap (fun c => hexOf 2 c.toNat) ++ crlf) :: s.out }))
  ∧ (∀ (b ch key : List Byte) (k : Nat) (s : State), s.monOn = true → s.mon.wait = false → s.mon.chal = some (k, ch) → s.mon.locked = false →
    s.keyOf k = some key →
    (b = (hmac key (asc "FV9600 MON" ++ ch)).take 8 → Takes (.monLoginResponse b) s (fun t =>
      t = { s with mon := { heard s with chal := none, login := some k, wrong := 0 }, out := fin s "OK" :: s.out }))
    ∧ (b ≠ (hmac key (asc "FV9600 MON" ++ ch)).take 8 → Takes (.monLoginResponse b) s (fun t =>
      t.mon = (if s.mon.wrong = 2 then { heard s with chal := none, wrong := 0, locked := true, lockAt := s.tim.us }
        else { heard s with chal := none, wrong := s.mon.wrong + 1 })
      ∧ t.rd MON_LOGIN_FAIL = (s.rd MON_LOGIN_FAIL + 1) % 2 ^ 32 ∧ (s.mon.wrong = 2 → t.bit MON_ERR 3 = 1)
      ∧ t.out.head? = some (fin s "ERR LOGIN") ∧ s.sameRegs t [MON_LOGIN_FAIL, MON_ERR, PCI_ERR]
      ∧ t = { s with regs := t.regs, mon := t.mon, pci := t.pci, out := t.out })))
  ∧ (∀ s : State, (s.mon.lockAt + 60000000 ≤ s.tim.us → Takes .loginLockExpire s (fun t => t = { s with mon := { s.mon with locked := false } }))
    ∧ (s.tim.us < s.mon.lockAt + 60000000 → Idle .loginLockExpire s)
    ∧ (s.mon.inAt + 600000000 ≤ s.tim.us → Takes .loginIdleTimeout s (fun t => t = { s with mon := { s.mon with login := none } }))
    ∧ (s.tim.us < s.mon.inAt + 600000000 → Idle .loginIdleTimeout s))
  ∧ (∀ (k : Nat) (s : State), s.monOn = true → s.mon.wait = false → s.mon.login = some k →
    Takes .monHealth s (fun t => t = { s with mon := heard s, out := fin s "OK" :: .uart (hexDump s.mon.health) :: s.out })
    ∧ (∀ b, s.kpr.orphan = false → s.queueFull b = true → Takes (.monPkt b) s (fun t => t = { s with mon := { heard s with wait := true, pkt := some b } }))
    ∧ (∀ b, s.kpr.orphan = false → s.queueFull b = false → Takes (.monPkt b) s (fun t =>
        t.mon = { heard s with wait := true, pkt := none }
        ∧ t.cmd.urgQ = (if bitOf (beAt b 3 1) 6 = 1 then s.cmd.urgQ ++ [⟨.monitor, b⟩] else s.cmd.urgQ)
        ∧ t.cmd.ordQ = (if bitOf (beAt b 3 1) 6 = 1 then s.cmd.ordQ else s.cmd.ordQ ++ [⟨.monitor, b⟩])
        ∧ t = { s with mon := t.mon, cmd := { s.cmd with urgQ := t.cmd.urgQ, ordQ := t.cmd.ordQ } }))
    ∧ (∀ n, 1 ≤ slotRole k → 533 ≤ div16Of n → div16Of n ≤ 1600000 → Takes (.monBaud n) s (fun t =>
        t.rd MON_UART = div16Of n ∧ t.out = fin s "OK" :: s.out ∧ s.sameRegs t [MON_UART]
        ∧ t = { s with regs := t.regs, mon := heard s, out := t.out })))
  ∧ (∀ (n : Nat) (b : List Byte) (s : State), s.monOn = true → s.mon.wait = false → s.mon.login = none →
    ∀ c ∈ [Instr.monHealth, .monPkt b, .monBaud n, .monResetWarm], Takes c s (fun t => t = { s with mon := heard s, out := fin s "ERR LOGIN" :: s.out }))
  ∧ (∀ s : State, s.monOn = true → Takes .uartFramingError s (fun t =>
      t.rd MON_UART_ERR_CNT = (s.rd MON_UART_ERR_CNT + 1) % 2 ^ 32 ∧ t.bit MON_ERR 2 = 1
      ∧ s.sameRegs t [MON_UART_ERR_CNT, MON_ERR, PCI_ERR] ∧ t = { s with regs := t.regs, pci := t.pci, out := t.out }))
/-! ### The tick, waits and deadlines (chapters 02 and 23) -/

/-- R88, R606: a strobe begins the next tick at the first clock cycle at or after its boundary: ticks are issued in rising order, and hive time has
reached the boundary, by less than one cycle. R69: while TIME_VALID is 0 no strobe is issued. -/
def Obligations.TicksBeginAtTheirBoundaries : Prop :=
  (∀ s : State, s.mon.held = false → s.timeValid = true → s.bit GLB_DOMAINS 3 = 1 → s.tim.step = none → 0 < s.clockStep →
    Takes .tickStrobe s (fun t =>
      t.tim = { s.tim with now := t.tim.now, lastTick := some t.tick, us := s.tim.us + 1, ptp := t.tim.ptp } ∧ t.tick = s.nextTick
      ∧ (∀ k, s.tim.lastTick = some k → k < t.tick) ∧ t.tick * tickU ≤ t.tim.now ∧ t.tim.now < t.tick * tickU + s.clockStep
      ∧ ∃ n, t.tim.now = s.tim.now + n * s.clockStep))
  ∧ (∀ s : State, s.mon.held = false → s.timeValid = false →
    Takes .tickStrobe s (fun t =>
      t.tim = { s.tim with now := s.cycleAt ((s.tim.now / tickU + 1) * tickU), us := s.tim.us + 1, ptp := t.tim.ptp }
      ∧ t = { s with regs := t.regs, tim := t.tim, clk := t.clk, eth := { s.eth with ports := t.eth.ports }, pci := t.pci, out := t.out
                     freeCtr := t.freeCtr }
      ∧ (s.operating = false → t.rd64 KPR_OP_TICKS_LO KPR_OP_TICKS_HI = s.rd64 KPR_OP_TICKS_LO KPR_OP_TICKS_HI
          ∧ t.rd64 KPR_UNAVAIL_LO KPR_UNAVAIL_HI = s.rd64 KPR_UNAVAIL_LO KPR_UNAVAIL_HI)
      ∧ (s.operating = true →
          t.rd64 KPR_OP_TICKS_LO KPR_OP_TICKS_HI = (s.rd64 KPR_OP_TICKS_LO KPR_OP_TICKS_HI + 1) % 2 ^ 64
          ∧ t.rd64 KPR_UNAVAIL_LO KPR_UNAVAIL_HI = (s.rd64 KPR_UNAVAIL_LO KPR_UNAVAIL_HI + 1) % 2 ^ 64)))

/-- R31, R43, R44, R503, R607: at a tick boundary the waits of earlier ticks end; a run no worker made by its deadline gives a set of zeros marked
TICK_ABANDONED and raises the block's fault; a block whose EN went to 0 gives up what waits in it; an access to a stopped domain is logged and a
read of it returns all ones. -/
def Obligations.WaitsAndDeadlinesEnd : Prop :=
  (∀ s : State, Takes .waitAbandon s (fun t =>
      (∀ p ∈ t.eth.outbox, p ∈ s.eth.outbox ∧ s.tick ≤ p.2.age)
      ∧ (∀ p ∈ s.eth.outbox, s.tick ≤ p.2.age → p.2.sid = 0 → p ∈ t.eth.outbox)
      ∧ t.eth = { s.eth with outbox := t.eth.outbox, sends := s.eth.sends.filter (s.tick ≤ ·.age) }
      ∧ t.units = s.units.filter (s.tick ≤ ·.age) ∧ t.wrk = { s.wrk with recs := s.wrk.recs.filter (s.tick < ·.1 + 4) }
      ∧ t = { s with regs := t.regs, eth := t.eth, wrk := t.wrk, units := t.units, sup := t.sup, pci := t.pci, out := t.out }))
  ∧ (∀ (k n : Nat) (s : State), k + 2 = s.tick → s.tim.lastTick ≠ none → s.worksOn 13 k = true → n < 64 → n < s.wrk.cores.length →
    s.wrkEn n = true → (s.core n).run = none → s.bit (WRK_Wn_STATUS n) 29 = 0 → s.rd64 (WRK_Wn_START_LO n) (WRK_Wn_START_HI n) ≤ k →
    (∀ r, (s.core n).ran = some r → r < k) →
    Takes (.blockDeadline 13 k) s (fun t =>
      t.core n = { s.core n with ran := some k }
      ∧ (∃ r ∈ t.wrk.sets, r.n = n ∧ r.tick = k ∧ r.words = List.replicate 32 0 ∧ rTickAbandoned ∈ r.rs)
      ∧ t.bit GLB_FAULT 13 = 1 ∧ t.kpr.badTick = true ∧ s.sameRegs t [GLB_FAULT, PCI_ERR]
      ∧ t = { s with regs := t.regs, wrk := { s.wrk with cores := t.wrk.cores, sets := t.wrk.sets }, untimed := t.untimed, kpr := t.kpr,
                     pci := t.pci, out := t.out }))
  ∧ (∀ (b k : Nat) (s : State), b ∉ [10, 12, 13, 15] ∨ (b ≠ 15 ∧ k + deadlineOf b ≠ s.tick) → Idle (.blockDeadline b k) s)
  ∧ (∀ s : State, s.bit (14 * 0x100000) 0 = 0 → s.enTick 14 < s.tick →
    Takes (.blockDisable 14) s (fun t => t = { s with trg := { s.trg with reps := [], evals := [], digs := [] } }))
  ∧ (∀ s : State, s.bit (8 * 0x100000) 0 = 0 → s.enTick 8 < s.tick →
    Takes (.blockDisable 8) s (fun t => t = { s with ctn := { s.ctn with annIn := [] } }))
  ∧ (∀ (a : Nat) (read : Bool) (s : State), (∃ r, rowOf (a % 2 ^ 26) = some r) →
    Takes (.domainAccessTimeout a read) s (fun t =>
      t.bit GLB_XD_ERR (s.domainBit (a % 2 ^ 26)) = 1 ∧ t.rd GLB_XD_CNT = (s.rd GLB_XD_CNT + 1) % 2 ^ 32
      ∧ t.rd GLB_XD_ADDR = (if s.bit GLB_XD_ADDR 31 = 1 then s.rd GLB_XD_ADDR else 2 ^ 31 + a % 2 ^ 26) ∧ t.bit GLB_ERR 2 = 1
      ∧ (read = true → t.out.head? = some (.readData a [0xFF, 0xFF, 0xFF, 0xFF] false))
      ∧ s.sameRegs t [GLB_XD_ERR, GLB_XD_CNT, GLB_XD_ADDR, GLB_ERR, PCI_ERR] ∧ t = { s with regs := t.regs, pci := t.pci, out := t.out }))

/-- R563: the report of the second before, 512 bytes with its CRC, is shown in KPR_HEALTHw and kept for the monitor, its sequence number one higher.
R508 to R511: a pass that met a write or a stopped domain is void; one that began with COMMIT_PENDING becomes the reference; any other is compared
with the reference. -/
def Obligations.HealthAndSealAreKept : Prop :=
  (∀ s : State, s.inControl = true → (s.timeValid = true → s.tick % 1000000 = 0 ∧ s.tick ≠ 0 ∧ s.reported = false) →
    (s.timeValid = false → s.kpr.repAt / 1000000 < s.tim.us / 1000000) →
    Takes .healthReport s (fun t =>
      t.mon = { s.mon with health := t.mon.health } ∧ t.mon.health.length = 512
      ∧ t.mon.health.drop 508 = toBE 4 (crc32c (t.mon.health.take 508)).toNat
      ∧ (∀ w, w < 128 → t.rd (KPR_HEALTHw w) = beAt t.mon.health (4 * w) 4)
      ∧ t.rd (KPR_HEALTHw 0) / 2 ^ 16 = 0xB713 ∧ t.rd KPR_HEALTH_SEQ = (s.rd KPR_HEALTH_SEQ + 1) % 2 ^ 32
      ∧ t.rd (KPR_HEALTHw 4) = t.rd KPR_HEALTH_SEQ
      ∧ s.sameRegs t (KPR_HEALTH_SEQ :: (List.range 128).map KPR_HEALTHw) ∧ t = { s with regs := t.regs, mon := t.mon, kpr := t.kpr }))
  ∧ (∀ s : State, s.bit GLB_SEAL_CFG 0 = 1 → s.inControl = true → s.pass.dirty = true ∨ s.sealStopped = true →
    Takes .sealPass s (fun t =>
      let run := min 255 (bitsOf (s.rd GLB_SEAL_STATUS) 7 0 + 1)
      t.rd GLB_SEAL_PASSES = (s.rd GLB_SEAL_PASSES + 1) % 2 ^ 32 ∧ t.rd GLB_SEAL_VOID = (s.rd GLB_SEAL_VOID + 1) % 2 ^ 32
      ∧ bitsOf (t.rd GLB_SEAL_STATUS) 7 0 = run ∧ (run = 16 → t.bit GLB_ERR 5 = 1) ∧ t.pass.dirty = false
      ∧ s.sameRegs t [GLB_SEAL_PASSES, GLB_SEAL_VOID, GLB_SEAL_STATUS, GLB_ERR, PCI_ERR]
      ∧ t = { s with regs := t.regs, pass := t.pass, pci := t.pci, out := t.out }))
  ∧ (∀ s : State, s.bit GLB_SEAL_CFG 0 = 1 → s.inControl = true → s.pass = ⟨false, true⟩ → s.sealStopped = false →
    Takes .sealPass s (fun t =>
      t.rd GLB_SEAL_REF = (s.count GLB_SEAL_PASSES 1).sealCrc ∧ t.rd GLB_SEAL_LAST = t.rd GLB_SEAL_REF
      ∧ t.bit GLB_SEAL_STATUS 31 = 1 ∧ t.bit GLB_SEAL_STATUS 30 = 0 ∧ t.bit GLB_SEAL_STATUS 29 = 0 ∧ t.pass = ⟨false, false⟩
      ∧ s.sameRegs t [GLB_SEAL_PASSES, GLB_SEAL_REF, GLB_SEAL_LAST, GLB_SEAL_STATUS] ∧ t = { s with regs := t.regs, pass := t.pass }))
  ∧ (∀ s : State, s.bit GLB_SEAL_CFG 0 = 1 → s.inControl = true → s.pass = ⟨false, false⟩ → s.sealStopped = false →
    s.bit GLB_SEAL_STATUS 31 = 1 → s.bit GLB_SEAL_STATUS 30 = 0 →
    Takes .sealPass s (fun t =>
      let crc := (s.count GLB_SEAL_PASSES 1).sealCrc
      t.rd GLB_SEAL_LAST = crc ∧ t.rd GLB_SEAL_REF = s.rd GLB_SEAL_REF
      ∧ t.bit GLB_SEAL_STATUS 29 = (if crc = s.rd GLB_SEAL_REF then 0 else 1)
      ∧ (crc ≠ s.rd GLB_SEAL_REF → t.rd GLB_SEAL_MISMATCH = (s.rd GLB_SEAL_MISMATCH + 1) % 2 ^ 32 ∧ t.bit GLB_ERR 6 = 1)
      ∧ (crc = s.rd GLB_SEAL_REF ∨ s.bit GLB_SEAL_STATUS 29 = 1 → t.cmd = s.cmd)
      ∧ (crc ≠ s.rd GLB_SEAL_REF → s.bit GLB_SEAL_STATUS 29 = 0 →
          ∃ e, t.cmd.audit = (if 8192 ≤ s.cmd.audit.length then s.cmd.audit.drop 1 else s.cmd.audit) ++ [e])
      ∧ t = { s with regs := t.regs, pass := t.pass, cmd := t.cmd, pci := t.pci, out := t.out }))
end

