-- ==== Sys2Proof/Laws/Bits.lean ====
section
/-!
SUPPORT. Bit fields: what a field reads as once it, or another field, has been set.
-/
namespace Sys2Proof

theorem setBits_split (n hi lo v : Nat) : setBits n hi lo v
    = n / 2 ^ (lo + (hi + 1 - lo)) * 2 ^ (lo + (hi + 1 - lo)) + (v % 2 ^ (hi + 1 - lo)) * 2 ^ lo + n % 2 ^ lo := by
  unfold setBits bitsOf
  generalize hi + 1 - lo = w
  have h1 : n = n / 2 ^ lo * 2 ^ lo + n % 2 ^ lo := by rw [Nat.mul_comm]; exact (Nat.div_add_mod _ _).symm
  have h2 : n / 2 ^ lo = n / 2 ^ (lo + w) * 2 ^ w + n / 2 ^ lo % 2 ^ w := by
    rw [Nat.pow_add, ← Nat.div_div_eq_div_mul, Nat.mul_comm]; exact (Nat.div_add_mod _ _).symm
  have h3 : n = n / 2 ^ (lo + w) * 2 ^ (lo + w) + n / 2 ^ lo % 2 ^ w * 2 ^ lo + n % 2 ^ lo := by
    have e : (n / 2 ^ (lo + w) * 2 ^ w + n / 2 ^ lo % 2 ^ w) * 2 ^ lo + n % 2 ^ lo = n := by rw [← h2]; exact h1.symm
    rw [Nat.add_mul, Nat.mul_assoc, ← Nat.pow_add, Nat.add_comm w lo] at e
    exact e.symm
  omega

/-- A field that has been set reads as the value put into it. -/
@[simp] theorem bitsOf_setBits (n hi lo v : Nat) : bitsOf (setBits n hi lo v) hi lo = v % 2 ^ (hi + 1 - lo) := by
  rw [setBits_split]
  unfold bitsOf
  generalize hi + 1 - lo = w
  have hl : n % 2 ^ lo < 2 ^ lo := Nat.mod_lt _ (Nat.two_pow_pos lo)
  have e : n / 2 ^ (lo + w) * 2 ^ (lo + w) + v % 2 ^ w * 2 ^ lo + n % 2 ^ lo
      = (n / 2 ^ (lo + w) * 2 ^ w + v % 2 ^ w) * 2 ^ lo + n % 2 ^ lo := by
    rw [Nat.add_mul, Nat.mul_assoc, ← Nat.pow_add, Nat.add_comm w lo]
  rw [e, Nat.mul_comm _ (2 ^ lo), Nat.mul_add_div (Nat.two_pow_pos lo), Nat.div_eq_of_lt hl, Nat.add_zero,
    Nat.mul_comm _ (2 ^ w), Nat.mul_add_mod, Nat.mod_mod]

theorem bitOf_eq_testBit (n i : Nat) : bitOf n i = (n.testBit i).toNat := by
  rw [Nat.toNat_testBit]; rfl

theorem testBit_setBits (n hi lo v j : Nat) :
    (setBits n hi lo v).testBit j = if lo ≤ j ∧ j < lo + (hi + 1 - lo) then v.testBit (j - lo) else n.testBit j := by
  rw [setBits_split]
  generalize hi + 1 - lo = w
  have hv : v % 2 ^ w < 2 ^ w := Nat.mod_lt _ (Nat.two_pow_pos w)
  have hl : n % 2 ^ lo < 2 ^ lo := Nat.mod_lt _ (Nat.two_pow_pos lo)
  have e : n / 2 ^ (lo + w) * 2 ^ (lo + w) + v % 2 ^ w * 2 ^ lo + n % 2 ^ lo
      = 2 ^ lo * (2 ^ w * (n / 2 ^ (lo + w)) + v % 2 ^ w) + n % 2 ^ lo := by
    rw [Nat.pow_add]; ring
  rw [e, Nat.testBit_two_pow_mul_add _ hl]
  split
  · rename_i hj
    rw [if_neg (by omega), Nat.testBit_mod_two_pow]
    simp [hj]
  · rename_i hj
    rw [Nat.testBit_two_pow_mul_add _ hv]
    split
    · rename_i hw
      rw [if_pos (by omega), Nat.testBit_mod_two_pow]
      simp [hw]
    · rename_i hw
      rw [if_neg (by omega)]
      rw [Nat.testBit_div_two_pow]
      congr 1
      omega

/-- Bits outside a field that is set keep their values. -/
theorem bitOf_setBits_ne (n hi lo v j : Nat) (h : j < lo ∨ hi < j) : bitOf (setBits n hi lo v) j = bitOf n j := by
  rw [bitOf_eq_testBit, bitOf_eq_testBit, testBit_setBits, if_neg]
  omega

@[simp] theorem bitOf_setBits_one (n i v : Nat) : bitOf (setBits n i i v) i = v % 2 := by
  have := bitsOf_setBits n i i v
  simpa [bitsOf, bitOf] using this

/-- A field disjoint from one that is set keeps its value. -/
theorem bitsOf_setBits_ne (n hi lo v h l : Nat) (d : h < lo ∨ hi < l) : bitsOf (setBits n hi lo v) h l = bitsOf n h l := by
  apply Nat.eq_of_testBit_eq
  intro j
  simp only [bitsOf, Nat.testBit_mod_two_pow, Nat.testBit_div_two_pow, testBit_setBits]
  by_cases hj : j < h + 1 - l
  · rw [if_neg (by omega)]
  · simp [hj]

theorem setBits_lt (n hi lo v : Nat) (hn : n < 2 ^ 32) (hh : hi < 32) : setBits n hi lo v < 2 ^ 32 := by
  apply Nat.lt_pow_two_of_testBit
  intro j hj
  rw [testBit_setBits]
  split
  · omega
  · exact Nat.testBit_lt_two_pow (Nat.lt_of_lt_of_le hn (Nat.pow_le_pow_right (by omega) hj))

theorem bitsOf_lt (n hi lo : Nat) : bitsOf n hi lo < 2 ^ (hi + 1 - lo) := Nat.mod_lt _ (Nat.two_pow_pos _)
theorem bitOf_lt (n i : Nat) : bitOf n i < 2 := Nat.mod_lt _ (by decide)
theorem bitOf_cases (n i : Nat) : bitOf n i = 0 ∨ bitOf n i = 1 := by have := bitOf_lt n i; omega

end Sys2Proof
end

