-- ==== Sys2Proof/Laws/Sparse.lean ====
section
/-!
SUPPORT. The sparse stores: what is read back after a write, and that every operation keeps the canonical form.
-/
namespace Sys2Proof.Machine

variable {α : Type}

@[simp] theorem spGet_spPut_same (d : Nat → α) (m : List (Nat × α)) (k : Nat) (v : α) : spGet d (spPut m k v) k = v := by
  induction m with
  | nil => simp [spPut, spGet]
  | cons e t ih =>
    obtain ⟨a, w⟩ := e
    simp only [spPut]
    split
    · simp [spGet]
    · split
      · simp [spGet]
      · simp only [spGet]
        split
        · omega
        · exact ih

theorem spGet_spPut_ne (d : Nat → α) (m : List (Nat × α)) {k j : Nat} (v : α) (h : j ≠ k) :
    spGet d (spPut m k v) j = spGet d m j := by
  induction m with
  | nil => simp [spPut, spGet, Ne.symm h]
  | cons e t ih =>
    obtain ⟨a, w⟩ := e
    simp only [spPut]
    split
    · simp [spGet, Ne.symm h]
    · split
      · rename_i _ hk
        subst hk
        simp [spGet, Ne.symm h]
      · simp only [spGet, ih]

@[simp] theorem spGet_spDel_same (d : Nat → α) (m : List (Nat × α)) (k : Nat) : spGet d (spDel m k) k = d k := by
  induction m with
  | nil => rfl
  | cons e t ih =>
    obtain ⟨a, w⟩ := e
    simp only [spDel]
    split
    · exact ih
    · simp [spGet, *]

theorem spGet_spDel_ne (d : Nat → α) (m : List (Nat × α)) {k j : Nat} (h : j ≠ k) : spGet d (spDel m k) j = spGet d m j := by
  induction m with
  | nil => rfl
  | cons e t ih =>
    obtain ⟨a, w⟩ := e
    simp only [spDel]
    split
    · rename_i hk
      subst hk
      simp [spGet, Ne.symm h, ih]
    · simp only [spGet, ih]

section
variable [DecidableEq α]

/-- A read after a write to the same address gives the value written. -/
@[simp] theorem spGet_spSet_same (d : Nat → α) (m : List (Nat × α)) (k : Nat) (v : α) : spGet d (spSet d m k v) k = v := by
  unfold spSet
  split
  · rw [spGet_spDel_same]; exact Eq.symm ‹_›
  · exact spGet_spPut_same d m k v

/-- A write leaves every other address alone. -/
theorem spGet_spSet_ne (d : Nat → α) (m : List (Nat × α)) {k j : Nat} (v : α) (h : j ≠ k) :
    spGet d (spSet d m k v) j = spGet d m j := by
  unfold spSet
  split
  · exact spGet_spDel_ne d m h
  · exact spGet_spPut_ne d m v h

theorem spWfFrom_mono (d : Nat → α) {lo hi : Nat} (m : List (Nat × α)) (h : lo ≤ hi) (w : spWfFrom d hi m = true) :
    spWfFrom d lo m = true := by
  cases m with
  | nil => rfl
  | cons e t =>
    simp only [spWfFrom, Bool.and_eq_true, decide_eq_true_eq] at w ⊢
    exact ⟨⟨Nat.le_trans h w.1.1, w.1.2⟩, w.2⟩

theorem spWfFrom_spDel (d : Nat → α) (m : List (Nat × α)) (k lo : Nat) (w : spWfFrom d lo m = true) :
    spWfFrom d lo (spDel m k) = true := by
  induction m generalizing lo with
  | nil => rfl
  | cons e t ih =>
    obtain ⟨a, v⟩ := e
    simp only [spWfFrom, Bool.and_eq_true, decide_eq_true_eq] at w
    simp only [spDel]
    split
    · exact ih lo (spWfFrom_mono d t (by omega) w.2)
    · simp only [spWfFrom, Bool.and_eq_true, decide_eq_true_eq]
      exact ⟨w.1, ih _ w.2⟩

theorem spWfFrom_spPut (d : Nat → α) (m : List (Nat × α)) (k lo : Nat) (v : α) (hv : v ≠ d k) (hk : lo ≤ k)
    (w : spWfFrom d lo m = true) : spWfFrom d lo (spPut m k v) = true := by
  induction m generalizing lo with
  | nil => simp [spPut, spWfFrom, hv, hk]
  | cons e t ih =>
    obtain ⟨a, u⟩ := e
    simp only [spWfFrom, Bool.and_eq_true, decide_eq_true_eq] at w
    simp only [spPut]
    split
    · simp only [spWfFrom, Bool.and_eq_true, decide_eq_true_eq]
      exact ⟨⟨hk, by simp [hv]⟩, ⟨⟨by omega, w.1.2⟩, w.2⟩⟩
    · split
      · rename_i _ e
        subst e
        simp only [spWfFrom, Bool.and_eq_true, decide_eq_true_eq]
        exact ⟨⟨hk, by simp [hv]⟩, w.2⟩
      · simp only [spWfFrom, Bool.and_eq_true, decide_eq_true_eq]
        exact ⟨w.1, ih _ (by omega) w.2⟩

/-- A write keeps the canonical form. -/
theorem spWf_spSet (d : Nat → α) (m : List (Nat × α)) (k : Nat) (v : α) (w : spWf d m = true) : spWf d (spSet d m k v) = true := by
  unfold spSet
  split
  · exact spWfFrom_spDel d m k 0 w
  · exact spWfFrom_spPut d m k 0 v ‹_› (Nat.zero_le k) w

theorem spWf_spSetAll (d : Nat → α) (vs : List α) (m : List (Nat × α)) (k : Nat) (w : spWf d m = true) :
    spWf d (spSetAll d m k vs) = true := by
  induction vs generalizing m k with
  | nil => exact w
  | cons v t ih => exact ih _ _ (spWf_spSet d m k v w)

/-- A list without some of its entries stays canonical. -/
theorem spWfFrom_filter (d : Nat → α) (p : Nat × α → Bool) (m : List (Nat × α)) (lo : Nat) (w : spWfFrom d lo m = true) :
    spWfFrom d lo (m.filter p) = true := by
  induction m generalizing lo with
  | nil => rfl
  | cons e t ih =>
    simp only [spWfFrom, Bool.and_eq_true, decide_eq_true_eq] at w
    simp only [List.filter]
    split
    · simp only [spWfFrom, Bool.and_eq_true, decide_eq_true_eq]
      exact ⟨w.1, ih _ w.2⟩
    · exact spWfFrom_mono d _ (by omega) (ih _ w.2)

end

end Sys2Proof.Machine
end

