-- ==== Sys2Proof/Laws/State.lean ====
section
/-!
SUPPORT. The register file and the other fields under the shared operations: what each operation changes, and that it changes nothing else.
-/
namespace Sys2Proof.Machine

/-! ### Registers -/

theorem State.rd_lt (s : State) (a : Nat) : s.rd a < 2 ^ 32 := (spGet resetVal s.regs a).isLt

@[simp] theorem State.rd_wr_same (s : State) (a v : Nat) : (s.wr a v).rd a = v % 2 ^ 32 := by
  simp [State.rd, State.wr]

theorem State.rd_wr_ne (s : State) {a b : Nat} (v : Nat) (h : b ≠ a) : (s.wr a v).rd b = s.rd b := by
  simp only [State.rd, State.wr]
  rw [spGet_spSet_ne _ _ _ h]

@[simp] theorem State.rd_setBit_same (s : State) (a i : Nat) (b : Bool) (h : i < 32) :
    (s.setBit a i b).rd a = setBits (s.rd a) i i (if b then 1 else 0) := by
  simp only [State.setBit, State.rd_wr_same]
  exact Nat.mod_eq_of_lt (setBits_lt _ _ _ _ (s.rd_lt a) h)

@[simp] theorem State.rd_setFd_same (s : State) (a : Nat) (f : Fld) (v : Nat) (h : f.hi < 32) :
    (s.setFd a f v).rd a = setBits (s.rd a) f.hi f.lo v := by
  simp only [State.setFd, State.rd_wr_same]
  exact Nat.mod_eq_of_lt (setBits_lt _ _ _ _ (s.rd_lt a) h)

@[simp] theorem State.rd_count_same (s : State) (a n : Nat) : (s.count a n).rd a = (s.rd a + n) % 2 ^ 32 := State.rd_wr_same _ _ _

theorem State.rd_setBit_ne (s : State) {a b : Nat} (i : Nat) (v : Bool) (h : b ≠ a) : (s.setBit a i v).rd b = s.rd b := s.rd_wr_ne _ h
theorem State.rd_setFd_ne (s : State) {a b : Nat} (f : Fld) (v : Nat) (h : b ≠ a) : (s.setFd a f v).rd b = s.rd b := s.rd_wr_ne _ h
theorem State.rd_count_ne (s : State) {a b : Nat} (n : Nat) (h : b ≠ a) : (s.count a n).rd b = s.rd b := s.rd_wr_ne _ h

theorem State.rd_wr64_ne (s : State) {lo hi b : Nat} (v : Nat) (h : b ≠ lo) (g : b ≠ hi) : (s.wr64 lo hi v).rd b = s.rd b := by
  rw [State.wr64, State.rd_wr_ne _ _ g, State.rd_wr_ne _ _ h]

/-- A 64-bit value written to a register pair is read back. -/
theorem State.rd64_wr64 (s : State) {lo hi : Nat} (v : Nat) (h : lo ≠ hi) : (s.wr64 lo hi v).rd64 lo hi = v % 2 ^ 64 := by
  rw [State.rd64, State.wr64, State.rd_wr_ne _ _ h, State.rd_wr_same, State.rd_wr_same]
  omega

@[simp] theorem State.bit_setBit_same (s : State) (a i : Nat) (b : Bool) (h : i < 32) : (s.setBit a i b).bit a i = if b then 1 else 0 := by
  rw [State.bit, State.rd_setBit_same _ _ _ _ h, bitOf_setBits_one]
  split <;> rfl

/-- Setting a bit leaves the other bits of the register alone. -/
theorem State.bit_setBit_ne (s : State) (a : Nat) {i j : Nat} (b : Bool) (h : i < 32) (n : j ≠ i) : (s.setBit a i b).bit a j = s.bit a j := by
  rw [State.bit, State.rd_setBit_same _ _ _ _ h, bitOf_setBits_ne _ _ _ _ _ (by omega)]; rfl

@[simp] theorem State.fd_setFd_same (s : State) (a : Nat) (f : Fld) (v : Nat) (h : f.hi < 32) :
    (s.setFd a f v).fd a f = v % 2 ^ (f.hi + 1 - f.lo) := by
  rw [State.fd, State.rd_setFd_same _ _ _ _ h, bitsOf_setBits]

/-! ### What the register operations leave alone -/

@[simp] theorem State.wr_tim (s : State) (a v : Nat) : (s.wr a v).tim = s.tim := rfl
@[simp] theorem State.wr_clk (s : State) (a v : Nat) : (s.wr a v).clk = s.clk := rfl
@[simp] theorem State.wr_nec (s : State) (a v : Nat) : (s.wr a v).nec = s.nec := rfl
@[simp] theorem State.wr_ing (s : State) (a v : Nat) : (s.wr a v).ing = s.ing := rfl
@[simp] theorem State.wr_chn (s : State) (a v : Nat) : (s.wr a v).chn = s.chn := rfl
@[simp] theorem State.wr_eth (s : State) (a v : Nat) : (s.wr a v).eth = s.eth := rfl
@[simp] theorem State.wr_ctn (s : State) (a v : Nat) : (s.wr a v).ctn = s.ctn := rfl
@[simp] theorem State.wr_cmb (s : State) (a v : Nat) : (s.wr a v).cmb = s.cmb := rfl
@[simp] theorem State.wr_grants (s : State) (a v : Nat) : (s.wr a v).grants = s.grants := rfl
@[simp] theorem State.wr_sup (s : State) (a v : Nat) : (s.wr a v).sup = s.sup := rfl
@[simp] theorem State.wr_wag (s : State) (a v : Nat) : (s.wr a v).wag = s.wag := rfl
@[simp] theorem State.wr_wrk (s : State) (a v : Nat) : (s.wr a v).wrk = s.wrk := rfl
@[simp] theorem State.wr_trg (s : State) (a v : Nat) : (s.wr a v).trg = s.trg := rfl
@[simp] theorem State.wr_acq (s : State) (a v : Nat) : (s.wr a v).acq = s.acq := rfl
@[simp] theorem State.wr_ddr (s : State) (a v : Nat) : (s.wr a v).ddr = s.ddr := rfl
@[simp] theorem State.wr_units (s : State) (a v : Nat) : (s.wr a v).units = s.units := rfl
@[simp] theorem State.wr_pci (s : State) (a v : Nat) : (s.wr a v).pci = s.pci := rfl
@[simp] theorem State.wr_fdm (s : State) (a v : Nat) : (s.wr a v).fdm = s.fdm := rfl
@[simp] theorem State.wr_kpr (s : State) (a v : Nat) : (s.wr a v).kpr = s.kpr := rfl
@[simp] theorem State.wr_pass (s : State) (a v : Nat) : (s.wr a v).pass = s.pass := rfl
@[simp] theorem State.wr_cmd (s : State) (a v : Nat) : (s.wr a v).cmd = s.cmd := rfl
@[simp] theorem State.wr_pwr (s : State) (a v : Nat) : (s.wr a v).pwr = s.pwr := rfl
@[simp] theorem State.wr_mon (s : State) (a v : Nat) : (s.wr a v).mon = s.mon := rfl
@[simp] theorem State.wr_untimed (s : State) (a v : Nat) : (s.wr a v).untimed = s.untimed := rfl
@[simp] theorem State.wr_degraded (s : State) (a v : Nat) : (s.wr a v).degraded = s.degraded := rfl
@[simp] theorem State.wr_enAt (s : State) (a v : Nat) : (s.wr a v).enAt = s.enAt := rfl
@[simp] theorem State.wr_out (s : State) (a v : Nat) : (s.wr a v).out = s.out := rfl
@[simp] theorem State.wr_freeCtr (s : State) (a v : Nat) : (s.wr a v).freeCtr = s.freeCtr := rfl
@[simp] theorem State.wr_pending (s : State) (a v : Nat) : (s.wr a v).pending = s.pending := rfl

@[simp] theorem State.setBit_tim (s : State) (a i : Nat) (b : Bool) : (s.setBit a i b).tim = s.tim := rfl
@[simp] theorem State.setBit_clk (s : State) (a i : Nat) (b : Bool) : (s.setBit a i b).clk = s.clk := rfl
@[simp] theorem State.setBit_nec (s : State) (a i : Nat) (b : Bool) : (s.setBit a i b).nec = s.nec := rfl
@[simp] theorem State.setBit_ing (s : State) (a i : Nat) (b : Bool) : (s.setBit a i b).ing = s.ing := rfl
@[simp] theorem State.setBit_chn (s : State) (a i : Nat) (b : Bool) : (s.setBit a i b).chn = s.chn := rfl
@[simp] theorem State.setBit_eth (s : State) (a i : Nat) (b : Bool) : (s.setBit a i b).eth = s.eth := rfl
@[simp] theorem State.setBit_ctn (s : State) (a i : Nat) (b : Bool) : (s.setBit a i b).ctn = s.ctn := rfl
@[simp] theorem State.setBit_cmb (s : State) (a i : Nat) (b : Bool) : (s.setBit a i b).cmb = s.cmb := rfl
@[simp] theorem State.setBit_grants (s : State) (a i : Nat) (b : Bool) : (s.setBit a i b).grants = s.grants := rfl
@[simp] theorem State.setBit_sup (s : State) (a i : Nat) (b : Bool) : (s.setBit a i b).sup = s.sup := rfl
@[simp] theorem State.setBit_wag (s : State) (a i : Nat) (b : Bool) : (s.setBit a i b).wag = s.wag := rfl
@[simp] theorem State.setBit_wrk (s : State) (a i : Nat) (b : Bool) : (s.setBit a i b).wrk = s.wrk := rfl
@[simp] theorem State.setBit_trg (s : State) (a i : Nat) (b : Bool) : (s.setBit a i b).trg = s.trg := rfl
@[simp] theorem State.setBit_acq (s : State) (a i : Nat) (b : Bool) : (s.setBit a i b).acq = s.acq := rfl
@[simp] theorem State.setBit_ddr (s : State) (a i : Nat) (b : Bool) : (s.setBit a i b).ddr = s.ddr := rfl
@[simp] theorem State.setBit_units (s : State) (a i : Nat) (b : Bool) : (s.setBit a i b).units = s.units := rfl
@[simp] theorem State.setBit_pci (s : State) (a i : Nat) (b : Bool) : (s.setBit a i b).pci = s.pci := rfl
@[simp] theorem State.setBit_fdm (s : State) (a i : Nat) (b : Bool) : (s.setBit a i b).fdm = s.fdm := rfl
@[simp] theorem State.setBit_kpr (s : State) (a i : Nat) (b : Bool) : (s.setBit a i b).kpr = s.kpr := rfl
@[simp] theorem State.setBit_pass (s : State) (a i : Nat) (b : Bool) : (s.setBit a i b).pass = s.pass := rfl
@[simp] theorem State.setBit_cmd (s : State) (a i : Nat) (b : Bool) : (s.setBit a i b).cmd = s.cmd := rfl
@[simp] theorem State.setBit_pwr (s : State) (a i : Nat) (b : Bool) : (s.setBit a i b).pwr = s.pwr := rfl
@[simp] theorem State.setBit_mon (s : State) (a i : Nat) (b : Bool) : (s.setBit a i b).mon = s.mon := rfl
@[simp] theorem State.setBit_untimed (s : State) (a i : Nat) (b : Bool) : (s.setBit a i b).untimed = s.untimed := rfl
@[simp] theorem State.setBit_degraded (s : State) (a i : Nat) (b : Bool) : (s.setBit a i b).degraded = s.degraded := rfl
@[simp] theorem State.setBit_enAt (s : State) (a i : Nat) (b : Bool) : (s.setBit a i b).enAt = s.enAt := rfl
@[simp] theorem State.setBit_out (s : State) (a i : Nat) (b : Bool) : (s.setBit a i b).out = s.out := rfl
@[simp] theorem State.setBit_freeCtr (s : State) (a i : Nat) (b : Bool) : (s.setBit a i b).freeCtr = s.freeCtr := rfl
@[simp] theorem State.setBit_pending (s : State) (a i : Nat) (b : Bool) : (s.setBit a i b).pending = s.pending := rfl

@[simp] theorem State.setFd_tim (s : State) (a : Nat) (f : Fld) (v : Nat) : (s.setFd a f v).tim = s.tim := rfl
@[simp] theorem State.setFd_clk (s : State) (a : Nat) (f : Fld) (v : Nat) : (s.setFd a f v).clk = s.clk := rfl
@[simp] theorem State.setFd_nec (s : State) (a : Nat) (f : Fld) (v : Nat) : (s.setFd a f v).nec = s.nec := rfl
@[simp] theorem State.setFd_ing (s : State) (a : Nat) (f : Fld) (v : Nat) : (s.setFd a f v).ing = s.ing := rfl
@[simp] theorem State.setFd_chn (s : State) (a : Nat) (f : Fld) (v : Nat) : (s.setFd a f v).chn = s.chn := rfl
@[simp] theorem State.setFd_eth (s : State) (a : Nat) (f : Fld) (v : Nat) : (s.setFd a f v).eth = s.eth := rfl
@[simp] theorem State.setFd_ctn (s : State) (a : Nat) (f : Fld) (v : Nat) : (s.setFd a f v).ctn = s.ctn := rfl
@[simp] theorem State.setFd_cmb (s : State) (a : Nat) (f : Fld) (v : Nat) : (s.setFd a f v).cmb = s.cmb := rfl
@[simp] theorem State.setFd_grants (s : State) (a : Nat) (f : Fld) (v : Nat) : (s.setFd a f v).grants = s.grants := rfl
@[simp] theorem State.setFd_sup (s : State) (a : Nat) (f : Fld) (v : Nat) : (s.setFd a f v).sup = s.sup := rfl
@[simp] theorem State.setFd_wag (s : State) (a : Nat) (f : Fld) (v : Nat) : (s.setFd a f v).wag = s.wag := rfl
@[simp] theorem State.setFd_wrk (s : State) (a : Nat) (f : Fld) (v : Nat) : (s.setFd a f v).wrk = s.wrk := rfl
@[simp] theorem State.setFd_trg (s : State) (a : Nat) (f : Fld) (v : Nat) : (s.setFd a f v).trg = s.trg := rfl
@[simp] theorem State.setFd_acq (s : State) (a : Nat) (f : Fld) (v : Nat) : (s.setFd a f v).acq = s.acq := rfl
@[simp] theorem State.setFd_ddr (s : State) (a : Nat) (f : Fld) (v : Nat) : (s.setFd a f v).ddr = s.ddr := rfl
@[simp] theorem State.setFd_units (s : State) (a : Nat) (f : Fld) (v : Nat) : (s.setFd a f v).units = s.units := rfl
@[simp] theorem State.setFd_pci (s : State) (a : Nat) (f : Fld) (v : Nat) : (s.setFd a f v).pci = s.pci := rfl
@[simp] theorem State.setFd_fdm (s : State) (a : Nat) (f : Fld) (v : Nat) : (s.setFd a f v).fdm = s.fdm := rfl
@[simp] theorem State.setFd_kpr (s : State) (a : Nat) (f : Fld) (v : Nat) : (s.setFd a f v).kpr = s.kpr := rfl
@[simp] theorem State.setFd_pass (s : State) (a : Nat) (f : Fld) (v : Nat) : (s.setFd a f v).pass = s.pass := rfl
@[simp] theorem State.setFd_cmd (s : State) (a : Nat) (f : Fld) (v : Nat) : (s.setFd a f v).cmd = s.cmd := rfl
@[simp] theorem State.setFd_pwr (s : State) (a : Nat) (f : Fld) (v : Nat) : (s.setFd a f v).pwr = s.pwr := rfl
@[simp] theorem State.setFd_mon (s : State) (a : Nat) (f : Fld) (v : Nat) : (s.setFd a f v).mon = s.mon := rfl
@[simp] theorem State.setFd_untimed (s : State) (a : Nat) (f : Fld) (v : Nat) : (s.setFd a f v).untimed = s.untimed := rfl
@[simp] theorem State.setFd_degraded (s : State) (a : Nat) (f : Fld) (v : Nat) : (s.setFd a f v).degraded = s.degraded := rfl
@[simp] theorem State.setFd_enAt (s : State) (a : Nat) (f : Fld) (v : Nat) : (s.setFd a f v).enAt = s.enAt := rfl
@[simp] theorem State.setFd_out (s : State) (a : Nat) (f : Fld) (v : Nat) : (s.setFd a f v).out = s.out := rfl
@[simp] theorem State.setFd_freeCtr (s : State) (a : Nat) (f : Fld) (v : Nat) : (s.setFd a f v).freeCtr = s.freeCtr := rfl
@[simp] theorem State.setFd_pending (s : State) (a : Nat) (f : Fld) (v : Nat) : (s.setFd a f v).pending = s.pending := rfl

@[simp] theorem State.count_tim (s : State) (a n : Nat) : (s.count a n).tim = s.tim := rfl
@[simp] theorem State.count_clk (s : State) (a n : Nat) : (s.count a n).clk = s.clk := rfl
@[simp] theorem State.count_nec (s : State) (a n : Nat) : (s.count a n).nec = s.nec := rfl
@[simp] theorem State.count_ing (s : State) (a n : Nat) : (s.count a n).ing = s.ing := rfl
@[simp] theorem State.count_chn (s : State) (a n : Nat) : (s.count a n).chn = s.chn := rfl
@[simp] theorem State.count_eth (s : State) (a n : Nat) : (s.count a n).eth = s.eth := rfl
@[simp] theorem State.count_ctn (s : State) (a n : Nat) : (s.count a n).ctn = s.ctn := rfl
@[simp] theorem State.count_cmb (s : State) (a n : Nat) : (s.count a n).cmb = s.cmb := rfl
@[simp] theorem State.count_grants (s : State) (a n : Nat) : (s.count a n).grants = s.grants := rfl
@[simp] theorem State.count_sup (s : State) (a n : Nat) : (s.count a n).sup = s.sup := rfl
@[simp] theorem State.count_wag (s : State) (a n : Nat) : (s.count a n).wag = s.wag := rfl
@[simp] theorem State.count_wrk (s : State) (a n : Nat) : (s.count a n).wrk = s.wrk := rfl
@[simp] theorem State.count_trg (s : State) (a n : Nat) : (s.count a n).trg = s.trg := rfl
@[simp] theorem State.count_acq (s : State) (a n : Nat) : (s.count a n).acq = s.acq := rfl
@[simp] theorem State.count_ddr (s : State) (a n : Nat) : (s.count a n).ddr = s.ddr := rfl
@[simp] theorem State.count_units (s : State) (a n : Nat) : (s.count a n).units = s.units := rfl
@[simp] theorem State.count_pci (s : State) (a n : Nat) : (s.count a n).pci = s.pci := rfl
@[simp] theorem State.count_fdm (s : State) (a n : Nat) : (s.count a n).fdm = s.fdm := rfl
@[simp] theorem State.count_kpr (s : State) (a n : Nat) : (s.count a n).kpr = s.kpr := rfl
@[simp] theorem State.count_pass (s : State) (a n : Nat) : (s.count a n).pass = s.pass := rfl
@[simp] theorem State.count_cmd (s : State) (a n : Nat) : (s.count a n).cmd = s.cmd := rfl
@[simp] theorem State.count_pwr (s : State) (a n : Nat) : (s.count a n).pwr = s.pwr := rfl
@[simp] theorem State.count_mon (s : State) (a n : Nat) : (s.count a n).mon = s.mon := rfl
@[simp] theorem State.count_untimed (s : State) (a n : Nat) : (s.count a n).untimed = s.untimed := rfl
@[simp] theorem State.count_degraded (s : State) (a n : Nat) : (s.count a n).degraded = s.degraded := rfl
@[simp] theorem State.count_enAt (s : State) (a n : Nat) : (s.count a n).enAt = s.enAt := rfl
@[simp] theorem State.count_out (s : State) (a n : Nat) : (s.count a n).out = s.out := rfl
@[simp] theorem State.count_freeCtr (s : State) (a n : Nat) : (s.count a n).freeCtr = s.freeCtr := rfl
@[simp] theorem State.count_pending (s : State) (a n : Nat) : (s.count a n).pending = s.pending := rfl

@[simp] theorem State.wr64_tim (s : State) (lo hi v : Nat) : (s.wr64 lo hi v).tim = s.tim := rfl
@[simp] theorem State.wr64_clk (s : State) (lo hi v : Nat) : (s.wr64 lo hi v).clk = s.clk := rfl
@[simp] theorem State.wr64_nec (s : State) (lo hi v : Nat) : (s.wr64 lo hi v).nec = s.nec := rfl
@[simp] theorem State.wr64_ing (s : State) (lo hi v : Nat) : (s.wr64 lo hi v).ing = s.ing := rfl
@[simp] theorem State.wr64_chn (s : State) (lo hi v : Nat) : (s.wr64 lo hi v).chn = s.chn := rfl
@[simp] theorem State.wr64_eth (s : State) (lo hi v : Nat) : (s.wr64 lo hi v).eth = s.eth := rfl
@[simp] theorem State.wr64_ctn (s : State) (lo hi v : Nat) : (s.wr64 lo hi v).ctn = s.ctn := rfl
@[simp] theorem State.wr64_cmb (s : State) (lo hi v : Nat) : (s.wr64 lo hi v).cmb = s.cmb := rfl
@[simp] theorem State.wr64_grants (s : State) (lo hi v : Nat) : (s.wr64 lo hi v).grants = s.grants := rfl
@[simp] theorem State.wr64_sup (s : State) (lo hi v : Nat) : (s.wr64 lo hi v).sup = s.sup := rfl
@[simp] theorem State.wr64_wag (s : State) (lo hi v : Nat) : (s.wr64 lo hi v).wag = s.wag := rfl
@[simp] theorem State.wr64_wrk (s : State) (lo hi v : Nat) : (s.wr64 lo hi v).wrk = s.wrk := rfl
@[simp] theorem State.wr64_trg (s : State) (lo hi v : Nat) : (s.wr64 lo hi v).trg = s.trg := rfl
@[simp] theorem State.wr64_acq (s : State) (lo hi v : Nat) : (s.wr64 lo hi v).acq = s.acq := rfl
@[simp] theorem State.wr64_ddr (s : State) (lo hi v : Nat) : (s.wr64 lo hi v).ddr = s.ddr := rfl
@[simp] theorem State.wr64_units (s : State) (lo hi v : Nat) : (s.wr64 lo hi v).units = s.units := rfl
@[simp] theorem State.wr64_pci (s : State) (lo hi v : Nat) : (s.wr64 lo hi v).pci = s.pci := rfl
@[simp] theorem State.wr64_fdm (s : State) (lo hi v : Nat) : (s.wr64 lo hi v).fdm = s.fdm := rfl
@[simp] theorem State.wr64_kpr (s : State) (lo hi v : Nat) : (s.wr64 lo hi v).kpr = s.kpr := rfl
@[simp] theorem State.wr64_pass (s : State) (lo hi v : Nat) : (s.wr64 lo hi v).pass = s.pass := rfl
@[simp] theorem State.wr64_cmd (s : State) (lo hi v : Nat) : (s.wr64 lo hi v).cmd = s.cmd := rfl
@[simp] theorem State.wr64_pwr (s : State) (lo hi v : Nat) : (s.wr64 lo hi v).pwr = s.pwr := rfl
@[simp] theorem State.wr64_mon (s : State) (lo hi v : Nat) : (s.wr64 lo hi v).mon = s.mon := rfl
@[simp] theorem State.wr64_untimed (s : State) (lo hi v : Nat) : (s.wr64 lo hi v).untimed = s.untimed := rfl
@[simp] theorem State.wr64_degraded (s : State) (lo hi v : Nat) : (s.wr64 lo hi v).degraded = s.degraded := rfl
@[simp] theorem State.wr64_enAt (s : State) (lo hi v : Nat) : (s.wr64 lo hi v).enAt = s.enAt := rfl
@[simp] theorem State.wr64_out (s : State) (lo hi v : Nat) : (s.wr64 lo hi v).out = s.out := rfl
@[simp] theorem State.wr64_freeCtr (s : State) (lo hi v : Nat) : (s.wr64 lo hi v).freeCtr = s.freeCtr := rfl
@[simp] theorem State.wr64_pending (s : State) (lo hi v : Nat) : (s.wr64 lo hi v).pending = s.pending := rfl

/-! ### Messages and flags (R464, R504, R505) -/

/-- A message changes at most the register PCI_ERR, the pending bits, and what has left the part. -/
theorem State.sendVec_eq (s : State) (v : Nat) :
    s.sendVec v = { s with regs := (s.sendVec v).regs, pci := (s.sendVec v).pci, out := (s.sendVec v).out } := by
  unfold State.sendVec
  split
  · rfl
  · split <;> rfl

theorem State.rd_sendVec_ne (s : State) (v : Nat) {a : Nat} (h : a ≠ PCI_ERR) : (s.sendVec v).rd a = s.rd a := by
  unfold State.sendVec
  split
  · rfl
  · split
    · exact State.rd_setBit_ne _ _ _ h
    · rfl

theorem State.noteRise_eq (s0 s : State) (b : Nat) :
    State.noteRise s0 s b = { s with regs := (State.noteRise s0 s b).regs, pci := (State.noteRise s0 s b).pci, out := (State.noteRise s0 s b).out } := by
  unfold State.noteRise
  split
  · exact State.sendVec_eq _ _
  · rfl

theorem State.rd_noteRise_ne (s0 s : State) (b : Nat) {a : Nat} (h : a ≠ PCI_ERR) : (State.noteRise s0 s b).rd a = s.rd a := by
  unfold State.noteRise
  split
  · exact State.rd_sendVec_ne _ _ h
  · rfl

/-- Setting a flag changes at most its register, PCI_ERR, the pending bits, and what has left the part. -/
theorem State.flag_eq (s : State) (a i : Nat) :
    s.flag a i = { s with regs := (s.flag a i).regs, pci := (s.flag a i).pci, out := (s.flag a i).out } := by
  unfold State.flag
  rw [State.noteRise_eq]
  rfl

theorem State.rd_flag_ne (s : State) {a b : Nat} (i : Nat) (h : b ≠ a) (g : b ≠ PCI_ERR) : (s.flag a i).rd b = s.rd b := by
  rw [State.flag, State.rd_noteRise_ne _ _ _ g, State.rd_setBit_ne _ _ _ h]

/-- The flag is set, the other bits of its register are as they were. -/
theorem State.rd_flag_same (s : State) {a : Nat} (i : Nat) (h : i < 32) (g : a ≠ PCI_ERR) :
    (s.flag a i).rd a = setBits (s.rd a) i i 1 := by
  rw [State.flag, State.rd_noteRise_ne _ _ _ g, State.rd_setBit_same _ _ _ _ h]
  simp

theorem State.bit_flag_same (s : State) {a : Nat} (i : Nat) (h : i < 32) (g : a ≠ PCI_ERR) : (s.flag a i).bit a i = 1 := by
  rw [State.bit, State.rd_flag_same s i h g, bitOf_setBits_one]


@[simp] theorem State.flag_tim (s : State) (a i : Nat) : (s.flag a i).tim = s.tim := by rw [State.flag_eq]
@[simp] theorem State.flag_clk (s : State) (a i : Nat) : (s.flag a i).clk = s.clk := by rw [State.flag_eq]
@[simp] theorem State.flag_nec (s : State) (a i : Nat) : (s.flag a i).nec = s.nec := by rw [State.flag_eq]
@[simp] theorem State.flag_ing (s : State) (a i : Nat) : (s.flag a i).ing = s.ing := by rw [State.flag_eq]
@[simp] theorem State.flag_chn (s : State) (a i : Nat) : (s.flag a i).chn = s.chn := by rw [State.flag_eq]
@[simp] theorem State.flag_eth (s : State) (a i : Nat) : (s.flag a i).eth = s.eth := by rw [State.flag_eq]
@[simp] theorem State.flag_ctn (s : State) (a i : Nat) : (s.flag a i).ctn = s.ctn := by rw [State.flag_eq]
@[simp] theorem State.flag_cmb (s : State) (a i : Nat) : (s.flag a i).cmb = s.cmb := by rw [State.flag_eq]
@[simp] theorem State.flag_grants (s : State) (a i : Nat) : (s.flag a i).grants = s.grants := by rw [State.flag_eq]
@[simp] theorem State.flag_sup (s : State) (a i : Nat) : (s.flag a i).sup = s.sup := by rw [State.flag_eq]
@[simp] theorem State.flag_wag (s : State) (a i : Nat) : (s.flag a i).wag = s.wag := by rw [State.flag_eq]
@[simp] theorem State.flag_wrk (s : State) (a i : Nat) : (s.flag a i).wrk = s.wrk := by rw [State.flag_eq]
@[simp] theorem State.flag_trg (s : State) (a i : Nat) : (s.flag a i).trg = s.trg := by rw [State.flag_eq]
@[simp] theorem State.flag_acq (s : State) (a i : Nat) : (s.flag a i).acq = s.acq := by rw [State.flag_eq]
@[simp] theorem State.flag_ddr (s : State) (a i : Nat) : (s.flag a i).ddr = s.ddr := by rw [State.flag_eq]
@[simp] theorem State.flag_units (s : State) (a i : Nat) : (s.flag a i).units = s.units := by rw [State.flag_eq]
@[simp] theorem State.flag_fdm (s : State) (a i : Nat) : (s.flag a i).fdm = s.fdm := by rw [State.flag_eq]
@[simp] theorem State.flag_kpr (s : State) (a i : Nat) : (s.flag a i).kpr = s.kpr := by rw [State.flag_eq]
@[simp] theorem State.flag_pass (s : State) (a i : Nat) : (s.flag a i).pass = s.pass := by rw [State.flag_eq]
@[simp] theorem State.flag_cmd (s : State) (a i : Nat) : (s.flag a i).cmd = s.cmd := by rw [State.flag_eq]
@[simp] theorem State.flag_pwr (s : State) (a i : Nat) : (s.flag a i).pwr = s.pwr := by rw [State.flag_eq]
@[simp] theorem State.flag_mon (s : State) (a i : Nat) : (s.flag a i).mon = s.mon := by rw [State.flag_eq]
@[simp] theorem State.flag_untimed (s : State) (a i : Nat) : (s.flag a i).untimed = s.untimed := by rw [State.flag_eq]
@[simp] theorem State.flag_degraded (s : State) (a i : Nat) : (s.flag a i).degraded = s.degraded := by rw [State.flag_eq]
@[simp] theorem State.flag_enAt (s : State) (a i : Nat) : (s.flag a i).enAt = s.enAt := by rw [State.flag_eq]
@[simp] theorem State.flag_freeCtr (s : State) (a i : Nat) : (s.flag a i).freeCtr = s.freeCtr := by rw [State.flag_eq]
@[simp] theorem State.flag_pending (s : State) (a i : Nat) : (s.flag a i).pending = s.pending := by rw [State.flag_eq]

/-- A fault interrupt changes at most GLB_FAULT, PCI_ERR, the record of the second, the pending bits, and what has left the part. -/
theorem State.fault_eq (s : State) (b : Nat) : s.fault b = { s with
    regs := (s.fault b).regs, pci := (s.fault b).pci, out := (s.fault b).out, kpr := { s.kpr with faultSec := Nat.lor s.kpr.faultSec (2 ^ b) } } := by
  unfold State.fault
  rw [State.noteRise_eq]
  rfl

theorem State.rd_fault_ne (s : State) {a : Nat} (b : Nat) (h : a ≠ GLB_FAULT) (g : a ≠ PCI_ERR) : (s.fault b).rd a = s.rd a := by
  rw [State.fault, State.rd_noteRise_ne _ _ _ g, State.rd_setBit_ne _ _ _ h]
  rfl

/-! ### Folds -/

@[simp] theorem State.each_nil {α : Type} (s : State) (f : State → α → State) : s.each [] f = s := rfl
@[simp] theorem State.each_cons {α : Type} (s : State) (x : α) (l : List α) (f : State → α → State) : s.each (x :: l) f = (f s x).each l f := rfl

/-- What every step of a fold keeps, the fold keeps. -/
theorem State.each_keeps {α : Type} (P : State → Prop) (f : State → α → State) (l : List α) (h : ∀ s x, x ∈ l → P s → P (f s x)) (s : State)
    (hs : P s) : P (s.each l f) := by
  induction l generalizing s with
  | nil => exact hs
  | cons x t ih => exact ih (fun s y hy => h s y (List.mem_cons_of_mem _ hy)) _ (h s x List.mem_cons_self hs)

@[simp] theorem State.when_true (s : State) (f : State → State) : s.when true f = f s := rfl
@[simp] theorem State.when_false (s : State) (f : State → State) : s.when false f = s := rfl

end Sys2Proof.Machine
end

