-- ==== Sys2Proof/Laws/Admit.lean ====
section
/-!
SUPPORT. What a register that nothing has written reads as, and what the admission checks (R58) answer where no unit has work.
-/
namespace Sys2Proof.Machine

/-! ### Registers at their reset values -/

/-- Has the row a reset value other than zero, or one that the model takes from `Config`? -/
def RegRow.loud (r : RegRow) : Bool :=
  r.reset % 2 ^ 32 != 0 || ([0x4, 0x8, 0x100, 0x200018, 0x200020, 0x200024, 0x200028, 0x20002C, 0x90100C, 0x901010, 0x1220000] : List Nat).contains r.off

/-- The places of the loud rows of a block. -/
def loudAt (b : Nat) : List (Nat × Nat × Nat × Nat × Nat) := ((blockRows b).filter RegRow.loud).map (fun r => (r.off, r.n1, r.s1, r.n2, r.s2))

/-- A register that no loud row covers resets to zero. -/
theorem resetVal_zero {a : Nat} (h : ∀ q ∈ loudAt (a / 0x100000), ¬ (q.1 ≤ a ∧ (a - q.1) / q.2.2.1 < q.2.1 ∧ (a - q.1) % q.2.2.1 % q.2.2.2.2 = 0
    ∧ (a - q.1) % q.2.2.1 / q.2.2.2.2 < q.2.2.2.1)) (g : a ≠ 0x1210000) : resetVal a = 0 := by
  unfold resetVal
  cases e : rowAt a with
  | none => rfl
  | some r =>
    have hm := List.mem_of_find?_eq_some e
    have hc := List.find?_some e
    have hl : r.loud = false := by
      by_contra hl
      simp only [Bool.not_eq_false] at hl
      have := h (r.off, r.n1, r.s1, r.n2, r.s2) (List.mem_map.mpr ⟨r, List.mem_filter.mpr ⟨hm, hl⟩, rfl⟩)
      simp only [RegRow.covers, Bool.and_eq_true, decide_eq_true_eq, beq_iff_eq] at hc
      exact this ⟨hc.1.1.1, hc.1.1.2, hc.1.2, hc.2⟩
    simp only [RegRow.loud, Bool.or_eq_false_iff, bne_eq_false_iff_eq, List.contains_eq_mem, decide_eq_false_iff_not, List.mem_cons, List.not_mem_nil,
      or_false, not_or] at hl
    obtain ⟨h0, h1, h2, h3, h4, h5, h6, h7, h8, h9, h10, h11⟩ := hl
    simp only [h1, h2, h3, h4, h5, h6, h7, h8, h9, h10, h11, g, if_false, false_and]
    apply BitVec.eq_of_toNat_eq
    simpa using h0

/-- A register that nothing has written reads as its reset value. -/
theorem State.rd_unwritten {s : State} {a : Nat} (h : ∀ p ∈ s.regs, p.1 ≠ a) : s.rd a = (resetVal a).toNat := by
  have : ∀ l : List (Nat × BitVec 32), (∀ p ∈ l, p.1 ≠ a) → spGet resetVal l a = resetVal a := by
    intro l
    induction l with
    | nil => intro _; rfl
    | cons p t ih =>
      intro h
      obtain ⟨k, v⟩ := p
      have hk : k ≠ a := h (k, v) (by simp)
      simp only [spGet, hk, if_false]
      exact ih (fun q hq => h q (by simp [hq]))
  rw [State.rd, this _ h]

theorem loudAt_5 : loudAt 5 = [(0x500104, 16, 64, 1, 4)] := by decide +kernel
theorem loudAt_7 : loudAt 7 = [(0x700108, 4, 64, 1, 4)] := by decide +kernel
theorem loudAt_8 : loudAt 8 = [(0x800014, 1, 4, 1, 4), (0x810024, 1024, 64, 1, 4), (0x810030, 1024, 64, 1, 4), (0x860004, 1024, 16, 1, 4)] := by decide +kernel
theorem loudAt_10 : loudAt 10 = [(0xA00000, 1, 4, 1, 4), (0xA0000C, 1, 4, 1, 4), (0xA10010, 1024, 32, 1, 4)] := by decide +kernel
theorem loudAt_11 : loudAt 11 = [(0xB10010, 1024, 64, 1, 4)] := by decide +kernel
theorem loudAt_12 : loudAt 12 = [(0xC10040, 1024, 128, 1, 4)] := by decide +kernel
theorem loudAt_13 : loudAt 13 = [(0xD00010, 1, 4, 1, 4), (0xD01004, 64, 64, 1, 4)] := by decide +kernel
theorem loudAt_14 : loudAt 14 = [(0xE0000C, 1, 4, 1, 4), (0xE01008, 64, 64, 1, 4), (0xE03018, 8, 256, 1, 4), (0xE05000, 8, 16, 1, 4), (0xE05104, 8, 32, 1, 4),
  (0xE05108, 8, 32, 1, 4)] := by decide +kernel
theorem loudAt_15 : loudAt 15 = [(0xF0000C, 1, 4, 1, 4), (0xF00024, 1, 4, 1, 4), (0xF00038, 1, 4, 1, 4)] := by decide +kernel

/-! ### The enables of the units -/

theorem resetVal_CTN_SESx_CFG {x : Nat} (h : x < 1024) : resetVal (CTN_SESx_CFG x) = 0 := by
  refine resetVal_zero ?_ (by unfold CTN_SESx_CFG; omega)
  have e : CTN_SESx_CFG x / 0x100000 = 8 := by unfold CTN_SESx_CFG; omega
  simp only [e, loudAt_8, List.mem_cons, List.not_mem_nil, or_false, forall_eq_or_imp, forall_eq]
  unfold CTN_SESx_CFG; omega

theorem resetVal_CMB_SESx_CFG {x : Nat} (h : x < 1024) : resetVal (CMB_SESx_CFG x) = 0 := by
  refine resetVal_zero ?_ (by unfold CMB_SESx_CFG; omega)
  have e : CMB_SESx_CFG x / 0x100000 = 10 := by unfold CMB_SESx_CFG; omega
  simp only [e, loudAt_10, List.mem_cons, List.not_mem_nil, or_false, forall_eq_or_imp, forall_eq]
  unfold CMB_SESx_CFG; omega

theorem resetVal_SUP_SESx_CFG {x : Nat} (h : x < 1024) : resetVal (SUP_SESx_CFG x) = 0 := by
  refine resetVal_zero ?_ (by unfold SUP_SESx_CFG; omega)
  have e : SUP_SESx_CFG x / 0x100000 = 11 := by unfold SUP_SESx_CFG; omega
  simp only [e, loudAt_11, List.mem_cons, List.not_mem_nil, or_false, forall_eq]
  unfold SUP_SESx_CFG; omega

theorem resetVal_WAG_SESx_CFG {x : Nat} (h : x < 1024) : resetVal (WAG_SESx_CFG x) = 0 := by
  refine resetVal_zero ?_ (by unfold WAG_SESx_CFG; omega)
  have e : WAG_SESx_CFG x / 0x100000 = 12 := by unfold WAG_SESx_CFG; omega
  simp only [e, loudAt_12, List.mem_cons, List.not_mem_nil, or_false, forall_eq]
  unfold WAG_SESx_CFG; omega

theorem resetVal_CHN_Ii_CFG {i : Nat} (h : i < 256) : resetVal (CHN_Ii_CFG i) = 0 := by
  refine resetVal_zero ?_ (by unfold CHN_Ii_CFG; omega)
  have e : CHN_Ii_CFG i / 0x100000 = 7 := by unfold CHN_Ii_CFG; omega
  simp only [e, loudAt_7, List.mem_cons, List.not_mem_nil, or_false, forall_eq]
  unfold CHN_Ii_CFG; omega

theorem resetVal_NEC_PORTn_CFG {n : Nat} (h : n < 64) : resetVal (NEC_PORTn_CFG n) = 0 := by
  refine resetVal_zero ?_ (by unfold NEC_PORTn_CFG; omega)
  have e : NEC_PORTn_CFG n / 0x100000 = 5 := by unfold NEC_PORTn_CFG; omega
  simp only [e, loudAt_5, List.mem_cons, List.not_mem_nil, or_false, forall_eq]
  unfold NEC_PORTn_CFG; omega

theorem resetVal_WRK_Wn_CFG {n : Nat} (h : n < 64) : resetVal (WRK_Wn_CFG n) = 0 := by
  refine resetVal_zero ?_ (by unfold WRK_Wn_CFG; omega)
  have e : WRK_Wn_CFG n / 0x100000 = 13 := by unfold WRK_Wn_CFG; omega
  simp only [e, loudAt_13, List.mem_cons, List.not_mem_nil, or_false, forall_eq_or_imp, forall_eq]
  unfold WRK_Wn_CFG; omega

theorem resetVal_TRG_TCc_CFG {c : Nat} (h : c < 64) : resetVal (TRG_TCc_CFG c) = 0 := by
  refine resetVal_zero ?_ (by unfold TRG_TCc_CFG; omega)
  have e : TRG_TCc_CFG c / 0x100000 = 14 := by unfold TRG_TCc_CFG; omega
  simp only [e, loudAt_14, List.mem_cons, List.not_mem_nil, or_false, forall_eq_or_imp, forall_eq]
  unfold TRG_TCc_CFG; omega

theorem resetVal_TRG_SESg_CFG {g : Nat} (h : g < 8) : resetVal (TRG_SESg_CFG g) = 0 := by
  refine resetVal_zero ?_ (by unfold TRG_SESg_CFG; omega)
  have e : TRG_SESg_CFG g / 0x100000 = 14 := by unfold TRG_SESg_CFG; omega
  simp only [e, loudAt_14, List.mem_cons, List.not_mem_nil, or_false, forall_eq_or_imp, forall_eq]
  unfold TRG_SESg_CFG; omega

theorem resetVal_TRIG_OUTn_CFG {n : Nat} (h : n < 8) : resetVal (TRIG_OUTn_CFG n) = 0 := by
  refine resetVal_zero ?_ (by unfold TRIG_OUTn_CFG; omega)
  have e : TRIG_OUTn_CFG n / 0x100000 = 14 := by unfold TRIG_OUTn_CFG; omega
  simp only [e, loudAt_14, List.mem_cons, List.not_mem_nil, or_false, forall_eq_or_imp, forall_eq]
  unfold TRIG_OUTn_CFG; omega

theorem resetVal_STG_Bb_CFG {b : Nat} (h : b < 128) : resetVal (STG_Bb_CFG b) = 0 := by
  refine resetVal_zero ?_ (by unfold STG_Bb_CFG; omega)
  have e : STG_Bb_CFG b / 0x100000 = 14 := by unfold STG_Bb_CFG; omega
  simp only [e, loudAt_14, List.mem_cons, List.not_mem_nil, or_false, forall_eq_or_imp, forall_eq]
  unfold STG_Bb_CFG; omega

theorem resetVal_ACQ_CGc_CFG {c : Nat} (h : c < 64) : resetVal (ACQ_CGc_CFG c) = 0 := by
  refine resetVal_zero ?_ (by unfold ACQ_CGc_CFG; omega)
  have e : ACQ_CGc_CFG c / 0x100000 = 15 := by unfold ACQ_CGc_CFG; omega
  simp only [e, loudAt_15, List.mem_cons, List.not_mem_nil, or_false, forall_eq_or_imp, forall_eq]
  unfold ACQ_CGc_CFG; omega

theorem resetVal_ING_Ii_CFG : ∀ i, i < 256 → bitOf (resetVal (ING_Ii_CFG i)).toNat 0 = 0 := by decide +kernel

/-- No unit has work: no input, port, channel, comb, super, waggle, beam, worker, condition, output or capture group is enabled, no trigger slot is a member
or a collector, no results leave through DDR; and the enabled sessions neither produce nor own a brood and pass check 8. -/
structure State.Idle (s : State) : Prop where
  ctn : ∀ x, x < 1024 → s.bit (CTN_SESx_CFG x) 0 = 0 ∨ s.bit (CTN_SESx_CFG x) 1 = 0 ∧ s.bit (CTN_SESx_CFG x) 2 = 0
    ∧ bitsOf (s.rd (CTN_SESx_CFG2 x)) 29 16 + 5 ≤ bitsOf (s.rd (CTN_SESx_CFG x)) 24 8 * s.cvHop x / s.cvNs x
  cmb : ∀ x, x < 1024 → s.bit (CMB_SESx_CFG x) 0 = 0
  sup : ∀ x, x < 1024 → s.bit (SUP_SESx_CFG x) 0 = 0
  wag : ∀ x, x < 1024 → s.bit (WAG_SESx_CFG x) 0 = 0
  ing : ∀ i, i < 256 → s.bit (ING_Ii_CFG i) 0 = 0
  chn : ∀ i, i < 256 → s.bit (CHN_Ii_CFG i) 0 = 0
  nec : ∀ n, n < 64 → s.bit (NEC_PORTn_CFG n) 0 = 0
  wrk : ∀ n, n < 64 → s.bit (WRK_Wn_CFG n) 0 = 0
  tc  : ∀ c, c < 64 → s.bit (TRG_TCc_CFG c) 0 = 0
  trg : ∀ g, g < 8 → s.slotMember g = false ∧ s.slotCollects g = false
  out : ∀ n, n < 8 → s.bit (TRIG_OUTn_CFG n) 0 = 0
  stg : ∀ b, b < 128 → s.bit (STG_Bb_CFG b) 0 = 0
  acq : ∀ c, c < 64 → s.bit (ACQ_CGc_CFG c) 0 = 0
  hist : s.bit ACQ_HIST_CFG 31 = 0
  res : bitsOf (s.rd WRK_RES_CFG) 13 12 = 0

theorem filter_range_nil {n : Nat} {p : Nat → Bool} (h : ∀ x, x < n → p x = false) : (List.range n).filter p = [] := by
  rw [List.filter_eq_nil_iff]
  intro x hx
  simp [h x (List.mem_range.mp hx)]

theorem sumL_zero {l : List Nat} (h : ∀ v ∈ l, v = 0) : sumL l = 0 := by
  unfold sumL
  induction l with
  | nil => rfl
  | cons a r ih => simp only [List.foldl_cons, h a (by simp)]; exact ih (fun v hv => h v (by simp [hv]))

theorem sumL_map_zero {α : Type} {l : List α} {f : α → Nat} (h : ∀ x ∈ l, f x = 0) : sumL (l.map f) = 0 :=
  sumL_zero (fun v hv => by obtain ⟨x, hx, rfl⟩ := List.mem_map.mp hv; exact h x hx)

section IdleHive
variable {s : State} (h : s.Idle)
include h

theorem State.Idle.cmbAt (x : Nat) : s.cmbAt x = false := by
  unfold State.cmbAt
  by_cases hx : x < 1024 <;> simp [hx, h.cmb]

theorem State.Idle.wagAt (x : Nat) : s.wagAt x = false := by
  unfold State.wagAt
  by_cases hx : x < 1024 <;> simp [hx, h.wag]

theorem State.Idle.cvCx {x : Nat} (hx : x < 1024) (hon : s.bit (CTN_SESx_CFG x) 0 = 1) : s.cvCx x = 0 := by
  unfold State.cvCx
  rcases h.ctn x hx with h0 | ⟨-, h2, -⟩
  · omega
  · simp [h2]

theorem State.Idle.lists : s.ctnOn.filter (fun x => s.bit (CTN_SESx_CFG x) 2 == 1) = [] ∧ s.cmbOn = [] ∧ s.supOn = [] ∧ s.wagOn = [] ∧ s.inputsOn = []
    ∧ (List.range 256).filter (fun i => s.bit (CHN_Ii_CFG i) 0 == 1) = [] ∧ (List.range 64).filter s.portEn = [] ∧ (List.range 64).filter s.wrkEn = []
    ∧ (List.range 64).filter s.tcOn = [] ∧ (List.range 128).filter s.beamOn = [] ∧ s.groupsOn = []
    ∧ (List.range 8).filter (fun n => s.bit (TRIG_OUTn_CFG n) 0 == 1) = [] := by
  refine ⟨?_, filter_range_nil (fun x _ => h.cmbAt x), filter_range_nil (fun x hx => by simp [h.sup x hx]), filter_range_nil (fun x _ => h.wagAt x),
    filter_range_nil (fun i hi => by simp [h.ing i hi]), filter_range_nil (fun i hi => by simp [h.chn i hi]),
    filter_range_nil (fun n hn => by simp [State.portEn, h.nec n hn]), filter_range_nil (fun n hn => by simp [State.wrkEn, h.wrk n hn]),
    filter_range_nil (fun c hc => by simp [State.tcOn, h.tc c hc]), filter_range_nil (fun b hb => by simp [State.beamOn, h.stg b hb]),
    filter_range_nil (fun c hc => by simp [h.acq c hc]), filter_range_nil (fun n hn => by simp [h.out n hn])⟩
  rw [List.filter_eq_nil_iff]
  intro x hx
  simp only [State.ctnOn, State.cvOn, List.mem_filter, List.mem_range, beq_iff_eq] at hx
  rcases h.ctn x hx.1 with h0 | ⟨-, h2, -⟩
  · omega
  · simp [h2]

theorem State.Idle.cvCtn {x : Nat} (hx : x < 1024) {c : CtnSes} (e : s.cvCtn x = some c) : c.produce = false := by
  unfold State.cvCtn at e
  rcases h.ctn x hx with h0 | ⟨h1, -, -⟩
  · simp [h0] at e
  · split at e
    · simp only [Option.some.injEq] at e
      subst e
      have : bitOf (s.rd (CTN_SESx_CFG x)) 1 = 0 := h1
      simp [CtnSes.produce, State.ctnRead, this]
    · simp at e

theorem State.Idle.inputDemand {x : Nat} (hx : x < 1024) : s.inputDemand x = 0 := by
  unfold State.inputDemand
  cases e : s.cvCtn x with
  | none => rfl
  | some c => simp [h.cvCtn hx e]

theorem State.Idle.broodEth {x : Nat} (hx : x < 1024) (n : Nat) : s.broodEth x n = 0 := by
  unfold State.broodEth
  cases e : s.cvCtn x with
  | none => rfl
  | some c => simp [h.cvCtn hx e]

theorem State.Idle.broodRxEth {x : Nat} (hx : x < 1024) (n : Nat) : s.broodRxEth x n = 0 := by
  unfold State.broodRxEth
  cases e : s.cvCtn x with
  | none => rfl
  | some c =>
    have own : bitOf c.cfg 2 ≠ 1 := by
      unfold State.cvCtn at e
      rcases h.ctn x hx with h0 | ⟨-, h2, -⟩
      · simp [h0] at e
      · split at e
        · simp only [Option.some.injEq] at e
          subst e
          have : bitOf (s.rd (CTN_SESx_CFG x)) 2 = 0 := h2
          simp [State.ctnRead, this]
        · simp at e
    simp [own]

theorem State.Idle.eventEth (x n : Nat) : s.eventEth x n = 0 := by
  have g : (List.range 64).filter (fun c => s.bit (ACQ_CGc_CFG c) 0 == 1 && s.cgSession c == x) = [] :=
    filter_range_nil (fun c hc => by simp [h.acq c hc])
  simp [State.eventEth, g, State.ethBytes]

theorem State.Idle.sesEth {x : Nat} (hx : x < 1024) (n : Nat) : s.sesEth x n = 0 := by
  have hs : bitOf (s.rd (SUP_SESx_CFG x)) 0 = 0 := h.sup x hx
  simp [State.sesEth, hs, h.wagAt, h.broodEth hx, h.eventEth]

theorem State.Idle.rings {x : Nat} (hx : x < 1024) : s.honeyRing x = 0 ∧ s.wagRing x = 0 := by
  have hs : bitOf (s.rd (SUP_SESx_CFG x)) 0 = 0 := h.sup x hx
  simp [State.honeyRing, State.wagRing, hs, h.wagAt]

theorem State.Idle.workersOf (x : Nat) : s.workersOf x = [] := by
  unfold State.workersOf
  exact filter_range_nil (fun n hn => by simp [State.wrkEn, h.wrk n hn])

theorem State.Idle.sesEnergy (x : Nat) : s.sesEnergy x = 0 := by
  simp [State.sesEnergy, State.combItems18, State.phaseItems, State.wagItems18, State.wrkItems, h.cmbAt, h.wagAt, h.workersOf, sumL]

/-- The estimate is that of the base. -/
theorem State.Idle.estimate (xs : List Nat) : s.estimate xs = s.rd PWR_BASE * 1000 := by
  rw [State.estimate, sumL_map_zero (fun x _ => h.sesEnergy x), Nat.add_zero]

omit h in
theorem ceilDiv_zero (b : Nat) : ceilDiv 0 b = 0 := by
  unfold ceilDiv
  split
  · rfl
  · exact Nat.div_eq_of_lt (by omega)

omit h in
theorem quota_zero {x : Option Nat} {c i : Nat} {d : Nat → Nat} (hd : ∀ y, x = some y → d y = 0) : s.quota x c i d = [] := by
  cases x with
  | none => rfl
  | some y => simp [State.quota, exceeds, refuseIf, hd y rfl]

theorem State.Idle.rateChecks {x : Option Nat} (hx : ∀ y, x = some y → y < 1024) : s.rateChecks x = [] := by
  obtain ⟨-, -, -, -, l5, l6, l7, -, -, -, -, -⟩ := h.lists
  simp only [State.rateChecks, l5, l6, l7, List.flatMap_nil, List.filter_nil, List.map_nil, List.nil_append, List.append_nil,
    quota_zero (fun y e => h.inputDemand (hx y e))]
  simp [exceeds, refuseIf, sumL]

theorem State.Idle.broodChecks : s.broodChecks = [] := by
  obtain ⟨l1, -, -, -, -, -, -, -, -, -, -, -⟩ := h.lists
  have hm (x : Nat) (hxm : x ∈ s.ctnOn) : x < 1024 ∧ s.bit (CTN_SESx_CFG x) 0 = 1 := by
    simpa [State.ctnOn, State.cvOn] using hxm
  simp only [State.broodChecks, l1, List.map_nil, sumL, List.foldl_nil, exceeds, refuseIf]
  simp only [Nat.not_lt_zero, decide_false, Bool.false_eq_true, if_false, List.append_nil, List.append_eq_nil_iff, List.flatMap_eq_nil_iff]
  refine ⟨fun y hy => ?_, fun y hy => ?_⟩
  · cases e : s.cvCtn y with
    | none => rfl
    | some c => simp [h.cvCtn (hm y hy).1 e]
  · rcases h.ctn y (hm y hy).1 with h0 | ⟨-, -, h3⟩
    · have := (hm y hy).2; omega
    · simp; omega

theorem State.Idle.combChecks (x : Option Nat) : s.combChecks x = [] := by
  obtain ⟨-, l2, -, -, -, -, -, -, -, -, -, -⟩ := h.lists
  simp only [State.combChecks, l2, quota_zero (fun y _ => by simp [State.combDemand, h.cmbAt] : ∀ y, x = some y → s.combDemand y * 65536 / 196608000 = 0)]
  simp [exceeds, refuseIf, sumL]

theorem State.Idle.superChecks {x : Option Nat} (hx : ∀ y, x = some y → y < 1024) : s.superChecks x = [] := by
  obtain ⟨-, -, l3, -, -, -, -, -, -, -, -, -⟩ := h.lists
  simp only [State.superChecks, l3, quota_zero (fun y e => by simp [State.superDemand, h.sup y (hx y e)] : ∀ y, x = some y → s.superDemand y = 0)]
  simp [exceeds, refuseIf, sumL]

theorem State.Idle.wagChecks (x : Option Nat) : s.wagChecks x = [] := by
  obtain ⟨-, -, -, l4, -, -, -, -, -, -, -, -⟩ := h.lists
  simp only [State.wagChecks, l4, quota_zero (fun y _ => by simp [State.wagDemand, h.wagAt] : ∀ y, x = some y → s.wagDemand y / 196608000 = 0)]
  simp [exceeds, refuseIf, sumL]

theorem State.Idle.unitChecks (x : Option Nat) : s.unitChecks x = [] := by
  obtain ⟨-, -, -, -, -, -, -, l8, -, l10, -, -⟩ := h.lists
  simp only [State.unitChecks, l8, l10, quota_zero (fun y _ => by simp [h.workersOf] : ∀ y, x = some y → (s.workersOf y).length = 0)]
  simp [exceeds, refuseIf, sumL]

theorem State.Idle.ethChecks {x : Option Nat} (hx : ∀ y, x = some y → y < 1024) : s.ethChecks x = [] := by
  have hy : ∀ y, y ∈ (List.range 1024).filter s.sesCounts → y < 1024 := fun y hy => by simp at hy; exact hy.1
  simp only [State.ethChecks, quota_zero (fun y e => by rw [sumL_map_zero (fun n _ => h.sesEth (hx y e) n)] : ∀ y, x = some y → sumL ((List.range 32).map (s.sesEth y)) / 196608 = 0)]
  have z (n : Nat) : sumL (((List.range 1024).filter s.sesCounts).map (fun x => s.sesEth x n)) = 0 := sumL_map_zero (fun y hh => h.sesEth (hy y hh) n)
  have z2 : sumL (((List.range 1024).filter s.sesCounts).map (fun x => sumL ((List.range 32).map (s.sesEth x)))) = 0 :=
    sumL_map_zero (fun y hh => sumL_map_zero (fun n _ => h.sesEth (hy y hh) n))
  have r (n : Nat) : sumL (((List.range 1024).filter s.sesCounts).map (fun x => s.broodRxEth x n)) = 0 := sumL_map_zero (fun y hh => h.broodRxEth (hy y hh) n)
  have r2 : sumL (((List.range 1024).filter s.sesCounts).map (fun x => sumL ((List.range 32).map (s.broodRxEth x)))) = 0 :=
    sumL_map_zero (fun y hh => sumL_map_zero (fun n _ => h.broodRxEth (hy y hh) n))
  simp [z, z2, r, r2, refuseIf]

theorem State.Idle.ddrRates : s.ddrRates = [0, 0, 0, 0, 0, 0, 0, 0] := by
  obtain ⟨-, -, -, -, l5, -, -, -, -, -, l11, -⟩ := h.lists
  have hy : ∀ y, y ∈ (List.range 1024).filter s.sesCounts → y < 1024 := fun y hy => by simp at hy; exact hy.1
  have h1 : (if bitsOf (s.rd WRK_RES_CFG) 13 12 = 1 then (pad64 (wrkRecord 0 (((List.range 64).filter (fun n => s.wrkEn n && s.bit (WRK_Wn_CFG n) 21 == 1)).map
      (fun n => ⟨n, 0, List.replicate 32 0, [], false⟩)))).length * 1000000 else 0) = 0 := if_neg (by rw [h.res]; decide)
  simp only [State.ddrRates, l5, l11, h1, sumL_map_zero (fun y hh => (h.rings (hy y hh)).1), sumL_map_zero (fun y hh => (h.rings (hy y hh)).2), h.hist,
    List.map_nil, List.length_nil, List.filter_nil]
  simp [sumL]

theorem State.Idle.ddrChecks {x : Option Nat} (hx : ∀ y, x = some y → y < 1024) : s.ddrChecks x = [] := by
  obtain ⟨-, -, -, -, -, -, -, -, -, -, l11, -⟩ := h.lists
  have q : s.quota x 16 6 (fun x => ceilDiv (sumL (([].filter (fun c => s.cgSession c == x)).map (fun c => s.groupRing c
      + 8 * (bitsOf (s.rd (ACQ_CGc_MEMBERS c)) 15 8 + 1) * 1000000)) + s.honeyRing x + s.wagRing x) 1000000) = [] :=
    quota_zero (fun y e => by simp only [(h.rings (hx y e)).1, (h.rings (hx y e)).2, List.filter_nil, List.map_nil]; exact ceilDiv_zero _)
  have r : sumL ([0, 0, 0, 0, 0, 0, 0, 0].map (fun r => ceilDiv r 1000000)) = 0 := by simp [sumL, ceilDiv_zero]
  simp only [State.ddrChecks, l11, h.ddrRates, q, r, List.nil_append, exceeds, refuseIf, Nat.not_lt_zero, decide_false, Bool.false_eq_true, if_false]

theorem State.Idle.trgChecks : s.trgChecks = [] := by
  obtain ⟨-, -, -, -, -, -, -, -, l9, -, -, l12⟩ := h.lists
  have ts : ∀ g ∈ List.range 8, s.slotMember g = false := fun g hg => (h.trg g (List.mem_range.mp hg)).1
  have tc : ∀ g ∈ List.range 8, s.slotCollects g = false := fun g hg => (h.trg g (List.mem_range.mp hg)).2
  have m1 : ((List.range 8).filter s.slotOn).filter s.slotMember = [] := by
    rw [List.filter_eq_nil_iff]; intro g hg; simp [ts g (List.mem_of_mem_filter hg)]
  have m2 : ((List.range 8).filter s.slotOn).filter s.slotCollects = [] := by
    rw [List.filter_eq_nil_iff]; intro g hg; simp [tc g (List.mem_of_mem_filter hg)]
  simp only [State.trgChecks, l9, l12, m1, m2]
  simp [exceeds, refuseIf, sumL]

/-- Of an idle hive only the base power can fail, where the budget does not cover it (R535). -/
theorem State.Idle.refusals {x : Option Nat} (hx : ∀ y, x = some y → y < 1024) :
    s.refusals x = refuseIf (s.rd PWR_BUDGET < s.rd PWR_BASE) 18 0 (s.rd PWR_BASE) (s.rd PWR_BUDGET) := by
  have e : (s.rd PWR_BUDGET * 1000 < s.rd PWR_BASE * 1000) ↔ s.rd PWR_BUDGET < s.rd PWR_BASE := by omega
  simp only [State.refusals, h.rateChecks hx, h.broodChecks, h.combChecks x, h.superChecks hx, h.wagChecks x, h.unitChecks x, h.ethChecks hx, h.ddrChecks hx, h.trgChecks, State.powerChecks, List.nil_append, h.estimate,
    quota_zero (fun y _ => by simp [h.sesEnergy] : ∀ y, x = some y → s.sesEnergy y / 1000 = 0)]
  simp [e]

/-- An idle hive admits every configuration whose base power its budget covers (R535). -/
theorem State.Idle.admission {x : Option Nat} (hx : ∀ y, x = some y → y < 1024) :
    s.admission x = if s.rd PWR_BUDGET < s.rd PWR_BASE then some ⟨18, 0, s.rd PWR_BASE, s.rd PWR_BUDGET⟩ else none := by
  by_cases hb : s.rd PWR_BUDGET < s.rd PWR_BASE <;> simp [State.admission, h.refusals hx, refuseIf, hb]

omit h
end IdleHive

/-! ### Which states are idle -/

/-- Is `k` one of the `n` registers from `b` on, `st` apart? -/
def inRange (b st n k : Nat) : Bool := b ≤ k && k < b + n * st && (k - b) % st == 0

/-- Is `k` the offset of a register that enables the work of `State.Idle`? -/
def enableKey (k : Nat) : Bool :=
  inRange 0x810000 0x40 1024 k || inRange 0xA10000 0x20 1024 k || inRange 0xB10000 0x40 1024 k || inRange 0xC10000 0x80 1024 k || inRange 0x601000 0x40 256 k
  || inRange 0x701000 0x10 256 k || inRange 0x503000 0x40 64 k || inRange 0xD01000 0x40 64 k || inRange 0xE01000 0x40 64 k || inRange 0xE03000 0x100 8 k
  || inRange 0xE05100 0x20 8 k || inRange 0xE81000 0x20 128 k || inRange 0xF01000 0x80 64 k || k == ACQ_HIST_CFG || k == WRK_RES_CFG

theorem inRange_of {b st n i : Nat} (hs : 0 < st) (hi : i < n) : inRange b st n (b + i * st) = true := by
  have : i * st < n * st := (Nat.mul_lt_mul_right hs).mpr hi
  simp only [inRange, Bool.and_eq_true, decide_eq_true_eq, beq_iff_eq]
  exact ⟨⟨by omega, by omega⟩, by rw [Nat.add_sub_cancel_left, Nat.mul_mod_left]⟩

/-- A state whose written registers enable nothing but the sessions `xs` and the trigger slots `gs` is idle where those are. -/
theorem State.Idle.of_keys {s : State} (xs gs : List Nat)
    (hk : s.regs.all (fun p => !enableKey p.1 || xs.any (fun x => p.1 == CTN_SESx_CFG x) || gs.any (fun g => p.1 == TRG_SESg_CFG g)) = true)
    (hxs : ∀ x ∈ xs, s.bit (CTN_SESx_CFG x) 0 = 0 ∨ s.bit (CTN_SESx_CFG x) 1 = 0 ∧ s.bit (CTN_SESx_CFG x) 2 = 0
      ∧ bitsOf (s.rd (CTN_SESx_CFG2 x)) 29 16 + 5 ≤ bitsOf (s.rd (CTN_SESx_CFG x)) 24 8 * s.cvHop x / s.cvNs x)
    (hxb : ∀ x ∈ xs, x < 1024) (hgb : ∀ g ∈ gs, g < 8)
    (hgs : ∀ g ∈ gs, s.slotMember g = false ∧ s.slotCollects g = false) : s.Idle := by
  have key (a : Nat) (ha : enableKey a = true) (h1 : ∀ x ∈ xs, a ≠ CTN_SESx_CFG x) (h2 : ∀ g ∈ gs, a ≠ TRG_SESg_CFG g) : s.rd a = (resetVal a).toNat := by
    refine State.rd_unwritten (fun p hp e => ?_)
    subst e
    have := List.all_eq_true.mp hk p hp
    simp only [ha, Bool.not_true, Bool.false_or, Bool.or_eq_true, List.any_eq_true, beq_iff_eq] at this
    rcases this with ⟨x, hx, e⟩ | ⟨g, hg, e⟩
    · exact h1 x hx e
    · exact h2 g hg e
  have z (a i : Nat) (ha : enableKey a = true) (hr : resetVal a = 0) (h1 : ∀ x ∈ xs, a ≠ CTN_SESx_CFG x) (h2 : ∀ g ∈ gs, a ≠ TRG_SESg_CFG g) :
      s.bit a i = 0 := by
    rw [State.bit, key a ha h1 h2, hr]; simp [bitOf]
  have nx (a : Nat) (ha : a < 0x810000 ∨ 0x820000 ≤ a) : ∀ x ∈ xs, a ≠ CTN_SESx_CFG x := fun x hx => by have := hxb x hx; unfold CTN_SESx_CFG; omega
  have ng (a : Nat) (ha : a < 0xE03000 ∨ 0xE04000 ≤ a) : ∀ g ∈ gs, a ≠ TRG_SESg_CFG g := fun g hg => by have := hgb g hg; unfold TRG_SESg_CFG; omega
  refine ⟨?ctn,
    fun x h => z _ _ (by simp [enableKey, inRange_of, h]) (resetVal_CMB_SESx_CFG h) (nx _ (by unfold CMB_SESx_CFG; omega)) (ng _ (by unfold CMB_SESx_CFG; omega)),
    fun x h => z _ _ (by simp [enableKey, inRange_of, h]) (resetVal_SUP_SESx_CFG h) (nx _ (by unfold SUP_SESx_CFG; omega)) (ng _ (by unfold SUP_SESx_CFG; omega)),
    fun x h => z _ _ (by simp [enableKey, inRange_of, h]) (resetVal_WAG_SESx_CFG h) (nx _ (by unfold WAG_SESx_CFG; omega)) (ng _ (by unfold WAG_SESx_CFG; omega)),
    ?ing,
    fun i h => z _ _ (by simp [enableKey, inRange_of, h]) (resetVal_CHN_Ii_CFG h) (nx _ (by unfold CHN_Ii_CFG; omega)) (ng _ (by unfold CHN_Ii_CFG; omega)),
    fun n h => z _ _ (by simp [enableKey, inRange_of, h]) (resetVal_NEC_PORTn_CFG h) (nx _ (by unfold NEC_PORTn_CFG; omega)) (ng _ (by unfold NEC_PORTn_CFG; omega)),
    fun n h => z _ _ (by simp [enableKey, inRange_of, h]) (resetVal_WRK_Wn_CFG h) (nx _ (by unfold WRK_Wn_CFG; omega)) (ng _ (by unfold WRK_Wn_CFG; omega)),
    fun c h => z _ _ (by simp [enableKey, inRange_of, h]) (resetVal_TRG_TCc_CFG h) (nx _ (by unfold TRG_TCc_CFG; omega)) (ng _ (by unfold TRG_TCc_CFG; omega)),
    ?trg,
    fun n h => z _ _ (by simp [enableKey, inRange_of, h]) (resetVal_TRIG_OUTn_CFG h) (nx _ (by unfold TRIG_OUTn_CFG; omega)) (ng _ (by unfold TRIG_OUTn_CFG; omega)),
    fun b h => z _ _ (by simp [enableKey, inRange_of, h]) (resetVal_STG_Bb_CFG h) (nx _ (by unfold STG_Bb_CFG; omega)) (ng _ (by unfold STG_Bb_CFG; omega)),
    fun c h => z _ _ (by simp [enableKey, inRange_of, h]) (resetVal_ACQ_CGc_CFG h) (nx _ (by unfold ACQ_CGc_CFG; omega)) (ng _ (by unfold ACQ_CGc_CFG; omega)),
    ?hist,
    ?res⟩
  · intro x h
    by_cases hm : x ∈ xs
    · exact hxs x hm
    · have ne : ∀ y ∈ xs, CTN_SESx_CFG x ≠ CTN_SESx_CFG y := fun y hy e => hm (by
        have : x = y := by unfold CTN_SESx_CFG at e; omega
        exact this ▸ hy)
      exact Or.inl (z _ _ (by simp [enableKey, inRange_of, h]) (resetVal_CTN_SESx_CFG h) ne (ng _ (by unfold CTN_SESx_CFG; omega)))
  · intro i h
    rw [State.bit, key _ (by simp [enableKey, inRange_of, h]) (nx _ (by unfold ING_Ii_CFG; omega)) (ng _ (by unfold ING_Ii_CFG; omega))]
    exact resetVal_ING_Ii_CFG i h
  · intro g h
    by_cases hm : g ∈ gs
    · exact hgs g hm
    · have ne : ∀ y ∈ gs, TRG_SESg_CFG g ≠ TRG_SESg_CFG y := fun y hy e => hm (by
        have : g = y := by unfold TRG_SESg_CFG at e; omega
        exact this ▸ hy)
      have e := z _ 0 (by simp [enableKey, inRange_of, h]) (resetVal_TRG_SESg_CFG h) (nx _ (by unfold TRG_SESg_CFG; omega)) ne
      simp [State.slotMember, State.slotCollects, State.slotOn, e]
  · rw [State.bit, key _ (by simp [enableKey]) (nx _ (by decide)) (ng _ (by decide))]; decide +kernel
  · rw [key _ (by simp [enableKey]) (nx _ (by decide)) (ng _ (by decide))]; decide +kernel

end Sys2Proof.Machine
end

