-- ==== Sys2Proof/Laws/Hash.lean ====
section
/-!
SUPPORT. The lengths of hashes and byte strings, and what a packet signed with its key (R478) reads as.
-/
namespace Sys2Proof.Machine

@[simp] theorem toBE_length (k n : Nat) : (toBE k n).length = k := by simp [toBE]
@[simp] theorem toLE_length (k n : Nat) : (toLE k n).length = k := by simp [toLE]

theorem slice_length (l : List Byte) (i k : Nat) : (slice l i k).length = k := by
  simp [slice]

/-- A slice inside the first part of an append. -/
theorem slice_append (l r : List Byte) (i k : Nat) (h : i + k ≤ l.length) : slice (l ++ r) i k = slice l i k := by
  simp only [slice]
  rw [List.drop_append_of_le_length (by omega), List.take_append_of_le_length (by simp; omega)]

theorem shaRounds_length (ks win v : List (BitVec 32)) (h : v.length = 8) : (shaRounds ks win v).length = 8 := by
  induction ks generalizing win v with
  | nil => exact h
  | cons k ks ih => exact ih _ _ rfl

theorem shaBlocks_length (n : Nat) (h : List (BitVec 32)) (l : List Byte) (e : h.length = 8) : (shaBlocks n h l).length = 8 := by
  induction n generalizing h l with
  | zero => exact e
  | succ n ih => exact ih _ _ (by simp [shaBlock, shaRounds_length _ _ _ e, e])

theorem shaInit_length : shaInit.length = 8 := by decide

@[simp] theorem sha256_length (m : List Byte) : (sha256 m).length = 32 := by
  simp [sha256, List.length_flatMap, shaBlocks_length _ _ _ shaInit_length]

@[simp] theorem hmac_length (key m : List Byte) : (hmac key m).length = 32 := by simp [hmac]

@[simp] theorem tagOf_length (key b : List Byte) : (tagOf key b).length = 16 := by simp [tagOf]

/-- The packet with header `h` and parameters `ps`, signed with `key` (R478). -/
def signPkt (key h ps : List Byte) : List Byte := h ++ tagOf key (h ++ List.replicate 16 0 ++ ps) ++ ps

theorem pkTag_signPkt (key h ps : List Byte) (hl : h.length = 32) : pkTag (signPkt key h ps) = tagOf key (h ++ List.replicate 16 0 ++ ps) := by
  unfold pkTag signPkt
  rw [slice_append _ _ _ _ (by simp; omega)]
  simp [slice, ← hl]

theorem putBytes_tag (h t ps : List Byte) (hl : h.length = 32) (tl : t.length = 16) :
    putBytes (h ++ t ++ ps) 32 (List.replicate 16 0) = h ++ List.replicate 16 0 ++ ps := by
  have d : 32 + 16 = h.length + t.length := by omega
  simp only [putBytes, List.length_replicate, d]
  rw [List.append_assoc h t ps, ← hl]
  simp

theorem tagOf_signPkt (key h ps : List Byte) (hl : h.length = 32) : tagOf key (signPkt key h ps) = pkTag (signPkt key h ps) := by
  rw [pkTag_signPkt _ _ _ hl]
  unfold signPkt
  unfold tagOf
  rw [putBytes_tag _ _ _ hl (by simp), putBytes_tag _ _ _ hl (by simp)]

/-- A signed packet whose header R479 lets pass goes through with its slot and key. -/
theorem gate_signPkt (s : State) (key h ps : List Byte) (k : Nat) (hl : h.length = 32)
    (hb : headerBad (h ++ List.replicate 16 0 ++ ps) = false) (hs : pkSlot h = some k) (hk : s.keyOf k = some key)
    (ht : beAt h 8 2 = s.hiveId ∨ beAt h 8 2 = 0xFFFF) : s.gate (signPkt key h ps) = .pass k key := by
  have e (i n : Nat) (hi : i + n ≤ 32) (x : List Byte) : beAt (h ++ x) i n = beAt h i n := by
    unfold beAt; rw [slice_append _ _ _ _ (by omega)]
  have hb' : headerBad (signPkt key h ps) = false := by
    rw [← hb]
    simp only [headerBad, signPkt, pkFlags, pkKey, List.append_assoc, e _ _ (by omega : 0 + 2 ≤ 32), e _ _ (by omega : 2 + 1 ≤ 32),
      e _ _ (by omega : 3 + 1 ≤ 32), e _ _ (by omega : 6 + 2 ≤ 32), e _ _ (by omega : 22 + 2 ≤ 32), e _ _ (by omega : 16 + 4 ≤ 32),
      List.length_append, tagOf_length, List.length_replicate]
  have hs' : pkSlot (signPkt key h ps) = some k := by
    rw [← hs]; simp only [pkSlot, pkRole, pkKey, signPkt, List.append_assoc, e _ _ (by omega : 6 + 2 ≤ 32)]
  have hi : beAt (signPkt key h ps) 8 2 = beAt h 8 2 := by
    simp only [signPkt, List.append_assoc, e _ _ (by omega : 8 + 2 ≤ 32)]
  unfold State.gate
  rw [hb', hs']
  simp only [hk, tagOf_signPkt _ _ _ hl, hi]
  rcases ht with ht | ht <;> simp [ht]

end Sys2Proof.Machine
end

