-- ==== Sys2Proof/Laws/Memory.lean ====
section
/-!
SUPPORT. The canonical form of every store (Memory.wf): it holds after reset, and every operation that writes a register, a
memory or a store keeps it.
-/
namespace Sys2Proof.Machine

theorem reset_memory_wf : Memory.wf State.reset = true := by decide

/-- The canonical form, store by store. -/
theorem memory_wf_iff (s : State) : Memory.wf s = true ↔
    spWf resetVal s.regs = true ∧ spWf zeroByte s.ddr.mem = true ∧ spWf zeroByte s.ctn.brood = true
    ∧ spWf zeroNat s.ing.coef = true ∧ spWf zeroNat s.chn.win = true ∧ spWf zeroNat s.chn.gain = true
    ∧ spWf zeroNat s.cmb.list = true ∧ spWf zeroNat s.sup.words = true ∧ spWf zeroNat s.wag.wt = true
    ∧ spWf zeroNat s.wag.geo = true ∧ spWf zeroNat s.wrk.pm = true ∧ spWf zeroNat s.wrk.xm = true
    ∧ spWf zeroNat s.wrk.ym = true ∧ spWf zeroNat s.pci.pba = true ∧ spWf msixReset s.pci.msix = true := by
  simp only [Memory.wf, Bool.and_eq_true, and_assoc]

/-- Two states with the same stores are both in the form or neither is. -/
theorem memory_wf_congr {s t : State} (hr : t.regs = s.regs) (hd : t.ddr.mem = s.ddr.mem) (hb : t.ctn.brood = s.ctn.brood)
    (hi : t.ing.coef = s.ing.coef) (hw : t.chn.win = s.chn.win) (hg : t.chn.gain = s.chn.gain) (hl : t.cmb.list = s.cmb.list)
    (hs : t.sup.words = s.sup.words) (hwt : t.wag.wt = s.wag.wt) (hge : t.wag.geo = s.wag.geo) (hpm : t.wrk.pm = s.wrk.pm)
    (hx : t.wrk.xm = s.wrk.xm) (hy : t.wrk.ym = s.wrk.ym) (hp : t.pci = s.pci) : Memory.wf t = Memory.wf s := by
  simp only [Memory.wf, hr, hd, hb, hi, hw, hg, hl, hs, hwt, hge, hpm, hx, hy, hp]

section
variable {s : State} (h : Memory.wf s = true)
include h

theorem memory_wf_wr (a v : Nat) : Memory.wf (s.wr a v) = true := by
  obtain ⟨h0, h⟩ := (memory_wf_iff s).1 h
  exact (memory_wf_iff _).2 ⟨spWf_spSet _ _ _ _ h0, h⟩

theorem memory_wf_setBit (a i : Nat) (v : Bool) : Memory.wf (s.setBit a i v) = true := memory_wf_wr h _ _

theorem memory_wf_count (a n : Nat) : Memory.wf (s.count a n) = true := memory_wf_wr h _ _

theorem memory_wf_emit (o : Out) : Memory.wf (s.emit o) = true := h

/-- A pending bit of the MSI-X table is written (R464). -/
theorem memory_wf_pba (v b : Nat) :
    Memory.wf { s with pci := { s.pci with pba := spSet zeroNat s.pci.pba v b } } = true := by
  obtain ⟨h0, h1, h2, h3, h4, h5, h6, h7, h8, h9, h10, h11, h12, h13, h14⟩ := (memory_wf_iff s).1 h
  exact (memory_wf_iff _).2 ⟨h0, h1, h2, h3, h4, h5, h6, h7, h8, h9, h10, h11, h12, spWf_spSet _ _ _ _ h13, h14⟩

theorem memory_wf_sendVec (v : Nat) : Memory.wf (s.sendVec v) = true := by
  unfold State.sendVec
  split
  · exact memory_wf_pba h v 1
  · split
    · exact memory_wf_setBit h _ _ _
    · exact h

/-- An interrupt that rises sends its message (R504). -/
theorem memory_wf_noteRise (s0 : State) (b : Nat) : Memory.wf (State.noteRise s0 s b) = true := by
  unfold State.noteRise
  split
  · exact memory_wf_sendVec h _
  · exact h

/-- Brood memory takes the bytes of a record (R238). -/
theorem memory_wf_brood (k : Nat) (b : List Byte) :
    Memory.wf { s with ctn := { s.ctn with brood := spSetAll zeroByte s.ctn.brood k b } } = true := by
  obtain ⟨h0, h1, h2, h⟩ := (memory_wf_iff s).1 h
  exact (memory_wf_iff _).2 ⟨h0, h1, spWf_spSetAll _ _ _ _ h2, h⟩

/-- A coefficient store takes a word (R156). -/
theorem memory_wf_coef (k v : Nat) :
    Memory.wf { s with ing := { s.ing with coef := spSet zeroNat s.ing.coef k v } } = true := by
  obtain ⟨h0, h1, h2, h3, h⟩ := (memory_wf_iff s).1 h
  exact (memory_wf_iff _).2 ⟨h0, h1, h2, spWf_spSet _ _ _ _ h3, h⟩

/-- The window store takes a word (R180). -/
theorem memory_wf_win (k v : Nat) :
    Memory.wf { s with chn := { s.chn with win := spSet zeroNat s.chn.win k v } } = true := by
  obtain ⟨h0, h1, h2, h3, h4, h⟩ := (memory_wf_iff s).1 h
  exact (memory_wf_iff _).2 ⟨h0, h1, h2, h3, spWf_spSet _ _ _ _ h4, h⟩

/-- The gain store takes a word (R187). -/
theorem memory_wf_gain (k v : Nat) :
    Memory.wf { s with chn := { s.chn with gain := spSet zeroNat s.chn.gain k v } } = true := by
  obtain ⟨h0, h1, h2, h3, h4, h5, h⟩ := (memory_wf_iff s).1 h
  exact (memory_wf_iff _).2 ⟨h0, h1, h2, h3, h4, spWf_spSet _ _ _ _ h5, h⟩

/-- The input lists take an entry (R255). -/
theorem memory_wf_list (k v : Nat) :
    Memory.wf { s with cmb := { s.cmb with list := spSet zeroNat s.cmb.list k v } } = true := by
  obtain ⟨h0, h1, h2, h3, h4, h5, h6, h⟩ := (memory_wf_iff s).1 h
  exact (memory_wf_iff _).2 ⟨h0, h1, h2, h3, h4, h5, spWf_spSet _ _ _ _ h6, h⟩

theorem memory_wf_putWord (k v : Nat) : Memory.wf (s.putWord k v) = true := by
  obtain ⟨h0, h1, h2, h3, h4, h5, h6, h7, h⟩ := (memory_wf_iff s).1 h
  exact (memory_wf_iff _).2 ⟨h0, h1, h2, h3, h4, h5, h6, spWf_spSet _ _ _ _ h7, h⟩

theorem memory_wf_wtPut (b i v : Nat) : Memory.wf (s.wtPut b i v) = true := by
  obtain ⟨h0, h1, h2, h3, h4, h5, h6, h7, h8, h⟩ := (memory_wf_iff s).1 h
  exact (memory_wf_iff _).2 ⟨h0, h1, h2, h3, h4, h5, h6, h7, spWf_spSet _ _ _ _ h8, h⟩

theorem memory_wf_geoPut (b i v : Nat) : Memory.wf (s.geoPut b i v) = true := by
  obtain ⟨h0, h1, h2, h3, h4, h5, h6, h7, h8, h9, h⟩ := (memory_wf_iff s).1 h
  exact (memory_wf_iff _).2 ⟨h0, h1, h2, h3, h4, h5, h6, h7, h8, spWf_spSet _ _ _ _ h9, h⟩

theorem memory_wf_pmPut (n a v : Nat) : Memory.wf (s.pmPut n a v) = true := by
  obtain ⟨h0, h1, h2, h3, h4, h5, h6, h7, h8, h9, h10, h⟩ := (memory_wf_iff s).1 h
  exact (memory_wf_iff _).2 ⟨h0, h1, h2, h3, h4, h5, h6, h7, h8, h9, spWf_spSet _ _ _ _ h10, h⟩

theorem memory_wf_xmPut (n a v : Nat) : Memory.wf (s.xmPut n a v) = true := by
  obtain ⟨h0, h1, h2, h3, h4, h5, h6, h7, h8, h9, h10, h11, h⟩ := (memory_wf_iff s).1 h
  exact (memory_wf_iff _).2 ⟨h0, h1, h2, h3, h4, h5, h6, h7, h8, h9, h10, spWf_spSet _ _ _ _ h11, h⟩

theorem memory_wf_ymPut (n a v : Nat) : Memory.wf (s.ymPut n a v) = true := by
  obtain ⟨h0, h1, h2, h3, h4, h5, h6, h7, h8, h9, h10, h11, h12, h⟩ := (memory_wf_iff s).1 h
  exact (memory_wf_iff _).2 ⟨h0, h1, h2, h3, h4, h5, h6, h7, h8, h9, h10, h11, spWf_spSet _ _ _ _ h12, h⟩

/-- A word of the MSI-X table is written (R464). -/
theorem memory_wf_msix (i v : Nat) :
    Memory.wf { s with pci := { s.pci with msix := spSet msixReset s.pci.msix i v } } = true := by
  obtain ⟨h0, h1, h2, h3, h4, h5, h6, h7, h8, h9, h10, h11, h12, h13, h14⟩ := (memory_wf_iff s).1 h
  exact (memory_wf_iff _).2 ⟨h0, h1, h2, h3, h4, h5, h6, h7, h8, h9, h10, h11, h12, h13, spWf_spSet _ _ _ _ h14⟩

theorem memory_wf_msixMask (v m : Nat) : Memory.wf (s.msixMask v m) = true := by
  have h' := memory_wf_msix h (v * 4 + 3) (spGet msixReset s.pci.msix (v * 4 + 3) / 2 * 2 + m)
  unfold State.msixMask
  dsimp only
  split
  · exact memory_wf_sendVec (memory_wf_pba h' v 0) v
  · exact h'

theorem memory_wf_msixWrite (a v : Nat) : Memory.wf (s.msixWrite a v) = true := by
  unfold State.msixWrite
  dsimp only
  split
  · exact memory_wf_msixMask h _ _
  · exact memory_wf_msix h _ _

/-- DDR memory takes bytes. -/
theorem memory_wf_ddrMem (k : Nat) (b : List Byte) :
    Memory.wf { s with ddr := { s.ddr with mem := spSetAll zeroByte s.ddr.mem k b } } = true := by
  obtain ⟨h0, h1, h⟩ := (memory_wf_iff s).1 h
  exact (memory_wf_iff _).2 ⟨h0, spWf_spSetAll _ _ _ _ h1, h⟩

end

/-- What keeps the form at each step of a loop keeps it over the loop. -/
theorem memory_wf_each {α : Type} (f : State → α → State) (hf : ∀ s a, Memory.wf s = true → Memory.wf (f s a) = true) (l : List α) :
    ∀ s : State, Memory.wf s = true → Memory.wf (s.each l f) = true := by
  induction l with
  | nil => exact fun _ h => h
  | cons a t ih => exact fun s h => ih _ (hf s a h)

/-- A flag is set, which may send a message (R504). -/
theorem memory_wf_flag {s : State} (h : Memory.wf s = true) (a i : Nat) : Memory.wf (s.flag a i) = true :=
  memory_wf_noteRise (memory_wf_setBit h _ _ _) _ _

/-- An uncorrectable line is met (R457). -/
theorem memory_wf_ddrUncorr {s : State} (h : Memory.wf s = true) (l : Nat) : Memory.wf (s.ddrUncorr l) = true := by
  have h' := memory_wf_flag (memory_wf_count h (DDR_CHc_UNCORR (lineChannel l)) 1) DDR_ERR 3
  unfold State.ddrUncorr
  dsimp only
  split
  · exact h'
  · exact memory_wf_wr (memory_wf_wr h' _ _) _ _

theorem memory_wf_ddrNotReady {s : State} (h : Memory.wf s = true) (n : Nat) : Memory.wf (s.ddrNotReady n) = true :=
  memory_wf_flag (memory_wf_count h _ _) _ _

theorem memory_wf_ddrCorr {s : State} (h : Memory.wf s = true) (e : DdrErr) : Memory.wf (s.ddrCorr e) = true :=
  memory_wf_wr (memory_wf_flag (memory_wf_count h _ _) _ _) _ _

theorem memory_wf_ddrMeet {s : State} (h : Memory.wf s = true) (a n : Nat) (errs : List DdrErr) :
    Memory.wf (s.ddrMeet a n errs) = true := by
  refine memory_wf_each _ (fun t e ht => ?_) _ s h
  dsimp only
  split
  · exact ht
  · exact memory_wf_ddrCorr ht e

/-- A write of bytes to DDR memory (R443, R444). -/
theorem memory_wf_ddrWrite {s : State} (h : Memory.wf s = true) (a : Nat) (b : List Byte) :
    Memory.wf (s.ddrWrite a b) = true := by
  unfold State.ddrWrite
  dsimp only
  split
  · exact memory_wf_ddrNotReady h _
  · split
    · exact memory_wf_flag (memory_wf_ddrNotReady h _) _ _
    · refine memory_wf_each _ (fun t l ht => memory_wf_ddrUncorr ht l) _ _ ?_
      obtain ⟨h0, h1, h⟩ := (memory_wf_iff s).1 h
      exact (memory_wf_iff _).2 ⟨h0, spWf_spSetAll _ _ _ _ h1, h⟩

/-- The bytes of a line written one by one. -/
theorem spWf_foldl_spSet {α : Type} (k : Nat) (d : Nat → Byte) (f : α → Nat) (g : α → Byte) (l : List α) :
    ∀ m : List (Nat × Byte), spWf d m = true → spWf d (l.foldl (fun m o => spSet d m (k + f o) (g o)) m) = true := by
  induction l with
  | nil => exact fun _ h => h
  | cons o t ih => exact fun m h => ih _ (spWf_spSet d m _ _ h)

/-- The oldest entry of the write queue reaches DDR memory (R452, R453). -/
theorem memory_wf_wqIssue {s : State} (h : Memory.wf s = true) (errs : List DdrErr) : Memory.wf (s.wqIssue errs) = true := by
  unfold State.wqIssue
  split
  · exact h
  · rename_i e r _
    have key : ∀ u : State, Memory.wf u = true → ∀ bad : List Nat, Memory.wf { u with ddr := { u.ddr with
        wq := r, mem := e.2.foldl (fun m o => spSet zeroByte m (e.1 * 64 + o.1) o.2) u.ddr.mem, bad := bad } } = true := by
      intro u hu bad
      obtain ⟨h0, h1, h2⟩ := (memory_wf_iff u).1 hu
      exact (memory_wf_iff _).2 ⟨h0, spWf_foldl_spSet (e.1 * 64) _ (·.1) (·.2) e.2 _ h1, h2⟩
    have h1 : ∀ (c : Prop) [Decidable c], Memory.wf (if c then s.ddrMeet (e.1 * 64) 64 errs else s) = true := by
      intro c _; split
      · exact memory_wf_ddrMeet h _ _ _
      · exact h
    have h2 : ∀ (u : State) (c : Prop) [Decidable c], Memory.wf u = true → Memory.wf (if c then u.ddrUncorr e.1 else u) = true := by
      intro u c _ hu; split
      · exact memory_wf_ddrUncorr hu _
      · exact hu
    extract_lets part s1 s2
    exact key s2 (h2 s1 _ (h1 _)) _

end Sys2Proof.Machine
end

