-- ==== Sys2Proof/Tests/Slice0.lean ====
section
/-!
SUPPORT. The tests: for every statement with hypotheses a state and operands that meet them, one theorem per statement and one case per clause; the
words of the spec's tables; the numbers of its examples; and a command that each check of WellFormed refuses.
-/
set_option Elab.async false
namespace Sys2Proof.Tests
open Machine

def S (l : List (Nat × Nat)) : State := l.foldl (fun s e => s.wr e.1 e.2) (State.reset.wr GLB_DOMAINS 4095)
def atTick (s : State) (k : Nat) : State := { s with tim := { s.tim with lastTick := some k, now := k * tickU } }
def St (k : Nat) (l : List (Nat × Nat)) : State := atTick (S l) k
def up (s : State) : State := { s with pci := { s.pci with held := false } }
/-- A register held at `v`, whatever its reset value is. -/
def raw (a v : Nat) (s : State) : State := { s with regs := spPut s.regs a (BitVec.ofNat 32 v) }
def nx (r : Res) : State := match r with | .next t => t | _ => State.reset
def hb : List (Nat × Nat) := [(GLB_DOMAINS, 4095), (GLB_GUARD_LO, 0xFFFE), (GLB_GUARD_HI, 15), (GLB_BAR0_WE_LO, 2^32-1), (GLB_BAR0_WE_HI, 2^32-1)]
def nw (a : Nat) (s : State) (v : Nat) : Nat := match rowOf a with | some r => r.merge (s.rd a) (v % 2^32) | none => 0
/-- `hostArrives` as a computation. -/
def arrives (s : State) (acc : Access) (a v new : Nat) : Bool :=
  !s.pci.held && !inMsix a && !inPba a && permitted .host a && !s.domainStopped a && s.bar0Open a
  && match rowOf a with | some r => r.acc == acc && new == r.merge (s.rd a) (v % 2 ^ 32) && !s.guardStops r a (s.rd a) new | none => false
theorem hostArrives_of {s : State} {acc : Access} {a v new : Nat} (h : arrives s acc a v new = true) : s.hostArrives acc a v new := by
  unfold arrives at h
  split at h
  · next r e =>
      simp only [Bool.and_eq_true, Bool.not_eq_true', beq_iff_eq] at h
      exact ⟨h.1.1.1.1.1.1, h.1.1.1.1.1.2, h.1.1.1.1.2, h.1.1.1.2, h.1.1.2, h.1.2, r, e, h.2.1.1, h.2.1.2, h.2.2⟩
  · simp at h
theorem hostReaches_of {s : State} {acc : Access} {a v new : Nat} (h : (arrives s acc a v new && (blockPre a new s).isNone) = true) :
    s.hostReaches acc a v new := by
  simp only [Bool.and_eq_true, Option.isNone_iff_eq_none] at h; exact ⟨hostArrives_of h.1, h.2⟩

/-! ### Signed packets -/
def ky (k : Nat) : List Byte := (List.range 32).map (fun i => BitVec.ofNat 8 (k * 7 + i * 3))
def hd (role slot ses op seq fl len : Nat) : List Byte :=
  toBE 2 0x504C ++ [1] ++ toBE 1 fl ++ toBE 2 ses ++ toBE 2 (role * 2^14 + slot) ++ toBE 2 0xFFFF ++ toBE 2 op ++ toBE 4 seq ++ toBE 4 len
    ++ [0,0,0,0] ++ [1,2,3,4,5,6,7,8]
def mk (role slot ses op seq fl : Nat) (ps : List Byte) : List Byte := signPkt (ky ((slotOf role slot).getD 0)) (hd role slot ses op seq fl ps.length) ps
def pk (op : Nat) (ps : List Byte) : Pkt := { bytes := mk 1 0 0 op 9 0 ps, via := .ring 3 7 }
def pkS (op : Nat) (ps : List Byte) : Pkt := { bytes := mk 0 5 3 op 9 0 ps, via := .ring 3 6 }
def live (s : State) : State :=
  let s := up s
  let s := [(KPR_STATUS, 4 * 8 + 3), (CMD_KEYk_STATE 64, 1), (CMD_KEYk_STATE 5, 1), (CMD_KEYk_STATE 65, 1), (CMD_KEYk_H 64, 3), (CMD_BINDs_w 5 0, 8), (PCI_STATUS, 2048), (CMD_RINGr_BASE_LO 3, 2^20)].foldl (fun s e => s.wr e.1 e.2) s
  { s with cmd := { s.cmd with keys := [(5, ky 5), (64, ky 64), (65, ky 65)] }, kpr := { s.kpr with gap := false, orphan := false, recWait := false }, mon := { s.mon with held := false } }
def que (s : State) (p : Pkt) : State := { s with cmd := { s.cmd with ordQ := [p] } }
def slotNo (p : Pkt) : Nat := (pkSlot p.bytes).getD 0
def uOf (s : State) (p : Pkt) : State := (s.popCmd.turn p (slotNo p)).2
theorem accepts_of {s u : State} {p : Pkt} {k : Nat} {key : List Byte} (h1 : s.nextCmd = some p) (h2 : s.popCmd.gate p.bytes = .pass k key)
    (h3 : (s.popCmd.turn p k).1 = .run) (h4 : (s.popCmd.turn p k).2 = u) (h5 : u.precheck ⟨p, k, key⟩ = 0) : s.accepts p k key u :=
  ⟨h1, h2, Prod.ext h3 h4, h5⟩

def pkM (op : Nat) : Pkt := { bytes := signPkt (Config.makerKey 0) (hd 2 0 0 op 9 0 0) [], via := .ring 3 7 }
def sM : State :=
  let s := raw (CMD_KEYk_STATE 68) 1 ((live (St 9 hb)).wr CMD_AUDIT_NEXT 12 |>.wr CMD_AUDIT_OLDEST 10)
  que { s with cmd := { s.cmd with audit := [[1], [2]] } } (pkM 0x0107)
theorem pkParams_signPkt (key h ps : List Byte) (hl : h.length = 32) : pkParams (signPkt key h ps) = ps := by
  have e : 48 = (h ++ tagOf key (h ++ List.replicate 16 0 ++ ps)).length := by simp [hl]
  rw [pkParams, signPkt, e, List.drop_left]
theorem pkParams_pk (op : Nat) (ps : List Byte) : pkParams (pk op ps).bytes = ps := pkParams_signPkt _ _ _ rfl
theorem pkParams_pkS (op : Nat) (ps : List Byte) : pkParams (pkS op ps).bytes = ps := pkParams_signPkt _ _ _ rfl
/-- A state that keeps the reply to `pk 3 []`. -/
def sCached : State :=
  let s := (live (St 9 hb)).wr (CMD_KEYk_H 64) 9
  que { s with cmd := { s.cmd with seen := [(64, [9])], cache := [⟨[0, 3], 64, [⟨9, pkTag (pk 3 []).bytes, some [1, 2, 3]⟩]⟩] } } (pk 3 [])
theorem turn_cached : sCached.popCmd.turn (pk 3 []) 64 = (.resend [1, 2, 3], sCached.popCmd) := by
  have h : pkSeq (pk 3 []).bytes = 9 := by decide +kernel
  have h1 : sCached.popCmd.rd (CMD_KEYk_H 64) = 9 := by decide +kernel
  have h2 : sCached.popCmd.seenOf 64 = [9] := by decide +kernel
  have h3 : sCached.popCmd.cached (pk 3 []).via.source 64 9 = some ⟨9, pkTag (pk 3 []).bytes, some [1, 2, 3]⟩ := rfl
  unfold State.turn
  simp only [h, h1, h2, h3]
  simp

/-! ### A boot copy -/
def bh : List Byte := [0xB7, 0x14, 1, 0, 0, 0, 0, 5, 0, 0, 0, 8, 0, 0, 0, 1, 0x57, 0x6C, 0x35, 0xE3]
def bz : List Byte := List.replicate 20 0
def bcopy : List Byte := bh ++ (bz ++ (bz ++ ([0x76, 0xFA, 0xAB, 0x2A] ++ [3, 0, 0, 0, 0, 0, 0, 0])))
theorem bc1 : bh.foldl crc32cByte 0xFFFFFFFF = 0x80abae0c := by decide +kernel
theorem bc2 : bz.foldl crc32cByte 0x80abae0c = 0x928090f7 := by decide +kernel
theorem bc3 : bz.foldl crc32cByte 0x928090f7 = 0x890554d5 := by decide +kernel
theorem bcrc : crc32c (bcopy.take 60) = 0x76FAAB2A := by
  have e : bcopy.take 60 = bh ++ (bz ++ bz) := rfl
  rw [e, crc32c, List.foldl_append, bc1, List.foldl_append, bc2, bc3]; rfl
theorem bbody : slice bcopy 64 (beAt bcopy 8 4) = [3, 0, 0, 0, 0, 0, 0, 0] := by decide +kernel
theorem bcrc2 : crc32c [3, 0, 0, 0, 0, 0, 0, 0] = 0x576C35E3 := by decide +kernel
theorem bcopy_ok : bootCopy bcopy = some (5, [.stop]) := by
  simp only [bootCopy, bcrc, bbody, bcrc2]
  decide +kernel

/-! ### A hive without work, and the commands that change its configuration -/
def calm (l : List (Nat × Nat)) : State := raw PWR_BASE 200000 (l.foldl (fun s e => s.wr e.1 e.2) (live (St 9 (hb ++ [(TIM_STATUS, 1), (PWR_BUDGET, 400000)]))))
def imgOf (rs : List (Nat × Nat)) (l : List (Nat × Nat)) : List Byte := rs.flatMap (fun r => toBE 4 ((l.lookup r.1).getD 0))
theorem admits {s : State} {x : Option Nat} {r : Option Refused} (xs gs : List Nat)
    (hk : s.regs.all (fun p => !enableKey p.1 || xs.any (fun x => p.1 == CTN_SESx_CFG x) || gs.any (fun g => p.1 == TRG_SESg_CFG g)) = true)
    (hxs : ∀ x ∈ xs, s.bit (CTN_SESx_CFG x) 0 = 0 ∨ s.bit (CTN_SESx_CFG x) 1 = 0 ∧ s.bit (CTN_SESx_CFG x) 2 = 0
      ∧ bitsOf (s.rd (CTN_SESx_CFG2 x)) 29 16 + 5 ≤ bitsOf (s.rd (CTN_SESx_CFG x)) 24 8 * s.cvHop x / s.cvNs x)
    (hb : (∀ x ∈ xs, x < 1024) ∧ ∀ g ∈ gs, g < 8) (hgs : ∀ g ∈ gs, s.slotMember g = false ∧ s.slotCollects g = false) (hx : x.all (· < 1024) = true)
    (hr : (if s.rd PWR_BUDGET < s.rd PWR_BASE then some (⟨18, 0, s.rd PWR_BASE, s.rd PWR_BUDGET⟩ : Refused) else none) = r) : s.admission x = r := by
  rw [State.Idle.admission (State.Idle.of_keys xs gs hk hxs hb.1 hb.2 hgs) (fun y e => by subst e; simpa using hx), hr]
theorem classA {s : State} (hk : s.regs.all (fun p => !enableKey p.1 || ([] : List Nat).any (fun x => p.1 == CTN_SESx_CFG x)
    || ([] : List Nat).any (fun g => p.1 == TRG_SESg_CFG g)) = true) : s.classAPower = s.rd PWR_BASE := by
  rw [State.classAPower, (State.Idle.of_keys [] [] hk (by simp) (by simp) (by simp) (by simp)).estimate]; omega
theorem mapCommit_ok {s v : State} {x k : Nat} {m : CtnMaps} {c : CtnSes} (h1 : s.ctnOf x = some c)
    (h2 : c.pend = none ∧ s.bit (CTN_SESx_CFG x) 0 ≠ 0 ∧ s.begun k = false ∧ s.nextMapsOk m = true ∧ s.bit (CMB_SESx_CFG x) 0 ≠ 1 ∧ s.cmbOf x = none
      ∧ v.bit (SUP_SESx_CFG x) 0 ≠ 1)
    (h3 : (v.withMaps x m).admission (some x) = none) :
    s.mapCommit v x k m = (0, none, (s.setCtn x { c with pend := some (k, c.dwellFrom k, m) }).showAdmitted (v.withMaps x m)) := by
  obtain ⟨a0, a, b, d, e, f, g⟩ := h2
  have e0 : s.switchMaps x = s := by simp [State.switchMaps, h1, a0]
  have e1 : s.switchBad v x c k m = [] := by simp [State.switchBad, f, g, refuseIf]
  have e2 : (v.withMaps x m).refusals (some x) = [] := List.head?_eq_none_iff.mp h3
  simp [State.mapCommit, e0, e1, e2, h1, a, b, d, e, lowestCheck]
def cq1 : Pkt := pk 0x0101 (toBE 8 10 ++ toBE 4 6 ++ imgOf (sesRegs 6) [(CMD_SESx_CFG 6, 0x10)])
def cq3 : Pkt := pk 0x0102 (toBE 8 10 ++ toBE 4 6)
def cq4 : Pkt := pk 0x0201 (toBE 8 10 ++ toBE 4 0 ++ toBE 4 450000)
def cq6 : Pkt := pk 0x0201 (toBE 8 10 ++ toBE 4 0 ++ toBE 4 150000)
def cq7 : Pkt := pk 0x0E01 (toBE 8 10 ++ toBE 4 7 ++ imgOf (slotRegs 7) [(TRG_SESg_CFG 7, 6 * 2 ^ 22), (TRG_SESg_CFG2 7, 1), (TRG_SESg_HB 7, 2 * 65536 + 10)])
def ctn3 : CtnSes := { cfg := 1 + 1024 * 256, cfg2 := 3 + 1 * 256 + 20 * 65536, sibase := 0, brood := 0, udp := 0, epoch := 0, grid := 6 * 2 ^ 11 + 7 * 2 ^ 16, maps := [(0, ⟨2 * 65536 + 4, 2 * 65536 + 7, 9⟩)], pend := none, first := 0, last := none, win := [some 0, some 1] }
def calmC (l : List (Nat × Nat)) : State :=
  let s := calm ([(CTN_SESx_CFG 3, 1 + 1024 * 256), (CTN_SESx_CFG2 3, 3 + 1 * 256 + 20 * 65536), (CTN_SESx_GRID 3, 6 * 2 ^ 11 + 7 * 2 ^ 16), (CTN_CTRL, 1)] ++ l)
  { s with ctn := { s.ctn with ses := [(3, ctn3)] } }
def cq25 : Pkt := pk 0x0801 (toBE 8 10 ++ toBE 4 3 ++ toBE 4 (65536 + 4) ++ toBE 4 (65536 + 7) ++ toBE 4 77)
def sCommit : State := calmC [(CTN_SESx_NEXT_MAP 3, 65536 + 4), (CTN_SESx_NEXT_INMAP 3, 65536 + 7), (CTN_SESx_NEXT_EFF_LO 3, 10)]

/-! ### A worker before a word -/
def wCore : WCore := { WCore.reset with run := some 9, ran := some 9, pc := 10 }
def wS (c : WCore) (w : Nat) : State :=
  let s := St 10 [(WRK_CTRL, 1), (GLB_DOMAINS, 4095), (WRK_Wn_BUDGET 5, 1000)]
  ({ s with wrk := { s.wrk with cores := setNth s.wrk.cores 5 c } }).pmPut 5 10 w
def coreOk (c : WCore) : Bool :=
  c.cur == { WBank.reset with sr := c.cur.sr } && c.cur.sr < 512 && c.oth == WBank.reset && c.m == List.replicate 8 0 && c.l == List.replicate 8 0 && c.mr == 0 && c.mrNext == none && c.smr == 0
  && c.rta == 0 && c.pc == 10 && c.stack.all (fun e => e.2.1 < 2 ^ 15 && e.2.2 < 2 ^ 15) && c.slot.all (fun sl => sl.from_ < 2 ^ 15 && sl.target == none) && c.loads == []
theorem bank_wf {v : Nat} (h : v < 512) : ({ WBank.reset with sr := v } : WBank).wf := by
  refine ⟨rfl, rfl, rfl, ?_, ?_, ?_, h⟩ <;> simp [WBank.reset]
theorem reset_wf : WCore.reset.wf := by
  refine ⟨bank_wf (v := 0) (by decide), bank_wf (v := 0) (by decide), ?_⟩; simp [WCore.reset]
theorem core_wf {c : WCore} (h : coreOk c = true) : c.wf := by
  simp only [coreOk, Bool.and_eq_true, beq_iff_eq, List.all_eq_true, decide_eq_true_eq, Option.all_eq_true] at h
  obtain ⟨⟨⟨⟨⟨⟨⟨⟨⟨⟨⟨⟨h1, h0⟩, h2⟩, h3⟩, h4⟩, h5⟩, h6⟩, h7⟩, h8⟩, h9⟩, h10⟩, h11⟩, h12⟩ := h
  refine ⟨h1 ▸ bank_wf h0, h2 ▸ bank_wf (v := 0) (by decide), by simp [h3], by simp [h4], by simp [h3], by simp [h4], by omega, by simp [h6], by omega, by omega, by omega, h10, ?_, by simp [h12]⟩
  intro sl e; have := h11 sl e; exact ⟨this.1, by simp [this.2]⟩
theorem wS_wf (c : WCore) (w : Nat) (h : coreOk c = true) : (wS c w).workersWf := by
  have e : (wS c w).wrk.cores = List.replicate 5 WCore.reset ++ c :: List.replicate 58 WCore.reset := rfl
  rw [State.workersWf, e]
  refine ⟨by simp, ?_⟩
  intro x hx
  simp only [List.mem_append, List.mem_replicate, List.mem_cons] at hx
  rcases hx with ⟨-, rfl⟩ | rfl | ⟨-, rfl⟩
  · exact reset_wf
  · exact core_wf h
  · exact reset_wf
theorem stays_of {c : WCore} (h : (c.slot.all (fun sl => !sl.rte || 1 < sl.left)) = true) : c.stays := by
  intro sl e r
  have := (Option.all_eq_true ..).mp h sl e
  simpa [r] using this
theorem wS_core (c : WCore) (w : Nat) : (wS c w).core 5 = c := rfl
/-- The same worker with further registers written. -/
def wR (c : WCore) (l : List (Nat × Nat)) : State := l.foldl (fun s e => s.wr e.1 e.2) (wS c 0)
theorem wr_all (l : List (Nat × Nat)) (s : State) (h : s.workersWf) : (l.foldl (fun s e => s.wr e.1 e.2) s).workersWf := by
  induction l generalizing s with
  | nil => exact h
  | cons e r ih => exact ih _ h
theorem wR_wf (c : WCore) (l : List (Nat × Nat)) (h : coreOk c = true) : (wR c l).workersWf := wr_all _ _ (wS_wf _ _ h)
def wRest : WCore := { wCore with run := none, ran := some 8 }
def wRun : State := wR wRest [(WRK_Wn_CFG 5, 1 + 2 ^ 21 + 3 * 2 ^ 22), (WRK_Wn_ENTRY 5, 0x1234), (WRK_Wn_STATUS 5, 2 ^ 30)]
def wOpen : WCore := { wCore with cur := { WBank.reset with sr := 256 }, cyc := 1 }


/-- The hypotheses of StepRunsTheFrontCommand are met. -/
theorem test_StepRunsTheFrontCommand :
    (∃ (c : Instr) (s : State) (rest : List Instr), s.pending = c :: rest)
    ∧ (∃ s : State, s.pending = []) :=
  ⟨⟨.tickStrobe, { State.reset with pending := [.tickStrobe] }, [], rfl⟩,
    ⟨State.reset, rfl⟩⟩


/-- The hypotheses of ResetLeavesTheStatedValues are met. -/
theorem test_ResetLeavesTheStatedValues :
    ∃ b : Nat, 1 ≤ b ∧ b ≤ 19 :=
  ⟨19, by decide⟩

/-! ### Hypotheses: group 03 -/
namespace W03

def tod : State := let s := S [(GLB_DOMAINS, 4095)]; { s with tim := { s.tim with todPend := some (2^48+5, 3), now := secU + 5 } }
def stp (d : Int) : State := let s := S [(TIM_STATUS, 7)]; { s with tim := { s.tim with step := some (d, 1000), now := 1000*secU - 7, lastTick := some 999999999 } }
def pm (k : PtpKind) : PtpMsg := ⟨k, 0, 3, 0, 77, 5, 65536, 1000*65536, false, 2000*65536, 128, 6, 0x21, 5, 128, 99, 1, true, 37, 0x20, 0⟩
def p0 (st : Nat) : State := let s := (((S [(TIM_CTRL, 1)]).wr (PTPn_CFG 2) (1 + 3*65536)).setPortState 2 st).wr (PTPn_RXLAT 2) 100
  { s with tim := { s.tim with us := 4000000, ptp := setNth s.tim.ptp 2 { s.ptpInst 2 with mpd := some 4242, best := some (pm .announce), syncTx := some (4, 65540), req := some ⟨1,2,65537,4⟩, respTx := some ⟨1,2,65537,4⟩ } } }

/-- The hypotheses of HiveTimeIsReadLoadedAndStepped are met. -/
theorem test_HiveTimeIsReadLoadedAndStepped :
    (∃ (sec at_ : Nat) (s : State), s.tim.todPend = some (sec, at_) ∧ s.timeValid = false ∧ (if s.candIsPps (s.fd CLK_STATUS CLK_STATUS_ACTIVE) = true then s.tim.todEdge = true else s.tim.now % secU < s.clockStep ∧ at_ < s.tim.now))
    ∧ (∃ (s : State), s.timeValid = true)
    ∧ (∃ (sec at_ : Nat) (s : State), s.tim.todPend = some (sec, at_) ∧ s.candIsPps (s.fd CLK_STATUS CLK_STATUS_ACTIVE) = false ∧ s.tim.now ≤ at_)
    ∧ (∃ (d : Int) (sec : Nat) (s : State), s.tim.step = some (d, sec) ∧ sec * secU ≤ s.nextTick * tickU ∧ 0 ≤ (sec * 1000000000 * 2 ^ 16 : Nat) + d)
    ∧ (∃ (s : State), (s.tim.step = none ∨ (∃ d sec, s.tim.step = some (d, sec) ∧ s.nextTick * tickU < sec * secU))) :=
  ⟨⟨(2^48+5), 3, tod, by decide +kernel⟩,
    ⟨(S [(TIM_STATUS, 1)]), by decide +kernel⟩,
    ⟨(2^48+5), 3, ({ tod with tim := { tod.tim with now := 3 } }), by decide +kernel⟩,
    ⟨(-5), 1000, (stp (-5)), by decide +kernel⟩,
    ⟨({ stp 3 with tim := { (stp 3).tim with now := 5, lastTick := some 0 } }), Or.inr ⟨3, 1000, rfl, by decide +kernel⟩⟩⟩


/-- The hypotheses of PtpMessagesMeasureTheOffset are met. -/
theorem test_PtpMessagesMeasureTheOffset :
    (∃ (n : Nat) (m : PtpMsg) (s : State), s.ptpRuns n = true ∧ (m.kind = .management ∨ m.kind = .signaling ∨ m.domain ≠ s.fd (PTPn_CFG n) PTPn_CFG_DOMAIN ∨ m.sdo ≠ s.fd (PTPn_CFG n) PTPn_CFG_MAJOR_SDO ∨ m.transport ≠ s.fd (PTPn_CFG n) PTPn_CFG_TRANSPORT))
    ∧ (∃ (n : Nat) (m : PtpMsg) (mpd : Int) (s : State), s.ptpRuns n = true ∧ m.kind = .sync ∧ m.twoStep = false ∧ m.domain = s.fd (PTPn_CFG n) PTPn_CFG_DOMAIN ∧ m.sdo = s.fd (PTPn_CFG n) PTPn_CFG_MAJOR_SDO ∧ m.transport = s.fd (PTPn_CFG n) PTPn_CFG_TRANSPORT ∧ s.portState n = 9 ∧ n ≠ s.timeSource ∧ (s.ptpInst n).best.map (·.source) = some m.source ∧ (s.ptpInst n).mpd = some mpd ∧ n < s.tim.ptp.length)
    ∧ (∃ (n : Nat) (kind : PtpKind) (s : State), s.ptpRuns n = true ∧ s.ptpMay n kind = true)
    ∧ (∃ (n : Nat) (s : State), s.bit (PTPn_CFG n) 9 = 0)
    ∧ (∃ (n : Nat) (s : State), s.ptpRuns n = true ∧ (s.portState n = 4 ∨ s.portState n = 7 ∨ s.portState n = 8 ∨ s.portState n = 9) ∧ n ≠ s.timeSource ∧ (s.ptpInst n).since + s.fd (PTPn_INTV n) ⟨27, 24⟩ * s.annUs n ≤ s.tim.us) :=
  ⟨⟨2, (pm .management), (p0 9), by decide +kernel⟩,
    ⟨2, ({ pm .sync with transport := (p0 9).fd (PTPn_CFG 2) PTPn_CFG_TRANSPORT }), 4242, (p0 9), by decide +kernel⟩,
    ⟨2, (.sync), (p0 6), by decide +kernel⟩,
    ⟨2, (p0 6), by decide +kernel⟩,
    ⟨2, (p0 9), by decide +kernel⟩⟩

end W03

/-! ### Hypotheses: group 04 -/
namespace W04

def ets : State := let s := (S [(CANDc_CFG 12, 1), (ETHn_STATUS 3, 65)]).setCandQl 12 2
  { s with tim := { s.tim with us := 20000000 }, clk := { s.clk with okSince := setNth (setNth s.clk.okSince 12 (some 5)) 0 (some 7), lostOnce := setNth s.clk.lostOnce 0 true } }
def ppsI (l : List (Nat × Nat)) : State := (S ([(CANDc_CFG 7, 1), (CANDc_STATUS 7, 256), (CLK_QUALIFIED, 128), (TIM_STATUS, 1)] ++ l)).setFd (CANDc_CFG 7) CANDc_CFG_TYPE 1
def ph (p : Int) (r : Nat) : State := let s := S [(CLK_STATUS, 5), (TIM_STATUS, 1)]; {s with clk := {s.clk with phase := p, slewRem := r}}
def ppsS : State := S [(PPS_OUTn_CFG 3, 1 + 8), (PPS_OUTn_OFS 3, 2^32-5), (TIM_STATUS, 1), (CLK_STATUS, 2)]
def ppsT (s : State) (_ : Int) : State := {s with tim := {s.tim with now := 5*secU - 1000 }}

/-- The hypotheses of CandidatesQualifyAndFail are met. -/
theorem test_CandidatesQualifyAndFail :
    (∃ (c since : Nat) (fofs : Int) (s : State), c < 13 ∧ nth s.clk.okSince c none = some since ∧ since + bitsOf (s.rd (CANDc_QTOL c)) 23 16 * 1000000 ≤ s.tim.us ∧ s.candQualified c = false ∧ s.candHolds c = true ∧ (c = 8 ∨ fofs.natAbs * 1000000000 ≤ bitsOf (s.rd (CANDc_QTOL c)) 15 0 * 2 ^ 40))
    ∧ (∃ (c : Nat) (s : State), c < 13 ∧ (c ≠ 8 ∨ s.candHolds 8 = false))
    ∧ (∃ (c : Nat) (s : State), c < 8 ∧ s.candIsPps c = true)
    ∧ (∃ (c : Nat) (s : State), c < 13 ∧ s.candInWtr c = true ∧ nth s.clk.wtrTicks c 0 ≤ 1)
    ∧ (∃ (c : Nat) (s : State), c < 13 ∧ s.candInWtr c = true ∧ 1 < nth s.clk.wtrTicks c 0)
    ∧ (∃ (p : Nat), p < 4)
    ∧ (∃ (p : Nat) (s : State), p < 4 ∧ nth s.clk.esmcAt p 0 + 5000000 ≤ s.tim.us)
    ∧ (∃ (p : Nat) (s : State), p < 4 ∧ s.tim.us < nth s.clk.esmcAt p 0 + 5000000) :=
  ⟨⟨12, 5, (-5), ets, by decide +kernel⟩,
    ⟨0, ((S [(TIM_STATUS,1),(CANDc_CFG 0, 1), (CANDc_STATUS 0, 256)]).setFd (CANDc_CFG 0) CANDc_CFG_TYPE 1), by decide +kernel⟩,
    ⟨7, (ppsI []), by decide +kernel⟩,
    ⟨12, (S [(CANDc_STATUS 12, 512+256)]), by decide +kernel⟩,
    ⟨12, (let s := S [(CANDc_STATUS 12, 512+256)]; {s with clk := {s.clk with wtrTicks := setNth s.clk.wtrTicks 12 2}}), by decide +kernel⟩,
    ⟨3, by decide +kernel⟩,
    ⟨3, (let s := S []; {s with tim := {s.tim with us := 5000000}}), by decide +kernel⟩,
    ⟨0, (S []), by decide +kernel⟩⟩


/-- The hypotheses of DpllLocksAndPulsesLeave are met. -/
theorem test_DpllLocksAndPulsesLeave :
    (∃ (s : State), (s.dpll ≠ 1 ∨ s.clk.lockFor < bitsOf (s.rd CLK_LOCK) 23 16 * 1000000))
    ∧ (∃ (s : State), s.bit CLK_STATUS 2 = 1 ∧ s.clk.phase = 0)
    ∧ (∃ (s : State), s.clk.phase ≠ 0)
    ∧ (∃ (n sec : Nat) (s : State), let own := s.bit (PPS_OUTn_CFG n) 1 = 0; let edge := if s.candIsPps (s.fd CLK_STATUS CLK_STATUS_ACTIVE) = true then s.clk.ppsEdge else none; let start : Int := (sec * 4000000000 : Nat) + (if own then 0 else match edge with | some e => fromSecond e / 16384 | none => 0) + signed 32 (s.rd (PPS_OUTn_OFS n)); n < 4 ∧ s.bit (PPS_OUTn_CFG n) 0 = 1 ∧ s.squelched (PPS_OUTn_CFG n) = false ∧ s.edgeDue (.ppsOut n) start = true)
    ∧ (∃ (k : Nat) (s : State), let start : Int := (k * 4000 : Nat) + signed 32 (s.rd TICK_OUT_OFS); s.bit TICK_OUT_CFG 0 = 1 ∧ s.squelched TICK_OUT_CFG = false ∧ s.fd TICK_OUT_CFG TICK_OUT_CFG_DIV ∣ k ∧ s.edgeDue .tickOut start = true) :=
  ⟨⟨(S []), by decide +kernel⟩,
    ⟨(S [(CLK_STATUS, 5)]), by decide +kernel⟩,
    ⟨(ph 3 0), by decide +kernel⟩,
    ⟨3, 5, (ppsT ppsS 0), by decide +kernel⟩,
    ⟨3000, (let s := ((S [(TICK_OUT_CFG, 9), (TIM_STATUS, 1)]).setFd TICK_OUT_CFG TICK_OUT_CFG_DIV 1000); {s with tim := {s.tim with now := 3000*tickU}}), by decide +kernel⟩⟩

end W04

/-! ### Hypotheses: group 05 -/
namespace W05

def stuffB : Nat → Bool → List Bool → List Bool
  | _, _, [] => []
  | run, last, x :: r => let n := if x == last then run + 1 else 1
    if n = 24 then x :: (!x) :: stuffB 1 (!x) r else x :: stuffB n x r
def nb (l : List (Nat × Nat)) : State := S ([(NEC_CTRL, 1), (NEC_BUNDLEb_CFG 15, 3), (NEC_PORTn_CFG 60, 1), (GLB_DOMAINS, 4095)] ++ l)
def nl (b u st : Nat) (s : State) : State := (s.setFd (NEC_LANE_STATUS b u) NEC_LANE_STATUS_STATE st).setNecLane b u ⟨if st = 1 then 2 else 0, 8, 5, false, false⟩
def lb (w : Nat) : LaneBits := ⟨0, false, (stuffB 0 false ((List.range 64).map (fun i => w.testBit i)))⟩
def blk (tick : Nat) (bad : Nat) : List Nat := let w := [0xB7E5 + 5 * 2^32, tick % 2^48, 0xFE]; w ++ [(crc32c (necBytes w)).toNat + bad]
def rawOf (n w0 : Nat) (ws : List Nat) : List NecWord := ws.zipIdx.map (fun q => ⟨(List.range 17).map (fun u => lb (if u = wordLane n (w0+q.2) then descramble (n/4) u ((w0+q.2)/4%512) q.1 else 0))⟩)
def np (k : Nat) : State := atTick (((List.range 4).foldl (fun s q => nl 15 q 2 s) (nb [(NEC_BUNDLEb_STATUS 15, 2^31), (NEC_PORTn_CFG 60, 1)]))) k
def sentv (v : Nat) : Nat := nth [11243584796789375848, 8842531704482650592, 6441478612175925336, 4040425519869200080] v 0
def xl0 : LaneBits := ⟨0, false, [false, false, false, false, false, false, false, true, false, true, true, true, false, false, false, false, true, true, true, false, false, true, true, true, false, true, true, true, true, true, true, true, true, true, true, false, false, true, true, true, false, true, false, true, true, false, false, true, true, true, false, false, true, true, false, true, false, false, true, false, true, false, true, false]⟩
def xl1 : LaneBits := ⟨0, false, [false, false, false, true, false, false, false, false, false, false, true, false, true, false, true, false, true, true, false, true, false, true, false, true, false, false, false, true, false, false, true, true, false, true, true, false, true, false, false, true, true, false, true, true, true, false, true, false, false, false, true, true, false, false, false, true, false, true, false, false, true, false, false, true]⟩
def xl3 : LaneBits := ⟨0, false, [false, false, false, true, true, true, false, false, true, true, false, true, false, false, false, false, false, false, false, false, false, false, true, false, true, false, false, true, false, false, true, true, false, false, false, false, true, true, false, true, true, true, true, true, true, false, true, true, false, false, false, true, false, true, true, false, false, false, false, false, false, false, true, true]⟩
def xl16 : LaneBits := ⟨0, false, [false, false, false, true, false, true, true, true, true, false, false, false, false, true, true, true, true, false, false, true, false, false, false, true, false, false, true, false, false, false, false, true, false, true, false, true, false, true, true, false, false, true, false, false, false, true, false, true, true, true, false, true, true, true, true, false, true, false, true, true, false, false, true, false]⟩
def xw : NecWord := ⟨[xl0, xl1, ⟨0, false, List.replicate 65 true⟩, xl3] ++ List.replicate 12 ⟨0, false, []⟩ ++ [xl16]⟩

/-- The hypotheses of LanesFollowTheirMarkers are met. -/
theorem test_LanesFollowTheirMarkers :
    (∃ (b u : Nat) (s : State), s.blockOn 5 = true ∧ b < 16 ∧ u < 17 ∧ s.laneOn b u = true ∧ s.laneState b u < 4)
    ∧ (∃ (b u : Nat) (s : State), s.blockOn 5 = true ∧ b < 16 ∧ u < 17 ∧ s.laneOn b u = true) :=
  ⟨⟨15, 3, (nl 15 3 0 (nb [])), by decide +kernel⟩,
    ⟨15, 16, (nb [(NEC_LANE_DFE 15 16, 31 + 48 * 64 + 16*2^18 + 48*2^24)]), by decide +kernel⟩⟩


/-- The hypotheses of NectarBlocksReachTheirInputs are met. -/
theorem test_NectarBlocksReachTheirInputs :
    (∃ (n w0 : Nat) (words : List NecWord) (s : State), let ws := words.zipIdx.map (fun q => q.1.data (n / 4) (wordLane n (w0 + q.2)) ((w0 + q.2) / 4 % 512)); let h := necHeader (nth ws 0 0) (nth ws 1 0); n < 64 ∧ s.blockOn 5 = true ∧ s.portEn n = true ∧ s.bit (NEC_BUNDLEb_CFG (n / 4)) 0 = 1 ∧ s.bundleAligned (n / 4) = true ∧ (nth s.nec.ports n NecPort.reset).buf = [] ∧ (∀ x ∈ words, ∀ l ∈ x.lanes, l.viol = 0) ∧ (∀ q, q < 4 → s.laneState (n / 4) (4 * (n % 4) + q) = 2 ∧ s.laneExcluded (n / 4) (4 * (n % 4) + q) = false) ∧ s.fd (NEC_BUNDLEb_CFG (n / 4)) NEC_BUNDLEb_CFG_FORCE_EN = 0 ∧ s.bit (NEC_BUNDLEb_STATUS (n / 4)) 30 = 0 ∧ h.ok = true ∧ ws.length = h.length + 3 ∧ n < s.nec.ports.length ∧ (nth s.nec.ports n NecPort.reset).wait = [])
    ∧ (∃ (n w : Nat) (x : NecWord) (sent : Nat → Nat) (s : State), let b := n / 4; let u := wordLane n w; let q := w / 4 % 512; n < 64 ∧ s.portEn n = true ∧ s.bit (NEC_BUNDLEb_CFG b) 1 = 1 ∧ s.laneState b 16 = 2 ∧ (x.lane 16).viol = 0 ∧ (∀ v ∈ s.usedLanes b, v ≠ u → s.laneState b v = 2 ∧ s.laneExcluded b v = false ∧ (x.lane v).viol = 0 ∧ x.data b v q = sent v) ∧ x.data b 16 q = (s.usedLanes b).foldl (fun acc v => Nat.xor acc (sent v)) 0 ∧ (s.laneState b u ≠ 2 ∨ s.laneExcluded b u = true ∨ (x.lane u).viol ≠ 0))
    ∧ (∃ (n k b : Nat) (rest : List (Nat × Nat)) (s : State), n < 64 ∧ s.bit GLB_DOMAINS 4 = 1 ∧ s.portEn n = true ∧ s.tickClosed k = true ∧ (nth s.nec.ports n NecPort.reset).todo = (k, b) :: rest ∧ (∀ r ∈ rest, k < r.1) ∧ k ≤ b ∧ (nth s.nec.ports n NecPort.reset).wait = [])
    ∧ (∃ (s : State), s.nec.due = true ∧ s.bit GLB_DOMAINS 4 = 1) :=
  ⟨⟨60, 0, (rawOf 60 0 (blk 5 1)), (np 6), by decide +kernel⟩,
    ⟨60, 2, xw, sentv, (nl 15 16 2 (np 6)), by decide +kernel⟩,
    ⟨60, 5, 7, ([]), ((np 7).modNecPort 60 (fun p => { p with causes := [(5, .crcErr)], todo := [(5,7)] })), by decide +kernel⟩,
    ⟨(let s := (np 6).modNecPort 63 (fun p => { p with spsEnd := 2^33 + 7, missEnd := 3 }); {s with nec := { s.nec with ended := (true, 5000) :: List.replicate 15 (false, 7), due := true }}), by decide +kernel⟩⟩

end W05

/-! ### Hypotheses: group 06 -/
namespace W06

def ig (k : Nat) (i : Nat) (cfg st : Nat) (f : Slot → Slot) : State := let s := (((St k [(ING_CTRL, 1), (GLB_DOMAINS, 4095)]).wr (ING_Ii_CFG i) cfg).wr (ING_Ii_STATUS i) st)
  { s with ing := { s.ing with slots := setNth s.ing.slots i (f Slot.reset) } }
def dm (k : Nat) : DlyModel := ⟨5, 6, 7, k⟩
def nt (i k : Nat) (c : NecCause) : NativeTick := ⟨i, k, 1, 10, [5, -6, 7], c⟩
def inb (s : State) (l : List NativeTick) : State := { s with ing := { s.ing with inbox := l, replayIn := l.reverse } }
def r17 : State := (ig 9 0 (1 + 7*2^24) (3*2^30) (fun t => {t with kStart := 7}))
def cf : Nat := 1 + 6 * 2^11 + 7 * 2^16 + 2^7
def ch0 (k : Nat) (l : List (Nat × Nat)) (can : List CanonTick) : State := let s := St k ([(CHN_CTRL, 1), (GLB_DOMAINS, 4095), (CHN_CPp_CFG 1, cf), (CHN_CPp_RANGE 1, 3), (CHN_Ii_CFG 3, 1)] ++ l)
  let s := s.setFd (CHN_Ii_CFG 3) CHN_Ii_CFG_PROFILE 1
  { s with ing := { s.ing with canon := can } }
def ct (k : Nat) (v : Int) (gap : Bool) : CanonTick := ⟨3, k, false, List.replicate 100 ⟨v, if gap then .laneLost else .none, gap⟩, List.replicate 100 false⟩
def r25 : State := ch0 5 [] [ct 0 100 false, ct 1 200 false, ct 2 300 false, ct 3 5 false, ct 4 7 false]

/-- The hypotheses of SlotsTakeTheirTicksAndMakeGridTicks are met. -/
theorem test_SlotsTakeTheirTicksAndMakeGridTicks :
    (∃ (i : Nat) (m : DlyModel) (s : State), i < 256 ∧ i < s.ing.slots.length ∧ (s.slot i).pend = some m ∧ s.slotBegun i m.kr = true)
    ∧ (∃ (i kr : Nat) (s : State), i < 256 ∧ i < s.ing.slots.length ∧ (s.slot i).startAt = some kr ∧ s.blockOn 6 = true ∧ s.bit (ING_Ii_CFG i) 0 = 1 ∧ s.slotRunning i = false ∧ s.slotBegun i kr = true)
    ∧ (∃ (i : Nat) (s : State) (b : _), i < 256 ∧ i < s.ing.slots.length ∧ (s.slot i).stopAt = some b ∧ s.begun b = true)
    ∧ (∃ (i : Nat) (b : NativeTick) (s : State), let queue := if s.slotReplay i then s.ing.replayIn else s.ing.inbox; i < 256 ∧ i < s.ing.slots.length ∧ nextBlock queue i = some b ∧ s.bit GLB_DOMAINS 4 = 1 ∧ (s.slotReplay i = true → s.replayTurn i = true) ∧ (s.slotRunning i = false ∨ s.slotHalted i = true ∨ b.tick < (s.slot i).kStart))
    ∧ (∃ (i : Nat) (b : NativeTick) (s : State), let queue := if s.slotReplay i then s.ing.replayIn else s.ing.inbox; i < 256 ∧ i < s.ing.slots.length ∧ nextBlock queue i = some b ∧ s.bit GLB_DOMAINS 4 = 1 ∧ (s.slotReplay i = true → s.replayTurn i = true) ∧ s.slotRunning i = true ∧ s.slotHalted i = false ∧ (s.slot i).kStart ≤ b.tick ∧ s.blockOn 6 = true ∧ b.cause ≠ .none)
    ∧ (∃ (i : Nat) (b : NativeTick) (s : State) (o : Nat), let queue := if s.slotReplay i then s.ing.replayIn else s.ing.inbox; (match (s.slot i).ticks.find? (fun e => e.cause == .none) with | none => o = 0 ∧ b.tick = (s.slot i).kStart | some j => o = j.o + j.spi ∧ b.tick = j.tick + 1) ∧ i < 256 ∧ i < s.ing.slots.length ∧ nextBlock queue i = some b ∧ s.bit GLB_DOMAINS 4 = 1 ∧ (s.slotReplay i = true → s.replayTurn i = true) ∧ s.slotRunning i = true ∧ s.slotHalted i = false ∧ (s.slot i).kStart ≤ b.tick ∧ s.blockOn 6 = true ∧ b.cause = .none)
    ∧ (∃ (i k : Nat) (s : State), (s.slotHalted i = true ∨ ∃ b rest, (s.slot i).ticks = b :: rest ∧ k + 1 ≤ b.tick) ∧ i < 256 ∧ i < s.ing.slots.length ∧ s.blockOn 6 = true ∧ s.slotRunning i = true ∧ (s.slot i).kStart ≤ k ∧ (∀ c ∈ s.ing.canon, ¬ (c.input = i ∧ c.tick = k ∧ c.replay = s.slotReplay i)) ∧ (s.slotReplay i = false → s.begun (k + 5) = false)) :=
  ⟨⟨255, (dm 9), (ig 9 255 1 (2^26) (fun t => { t with pend := some (dm 9) })), by decide +kernel⟩,
    ⟨255, 9, (ig 9 255 1 (2^26) (fun t => { t with pend := some (dm 9), startAt := some 9, nextOrd := 5 })), by decide +kernel⟩,
    ⟨0, (ig 9 0 1 (7*2^29) (fun t => { t with stopAt := some 9 })), 9, by decide +kernel⟩,
    ⟨0, (nt 0 7 .none), (inb (ig 9 0 1 (2^30) (fun t => t)) [nt 1 3 .none, nt 0 8 .none, nt 0 7 .none]), by decide +kernel⟩,
    ⟨0, (nt 0 7 .crcErr), (inb (ig 9 0 5 (2^31) (fun t => {t with kStart := 7})) [nt 1 3 .none, nt 0 8 .none, nt 0 7 .crcErr]), by decide +kernel⟩,
    ⟨0, (nt 0 7 .none), (inb (ig 9 0 5 (2^31) (fun t => {t with kStart := 7})) [nt 1 3 .none, nt 0 8 .none, nt 0 7 .none]), 0, ⟨rfl, by decide +kernel⟩, by decide +kernel⟩,
    ⟨0, 7, r17, Or.inl (by decide +kernel), by decide +kernel⟩⟩


/-- The hypotheses of SpectraAreCompleteAndGainsSwitchByTick are met. -/
theorem test_SpectraAreCompleteAndGainsSwitchByTick :
    (∃ (i n : Nat) (s : State), let p := s.inputProfile i; let cfg := s.cpCfg p; let h := homeTick (s.cpEpoch p) cfg n; let k0 : Int := (s.cpEpoch p : Int) + (specStart cfg n).fdiv (cpNs cfg); i < 256 ∧ s.blockOn 7 = true ∧ bitOf cfg 0 = 1 ∧ s.inputOn i h = true ∧ s.specExists i n = true ∧ (∀ q, q < h + 1 - k0.toNat → s.canonDue i (k0 + q) = true) ∧ s.specDone i n = false ∧ (if s.inputReplay i = true then s.chn.debt < s.chnIdle else s.begun (h + 3) = false))
    ∧ (∃ (k : Nat) (s : State), s.chn.gainEff = some k ∧ s.begun k = true ∧ s.chn.switched = false)
    ∧ (∃ (k : Nat) (s : State), s.chn.gainEff = some k ∧ s.begun (k + 2) = true ∧ s.chn.switched = true) :=
  ⟨⟨3, 4, r25, by decide +kernel⟩,
    ⟨9, (let s := ch0 9 [(CHN_GAIN_STATUS, 2)] []; {s with chn := {s.chn with gainEff := some 9}}), by decide +kernel⟩,
    ⟨7, (let s := ch0 9 [(CHN_GAIN_STATUS, 3)] []; {s with chn := {s.chn with gainEff := some 7, switched := true}}), by decide +kernel⟩⟩

end W06

/-! ### Hypotheses: group 08 -/
namespace W08

def et (l : List (Nat × Nat)) : State := St 9 ([(ETH_CTRL, 1), (GLB_DOMAINS, 4095), (ETHn_CFG 31, 1 + 32), (ETHn_STATUS 31, 1), (ETHn_IP4 31, 0x0A000001), (ETHn_IP4_CFG 31, 2^31), (ETHn_IP6_CFG 31, 2^31), (ETH_ICMP_RATE, 2)] ++ l)
def fr (q len : Nat) : TxFrame := ⟨.arp, 0, 0, q, len, 9, 0, [], none⟩
def pt (s : State) (f : EthPort → EthPort) : State := { s with eth := { s.eth with ports := setNth s.eth.ports 31 (f (s.port 31)) } }
def full : EthPort → EthPort := fun p => { p with queues := setNth (setNth p.queues 3 [fr 3 100000, fr 3 100000]) 7 [fr 7 50], cur := some (fr 3 100), left := 100, promoted := [3], tries := 2 }
def obx (s : State) (l : List (Nat × TxFrame)) : State := { s with eth := { s.eth with outbox := l } }
def sn : Send := ⟨.honey, 5, 1, 31, 2, 9, List.replicate 12 0, List.replicate 64 0, 8, 12, 3, 16, List.replicate 100 7⟩
def cutS : State := let s := et [(ETHn_CFG2 31, 200)]; { s with eth := { s.eth with sends := [sn] } }
def rx (m : MPkt) (ok fec : Bool) (b : List Byte) : RxFrame := ⟨m, true, ok, fec, b, 5⟩
def ic (s : State) : State := s.deliver ⟨.icmp, 31, 3, [], 0, 0, 9⟩
def gj : List (Nat × Nat) := [(ETH_GRPg_CFG 63, 2^31), (ETH_GRPg_PORTS 63, 2^31), (ETH_GRPg_ADDR 63 3, 0xE0000005), (ETH_GRPg_CFG 2, 2^31), (ETH_GRPg_PORTS 2, 2^31)]
def ua : State := up (et [(GLB_GUARD_LO, 0xFFFE), (GLB_GUARD_HI, 15)])

/-- The hypotheses of PortsSendTheirQueuesInOrder are met. -/
theorem test_PortsSendTheirQueuesInOrder :
    (∃ (n : Nat) (s : State), n < s.eth.ports.length ∧ s.ethOn n = true ∧ s.linkUp n = false)
    ∧ (∃ (n : Nat) (s : State), n < 32 ∧ n < s.eth.ports.length ∧ s.linkUp n = true)
    ∧ (∃ (n q : Nat) (f : TxFrame) (rest : List (Nat × TxFrame)) (s : State), n < s.eth.ports.length ∧ q < (s.port n).queues.length ∧ takeOut n q s.eth.outbox = (some f, rest) ∧ s.tick ≤ f.age ∧ s.ethOn n = true ∧ s.linkUp n = true ∧ s.ipOff n f.bytes = false ∧ s.resolved n f.dst = true ∧ s.txRoom n f = true)
    ∧ (∃ (n q : Nat) (f : TxFrame) (rest : List (Nat × TxFrame)) (s : State), n < s.eth.ports.length ∧ q < (s.port n).queues.length ∧ takeOut n q s.eth.outbox = (some f, rest) ∧ s.tick ≤ f.age ∧ s.ethOn n = true ∧ s.linkUp n = true ∧ s.ipOff n f.bytes = false ∧ s.resolved n f.dst = true ∧ s.txRoom n f = false)
    ∧ (∃ (n q : Nat) (f : TxFrame) (rest : List (Nat × TxFrame)) (s : State), takeOut n q s.eth.outbox = (some f, rest) ∧ f.age < s.tick)
    ∧ (∃ (n q : Nat) (f : TxFrame) (rest : List TxFrame) (s : State), n < s.eth.ports.length ∧ s.ethOn n = true ∧ s.linkUp n = true ∧ txChoice (s.port n) = some q ∧ (q = 7 ∨ (s.port n).susp = none) ∧ nth (s.port n).queues q [] = f :: rest)
    ∧ (∃ (n q : Nat) (s : State), n < s.eth.ports.length ∧ s.ethOn n = true ∧ q < 7 ∧ nth (s.port n).queues q [] ≠ [] ∧ nth (s.port n).headAt q 0 + bitsOf (s.rd ETH_AGE) 9 0 ≤ s.us)
    ∧ (∃ (n : Nat) (x : Send) (s : State), let p := segSize (bitsOf (s.rd (ETHn_CFG2 n)) 13 0) (tmplV6 x.tmpl) x.hdr.length x.gran; s.eth.sends.find? (·.port == n) = some x ∧ s.tick ≤ x.age ∧ 0 < p)
    ∧ (∃ (n : Nat) (s : State), n < s.eth.ports.length ∧ s.ethOn n = true ∧ s.linkUp n = true ∧ (s.mmState n = 1 ∨ s.mmState n = 2 ∧ (s.port n).verAt + s.fd (ETHn_CFG n) ETHn_CFG_VERIFY_MS * 1000 ≤ s.us) ∧ (s.port n).tries < 3)
    ∧ (∃ (n : Nat) (s : State), n < s.eth.ports.length ∧ s.ethOn n = true ∧ s.linkUp n = true ∧ (s.mmState n = 1 ∨ s.mmState n = 2 ∧ (s.port n).verAt + s.fd (ETHn_CFG n) ETHn_CFG_VERIFY_MS * 1000 ≤ s.us) ∧ 3 ≤ (s.port n).tries) :=
  ⟨⟨31, (pt (et [(ETHn_STATUS 31, 0)]) (fun p => { p with tries := 3 })), by decide +kernel⟩,
    ⟨31, (let s := pt (et []) full; { s with eth := { s.eth with outbox := [(31, fr 3 10), (2, fr 3 10)] } }), by decide +kernel⟩,
    ⟨31, 7, (fr 7 1400), ([(2, fr 3 10)]), (obx (pt (et [(ETHn_STATUS 31, 129)]) full) [(2, fr 3 10),(31, fr 7 1400)]), by decide +kernel⟩,
    ⟨31, 3, (fr 3 13000), ([(2, fr 3 10)]), (obx (pt (et []) full) [(31, fr 3 13000), (2, fr 3 10)]), by decide +kernel⟩,
    ⟨31, 3, ({ fr 3 13000 with age := 8 }), ([(2, fr 3 10)]), (obx (pt (et []) full) [(31, { fr 3 13000 with age := 8 }), (2, fr 3 10)]), by decide +kernel⟩,
    ⟨31, 7, (fr 7 50), ([]), (pt (et []) full), by decide +kernel⟩,
    ⟨31, 3, (let s := pt (et []) full; { s with tim := { s.tim with us := 50 } }), by decide +kernel⟩,
    ⟨31, sn, cutS, by decide +kernel⟩,
    ⟨31, ((pt (et []) full).setMm 31 2), by decide +kernel⟩,
    ⟨31, ((pt (et []) (fun p => {p with tries := 3})).setMm 31 2), by decide +kernel⟩⟩


/-- The hypotheses of FramesAndServicesAreHandled are met. -/
theorem test_FramesAndServicesAreHandled :
    (∃ (n : Nat) (f : RxFrame) (s : State), s.ethOn n = true ∧ s.linkUp n = true ∧ f.mpkt = .verify ∧ f.checkOk = true ∧ f.fecBad = false)
    ∧ (∃ (n : Nat) (f : RxFrame) (s : State), s.ethOn n = true ∧ s.linkUp n = true ∧ f.mpkt = .respond ∧ f.checkOk = true ∧ f.fecBad = false ∧ s.mmState n = 2)
    ∧ (∃ (n : Nat) (f : RxFrame) (s : State), s.ethOn n = true ∧ s.linkUp n = true ∧ f.mpkt = .express ∧ f.fecBad = false ∧ f.checkOk = false)
    ∧ (∃ (n : Nat) (f : RxFrame) (s : State), s.ethOn n = true ∧ s.linkUp n = true ∧ f.mpkt = .express ∧ f.fecBad = false ∧ f.checkOk = true ∧ (f.bytes.length < 64 ∨ 9022 < f.bytes.length))
    ∧ (∃ (n : Nat) (f : RxFrame) (s : State), s.ethOn n = true ∧ s.linkUp n = true ∧ f.mpkt = .express ∧ f.fecBad = false ∧ f.checkOk = true ∧ 64 ≤ f.bytes.length ∧ f.bytes.length ≤ 9022 ∧ beAt f.bytes 12 2 = 0x0806 ∧ s.macOk n (beAt f.bytes 0 6) = true)
    ∧ (∃ (n ip : Nat) (s : State), s.ethOn n = true ∧ s.v4On n = true ∧ ip ≠ s.rd (ETHn_IP4 n))
    ∧ (∃ (n mac : Nat) (s : State), s.ethOn n = true ∧ s.v4On n = true ∧ mac ≠ s.portMac n)
    ∧ (∃ (n target : Nat) (s : State), n < s.eth.ports.length ∧ s.ethOn n = true ∧ s.v6On n = true ∧ target ∈ s.ip6Used n)
    ∧ (∃ (n target : Nat) (s : State), n < s.eth.ports.length ∧ s.ethOn n = true ∧ s.v6On n = true ∧ (∃ p ∈ (s.port n).dad, p.1 = target))
    ∧ (∃ (n a at_ : Nat) (rest : List (Nat × Nat)) (conflict : Bool) (s : State), n < s.eth.ports.length ∧ s.ethOn n = true ∧ (s.port n).dad = (a, at_) :: rest ∧ (at_ + 1000000 ≤ s.us ∨ conflict = true))
    ∧ (∃ (e : Nat) (x : Neigh) (s : State), s.eth.neigh[e]? = some x ∧ (x.mac = none ∨ x.at_ + bitsOf (s.rd ETH_NEIGH_CFG) 11 0 * 1000000 ≤ s.us))
    ∧ (∃ (n dst : Nat) (v6 : Bool) (x : RxItem) (s : State), n < s.eth.ports.length ∧ s.ethOn n = true ∧ dst ∈ s.unicast n v6 ∧ s.eth.inbox.find? (fun x => x.kind == .icmp && x.port == n) = some x ∧ (s.port n).echoes < bitsOf (s.rd ETH_ICMP_RATE) 15 0)
    ∧ (∃ (n dst : Nat) (v6 : Bool) (x : RxItem) (s : State), n < s.eth.ports.length ∧ s.ethOn n = true ∧ dst ∈ s.unicast n v6 ∧ s.eth.inbox.find? (fun x => x.kind == .icmp && x.port == n) = some x ∧ bitsOf (s.rd ETH_ICMP_RATE) 15 0 ≤ (s.port n).echoes)
    ∧ (∃ (n : Nat) (s : State), n < s.eth.ports.length ∧ s.ethOn n = true)
    ∧ (∃ (n due : Nat) (gs : List Nat) (rest : List (Nat × List Nat)) (s : State), n < s.eth.ports.length ∧ (s.port n).queries = (due, gs) :: rest ∧ due ≤ s.us)
    ∧ (∃ (g n : Nat) (j : Bool) (rest : List (Nat × Nat × Bool)) (s : State), s.eth.grpPend = (g, n, j) :: rest)
    ∧ (∃ (g n at_ : Nat) (j : Bool) (rest : List (Nat × Nat × Bool × Nat)) (s : State), s.eth.grpRep = (g, n, j, at_) :: rest ∧ at_ + 1000000 ≤ s.us)
    ∧ (∃ (n r v new : Nat) (s : State), let a := ETHn_CFG n + nth [0x14, 0x18, 0x20, 0x24, 0x28, 0x2C, 0x30] r 0; s.hostReaches .rw a v new ∧ n < 32 ∧ n < s.eth.ports.length ∧ r < 7) :=
  ⟨⟨31, (rx .verify true false []), (et []), by decide +kernel⟩,
    ⟨31, (rx .respond true false []), ((et []).setMm 31 2), by decide +kernel⟩,
    ⟨31, (rx .express false false (List.replicate 64 0)), ((et []).setMm 31 2), by decide +kernel⟩,
    ⟨31, (rx .express true false (List.replicate 63 0)), ((et []).setMm 31 2), by decide +kernel⟩,
    ⟨31, (rx .express true false (List.replicate 6 255 ++ List.replicate 6 1 ++ [8,6] ++ List.replicate 50 0)), (raw (ETHn_MAC_LO 31) 0x33445566 (raw (ETHn_MAC_HI 31) 0x0212 (et []))), by decide +kernel⟩,
    ⟨31, 3, (et []), by decide +kernel⟩,
    ⟨31, 7, (raw (ETHn_MAC_LO 31) 0x33445566 (raw (ETHn_MAC_HI 31) 0x0212 (et []))), by decide +kernel⟩,
    ⟨31, 338288524927261089654024020565504054630, (raw (ETHn_MAC_LO 31) 0x33445566 (raw (ETHn_MAC_HI 31) 0x0212 (et []))), by decide +kernel⟩,
    ⟨31, 0x20010000000000000000000000000001, (pt (et []) (fun p => { p with dad := [(0x20010000000000000000000000000001, 0)] })), by decide +kernel⟩,
    ⟨31, 0x20010000000000000000000000000001, 0, ([(7, 9)]), true, (pt (et []) (fun p => { p with dad := [(0x20010000000000000000000000000001, 0), (7, 9)] })), by decide +kernel⟩,
    ⟨0, (⟨true, 5, 31, none, 0⟩), (let s := et []; { s with eth := { s.eth with neigh := [⟨true, 5, 31, none, 0⟩] } }), by decide +kernel⟩,
    ⟨31, 0x0A000001, false, (⟨.icmp, 31, 3, [], 0, 0, 9⟩), (ic <| pt (et []) (fun p => {p with echoes := 1})), by decide +kernel⟩,
    ⟨31, 0x0A000001, false, (⟨.icmp, 31, 3, [], 0, 0, 9⟩), (ic <| pt (et []) (fun p => {p with echoes := 2})), by decide +kernel⟩,
    ⟨31, (et gj), by decide +kernel⟩,
    ⟨31, 5, ([3,4]), ([(7,[])]), (let s := pt (et []) (fun p => { p with queries := [(5,[3,4]),(7,[])] }); { s with tim := { s.tim with us := 5 } }), by decide +kernel⟩,
    ⟨5, 31, true, ([]), (let s := et []; { s with eth := { s.eth with grpPend := [(5,31,true)] } }), by decide +kernel⟩,
    ⟨5, 31, 0, true, ([]), (let s := et []; { s with tim := { s.tim with us := 1000000 }, eth := { s.eth with grpRep := [(5,31,true,0)] } }), by decide +kernel⟩,
    ⟨31, 0, 0x0A000002, 0x0A000002, ua, hostReaches_of (by decide +kernel), by decide +kernel⟩⟩

end W08

/-! ### Hypotheses: group 09 -/
namespace W09

def grid : Nat := 6 * 2^11 + 7 * 2^16
def cs (flags d : Nat) : CtnSes := { cfg := 1 + flags + d * 256, cfg2 := 3 + 1 * 256 + 20 * 65536, sibase := 0, brood := 0, udp := 0, epoch := 0, grid := grid, maps := [(0, ⟨2*65536 + 4, 2 * 65536 + 7, 9⟩)], pend := none, first := 0, last := none, win := [some 0, some 1] }
def regs0 : List (Nat × Nat) := [(CTN_CTRL, 1), (GLB_DOMAINS, 4095), (CTN_ID, 5), (CTN_SWARM_ID, 0x1234),
  (CTN_SLICEe_LO 4, 10 + 2 * 65536), (CTN_SLICEe_HI 4, 5), (CTN_SLICEe_LO 5, 20 + 1 * 65536), (CTN_SLICEe_HI 5, 6),
  (CTN_INMAPe_LO 7, 0), (CTN_INMAPe_HI 7, 5 + 1 * 65536), (CTN_INMAPe_LO 8, 2), (CTN_INMAPe_HI 8, 6 + 0 * 65536)]
def cn (k : Nat) (c : CtnSes) (l : List (Nat × Nat)) : State := let s := St k (regs0 ++ l); { s with ctn := { s.ctn with ses := [(2, cs 0 99), (3, c)] } }
def ent4 : SliceEnt := ⟨10, 3, 5, 0, false, 0⟩
def spc (i n : Nat) : Spectrum := ⟨i, n, 1, 0, false, false, .none, 8, (List.range 20).map (fun (j : Nat) => ((j : Int), -(j : Int)))⟩
def nsOf (k : Nat) : List Nat := (cs 6 16).specsOf k
def bs : State := let s := cn 5 (cs 6 16) []; { s with chn := { s.chn with spectra := [spc 3 0, spc 4 0, spc 3 1, spc 4 1, spc 3 2] } }
def m0 := (cs 6 16).mapsAt 0
def bh (x src dst si cnt ch n tick : Nat) (data : List Byte) : RxItem := ⟨.brood x, 32, 0, broodHeader 0 x src dst 1 ch cnt si 1 n tick 0 data.length (bs.rd CTN_SWARM_ID) m0.version ++ data, 5 * 1000 * 65536, 0, 0⟩
def rxS (k : Nat) (it : RxItem) : State := let s := cn k (cs 6 16) []; { s with eth := { s.eth with inbox := [⟨.arp, 0, 0, [], 0, 0, 0⟩, it, it] } }
def it1 := bh 3 6 5 2 1 11 2 2 [7]
def it2 : RxItem := { it1 with stamp := 50 * 1000 * 65536 }
def arr (s : State) : State := { s with ctn := { s.ctn with arrived := [⟨3, 0, 1, 2, 2⟩, ⟨3, 1, 1, 20, 2⟩, ⟨2, 0, 1, 2, 2⟩] } }
def csp := { cs 6 16 with pend := some (20, 2, (⟨65536, 65536, 3⟩ : CtnMaps)) }
def ann : State := let s := cn 5000 (cs 6 16) [(CTN_ANN_PORTS, 2^31), (ETHn_STATUS 31, 1), (ETHn_CFG 31, 1), (ETH_CTRL, 1)]; s
def anb (h : Nat) : List Byte := toBE 2 0xB7A0 ++ toBE 1 1 ++ toBE 1 0 ++ toBE 4 0x1234 ++ toBE 2 h ++ List.replicate 54 0
def anr (h : Nat) : State := let s := ann.wr (CTN_PEERh_MASK 7) 0xFFFFFFFF; { s with eth := { s.eth with inbox := [⟨.announce, 4, 99, anb h, 0, 0, 0⟩] } }
def pa : State := { ann with ctn := { ann.ctn with members := [⟨7, 3, 5, 0⟩, ⟨7, 4, 5, 4999999⟩, ⟨8, 3, 1, 0⟩] } }

/-- The hypotheses of BroodMovesFromProducersToOwners are met. -/
theorem test_BroodMovesFromProducersToOwners :
    (∃ (x e k d : Nat) (c : CtnSes) (ns : List Nat) (en : SliceEnt) (s : State), let g := c.inCount * c.bytes; s.ctnAt x k = some (c, ns) ∧ s.worksOn 8 k = true ∧ c.produce = true ∧ s.begun k = true ∧ s.specsReady c x k ns = true ∧ s.ctn.sent.contains (x, e, k) = false ∧ (s.sesReplay x = false → s.begun (k + 4) = false) ∧ (s.sesReplay x = true → ∀ n ∈ ns, c.waits (n / c.d) = false) ∧ (∀ n ∈ ns, n / c.d = d) ∧ (s.slices (c.mapsAt d).map)[e]? = some en ∧ s.ownsEnt en = true ∧ en.sbEn = false ∧ 0 < en.count ∧ g * (1 + en.count * ns.length) ≤ 4194304)
    ∧ (∃ (x n tick src dst si cnt ch port ip sp sm : Nat) (data : List Byte) (stamp : Int) (c : CtnSes) (s : State), let m := c.mapsAt (n / c.d); let b := broodHeader (if c.wide then 32 else 0) x src dst 1 ch cnt si 1 n tick 0 data.length (s.rd CTN_SWARM_ID) m.version ++ data; let item : RxItem := ⟨.brood x, port, ip, b, stamp, sp, sm⟩; let key : Arrival := ⟨x, n / c.d, (idxOf (s.owned m.map) ch).getD 0, n, si⟩; let late := s.sesReplay x = false ∧ c.home n + c.w < tickOfStamp stamp; (s.eth.inbox.find? (fun y => match y.kind with | .brood _ => true | _ => false) = some item) ∧ s.blockOn 8 = true ∧ s.ctnForSpec x n = some c ∧ c.own = true ∧ 0 < c.d ∧ 0 < cnt ∧ ch ∈ s.owned m.map ∧ (src, si, cnt) ∈ s.inputs m.inmap ∧ data.length = cnt * c.bytes ∧ x < 2 ^ 16 ∧ src < 2 ^ 16 ∧ cnt < 2 ^ 16 ∧ ch < 2 ^ 16 ∧ si < 2 ^ 32 ∧ n < 2 ^ 64 ∧ data.length < 2 ^ 32 ∧ m.version < 2 ^ 32 ∧ (¬ late) ∧ c.assigned (n / c.d) = true ∧ s.ctn.arrived.contains key = false)
    ∧ (∃ (x n tick src dst si cnt ch port ip sp sm : Nat) (data : List Byte) (stamp : Int) (c : CtnSes) (s : State), let m := c.mapsAt (n / c.d); let b := broodHeader (if c.wide then 32 else 0) x src dst 1 ch cnt si 1 n tick 0 data.length (s.rd CTN_SWARM_ID) m.version ++ data; let item : RxItem := ⟨.brood x, port, ip, b, stamp, sp, sm⟩; let late := s.sesReplay x = false ∧ c.home n + c.w < tickOfStamp stamp; (s.eth.inbox.find? (fun y => match y.kind with | .brood _ => true | _ => false) = some item) ∧ s.blockOn 8 = true ∧ s.ctnForSpec x n = some c ∧ c.own = true ∧ 0 < c.d ∧ 0 < cnt ∧ ch ∈ s.owned m.map ∧ (src, si, cnt) ∈ s.inputs m.inmap ∧ data.length = cnt * c.bytes ∧ x < 2 ^ 16 ∧ src < 2 ^ 16 ∧ cnt < 2 ^ 16 ∧ ch < 2 ^ 16 ∧ si < 2 ^ 32 ∧ n < 2 ^ 64 ∧ data.length < 2 ^ 32 ∧ m.version < 2 ^ 32 ∧ late)
    ∧ (∃ (x d : Nat) (c : CtnSes) (s : State), s.ctnFor x d = some c ∧ s.ownsAt c d = true ∧ c.assigned d = true ∧ (s.sesReplay x = false → s.begun (c.endTick d + c.w + 1) = true) ∧ (s.sesReplay x = true → s.replayOver c x d = true) ∧ (∀ f ∈ s.ctn.final, ¬ (f.1 = x ∧ f.2.1 = d)))
    ∧ (∃ (x d : Nat) (c : CtnSes) (s : State), s.ctnOf x = some c ∧ (∀ e ∈ s.ctn.ending, e.1 ≠ x) ∧ c.assigned d = true ∧ s.sesReplay x = false ∧ s.begun (c.endTick d + c.w + 5) = true ∧ (∃ f ∈ s.ctn.final, f.1 = x ∧ f.2.1 = d) ∧ c.last = none)
    ∧ (∃ (x tk d : Nat) (m : CtnMaps) (c : CtnSes) (s : State), x < 1024 ∧ s.ctnOf x = some c ∧ c.pend = some (tk, d, m) ∧ s.begun (c.home (d * c.d)) = true)
    ∧ (∃ (n seq : Nat) (sent : Option Nat) (s : State), s.blockOn 8 = true ∧ n < 32 ∧ s.bit CTN_ANN_PORTS n = 1 ∧ s.linkUp n = true ∧ s.annPeriod * 1000 ∣ s.tick ∧ s.ctn.annSeq[n]? = some (seq, sent) ∧ sent ≠ some s.tick)
    ∧ (∃ (a : RxItem) (s : State), s.eth.inbox.find? (·.kind == .announce) = some a ∧ s.blockOn 8 = true)
    ∧ (∃ (h : Nat) (s : State), h < 1024 ∧ (∃ m ∈ s.ctn.members, m.hive = h ∧ s.memberGone m = true)) :=
  ⟨⟨3, 0, 2, 0, (cs 6 16), (nsOf 2), ent4, bs, by decide +kernel⟩,
    ⟨3, 2, 2, 6, 5, 2, 1, 11, 32, 0, 0, 0, ([7]), (5*1000*65536), (cs 6 16), (rxS 5 it1), by decide +kernel⟩,
    ⟨3, 2, 2, 6, 5, 2, 1, 11, 32, 0, 0, 0, ([7]), (50*1000*65536), (cs 6 16), (rxS 50 it2), by decide +kernel⟩,
    ⟨3, 0, (cs 6 16), (arr (cn 50 (cs 6 16) [])), by decide +kernel⟩,
    ⟨3, 0, (cs 6 16), (let s := arr (cn 50 (cs 6 16) []); { s with ctn := { s.ctn with final := [(2, 0, [1]), (3, 0, [1, 2])] } }), by decide +kernel⟩,
    ⟨3, 20, 2, (⟨65536, 65536, 3⟩), csp, (cn 50 csp []), by decide +kernel⟩,
    ⟨31, 0, none, (atTick ann (ann.annPeriod * 1000 * 3)), by decide +kernel⟩,
    ⟨(⟨.announce, 4, 99, anb 7, 0, 0, 0⟩), (anr 7), by decide +kernel⟩,
    ⟨7, (atTick pa 5000000), by decide +kernel⟩⟩

end W09

/-! ### Hypotheses: group 10 -/
namespace W10

def grid : Nat := 6 * 2^11 + 7 * 2^16
def cs (flags d : Nat) : CtnSes := { cfg := 1 + flags + d * 256, cfg2 := 3 + 1 * 256 + 20 * 65536, sibase := 0, brood := 0, udp := 0, epoch := 0, grid := grid, maps := [(0, ⟨2*65536 + 4, 2 * 65536 + 7, 9⟩)], pend := none, first := 0, last := none, win := [some 0, some 1] }
def regs0 : List (Nat × Nat) := [(CTN_CTRL, 1), (GLB_DOMAINS, 4095), (CTN_ID, 5), (CTN_SWARM_ID, 0x1234),
  (CTN_SLICEe_LO 4, 10 + 2 * 65536), (CTN_SLICEe_HI 4, 5), (CTN_SLICEe_LO 5, 20 + 1 * 65536), (CTN_SLICEe_HI 5, 6),
  (CTN_INMAPe_LO 7, 0), (CTN_INMAPe_HI 7, 5 + 1 * 65536), (CTN_INMAPe_LO 8, 2), (CTN_INMAPe_HI 8, 6 + 0 * 65536)]
def cn (k : Nat) (c : CtnSes) (l : List (Nat × Nat)) : State := let s := St k (regs0 ++ l); { s with ctn := { s.ctn with ses := [(2, cs 0 99), (3, c)] } }
def cm : CmbSes := ⟨cs 6 16, 0, none, none, 0, none⟩
def brd (s : State) : State := { s with ctn := { s.ctn with brood := (List.range 400).map (fun j => (j, BitVec.ofNat 8 (j*37+1))) }, cmb := { s.cmb with ses := [(3, cm)], list := [(0,2),(2,0),(1,1)] } }
def cw (k : Nat) (l : List (Nat × Nat)) : State := brd (cn k (cs 6 16) ([(CMB_CTRL, 1)] ++ l))
def sA := cw 23 []
def sD (k : Nat) (f : Cmb → Cmb) : State := let s := cw k [(CMB_SESx_CFG 3, 1)]; { s with ctn := { s.ctn with final := [(3, 0, [0, 1, 1, 1])] }, cmb := f { s.cmb with dstore := [(dsKey 3 0 0, List.replicate 16384 (4, 5)), (dsKey 3 1 0, List.replicate 16384 (4, 6)), (dsKey 16 0 0, List.replicate 16384 (7, 7))] } }
def cm' : CmbSes := { cm with judged := 99 }
def sD1 := sD 33 (fun c => { c with ses := [(3, cm')] })
def wp (sk inc : Bool) (b : Int) : WitPend := ⟨3, 4, 5, sk, inc, [(2, List.replicate 10 (1, b))], [(2, List.replicate 10 (1, 7))]⟩
def wS (p : WitPend) (l : List (Nat × Nat)) (f : Cmb → Cmb) : State := let s := cw 50 l; { s with cmb := f { s.cmb with wit := [⟨4, 4, 5, false, false, [], []⟩, p], dumps := [⟨3, 4, 0, [], 0, cs 6 16, [], [⟨0, 5, 2, [], [], [], false, false, [], [], []⟩, ⟨1, 6, 2, [], [], [], false, false, [], [], []⟩]⟩, ⟨3, 5, 0, [], 0, cs 6 16, [], []⟩] } }

/-- The hypotheses of CombTakesTheWorkOfATickAndDumpsADwell are met. -/
theorem test_CombTakesTheWorkOfATickAndDumpsADwell :
    (∃ (c k x n : Nat) (m : CmbSes) (s : State), let g := s.cmbGrid x m; let left := s.combLeft x m c k; let fit := (1000 - (if s.begun (k + 2) then s.combPos c else max (s.combPos c) (200 + 16 * c))) / g.mCycles; c ≤ 16 ∧ s.worksOn 10 k = true ∧ s.begun (k + 1) = true ∧ s.begun (k + 3) = false ∧ s.cmbOf x = some m ∧ s.combOrder = [x] ∧ s.sesReplay x = false ∧ (k = 0 ∨ s.begun (k + 2) = true ∨ s.combLeft x m c (k - 1) = []) ∧ (∀ u ∈ s.cmb.used, ¬ (u.1 = s.tick ∧ u.2.1 = x ∧ u.2.2.1 = c)) ∧ (s.grants = [] ∧ n = min left.length fit ∨ c < 16 ∧ ∃ r, s.grants.find? (fun r => r.x == x && r.unit == 0) = some r ∧ r.got < r.want ∧ (∀ it ∈ left, it.2.1 = c) ∧ n = min left.length (min ((r.got / 16 + if c < r.got % 16 then 1 else 0) / g.mCycles) fit)))
    ∧ (∃ (x d : Nat) (m : CmbSes) (s : State), let c := s.cmbGrid x m; s.cmbOf x = some m ∧ s.dumpDue x m d = true ∧ s.presenceFinal x d = true ∧ (s.sesReplay x = true ∨ c.endTick d + c.w < m.judged) ∧ m.renew = none ∧ x < 1024) :=
  ⟨⟨3, 21, 3, 2, cm, sA, by decide +kernel⟩,
    ⟨3, 0, (cm'), sD1, by decide +kernel⟩⟩


/-- The hypotheses of WitnessFindsTheFailingComb are met. -/
theorem test_WitnessFindsTheFailingComb :
    (∃ (p : WitPend) (s : State), nextWit s.cmb.wit = some p ∧ p.comb < 16 ∧ p.x < 1024 ∧ p.skipped = true)
    ∧ (∃ (p : WitPend) (s : State), nextWit s.cmb.wit = some p ∧ p.comb < 16 ∧ p.x < 1024 ∧ p.skipped = false ∧ p.inconc = true)
    ∧ (∃ (p : WitPend) (s : State), nextWit s.cmb.wit = some p ∧ p.comb < 16 ∧ p.x < 1024 ∧ p.skipped = false ∧ p.inconc = false ∧ diffs p = [])
    ∧ (∃ (p : WitPend) (s : State), nextWit s.cmb.wit = some p ∧ p.comb < 16 ∧ p.x < 1024 ∧ p.skipped = false ∧ p.inconc = false ∧ diffs p ≠ []) :=
  ⟨⟨(wp true false 7), (wS (wp true false 7) [] id), by decide +kernel⟩,
    ⟨(wp false true 7), (wS (wp false true 7) [] id), by decide +kernel⟩,
    ⟨(wp false false 7), (wS (wp false false 7) [(CMB_Cc_STATE 5, 1)] id), by decide +kernel⟩,
    ⟨(wp false false 8), (wS (wp false false 8) [(CMB_Cc_STATE 5, 0)] id), by decide +kernel⟩⟩

end W10

/-! ### Hypotheses: group 11 -/
namespace W11

def grid : Nat := 6 * 2^11 + 7 * 2^16
def cs (flags d : Nat) : CtnSes := { cfg := 1 + flags + d * 256, cfg2 := 3 + 1 * 256 + 20 * 65536, sibase := 0, brood := 0, udp := 0, epoch := 0, grid := grid, maps := [(0, ⟨2*65536 + 4, 2 * 65536 + 7, 9⟩)], pend := none, first := 0, last := none, win := [some 0, some 1] }
def db (g : Nat) : DumpBlock := ⟨g, 5, 1, (List.range 16384).map (fun (i : Nat) => ((3 * i : Int) - 1000, 77 - (i : Int) * i)), [], [], false, false, [], [], []⟩
def dm (d : Nat) : Dump := ⟨3, d, 3, [2, 0, 1], 2, cs 6 16, [1, 0, 1], [db 0, db 1]⟩
def lay0 (j first : Nat) (ex : Bool) : Layout := ⟨j, first, 3, 2, 100, ex, 4, 16, [4, 9]⟩
def sup0 (l : List Layout) : SupSes := ⟨0, false, l, [(4, [1,1,0]), (5, [1,1,1])], [⟨1, 0, 4, 2, 0, 1, 2⟩, ⟨0, 0, 4, 2, 0, 1, 2⟩], [(1, 0, 1)], [(1, 0, 4)], [], none⟩
def spT (k : Nat) (l : List Layout) (d : Nat) (pz : List Nat) (w : List (Nat × Nat)) (r : List (Nat × Nat)) : State :=
  let s := St k ([(SUP_CTRL, 1), (GLB_DOMAINS, 4095), (SUP_SESx_CFG 3, 3 * 65536 + 2 * (if l.any (·.exact) then 1 else 0)), (SUP_SESx_SEED 3, 0xABCDE), (SUP_SESx_BASE 3, 100)] ++ r)
  { s with cmb := { s.cmb with dumps := [{ dm 7 with x := 2 }, dm d] , wit := [⟨3, d + 1, 5, false, false, [], []⟩] }, sup := { s.sup with ses := [(2, sup0 []), (3, sup0 l)], words := w, poison := pz }, ctn := { s.ctn with ses := [(3, cs 6 16)] } }
def sp := spT 300
def spE (l : List Layout) (d : Nat) := spT ((cs 6 16).endTick d + (cs 6 16).w + 4) l d
def s1 := spE [] 4 [supKey 1 101] [(supKey 1 101, 2^62), (supKey 1 100, 5)] []
def withDrain (s : State) (d : Drain) : State := { s with sup := { s.sup with ses := spPut s.sup.ses 3 { sup0 [lay0 2 8 false] with drain := some d } } }
def dr (ex : Bool) (n : Nat) : Drain := ⟨lay0 1 4 ex, 190, 200, n, 1, 100, []⟩
def s4 : State := let s := sp [lay0 1 4 false, lay0 2 8 false] 9 [supKey 1 101] [(supKey 1 102, 0x47000000C7123456), (supKey 1 100, 5), (supKey 0 100, 5), (supKey 1 103, 0x7F800000FF800000)] []
  { s with untimed := [3], sup := { s.sup with ses := [(2, sup0 []), (3, { sup0 [lay0 1 4 false, lay0 2 8 false] with pres := [(7, [1,1,1])] })] } }
def s5 (ex : Bool) (n : Nat) (r : List (Nat × Nat)) : State := withDrain (sp [] 9 [supKey 1 101] [(supKey 1 102, 0x47000000C7123456), (supKey 1 100, 5), (supKey 0 100, 5), (supKey 1 103, 0x7F800000FF800000)] r) (dr ex n)
def f5 (ex : Bool) (n : Nat) := { sup0 [lay0 2 8 false] with drain := some (dr ex n) }
def s6 (n : Nat) : State := let s := s5 false n []; { s with cmb := { s.cmb with dumps := [{ dm 7 with x := 2 }, dm 12] } }

/-- The hypotheses of DumpsAccumulateInTheFillingSuper are met. -/
theorem test_DumpsAccumulateInTheFillingSuper :
    ∃ (x : Nat) (p : Dump) (f : SupSes) (s : State), let l := s.layoutOf x f p; s.cmb.dumps.find? (·.x == x) = some p ∧ (∀ b ∈ p.blocks, b.vals.length = 16384 ∧ b.reasons = [] ∧ b.uncorr = [] ∧ b.suspect = false ∧ b.withheld = false) ∧ (∀ w ∈ s.cmb.wit, ¬ (w.x = x ∧ w.d = p.d)) ∧ s.supOf x = some f ∧ s.blockOn 11 = true ∧ x < 1024 ∧ s.dumpLate p = false ∧ f.clash l p = false ∧ 0 < l.nx ∧ (p.blocks.map (·.g)).Nodup :=
  ⟨3, (dm 4), (sup0 []), s1, rfl, by intro b hb; simp only [dm, List.mem_cons, List.not_mem_nil, or_false] at hb; rcases hb with rfl | rfl <;> simp [db], by decide +kernel⟩


/-- The hypotheses of IntegrationsDrainByTheirPlan are met. -/
theorem test_IntegrationsDrainByTheirPlan :
    (∃ (x j : Nat) (c : CtnSes) (l : Layout) (f : SupSes) (s : State), s.supOf x = some f ∧ f.drain = none ∧ f.lays.find? (·.j == j) = some l ∧ s.ctnOf x = some c ∧ s.blockOn 11 = true ∧ x < 1024 ∧ l.first = j * l.i ∧ f.start ≤ j * l.i ∧ (∃ q ∈ f.pres, q.1 = j * l.i + l.i - 1) ∧ (s.sesReplay x = true ∨ s.begun (c.endTick (j * l.i + l.i - 1) + c.w + 5) = true))
    ∧ (∃ (x : Nat) (f : SupSes) (d : Drain) (s : State) (h : _), let dest := bitsOf (s.rd (SUP_SESx_CFG x)) 13 12; s.supOf x = some f ∧ f.drain = some d ∧ s.blockOn 11 = true ∧ x < 1024 ∧ s.honeyTurn x = true ∧ (s.rd (SUP_SESx_RATE x) % 2 ^ 17 = 0 ∨ s.begun (d.t0 + 8 * d.bytes / (s.rd (SUP_SESx_RATE x) % 2 ^ 17)) = true) ∧ d.lay.plan[d.next]? = some h ∧ dest = 2)
    ∧ (∃ (x : Nat) (f : SupSes) (d : Drain) (s : State) (h : _), let dest := bitsOf (s.rd (SUP_SESx_CFG x)) 13 12; s.supOf x = some f ∧ f.drain = some d ∧ s.blockOn 11 = true ∧ x < 1024 ∧ s.honeyTurn x = true ∧ (s.rd (SUP_SESx_RATE x) % 2 ^ 17 = 0 ∨ s.begun (d.t0 + 8 * d.bytes / (s.rd (SUP_SESx_RATE x) % 2 ^ 17)) = true) ∧ d.lay.plan[d.next]? = some h ∧ dest = 3 ∧ h.kind ≠ 5)
    ∧ (∃ (x : Nat) (f : SupSes) (d : Drain) (s : State), let dest := bitsOf (s.rd (SUP_SESx_CFG x)) 13 12; s.supOf x = some f ∧ f.drain = some d ∧ s.blockOn 11 = true ∧ x < 1024 ∧ s.honeyTurn x = true ∧ (s.rd (SUP_SESx_RATE x) % 2 ^ 17 = 0 ∨ s.begun (d.t0 + 8 * d.bytes / (s.rd (SUP_SESx_RATE x) % 2 ^ 17)) = true) ∧ d.lay.plan.length ≤ d.next ∧ dest = 2 ∧ f.stop = false)
    ∧ (∃ (x : Nat) (f : SupSes) (d : Drain) (p : Dump) (s : State), s.cmb.dumps.find? (·.x == x) = some p ∧ s.supOf x = some f ∧ f.drain = some d ∧ x < 1024 ∧ s.sesReplay x = false ∧ (d.lay.j + 2) * d.lay.i ≤ p.d) :=
  ⟨⟨3, 1, (cs 6 16), (lay0 1 4 false), ({ sup0 [lay0 1 4 false, lay0 2 8 false] with pres := [(7, [1,1,1])] }), s4, by decide +kernel⟩,
    ⟨3, (f5 false 0), (dr false 0), (s5 false 0 [(SUP_SESx_CFG 3, 2 * 4096 + 5 * 16)]), (⟨1,0,0,4⟩), by decide +kernel⟩,
    ⟨3, (f5 false 0), (dr false 0), (s5 false 0 [(SUP_SESx_CFG 3, 3 * 4096 + 5 * 16)]), (⟨1,0,0,4⟩), by decide +kernel⟩,
    ⟨3, (f5 false 7), (dr false 7), (s5 false 7 [(SUP_SESx_CFG 3, 2 * 4096 + 5 * 16)]), by decide +kernel⟩,
    ⟨3, (f5 false 2), (dr false 2), (dm 12), (s6 2), rfl, by decide +kernel⟩⟩

end W11

/-! ### Hypotheses: group 12 -/
namespace W12

def grid : Nat := 6 * 2^11 + 7 * 2^16
def cs (flags d : Nat) : CtnSes := { cfg := 1 + flags + d * 256, cfg2 := 3 + 1 * 256 + 20 * 65536, sibase := 0, brood := 0, udp := 0, epoch := 0, grid := grid, maps := [(0, ⟨2*65536 + 4, 2 * 65536 + 7, 9⟩)], pend := none, first := 0, last := none, win := [some 0, some 1] }
def regs0 : List (Nat × Nat) := [(CTN_CTRL, 1), (GLB_DOMAINS, 4095), (CTN_ID, 5), (CTN_SWARM_ID, 0x1234),
  (CTN_SLICEe_LO 4, 10 + 2 * 65536), (CTN_SLICEe_HI 4, 5), (CTN_SLICEe_LO 5, 20 + 1 * 65536), (CTN_SLICEe_HI 5, 6),
  (CTN_INMAPe_LO 7, 0), (CTN_INMAPe_HI 7, 5 + 1 * 65536), (CTN_INMAPe_LO 8, 2), (CTN_INMAPe_HI 8, 6 + 0 * 65536)]
def cn (k : Nat) (c : CtnSes) (l : List (Nat × Nat)) : State := let s := St k (regs0 ++ l); { s with ctn := { s.ctn with ses := [(2, cs 0 99), (3, c)] } }
def wf0 : WagSes := ⟨some 0, [(0, 1)], none, [], [], [], none⟩
def brd2 (s : State) : State := { s with ctn := { s.ctn with brood := (List.range 4000).map (fun j => (j, BitVec.ofNat 8 (j*37+1))), arrived := (List.range 20).flatMap (fun n => (List.range 3).flatMap (fun l => [⟨3, n / 16, l, n, 0⟩, ⟨3, n/16, l, n, 2⟩])) } }
def wS0 (k : Nat) (f : WagSes) (c : CtnSes) (l : List (Nat × Nat)) : State :=
  let s := brd2 (cn k c ([(WAG_CTRL, 1), (WAG_SESx_CFG 3, 1 + 7 * 65536 + 4), (WAG_SESx_BEAMS 3, 1), (WAG_SESx_IN_COUNT 3, 2)] ++ l))
  { s with wag := { s.wag with ses := [(3, f)], wt := (List.range 40).map (fun i => (2^24 + i, 0x3141 * (i+1) % 65536)) } }
def wa := wS0 27 (wf0) (cs 6 16) []
def wag (g : Nat) : State := { wa with grants := [⟨3, 1, 1, 0, 1⟩, ⟨3, 2, 60, g, g + 9⟩] }
def KE : Nat := (wS0 60 wf0 (cs 6 16) ([(WAG_SESx_CFG 3, 1 + 7 * 65536)])).wagR 3 1 + 1
def we (k : Nat) (l : List (Nat × Nat)) (f : WagSes) : State := let s := wS0 k f (cs 6 16) ([(WAG_SESx_CFG 3, 1 + 7 * 65536)] ++ l); { s with wag := { s.wag with jobs := [⟨3, 1, 0, 6, []⟩, ⟨3, 9, 0, 6, []⟩, ⟨2, 1, 4, 5, []⟩] } }

/-- The hypotheses of WaggleFormsTheBeamsOfATick are met. -/
theorem test_WaggleFormsTheBeamsOfATick :
    (∃ (k x d : Nat) (f : WagSes) (c : CtnSes) (s : State), let e := s.wagEpoch x (k - c.w); let items := s.wagItems c x k f; let cost := s.wagNb x * c.mCycles; (s.sesReplay x = true ∧ (s.wagReplayTicks x).head? = some k ∨ s.sesReplay x = false ∧ s.begun (k + 3) = false ∧ s.worksOn 12 k = true ∧ (k = 0 ∨ s.begun (k + 2) = true ∨ ∀ f' c', s.wagFor x (k - 1) = some f' → s.wagCtn x (k - 1) = some c' → s.epochLate x (s.wagEpoch x (k - 1 - c'.w)) f' = false ∧ s.wagIdle x (k - 1) c' f' = true)) ∧ (∀ m, f.stop = some m → s.sesReplay x = false ∧ k ≤ m) ∧ (∀ u ∈ s.wag.used, u.1 ≠ s.tick) ∧ s.wagFor x k = some f ∧ s.wagCtn x k = some c ∧ s.ctnOf x = some c ∧ s.blockOn 12 = true ∧ s.begun (k + 1) = true ∧ x < 1024 ∧ s.wagOrder = [x] ∧ s.epochLate x e f = false ∧ (∀ m ∈ f.missed, m.1 ≠ e) ∧ (s.sesReplay x = true → s.wagExplicit x = false → e ∈ f.done) ∧ (x, k) ∉ s.wag.fin ∧ items ≠ [] ∧ (∀ i ∈ items, i.1 / c.d = d) ∧ (∀ q ∈ s.wag.work, ¬ (q.x = x ∧ q.k = k)) ∧ s.grants = [] ∧ items.length * cost ≤ 65536000 ∧ s.numOwned (c.mapsAt d).map ≤ 32768)
    ∧ (∃ (k x d : Nat) (f : WagSes) (c : CtnSes) (s : State) (g : _), let e := s.wagEpoch x (k - c.w); let items := s.wagItems c x k f; let cost := s.wagNb x * c.mCycles; (s.sesReplay x = true ∧ (s.wagReplayTicks x).head? = some k ∨ s.sesReplay x = false ∧ s.begun (k + 3) = false ∧ s.worksOn 12 k = true ∧ (k = 0 ∨ s.begun (k + 2) = true ∨ ∀ f' c', s.wagFor x (k - 1) = some f' → s.wagCtn x (k - 1) = some c' → s.epochLate x (s.wagEpoch x (k - 1 - c'.w)) f' = false ∧ s.wagIdle x (k - 1) c' f' = true)) ∧ (∀ m, f.stop = some m → s.sesReplay x = false ∧ k ≤ m) ∧ (∀ u ∈ s.wag.used, u.1 ≠ s.tick) ∧ s.wagFor x k = some f ∧ s.wagCtn x k = some c ∧ s.ctnOf x = some c ∧ s.blockOn 12 = true ∧ s.begun (k + 1) = true ∧ x < 1024 ∧ s.wagOrder = [x] ∧ s.epochLate x e f = false ∧ (∀ m ∈ f.missed, m.1 ≠ e) ∧ (s.sesReplay x = true → s.wagExplicit x = false → e ∈ f.done) ∧ (x, k) ∉ s.wag.fin ∧ items ≠ [] ∧ (∀ i ∈ items, i.1 / c.d = d) ∧ (∀ q ∈ s.wag.work, ¬ (q.x = x ∧ q.k = k)) ∧ s.grants.find? (fun g => g.x == x && g.unit == 2) = some g ∧ g.got < g.want ∧ g.got / cost < items.length) :=
  ⟨⟨25, 3, 0, wf0, (cs 6 16), wa, Or.inr ⟨by decide +kernel, by decide +kernel, by decide +kernel, Or.inr (Or.inl (by decide +kernel))⟩, fun m h => by simp [wf0] at h, by decide +kernel, by decide +kernel⟩,
    ⟨25, 3, 0, wf0, (cs 6 16), (wag 20), (⟨3, 2, 60, 20, 29⟩), Or.inr ⟨by decide +kernel, by decide +kernel, by decide +kernel, Or.inr (Or.inl (by decide +kernel))⟩, fun m h => by simp [wf0] at h, by decide +kernel, by decide +kernel⟩⟩


/-- The hypotheses of WeightEpochsAreComputedOrMissed are met. -/
theorem test_WeightEpochsAreComputedOrMissed :
    (∃ (x e c0 : Nat) (c : CtnSes) (f : WagSes) (s : State), s.wagOf x = some f ∧ s.ctnOf x = some c ∧ f.first = some c0 ∧ c0 ≤ e ∧ (∀ k, f.stop = some k → s.wagR x e ≤ k) ∧ s.wagExplicit x = false ∧ s.blockOn 12 = true ∧ e ∉ f.done ∧ (s.sesReplay x = false → s.begun (s.wagRelease x e) = true) ∧ (s.sesReplay x = true → s.wagDue x e = true) ∧ (∀ m ∈ f.missed, m.1 ≠ e) ∧ (∀ j ∈ s.wag.jobs, ¬ (j.x = x ∧ j.e = e)))
    ∧ (∃ (x e c0 : Nat) (f : WagSes) (s : State), s.wagOf x = some f ∧ x < 1024 ∧ f.first = some c0 ∧ c0 ≤ e ∧ s.wagExplicit x = false ∧ s.sesReplay x = false ∧ f.stop = none ∧ s.begun (s.wagR x e) = true ∧ s.begun (s.wagR x (e + 1) + 3) = false ∧ e ∉ f.done ∧ (∀ m ∈ f.missed, m.1 ≠ e))
    ∧ (∃ (x e : Nat) (f : WagSes) (s : State), s.wagOf x = some f ∧ x < 1024 ∧ f.pend = some e ∧ (s.sesReplay x = false → s.begun (if s.wagExplicit x then s.wagR x e else s.wagRelease x e) = true) ∧ (s.sesReplay x = true → s.wagBegun x e = true)) :=
  ⟨⟨3, 2, 0, (cs 6 16), wf0, (we 60 [] wf0), by decide +kernel⟩,
    ⟨3, 1, 0, wf0, (we KE [] wf0), by decide +kernel⟩,
    ⟨3, 2, ({ wf0 with pend := some 2, banks := [(0, 1), (2, 0)] }), (we 60 [(WAG_SESx_CFG 3, 1 + 7 * 65536 + 0), (WAG_SESx_STATUS 3, 2^30 + 1 * 2^29 + 1*2^28 + 5)] ({ wf0 with pend := some 2, banks := [(0, 1), (2, 0)] })), by decide +kernel⟩⟩

end W12

/-! ### Hypotheses: group 14b -/
namespace W14b

def R (seed k m : Nat) : Nat :=
  let x := (seed * 0x9E3779B97F4A7C15 + k * 0xBF58476D1CE4E5B9 + 0x94D049BB133111EB) % 2^64
  let x := (Nat.xor x (x / 2^30) * 0xBF58476D1CE4E5B9) % 2^64
  let x := (Nat.xor x (x / 2^27) * 0x94D049BB133111EB) % 2^64
  (Nat.xor x (x / 2^31)) % m
def pick (seed k : Nat) (l : List α) [Inhabited α] : α := l[R seed k l.length]!
def w24 (seed k : Nat) : Nat := if R seed k 3 = 0 then pick seed (k+1000) [0,1,2,2^23,2^23-1,2^24-1,2^22,0xABCDEF,48,64] else R seed (k+2000) (2^24)
def w56 (seed k : Nat) : Int := match R seed k 4 with
  | 0 => pick seed (k+1000) [0,1,-1,2^55-1,-2^55,2^47,2^47-1,-2^47,-2^47-1,2^24,2^23*2^24,-2^23*2^24]
  | 1 => signed 56 (R seed (k+1000) (2^56)) | 2 => signed 48 (R seed (k+1000) (2^48)) | _ => signed 24 (R seed (k+1000) (2^24))
def ptr (seed k : Nat) : Nat := pick seed k [0,1,2,3,5,16,17,31,32,47,63,64,65,65535,0xFFBF,0xFFC0,0xFFDF,0xFFE0]
def mkBank (s : Nat) : WBank := ⟨(List.range 16).map (fun i => w24 s (i+1)), (List.range 4).map (fun i => w56 s (i+30)), (List.range 8).map (fun i => ptr s (i+50)), R s 60 512⟩
def mkCore (s : Nat) (pc : Nat) : WCore :=
  { cur := mkBank s, oth := mkBank (s+777), handler := R s 70 2 == 0, m := (List.range 8).map (fun i => pick s (80+i) [0,1,2,65535,5]), l := (List.range 8).map (fun i => pick s (90+i) [0,0,4,16,33,65535])
    mr := (if R s 100 4 = 0 then R s 101 512 else R s 101 256), mrNext := (if R s 102 4 = 0 then some (R s 103 256) else none), smr := R s 104 512, rta := R s 105 32768, ecause := R s 106 32, eaddr := R s 107 32768
    stack := (match R s 108 4 with | 0 => [] | 1 => [(pick s 109 [1,2,5], pc-3, pc)] | 2 => [(pick s 109 [1,2,5], pc-3, pc), (4, pc-5, pc)] | _ => [(3, pc-1, pc+7), (2, 0, pc+9)])
    cyc := R s 110 50, pc := pc
    loads := (match R s 111 4 with | 0 => [] | 1 => [(R s 112 16, w24 s 113)] | 2 => [(64 + R s 112 4, w24 s 113), (R s 114 16, w24 s 115)] | _ => [(16 + R s 112 36, w24 s 113)])
    slot := (match R s 116 6 with | 0 => some ⟨1, some 77, 40, none, false⟩ | 1 => some ⟨2, none, 40, some 3, false⟩ | 2 => some ⟨2, none, 40, none, R s 70 2 == 0⟩ | _ => none)
    fresh := R s 117 8 == 0, tTaken := true, wTaken := true, run := some 9, ran := some 9, rs := pick s 118 [[], [5], [rCycleRead, 7]], popped := pick s 119 [none, some (0, 3, 4)], again := false }
def mkS (seed : Nat) (i : Option WInsn) : State :=
  let n := 5
  let pc := pick seed 1 [10, 100, 32767, 300]
  let s := St 10 [(WRK_CTRL, 1), (GLB_DOMAINS, 4095), (WRK_Wn_BUDGET 5, 1000), (WRK_Wn_TIMER 5, pick seed 2 [0, 3]), (WRK_WINw_CFG 3, 2^31 + 5 * 2^24), (WRK_WINw_CFG 4, 2^31 + 6 * 2^24 + 1), (WRK_Wn_CYCREAD 5, pick seed 3 [4, 2^32-1])]
  let c := mkCore seed pc
  let c := if R seed 4 2 == 0 then { c with slot := none } else c
  let s := { s with wrk := { s.wrk with cores := (s.wrk.cores.set n c).set 6 (mkCore (seed+5) 9), xm := (List.range 70).map (fun a => (5 * 65536 + a, w24 seed (200+a))) ++ [(5*65536+65535, 99), (6*65536, 3)], ym := (List.range 70).map (fun a => (5 * 65536 + a, w24 seed (300+a))) ++ [(5*65536+65535, 99)] } }
  s.pmPut n pc (match i with | some i => wEncode i | none => 7 * 2^45)
def upc (s : State) (f : WCore → WCore) : State := { s with wrk := { s.wrk with cores := s.wrk.cores.modify 5 f } }
def wr2 (s : State) (l : List (Nat × Nat)) : State := l.foldl (fun s e => s.wr e.1 e.2) s
def r0 (seed : Nat) (l : List (Nat × Nat)) : State := wr2 (upc (mkS seed none) (fun c => { c with run := none, ran := if R seed 9 2 == 0 then none else some 8 })) ([(WRK_Wn_CFG 5, 1 + 2^21 + 3 * 2^22), (WRK_Wn_ENTRY 5, 0x1234), (WRK_Wn_STATUS 5, 2^30), (WRK_Wn_SEED 5, 0xABCDEF12)] ++ l)
def st (l : List Nat) : WSet := ⟨5, 7, l, [3, 4], false⟩
def rc (l w : List (Nat × Nat)) (ws : List Nat) : State := let s := wr2 (atTick (r0 1 l) 10) w; { s with wrk := { s.wrk with sets := [⟨6, 9, [], [], false⟩, st ws, ⟨5, 8, [], [], false⟩] } }
def wl (a : Nat) : List Nat := a :: (List.range 31).map (fun i => 2^24 - 1 - i * 12345)

/-- The hypotheses of WorkerRunsStartEndAndReport are met. -/
theorem test_WorkerRunsStartEndAndReport :
    (∃ (n : Nat) (s : State), s.workersWf ∧ n < 64 ∧ s.blockOn 13 = true ∧ s.wrkEn n = true ∧ s.tick ≠ 0 ∧ s.bit (WRK_Wn_STATUS n) 29 = 0 ∧ (s.core n).run = none ∧ s.rd64 (WRK_Wn_START_LO n) (WRK_Wn_START_HI n) ≤ s.tick - 1 ∧ (∀ r, (s.core n).ran = some r → r < s.tick - 1) ∧ s.grants = [] ∧ n ∉ s.wrk.stopped)
    ∧ (∃ (n : Nat) (s : State), s.workersWf ∧ n < 64 ∧ s.blockOn 13 = true ∧ s.wrkEn n = true ∧ s.tick ≠ 0 ∧ s.bit (WRK_Wn_STATUS n) 29 = 0 ∧ (s.core n).run = none ∧ s.rd64 (WRK_Wn_START_LO n) (WRK_Wn_START_HI n) ≤ s.tick - 1 ∧ (∀ r, (s.core n).ran = some r → r < s.tick - 1) ∧ n ∈ s.wrk.stopped)
    ∧ (∃ (n : Nat) (s : State) (g : _), s.workersWf ∧ n < 64 ∧ s.blockOn 13 = true ∧ s.wrkEn n = true ∧ s.tick ≠ 0 ∧ s.bit (WRK_Wn_STATUS n) 29 = 0 ∧ (s.core n).run = none ∧ s.rd64 (WRK_Wn_START_LO n) (WRK_Wn_START_HI n) ≤ s.tick - 1 ∧ (∀ r, (s.core n).ran = some r → r < s.tick - 1) ∧ n ∉ s.wrk.stopped ∧ (∀ q ∈ s.grants, q.unit ≠ 5) ∧ s.grants.find? (fun g => g.x == bitsOf (s.rd (WRK_Wn_CFG n)) 31 22 && g.unit == 3) = some g ∧ g.got = 0 ∧ 0 < g.want)
    ∧ (∃ (n : Nat) (timer : Bool) (s : State), s.workersWf ∧ n < 64 ∧ s.runOpen (s.core n) = true ∧ s.blockOn 13 = true ∧ (s.core n).cyc < s.wrkBudget n ∧ (s.core n).open_ = true ∧ (s.core n).fault (wDecode (s.pmGet n (s.core n).pc)) (fun _ _ => false) = none ∧ (if timer then s.timerDue n (s.core n) = true else s.warnDue n (s.core n) = true ∧ s.timerDue n (s.core n) = false))
    ∧ (∃ (n k : Nat) (s : State), s.workersWf ∧ n < 64 ∧ (s.core n).run = some k ∧ (s.wrkBudget n ≤ (s.core n).cyc ∨ s.runOpen (s.core n) = false))
    ∧ (∃ (s : State), s.blockOn 13 = true ∧ s.wrk.interval ≠ some s.tick)
    ∧ (∃ (k : Nat) (r : WSet) (s : State), s.bit GLB_DOMAINS 9 = 1 ∧ s.begun (k + 2) = true ∧ s.wrk.recs = [] ∧ s.wrk.sets.filter (fun q => q.tick == k) = [r] ∧ (∀ q ∈ s.wrk.sets, k ≤ q.tick) ∧ s.begun (k + 4) = false ∧ r.n < 64 ∧ r.words.length = 32)
    ∧ (∃ (n q done : Nat) (s : State), n < 64 ∧ s.wrk.moves.find? (·.1 == n) = some (n, q, done) ∧ 163840 ≤ done ∧ (s.core n).run = none ∧ n < s.wrk.phys.length) :=
  ⟨⟨5, wRun, wR_wf _ _ (by decide +kernel), by decide +kernel⟩,
    ⟨5, ({ wRun with wrk := { wRun.wrk with stopped := [2, 5] } }), wR_wf _ _ (by decide +kernel), by decide +kernel⟩,
    ⟨5, ({ wRun with grants := [⟨3, 0, 4, 0, 3⟩, ⟨3, 3, 4, 0, 2⟩] }), (⟨3, 3, 4, 0, 2⟩), wR_wf _ _ (by decide +kernel), by decide +kernel⟩,
    ⟨5, true, (wR wOpen [(WRK_Wn_TIMER 5, 1)]), wR_wf _ _ (by decide +kernel), by decide +kernel⟩,
    ⟨5, 9, (wR wCore [(WRK_Wn_BUDGET 5, 0)]), wR_wf _ _ (by decide +kernel), by decide +kernel⟩,
    ⟨wRun, by decide +kernel⟩,
    ⟨7, (st (wl (1 + 3*16))), (rc [(WRK_RES_CFG, 0 * 4096 + 3 * 16), (TRG_CTRL, 0)] [] (wl (1 + 3*16))), by decide +kernel⟩,
    ⟨5, 65, 163840, ({ wRun with wrk := { wRun.wrk with moves := [(4, 64, 163800), (5, 65, 163840)] } }), by decide +kernel⟩⟩

end W14b

/-! ### Hypotheses: group 15 -/
namespace W15

def rep0 : TrgRep := ⟨0,0,0,[],[]⟩
def R (seed k m : Nat) : Nat :=
  let x := (seed * 0x9E3779B97F4A7C15 + k * 0xBF58476D1CE4E5B9 + 0x94D049BB133111EB) % 2^64
  let x := (Nat.xor x (x / 2^30) * 0xBF58476D1CE4E5B9) % 2^64
  let x := (Nat.xor x (x / 2^27) * 0x94D049BB133111EB) % 2^64
  (Nat.xor x (x / 2^31)) % m
def ct (seed i k n : Nat) : CanonTick := ⟨i, k, false, (List.range n).map (fun j => ⟨(R seed (i*100000 + k*1000+j) 1000 : Int) - 500, if R seed j 50 == 0 then .crcErr else .none, false⟩), []⟩
def sb (seed k0 k : Nat) : State :=
  let s := St k [(STG_CTRL, 1), (TRG_CTRL, 1), (GLB_DOMAINS, 4095), (STG_Bb_CFG 3, 1 + 65536 * (seed % 3) + (seed % 5) * 2^24), (STG_Bb_THR_LO 3, 700000 / (2 ^ (2*(seed % 3)))), (STG_Bb_MAP 3, 2 + 7 * 65536),
   (STG_ENTe 7, 2), (STG_ENTe 8, 9 + 5 * 65536 + 2^30), (STG_ENTe 9, 2 + 99 * 65536 + 2^31), (ING_Ii_CFG 2, 7 * 2^24 + 1), (ING_Ii_CFG 9, 7 * 2^24 + 1)]
  { s with trg := { s.trg with beams := [(2, 1), (3, k0)], reps := [rep0] }, ing := { s.ing with canon := [ct seed 2 4 100, ct seed 9 4 100, ct seed 2 5 100, ct seed 9 5 100] ++ (if seed % 2 == 0 then [ct seed 2 6 100, ct seed 9 6 100] else []) } }
def ti (q : Option Nat) (l : List (Nat × Nat)) : State := let s := St 12 ([(TRG_CTRL, 1), (GLB_DOMAINS, 4095), (TRIG_INn_CFG 4, 1), (TRIG_INn_DLY 4, 9000)] ++ l); { s with trg := { s.trg with quarter := (s.trg.quarter.set 4 q) }, tim := { s.tim with stepSecs := [0] } }
def ce (seed T : Nat) (l : List (Nat × Nat)) : State :=
  let s := St T ([(TRG_CTRL, 1), (GLB_DOMAINS, 4095), (TRG_TCc_CFG 6, 1 + 1 * 2 + (1 + seed % 3) * 256 + 3 * 65536 + 2 * 2^24), (TRG_TCc_SRC 6 0, 3 + 0x85 * 256 + 0xC2 * 65536), (TRG_TCc_VETO 6, 9), (TRG_TCc_WIN 6, 1500), (TRG_TCc_VPRE 6, 300), (TRG_TCc_VPOST 6, 200), (TRG_TCc_PRESCALE 6, 1 + seed % 2), (TRG_TCc_COUNT 6, 3 + seed / 2 % 2),
    (TRIG_OUTn_CFG 1, 1), (TRIG_OUTn_CFG 5, 1), (TRIG_OUTn_CFG 6, 1), (TRIG_OUTn_SRC_LO 1, 64), (TRIG_OUTn_SRC_LO 5, 64), (TRIG_OUTn_LAT 1, 8000), (TRIG_OUTn_LAT 5, 100000)] ++ l)
  let rp (src idx n : Nat) : TrgRep := ⟨src, idx, 2 * (idx + 1), (List.range n).map (fun i => (idx, R seed (src * 1000 + idx * 10 + i) 4000)), if R seed (src + idx) 5 == 0 then [9] else []⟩
  { s with trg := { s.trg with reps := [rp 3 16 1, rp 3 17 3, rp 0x85 17 1, rp 0xC2 17 2, rp 9 17 (seed % 4 / 3 * 8), rp 3 18 1, rp 9 16 0, rp 9 18 0, rp 0x85 16 1, rp 0x85 18 1] , sched := [(1, 5)] } }
def po (g : Bool) (b : Nat) : State := let s := St 20 [(TRG_CTRL, 1), (GLB_DOMAINS, 4095), (TRIG_OUTn_WIDTH 5, 33), (TRIG_OUTn_CFG 5, 3)]; { s with trg := { s.trg with sched := [(5, 79000), (1, 3), (5, 78000), (5, 78000)], busy := s.trg.busy.set 5 b }, kpr := { s.kpr with gap := g } }

/-- The hypotheses of TriggersAreFoundFromReports are met. -/
theorem test_TriggersAreFoundFromReports :
    (∃ (b j k0 : Nat) (s : State), s.trg.beams.find? (·.1 == b) = some (b, k0) ∧ s.stgOn = true ∧ s.beamOn b = true ∧ k0 ≤ j ∧ s.begun (j + 1) = true ∧ (s.begun (j + 5) = true ∨ (∀ e ∈ s.beamEntries b, ∃ c ∈ s.ing.canon, c.input = e.1 ∧ c.tick = j ∧ c.replay = false)) ∧ (∀ r ∈ s.trg.reps, ¬ (r.src = b ∧ r.idx = j)) ∧ s.blockOn 14 = true)
    ∧ (∃ (n e : Nat) (s : State), n < 8 ∧ s.bit (TRIG_INn_CFG n) 0 = 1 ∧ s.blockOn 14 = true ∧ s.trg.quarter.length = 8 ∧ s.begun ((e + 4 * bitsOf (s.rd (TRIG_INn_CFG n)) 15 8) / 4000) = true ∧ nth s.trg.quarter n none = some (e / 1000))
    ∧ (∃ (n e : Nat) (s : State), n < 8 ∧ s.bit (TRIG_INn_CFG n) 0 = 1 ∧ s.blockOn 14 = true ∧ s.trg.quarter.length = 8 ∧ s.begun ((e + 4 * bitsOf (s.rd (TRIG_INn_CFG n)) 15 8) / 4000) = true ∧ nth s.trg.quarter n none ≠ some (e / 1000))
    ∧ (∃ (c T : Nat) (s : State) (a : _), let j := T - s.tcLag c - 1; let srcs := s.tcSources c; let win := s.rd (TRG_TCc_WIN c) % 2 ^ 19; let hits (a : Nat) : List Nat := (List.range srcs.length).filter (fun i => (s.consOf c (nth srcs i 0)).any (fun e => a ≤ e.1 + win && e.1 ≤ a)); let veto (a : Nat) : Prop := ∃ v ∈ s.tcVetoes c, ∃ e ∈ s.consOf c v, a ≤ e.1 + s.rd (TRG_TCc_VPRE c) % 2 ^ 19 ∧ e.1 ≤ a + s.rd (TRG_TCc_VPOST c) % 2 ^ 16; let anchor (a : Nat) : Prop := a / 4000 = j ∧ ∃ v ∈ srcs, ∃ e ∈ s.consOf c v, e.1 = a; let good (a : Nat) : Prop := anchor a ∧ bitsOf (s.rd (TRG_TCc_CFG c)) 12 8 ≤ (hits a).length ∧ ¬ veto a; good a ∧ (∀ a', a' < a → ¬ good a') ∧ s.blockOn 14 = true ∧ s.tim.lastTick = some T ∧ s.trg.lastEval ≠ some T ∧ (List.range 64).filter (fun c => s.tcOn c && s.tcLag c + 1 ≤ T) = [c] ∧ (∀ g, g < 8 → s.slotMember g = false))
    ∧ (∃ (c T : Nat) (s : State), let j := T - s.tcLag c - 1; let srcs := s.tcSources c; let win := s.rd (TRG_TCc_WIN c) % 2 ^ 19; let hits (a : Nat) : List Nat := (List.range srcs.length).filter (fun i => (s.consOf c (nth srcs i 0)).any (fun e => a ≤ e.1 + win && e.1 ≤ a)); let veto (a : Nat) : Prop := ∃ v ∈ s.tcVetoes c, ∃ e ∈ s.consOf c v, a ≤ e.1 + s.rd (TRG_TCc_VPRE c) % 2 ^ 19 ∧ e.1 ≤ a + s.rd (TRG_TCc_VPOST c) % 2 ^ 16; let anchor (a : Nat) : Prop := a / 4000 = j ∧ ∃ v ∈ srcs, ∃ e ∈ s.consOf c v, e.1 = a; let good (a : Nat) : Prop := anchor a ∧ bitsOf (s.rd (TRG_TCc_CFG c)) 12 8 ≤ (hits a).length ∧ ¬ veto a; (∀ a, ¬ good a) ∧ s.blockOn 14 = true ∧ s.tim.lastTick = some T ∧ s.trg.lastEval ≠ some T ∧ (List.range 64).filter (fun c => s.tcOn c && s.tcLag c + 1 ≤ T) = [c] ∧ (∀ g, g < 8 → s.slotMember g = false))
    ∧ (∃ (n at_ : Nat) (s : State), let on : Prop := s.bit (TRIG_OUTn_CFG n) 0 = 1 ∧ s.blockOn 14 = true; (¬ on) ∧ nextEdge n s.trg.sched = some (n, at_) ∧ n < 8 ∧ s.begun (at_ / 4000) = true ∧ s.trg.busy.length = 8)
    ∧ (∃ (n at_ : Nat) (s : State), let on : Prop := s.bit (TRIG_OUTn_CFG n) 0 = 1 ∧ s.blockOn 14 = true; nextEdge n s.trg.sched = some (n, at_) ∧ n < 8 ∧ s.begun (at_ / 4000) = true ∧ s.trg.busy.length = 8 ∧ on ∧ s.kpr.gap = true)
    ∧ (∃ (n at_ : Nat) (s : State), let on : Prop := s.bit (TRIG_OUTn_CFG n) 0 = 1 ∧ s.blockOn 14 = true; nextEdge n s.trg.sched = some (n, at_) ∧ n < 8 ∧ s.begun (at_ / 4000) = true ∧ s.trg.busy.length = 8 ∧ on ∧ s.kpr.gap = false ∧ at_ < nth s.trg.busy n 0)
    ∧ (∃ (n at_ : Nat) (s : State), let on : Prop := s.bit (TRIG_OUTn_CFG n) 0 = 1 ∧ s.blockOn 14 = true; nextEdge n s.trg.sched = some (n, at_) ∧ n < 8 ∧ s.begun (at_ / 4000) = true ∧ s.trg.busy.length = 8 ∧ on ∧ s.kpr.gap = false ∧ nth s.trg.busy n 0 ≤ at_) :=
  ⟨⟨3, 5, (5 - 0 % 2), (sb 0 (5 - 0 % 2) 6), by decide +kernel⟩,
    ⟨4, 47555, (ti (some 47) []), by decide +kernel⟩,
    ⟨4, 47555, (ti (some 46) []), by decide +kernel⟩,
    ⟨6, 20, (({ ce 0 20 [] with trg := { (ce 0 20 []).trg with reps := [⟨3, 17, 36, [(17, 462)], []⟩] } } : State)), 68462, ⟨⟨by decide +kernel, by decide +kernel⟩, by decide +kernel, by decide +kernel⟩, fun a' h g => by obtain ⟨⟨-, v, hv, e, he, rfl⟩, -⟩ := g; exact absurd h (Nat.not_lt.mpr ((by decide +kernel : ∀ v ∈ ({ ce 0 20 [] with trg := { (ce 0 20 []).trg with reps := [⟨3, 17, 36, [(17, 462)], []⟩] } } : State).tcSources 6, ∀ e ∈ ({ ce 0 20 [] with trg := { (ce 0 20 []).trg with reps := [⟨3, 17, 36, [(17, 462)], []⟩] } } : State).consOf 6 v, 68462 ≤ e.1) v hv e he)), by decide +kernel⟩,
    ⟨6, 20, ({ ce 0 20 [] with trg := { (ce 0 20 []).trg with reps := [] } }), fun a h => by obtain ⟨⟨-, v, hv, e, he, -⟩, -⟩ := h; rw [(by decide +kernel : ∀ v ∈ ({ ce 0 20 [] with trg := { (ce 0 20 []).trg with reps := [] } } : State).tcSources 6, ({ ce 0 20 [] with trg := { (ce 0 20 []).trg with reps := [] } } : State).consOf 6 v = []) v hv] at he; simp at he, by decide +kernel⟩,
    ⟨5, 78000, ((po false 78000).wr (TRIG_OUTn_CFG 5) 2), by decide +kernel, by decide +kernel⟩,
    ⟨5, 78000, (po true 78001), by decide +kernel⟩,
    ⟨5, 78000, (po false 78001), by decide +kernel⟩,
    ⟨5, 78000, (po false 78000), by decide +kernel⟩⟩

end W15

/-! ### Hypotheses: group 15s -/
namespace W15s

def mem (cfg : Nat) (l : List (Nat × Nat)) : List (Nat × Nat) := [(TRG_CTRL, 1), (GLB_DOMAINS, 4095), (CTN_SWARM_ID, 0x1234), (CTN_ID, 5), (TRG_SESg_CFG 2, cfg + 3 * 1024 + 77 * 2^22), (TRG_SESg_HIVES 2, 5 + 8 * 65536), (TRG_SESg_MEMBERS 2 0, 2^5 + 2^8 + 2^9 + 2^1), (TRG_SESg_WIN 2, 600), (TRG_SESg_CFG2 2, 2), (TRG_SESg_HB 2, 10 + 3 * 65536),
  (TRG_SESg_TSEQ_LO 2, 2^32-1), (TRG_SESg_PORTS 2, 2^31 + 1), (ETHn_STATUS 31, 1), (ETHn_CFG 31, 1), (ETH_CTRL, 1), (ETHn_STATUS 0, 1), (ETHn_CFG 0, 1)] ++ l
def ms (type hive count tick seq : Nat) (fl : Nat) (body : List Byte) : RxItem := ⟨.trigger, 3, 9, trgHeader type 77 hive 0x1234 fl count tick seq ++ body, 5 * 65536 * 1000, 0, 0⟩
def tsS (k cfg : Nat) (l : List (Nat × Nat)) (x : RxItem) (f : Trg → Trg) : State := let s := St k (mem cfg l); { s with eth := { s.eth with inbox := [⟨.arp,0,0,[],0,0,0⟩, x] }, trg := f { s.trg with dups := [⟨2, 5, 1, 9, 3, []⟩, ⟨2, 5, 2, 9, 3, []⟩, ⟨2, 5, 3, 9, 3, []⟩], slots := s.trg.slots.set 2 ⟨[7, 8, 9], [⟨30, 7, [1, 5], 1, 6, [9], true⟩, ⟨29, 8, [1, 5], 1, 5, [], false⟩, ⟨12, 8, [1, 5], 1, 5, [], false⟩], 3, [(20, 4, 100, 2)], 5, 30, 20, some 30⟩ } }
def dg : List Byte := toBE 4 (2^31 + 2^28 + 77) ++ toBE 4 0 ++ toBE 4 (2^31 + 3999 + 2^29)
def x1 := ms 1 8 3 30 4 0 dg
def dd (ty : Nat) : TrgDup := ⟨2, 5, ty, 9, 3, []⟩
def dgs (h t a : Nat) (f : Option Nat) : TrgDig := ⟨2, h, t, a, f, if h = 8 then [9] else [], false⟩
def sc (cfg : Nat) (l : List (Nat × Nat)) (ds : List TrgDig) : State := tsS 4 cfg ([(TRG_SESg_STATUS 2, 2^31), (TRG_SESg_WIN 2, 300)] ++ l) x1 (fun t => { t with digs := ds })
def x2 (tick seq ts sub n fl : Nat) := ms 2 8 0 tick seq fl (toBE 8 ts ++ toBE 2 sub ++ toBE 2 n ++ List.replicate 132 1)
def s3 (cfg : Nat) (x : RxItem) := tsS 33 cfg [] x id
def s5t (k cfg : Nat) := tsS k cfg [(TRG_SESg_STATUS 2, 2^31)] x1 (fun t => { t with lastColl := some k })
def x3 (hive act next late : Nat) := ms 3 hive 0 30 5 0 (toBE 2 act ++ toBE 2 0 ++ toBE 4 late ++ toBE 8 next)
def s711 := tsS 61 11 [] x1 id
theorem fire_iff (a h : Nat) : (∃ d ∈ (sc 7 [(TRG_SESg_CFG2 2, 1)] [dgs 5 0 6 (some 500)]).trg.digs, ∃ u, d.g = 2 ∧ d.hive = h ∧ (sc 7 [(TRG_SESg_CFG2 2, 1)] [dgs 5 0 6 (some 500)]).isMemberHive 2 h = true ∧ onTime d.at_ d.tick ((sc 7 [(TRG_SESg_CFG2 2, 1)] [dgs 5 0 6 (some 500)]).slotEs 2) = true ∧ d.fire = some u ∧ d.tick * 4000 + u = a) ↔ a = 500 ∧ h = 5 := by
  have e : (sc 7 [(TRG_SESg_CFG2 2, 1)] [dgs 5 0 6 (some 500)]).trg.digs = [dgs 5 0 6 (some 500)] := rfl
  rw [e]
  constructor
  · rintro ⟨d, hd, u, -, h1, -, -, h2, h3⟩
    simp only [List.mem_singleton] at hd
    subst hd
    simp only [dgs, Option.some.injEq] at h1 h2 h3
    omega
  · rintro ⟨rfl, rfl⟩
    exact ⟨_, List.mem_singleton_self _, 500, by decide +kernel⟩


/-- The hypotheses of TriggerSessionsAgreeAndRecover are met. -/
theorem test_TriggerSessionsAgreeAndRecover :
    (∃ (g : Nat) (x : RxItem) (s : State), let msg (s : State) (g type : Nat) (x : RxItem) : Prop := s.eth.inbox.find? (fun x => x.kind == .trigger && (if type = 1 then beAt x.bytes 3 1 != 2 && beAt x.bytes 3 1 != 3 else beAt x.bytes 3 1 == type)) = some x ∧ beAt x.bytes 3 1 = type ∧ s.blockOn 14 = true ∧ beAt x.bytes 0 2 = 0xB711 ∧ beAt x.bytes 2 1 = 1 ∧ beAt x.bytes 8 4 = s.rd CTN_SWARM_ID ∧ g < 8 ∧ s.slotOn g = true ∧ s.slotSession g = beAt x.bytes 4 2 ∧ (∀ e, e < g → ¬ (s.slotOn e = true ∧ s.slotSession e = beAt x.bytes 4 2)) ∧ s.trg.slots.length = 8; let new (s : State) (g type : Nat) (x : RxItem) : Prop := msg s g type x ∧ ∀ d ∈ s.trg.dups, ¬ (d.g = g ∧ d.hive = beAt x.bytes 6 2 ∧ d.type = type); new s g 1 x ∧ s.slotCollects g = true)
    ∧ (∃ (g type : Nat) (x : RxItem) (d : TrgDup) (s : State), let msg (s : State) (g type : Nat) (x : RxItem) : Prop := s.eth.inbox.find? (fun x => x.kind == .trigger && (if type = 1 then beAt x.bytes 3 1 != 2 && beAt x.bytes 3 1 != 3 else beAt x.bytes 3 1 == type)) = some x ∧ beAt x.bytes 3 1 = type ∧ s.blockOn 14 = true ∧ beAt x.bytes 0 2 = 0xB711 ∧ beAt x.bytes 2 1 = 1 ∧ beAt x.bytes 8 4 = s.rd CTN_SWARM_ID ∧ g < 8 ∧ s.slotOn g = true ∧ s.slotSession g = beAt x.bytes 4 2 ∧ (∀ e, e < g → ¬ (s.slotOn e = true ∧ s.slotSession e = beAt x.bytes 4 2)) ∧ s.trg.slots.length = 8; msg s g type x ∧ (type = 1 ∨ type = 2 ∨ type = 3) ∧ s.trg.dups.find? (fun d => d.g == g && d.hive == beAt x.bytes 6 2 && d.type == type) = some d ∧ d.a = beAt x.bytes 24 4)
    ∧ (∃ (g T : Nat) (s : State) (a : Nat) (h : Nat) (hs : List Nat), let j := T - s.slotEs g - 1; let win := s.rd (TRG_SESg_WIN g) % 2 ^ 19; let fire (a h : Nat) : Prop := ∃ d ∈ s.trg.digs, ∃ u, d.g = g ∧ d.hive = h ∧ s.isMemberHive g h = true ∧ onTime d.at_ d.tick (s.slotEs g) = true ∧ d.fire = some u ∧ d.tick * 4000 + u = a; fire a h ∧ (∀ e, e < h → ¬ fire a e) ∧ (∀ e, e ∈ hs ↔ ∃ b, fire b e ∧ a ≤ b + win ∧ b ≤ a) ∧ (∀ (b hb : Nat) (l : List Nat), b < a → b / 4000 = j → fire b hb → (∀ e, e ∈ l ↔ ∃ b', fire b' e ∧ b ≤ b' + win ∧ b' ≤ b) → l.Nodup → l.length < s.rd (TRG_SESg_CFG2 g) % 2048) ∧ s.blockOn 14 = true ∧ s.tim.lastTick = some T ∧ s.trg.lastColl ≠ some T ∧ g < 8 ∧ s.trg.slots.length = 8 ∧ (List.range 8).filter (fun g => s.slotCollects g && s.slotEs g + 1 ≤ T) = [g] ∧ a / 4000 = j ∧ hs.Pairwise (· < ·) ∧ s.rd (TRG_SESg_CFG2 g) % 2048 ≤ hs.length)
    ∧ (∃ (g : Nat) (x : RxItem) (s : State), let msg (s : State) (g type : Nat) (x : RxItem) : Prop := s.eth.inbox.find? (fun x => x.kind == .trigger && (if type = 1 then beAt x.bytes 3 1 != 2 && beAt x.bytes 3 1 != 3 else beAt x.bytes 3 1 == type)) = some x ∧ beAt x.bytes 3 1 = type ∧ s.blockOn 14 = true ∧ beAt x.bytes 0 2 = 0xB711 ∧ beAt x.bytes 2 1 = 1 ∧ beAt x.bytes 8 4 = s.rd CTN_SWARM_ID ∧ g < 8 ∧ s.slotOn g = true ∧ s.slotSession g = beAt x.bytes 4 2 ∧ (∀ e, e < g → ¬ (s.slotOn e = true ∧ s.slotSession e = beAt x.bytes 4 2)) ∧ s.trg.slots.length = 8; let new (s : State) (g type : Nat) (x : RxItem) : Prop := msg s g type x ∧ ∀ d ∈ s.trg.dups, ¬ (d.g = g ∧ d.hive = beAt x.bytes 6 2 ∧ d.type = type); let k := beAt x.bytes 16 8; new s g 2 x ∧ s.slotMember g = true ∧ beAt x.bytes 6 2 ∈ s.slotHives g ∧ (∀ a ∈ (s.trgSlot g).accepted, a.1 ≠ k) ∧ s.slotSession g ∉ s.untimed ∧ s.outsOfSlot g = [])
    ∧ (∃ (g : Nat) (x : RxItem) (a : Nat × Nat × Nat × Nat) (s : State), let msg (s : State) (g type : Nat) (x : RxItem) : Prop := s.eth.inbox.find? (fun x => x.kind == .trigger && (if type = 1 then beAt x.bytes 3 1 != 2 && beAt x.bytes 3 1 != 3 else beAt x.bytes 3 1 == type)) = some x ∧ beAt x.bytes 3 1 = type ∧ s.blockOn 14 = true ∧ beAt x.bytes 0 2 = 0xB711 ∧ beAt x.bytes 2 1 = 1 ∧ beAt x.bytes 8 4 = s.rd CTN_SWARM_ID ∧ g < 8 ∧ s.slotOn g = true ∧ s.slotSession g = beAt x.bytes 4 2 ∧ (∀ e, e < g → ¬ (s.slotOn e = true ∧ s.slotSession e = beAt x.bytes 4 2)) ∧ s.trg.slots.length = 8; let new (s : State) (g type : Nat) (x : RxItem) : Prop := msg s g type x ∧ ∀ d ∈ s.trg.dups, ¬ (d.g = g ∧ d.hive = beAt x.bytes 6 2 ∧ d.type = type); new s g 2 x ∧ s.slotMember g = true ∧ beAt x.bytes 6 2 ∈ s.slotHives g ∧ (s.trgSlot g).accepted.find? (·.1 == beAt x.bytes 16 8) = some a)
    ∧ (∃ (g T : Nat) (s : State), g < 8 ∧ s.blockOn 14 = true ∧ s.slotCollects g = true ∧ s.slotActive g = true ∧ s.slotMember g = true ∧ s.tim.lastTick = some T ∧ s.rd (TRG_SESg_HB g) % 1024 ∣ T ∧ s.rd (TRG_SESg_HB g) % 1024 ≠ 0 ∧ s.trg.slots.length = 8 ∧ (s.trgSlot g).hbSent ≠ some T ∧ s.trg.lastColl = some T)
    ∧ (∃ (g : Nat) (x : RxItem) (s : State), let msg (s : State) (g type : Nat) (x : RxItem) : Prop := s.eth.inbox.find? (fun x => x.kind == .trigger && (if type = 1 then beAt x.bytes 3 1 != 2 && beAt x.bytes 3 1 != 3 else beAt x.bytes 3 1 == type)) = some x ∧ beAt x.bytes 3 1 = type ∧ s.blockOn 14 = true ∧ beAt x.bytes 0 2 = 0xB711 ∧ beAt x.bytes 2 1 = 1 ∧ beAt x.bytes 8 4 = s.rd CTN_SWARM_ID ∧ g < 8 ∧ s.slotOn g = true ∧ s.slotSession g = beAt x.bytes 4 2 ∧ (∀ e, e < g → ¬ (s.slotOn e = true ∧ s.slotSession e = beAt x.bytes 4 2)) ∧ s.trg.slots.length = 8; let new (s : State) (g type : Nat) (x : RxItem) : Prop := msg s g type x ∧ ∀ d ∈ s.trg.dups, ¬ (d.g = g ∧ d.hive = beAt x.bytes 6 2 ∧ d.type = type); new s g 3 x ∧ beAt x.bytes 6 2 ∈ s.slotHives g ∧ beAt x.bytes 14 1 = 0)
    ∧ (∃ (g : Nat) (s : State), let hb := s.rd (TRG_SESg_HB g); g < 8 ∧ s.blockOn 14 = true ∧ s.slotCollects g = true ∧ s.slotActive g = false ∧ s.trg.slots.length = 8 ∧ s.begun ((s.trgSlot g).lastHb + bitsOf hb 19 16 * (hb % 1024) + 1) = true) :=
  ⟨⟨2, x1, (tsS 33 5 [] x1 id), by decide +kernel⟩,
    ⟨2, 1, (ms 1 5 3 30 9 0 dg), (dd 1), (tsS 33 5 [] (ms 1 5 3 30 9 0 dg) id), by decide +kernel⟩,
    ⟨2, 4, ((sc 7 [(TRG_SESg_CFG2 2, 1)] [dgs 5 0 6 (some 500)])), 500, 5, ([5]), (fire_iff 500 5).mpr ⟨rfl, rfl⟩, fun e h1 h2 => by have := (fire_iff 500 e).mp h2; omega, fun e => ⟨fun h => by simp at h; subst h; exact ⟨500, (fire_iff 500 5).mpr ⟨rfl, rfl⟩, by decide +kernel, by omega⟩, fun ⟨b, h, _, _⟩ => by simp [((fire_iff b e).mp h).2]⟩, fun b hb l h1 _ h2 => by have := (fire_iff b hb).mp h2; omega, by decide +kernel⟩,
    ⟨2, (x2 30 5 8 99 3 0x1234), (s3 3 (x2 30 5 8 99 3 0x1234)), by decide +kernel⟩,
    ⟨2, (x2 20 5 8 99 3 0x1234), ((20, 4, 100, 2)), (s3 3 (x2 20 5 8 99 3 0x1234)), by decide +kernel⟩,
    ⟨2, 40, (s5t 40 7), by decide +kernel⟩,
    ⟨2, (x3 8 8 12 3), (tsS 33 3 [(TRG_SESg_STATUS 2, 2^31)] (x3 8 8 12 3) (fun t => { t with dups := t.dups.filter (·.type != 3) })), by decide +kernel⟩,
    ⟨2, s711, by decide +kernel⟩⟩

end W15s

/-! ### Hypotheses: group 16 -/
namespace W16

def R (seed k m : Nat) : Nat :=
  let x := (seed * 0x9E3779B97F4A7C15 + k * 0xBF58476D1CE4E5B9 + 0x94D049BB133111EB) % 2^64
  let x := (Nat.xor x (x / 2^30) * 0xBF58476D1CE4E5B9) % 2^64
  let x := (Nat.xor x (x / 2^27) * 0x94D049BB133111EB) % 2^64
  (Nat.xor x (x / 2^31)) % m
def d0 : DecRec := ⟨0,[],false,0,0,0,0,0,0,0,0⟩
def cfg0 (tap : Nat) : AcqCfg := ⟨tap, 2, [60, 40], 16, 3, 4096, 2048, 4, false⟩
def g0 (tap : Nat) : AcqGrp := { AcqGrp.reset with cfg := cfg0 tap, spans := [⟨1, 30, none⟩, ⟨0, 10, some 29⟩], ticks := [⟨33, true, [0,0], []⟩, ⟨32, false, [0,5], [3]⟩] }
def base (_ : Nat) (l : List (Nat × Nat)) : List (Nat × Nat) := [(ACQ_CTRL, 1), (GLB_DOMAINS, 4095), (DDR_CTRL, 1), (DDR_STATUS, 2^31), (ACQ_CGc_CFG 3, 1 + 3 * 2^18 + 1 * 2^14 + 9 * 2^22), (ACQ_CGc_STATUS 3, 2^30), (ACQ_CGc_SRC_LO 3, 2^6), (ACQ_CGc_LAG 3, 3), (ACQ_CGc_PRE 3, 4), (ACQ_CGc_POST 3, 6), (ACQ_CGc_EVENT_LO 3, 2^32-1),
  (ING_Ii_CFG 2, 7*2^24 + 1 + 16), (ING_Ii_CFG 3, 7 * 2^24 + 1 + 16)] ++ l
def nt (i k bits : Nat) (c : NecCause) : NativeTick := ⟨i, k, 77, bits, (List.range 20).map (fun (j : Nat) => (j : Int) * 3 - 20), c⟩
def can (i k : Nat) : CanonTick := ⟨i, k, false, (List.range 100).map (fun (j : Nat) => ⟨(R k (i*1000+j) 1000 : Int) - 500, if R k j 20 == 0 then .crcErr else .none, R k j 20 == 0⟩), (List.range 100).map (fun j => R i (j / 9 * 7 + k * 1000) 3 == 0)⟩
def aS (k : Nat) (g : AcqGrp) (l : List (Nat × Nat)) (f : State → State) : State := f (let s := St k (base k l); { s with acq := { s.acq with grps := [(2, g0 0), (3, g)], native := [nt 2 34 8 .none, nt 3 34 12 .none, nt 2 35 8 .none, nt 3 35 8 .crcErr] }, ing := { s.ing with canon := [can 2 34, can 3 34, can 2 35] } })
def dr (tick handed rank : Nat) : DecRec := ⟨1, [4], false, 6, 2, tick, 123, 5, 99, handed, rank⟩
def dS (g : AcqGrp) (l : List (Nat × Nat)) (r : DecRec) : State := aS 40 g l (fun s => { s with trg := { s.trg with decs := [dr 2 38 0, { dr 2 39 0 with kind := 2 }, r] } })
def gc (cur : Nat × Nat) (taken : Nat × Nat) (caps : List AcqCap) (f : AcqGrp → AcqGrp) : AcqGrp := f { g0 0 with cur := cur, taken := taken, caps := caps, drop := 4 }
def cap (ev seg first last : Nat) : AcqCap := ⟨ev, seg, first, last, last, d0, [], false, 3, 0, 0, true, cfg0 0⟩
def gs (l : List Nat) : AcqGrp := { g0 0 with spans := [⟨1, 30, some 38⟩, ⟨0, 10, some 29⟩], caps := l.map (fun i => cap i i 0 1) }
def cu : AcqCap := { cap 9 1 31 34 with sealed_ := false, rs := [5] }
def gz : AcqGrp := { g0 0 with caps := [{ cap 11 1 31 44 with sealed_ := false }, cu, cap 8 0 20 30] }
def gr (dead : Option Nat) : AcqGrp := { g0 0 with caps := [0,1,2,3].map (fun i => cap i i 0 1), dead := dead, rel := [(1, 44, false), (2, 39, true)] }

/-- The hypotheses of CapturesAreTakenFromTheRing are met. -/
theorem test_CapturesAreTakenFromTheRing :
    (∃ (c k seg : Nat) (g : AcqGrp) (s : State), s.acqGrp c = some g ∧ s.cgSettled c g = g ∧ g.segOf k = some seg ∧ s.worksOn 15 k = true ∧ (∀ e ∈ g.ticks, e.k ≠ k) ∧ s.begun (k + 1) = true ∧ s.begun (k + s.acqDelta g + 1) = false ∧ (s.begun (k + s.acqDelta g) = true ∨ (∀ m, m < g.cfg.q.length → s.tapReady g k m = true)) ∧ s.ddrReady = true ∧ s.ddr.bad = [] ∧ 0 < g.cfg.st ∧ g.cfg.st * (sumL g.cfg.q + 8 * g.cfg.q.length) ≤ g.cfg.segBytes ∧ g.cfg.base + (seg + 1) * g.cfg.segBytes ≤ s.ddrCapacity ∧ (∀ m, m < g.cfg.q.length → (s.tapData g k m).bytes.length ≤ nth g.cfg.q m 0))
    ∧ (∃ (c i : Nat) (g : AcqGrp) (r : DecRec) (s : State), let few := g.taken.1 = r.handed → g.taken.2 < 4; c < 64 ∧ s.acqGrp c = some g ∧ s.cgSettled c g = g ∧ s.blockOn 15 = true ∧ s.cgState c ≠ 0 ∧ s.cgNext c g = some (i, r) ∧ (¬ few))
    ∧ (∃ (c i : Nat) (g : AcqGrp) (r : DecRec) (s : State) (p : _), let j := r.tick; let few := g.taken.1 = r.handed → g.taken.2 < 4; c < 64 ∧ s.acqGrp c = some g ∧ s.cgSettled c g = g ∧ s.blockOn 15 = true ∧ s.cgState c ≠ 0 ∧ s.cgNext c g = some (i, r) ∧ few ∧ (g.caps.filter (fun p => p.first ≤ j && j ≤ p.last)).getLast? = some p)
    ∧ (∃ (c i : Nat) (g : AcqGrp) (r : DecRec) (s : State) (d : _), let j := r.tick; let few := g.taken.1 = r.handed → g.taken.2 < 4; c < 64 ∧ s.acqGrp c = some g ∧ s.cgSettled c g = g ∧ s.blockOn 15 = true ∧ s.cgState c ≠ 0 ∧ s.cgNext c g = some (i, r) ∧ few ∧ (∀ p ∈ g.caps, ¬ (p.first ≤ j ∧ j ≤ p.last)) ∧ g.dead = some d ∧ d ≤ j)
    ∧ (∃ (c i : Nat) (g : AcqGrp) (r : DecRec) (s : State) (sp older : _), let j := r.tick; let few := g.taken.1 = r.handed → g.taken.2 < 4; c < 64 ∧ s.acqGrp c = some g ∧ s.cgSettled c g = g ∧ s.blockOn 15 = true ∧ s.cgState c ≠ 0 ∧ s.cgNext c g = some (i, r) ∧ few ∧ (∀ p ∈ g.caps, ¬ (p.first ≤ j ∧ j ≤ p.last)) ∧ g.dead = none ∧ g.spans = sp :: older ∧ sp.last = none ∧ max sp.s0 (r.handed + 1 - g.cfg.st) ≤ j ∧ s.cgFallback c = false)
    ∧ (∃ (c seg s0 e : Nat) (older : List AcqSpan) (g : AcqGrp) (s : State) (i r : _), c < 64 ∧ s.acqGrp c = some g ∧ g.spans = ⟨seg, s0, some e⟩ :: older ∧ s.cgState c = 1 ∧ g.dead = none ∧ s.begun (e + 1) = true ∧ (∀ q ∈ g.rel, s.begun q.2.1 = true → e + 1 < q.2.1) ∧ s.cgFree c g = i :: r)
    ∧ (∃ (c seg s0 e : Nat) (older : List AcqSpan) (g : AcqGrp) (s : State), c < 64 ∧ s.acqGrp c = some g ∧ g.spans = ⟨seg, s0, some e⟩ :: older ∧ s.cgState c = 1 ∧ g.dead = none ∧ s.begun (e + 1) = true ∧ (∀ q ∈ g.rel, s.begun q.2.1 = true → e + 1 < q.2.1) ∧ s.cgFree c g = [] ∧ s.bit (ACQ_CGc_CFG c) 0 = 1)
    ∧ (∃ (c : Nat) (p : AcqCap) (g : AcqGrp) (s : State), c < 64 ∧ s.acqGrp c = some g ∧ g.caps.reverse.find? (fun p => !p.sealed_ && s.begun (p.e + s.acqDelta g + 1)) = some p)
    ∧ (∃ (c seg r : Nat) (u : Bool) (g : AcqGrp) (s : State), c < 64 ∧ s.acqGrp c = some g ∧ (s.cgDue g).head? = some (seg, r, u)) :=
  ⟨⟨3, 34, 1, (g0 0), (aS 36 (g0 0) [] id), by decide +kernel⟩,
    ⟨3, 2, (gc (39, 0) (39, 4) [] id), (dr 36 39 5), (dS (gc (39, 0) (39, 4) [] id) [] (dr 36 39 5)), by decide +kernel⟩,
    ⟨3, 2, (gc (39, 0) (39, 3) [cap 7 0 20 28, cap 8 1 33 36, cap 9 1 35 39] id), (dr 36 39 5), (dS (gc (39, 0) (39, 3) [cap 7 0 20 28, cap 8 1 33 36, cap 9 1 35 39] id) [] (dr 36 39 5)), (cap 9 1 35 39), by decide +kernel⟩,
    ⟨3, 2, (gc (39, 0) (38, 4) [cap 7 0 20 28] (fun g => { g with dead := some 35 })), (dr 36 39 5), (dS (gc (39, 0) (38, 4) [cap 7 0 20 28] (fun g => { g with dead := some 35 })) [] (dr 36 39 5)), 35, by decide +kernel⟩,
    ⟨3, 2, (gc (39, 0) (38, 4) [cap 7 0 20 28] id), (dr 36 39 5), (dS (gc (39, 0) (38, 4) [cap 7 0 20 28] id) [] (dr 36 39 5)), (⟨1, 30, none⟩), ([⟨0, 10, some 29⟩]), by decide +kernel⟩,
    ⟨3, 1, 30, 38, ([⟨0, 10, some 29⟩]), (gs [1]), (aS 40 (gs [1]) [] id), (((aS 40 (gs [1]) [] id).cgFree 3 (gs [1])).headD 0), (((aS 40 (gs [1]) [] id).cgFree 3 (gs [1])).tail), by decide +kernel⟩,
    ⟨3, 1, 30, 38, ([⟨0, 10, some 29⟩]), (gs [0,1,2,3]), (aS 40 (gs [0,1,2,3]) [] id), by decide +kernel⟩,
    ⟨3, cu, gz, (aS 40 gz [] (fun s => { s with untimed := [9] })), by decide +kernel⟩,
    ⟨3, 2, 39, true, (gr none), (aS 40 (gr none) [(ACQ_CGc_STATUS 3, 2^30)] id), by decide +kernel⟩⟩

end W16

/-! ### Hypotheses: group 16e -/
namespace W16e

def R (seed k m : Nat) : Nat :=
  let x := (seed * 0x9E3779B97F4A7C15 + k * 0xBF58476D1CE4E5B9 + 0x94D049BB133111EB) % 2^64
  let x := (Nat.xor x (x / 2^30) * 0xBF58476D1CE4E5B9) % 2^64
  let x := (Nat.xor x (x / 2^27) * 0x94D049BB133111EB) % 2^64
  (Nat.xor x (x / 2^31)) % m
def d0 : DecRec := ⟨0,[],false,0,0,0,0,0,0,0,0⟩
def cfg0 (tap : Nat) : AcqCfg := ⟨tap, 2, [60, 40], 16, 3, 4096, 2048, 4, false⟩
def g0 (tap : Nat) : AcqGrp := { AcqGrp.reset with cfg := cfg0 tap, spans := [⟨1, 30, none⟩, ⟨0, 10, some 29⟩], ticks := [⟨33, true, [0,0], []⟩, ⟨32, false, [0,5], [3]⟩] }
def base (_ : Nat) (l : List (Nat × Nat)) : List (Nat × Nat) := [(ACQ_CTRL, 1), (GLB_DOMAINS, 4095), (DDR_CTRL, 1), (DDR_STATUS, 2^31), (ACQ_CGc_CFG 3, 1 + 3 * 2^18 + 1 * 2^14 + 9 * 2^22), (ACQ_CGc_STATUS 3, 2^30), (ACQ_CGc_SRC_LO 3, 2^6), (ACQ_CGc_LAG 3, 3), (ACQ_CGc_PRE 3, 4), (ACQ_CGc_POST 3, 6), (ACQ_CGc_EVENT_LO 3, 2^32-1),
  (ING_Ii_CFG 2, 7*2^24 + 1 + 16), (ING_Ii_CFG 3, 7 * 2^24 + 1 + 16)] ++ l
def nt (i k bits : Nat) (c : NecCause) : NativeTick := ⟨i, k, 77, bits, (List.range 20).map (fun (j : Nat) => (j : Int) * 3 - 20), c⟩
def can (i k : Nat) : CanonTick := ⟨i, k, false, (List.range 100).map (fun (j : Nat) => ⟨(R k (i*1000+j) 1000 : Int) - 500, if R k j 20 == 0 then .crcErr else .none, R k j 20 == 0⟩), (List.range 100).map (fun j => R i (j / 9 * 7 + k * 1000) 3 == 0)⟩
def aS (k : Nat) (g : AcqGrp) (l : List (Nat × Nat)) (f : State → State) : State := f (let s := St k (base k l); { s with acq := { s.acq with grps := [(2, g0 0), (3, g)], native := [nt 2 34 8 .none, nt 3 34 12 .none, nt 2 35 8 .none, nt 3 35 8 .crcErr] }, ing := { s.ing with canon := [can 2 34, can 3 34, can 2 35] } })
def er (tick x n : Nat) (cap : Bool) : AcqRec := ⟨tick, cap, 3, 7, x, (List.range n).map (fun i => BitVec.ofNat 8 (i * 7 + tick))⟩
def eS (rs : List AcqRec) (l : List (Nat × Nat)) : State := aS 41 (g0 0) ([(ACQ_EVT_CFG, 4 + 5 * 16)] ++ l) (fun s => { s with acq := { s.acq with recs := rs, evtSeq := 99 } })
def rs1 := [er 39 3 128 true, er 40 3 128 true, er 40 4 96 false, er 40 3 64 false]
def hS (l : List (Nat × Nat)) (now : Nat) : State := aS now (g0 0) ([(ACQ_CHG_CFG, 2^31 + 31), (ACQ_CHG_RING_BASE, 1), (ACQ_CHG_RING_SIZE, 1), (ACQ_CHG_RING_WR, 1020), (ACQ_CHG_RING_RD, 1000),(ACQ_HIST_CFG, 2^31 + 17), (ACQ_HIST_IN 0, 12), (ACQ_HIST_RING_BASE, 3), (ACQ_HIST_RING_SIZE, 2), (ACQ_HIST_RING_WR, 2047), (ACQ_HIST_RING_RD, 1000)] ++ l) (fun s => { s with acq := { s.acq with chgLast := some 33, histLast := some 20 }, ddr := { s.ddr with mem := [(65540, 3), (65536 + 1020 * 64, 7)] } })
def cap (ev seg first last : Nat) : AcqCap := ⟨ev, seg, first, last, last, d0, [], false, 3, 0, 0, true, cfg0 0⟩
def rcap (tap : Nat) : AcqCap := { cap 9 1 33 36 with sealed_ := true, cfg := cfg0 tap }
def rg (tap : Nat) : AcqGrp := { g0 tap with caps := [{ rcap tap with sealed_ := false }, rcap tap] }

/-- The hypotheses of EventsHistoriesAndReplaysLeave are met. -/
theorem test_EventsHistoriesAndReplaysLeave :
    (∃ (tk q : Nat) (s : State), let rs := s.acq.recs.filter (·.tick == tk); s.begun (tk + 1) = true ∧ bitsOf (s.rd ACQ_EVT_CFG) 2 0 = 4 ∧ rs ≠ [] ∧ s.blockOn 15 = true ∧ (∀ r ∈ rs, s.productQueue r.x 5 = q))
    ∧ (∃ (tk : Nat) (s : State), s.begun (tk + 1) = true ∧ s.blockOn 15 = false ∧ (∃ r ∈ s.acq.recs, r.tick = tk))
    ∧ (∃ (k : Nat) (s : State), let ins := (List.range 256).filter (fun i => s.bit (ING_Ii_CFG i) 0 == 1 && s.bit (ING_Ii_CFG i) 4 == 1 && !s.slotReplay i); let recs := ins.flatMap (fun i => (s.chgOf i k).1); s.bit ACQ_CHG_CFG 31 = 1 ∧ s.blockOn 15 = true ∧ (∀ o, s.acq.chgLast = some o → o < k) ∧ s.begun (k + 1) = true ∧ s.begun (k + 7) = false ∧ s.canonReady ins k = true ∧ (∀ i ∈ ins, (s.chgOf i k).2 = 0) ∧ s.acq.chgLost = 0 ∧ recs = [])
    ∧ (∃ (k : Nat) (s : State), let ins := (List.range 256).filter (fun i => s.bit (ING_Ii_CFG i) 0 == 1 && s.bit (ING_Ii_CFG i) 4 == 1 && !s.slotReplay i); let recs := ins.flatMap (fun i => (s.chgOf i k).1); let fit := recs.length ≤ 4 * s.ringFree ACQ_CHG_RING_SIZE ACQ_CHG_RING_WR ACQ_CHG_RING_RD; s.bit ACQ_CHG_CFG 31 = 1 ∧ s.blockOn 15 = true ∧ (∀ o, s.acq.chgLast = some o → o < k) ∧ s.begun (k + 1) = true ∧ s.begun (k + 7) = false ∧ s.canonReady ins k = true ∧ (∀ i ∈ ins, (s.chgOf i k).2 = 0) ∧ s.acq.chgLost = 0 ∧ recs ≠ [] ∧ fit ∧ (ringFits (s.rd ACQ_CHG_RING_WR) (s.rd ACQ_CHG_RING_RD) (s.rd ACQ_CHG_RING_SIZE * 1024) (ceilDiv (16 * recs.length) 64) = true ∧ s.rd ACQ_CHG_RING_WR < s.rd ACQ_CHG_RING_SIZE * 1024 ∧ s.ddrReady = true ∧ s.ddr.bad = [] ∧ s.rd ACQ_CHG_RING_BASE * 65536 + s.rd ACQ_CHG_RING_SIZE * 65536 ≤ s.ddrCapacity))
    ∧ (∃ (k : Nat) (s : State), let ins := (List.range 256).filter (fun i => s.bit (ING_Ii_CFG i) 0 == 1 && s.bit (ING_Ii_CFG i) 4 == 1 && !s.slotReplay i); let recs := ins.flatMap (fun i => (s.chgOf i k).1); s.bit ACQ_CHG_CFG 31 = 1 ∧ s.blockOn 15 = true ∧ (∀ o, s.acq.chgLast = some o → o < k) ∧ s.begun (k + 1) = true ∧ s.begun (k + 7) = false ∧ s.canonReady ins k = true ∧ (∀ i ∈ ins, (s.chgOf i k).2 = 0) ∧ s.acq.chgLost = 0 ∧ s.ringFree ACQ_CHG_RING_SIZE ACQ_CHG_RING_WR ACQ_CHG_RING_RD = 0 ∧ recs ≠ [])
    ∧ (∃ (k : Nat) (s : State), let ins := (List.range 256).filter (fun i => s.bit (ACQ_HIST_IN (i / 32)) (i % 32) == 1); let b := s.histFrame ins k; s.bit ACQ_HIST_CFG 31 = 1 ∧ s.blockOn 15 = true ∧ (∀ o, s.acq.histLast = some o → o < k) ∧ k % (s.rd ACQ_HIST_CFG % 2 ^ 20) = 0 ∧ s.begun (k + 1) = true ∧ s.begun (k + 7) = false ∧ s.canonReady ins k = true ∧ (ringFits (s.rd ACQ_HIST_RING_WR) (s.rd ACQ_HIST_RING_RD) (s.rd ACQ_HIST_RING_SIZE * 1024) (ceilDiv b.length 64) = true ∧ s.rd ACQ_HIST_RING_WR < s.rd ACQ_HIST_RING_SIZE * 1024 ∧ s.ddrReady = true ∧ s.ddr.bad = [] ∧ s.rd ACQ_HIST_RING_BASE * 65536 + s.rd ACQ_HIST_RING_SIZE * 65536 ≤ s.ddrCapacity))
    ∧ (∃ (k : Nat) (s : State), let ins := (List.range 256).filter (fun i => s.bit (ACQ_HIST_IN (i / 32)) (i % 32) == 1); let b := s.histFrame ins k; s.bit ACQ_HIST_CFG 31 = 1 ∧ s.blockOn 15 = true ∧ (∀ o, s.acq.histLast = some o → o < k) ∧ k % (s.rd ACQ_HIST_CFG % 2 ^ 20) = 0 ∧ s.begun (k + 1) = true ∧ s.begun (k + 7) = false ∧ s.canonReady ins k = true ∧ ringFits (s.rd ACQ_HIST_RING_WR) (s.rd ACQ_HIST_RING_RD) (s.rd ACQ_HIST_RING_SIZE * 1024) (ceilDiv b.length 64) = false)
    ∧ (∃ (x c ev k : Nat) (g : AcqGrp) (p : AcqCap) (s : State), let next := s.acq.replay.find? (fun q => q.1 == x && q.2.1 == c && q.2.2.1 == ev); (next = none ∧ k = p.first ∨ next = some (x, c, ev, k)) ∧ s.acqGrp c = some g ∧ g.caps.find? (fun p => p.ev == ev && p.sealed_) = some p ∧ s.blockOn 15 = true ∧ s.sesReplay x = true ∧ s.ddrReady = true ∧ s.ddr.bad = [] ∧ (∀ m, m < p.cfg.q.length → p.cfg.indexAddr p.seg k m + 8 ≤ s.ddrCapacity ∧ p.cfg.slotAddr p.seg k m + 16384 ≤ s.ddrCapacity)) :=
  ⟨⟨40, ((eS rs1 []).productQueue 3 5), (eS rs1 []), by decide +kernel⟩,
    ⟨40, (eS rs1 [(ACQ_CTRL, 0)]), by decide +kernel⟩,
    ⟨34, (hS [(ING_Ii_CFG 2, 7*2^24 + 1), (ING_Ii_CFG 3, 0)] 36), by decide +kernel⟩,
    ⟨34, (hS [] 36), by decide +kernel⟩,
    ⟨34, (hS [(ACQ_CHG_RING_RD, 1021)] 36), by decide +kernel⟩,
    ⟨34, (hS [] 36), by decide +kernel⟩,
    ⟨34, (hS [(ACQ_HIST_RING_RD, 0)] 36), by decide +kernel⟩,
    ⟨7, 3, 9, 34, (rg 0), (rcap 0), ({ aS 36 (rg 0) [(CMD_SESx_CFG 7, 2)] id with acq := { (aS 36 (rg 0) [] id).acq with replay := [(7, 3, 9, 34), (7, 2, 9, 5)] } }), Or.inr (by decide +kernel), by decide +kernel⟩⟩

end W16e

/-! ### Hypotheses: group 17 -/
namespace W17

def s1 : State := ((S []).wr DDR_STATUS (2^31)).wr DDR_SCRUB (2^31+5)
def sT : State := (S []).wr DDR_STATUS (2^30)
def q5 : State := { s1 with ddr := { s1.ddr with queue := [⟨9,true,100,[1,2,3],0,0,false⟩, ⟨3,false,100,[],7,0,false⟩, ⟨8,false,100,[],7,0,true⟩, ⟨8,true,200,[1],7,0,true⟩] } }
def wq5 : List (Nat × List (Nat × Byte)) := [(1, [(60, 7)]), (2, [(3, 9)])]
def s5 : State := { (s1.wr (DDR_CLk_RSV 3) 64) with ddr := { s1.ddr with wq := wq5, bad := [1, 2] } }
def s6 : State := { q5 with tim := { q5.tim with lastTick := some 10, now := 10 * tickU } }
def sB : State := { (s1.wr (DDR_PARTp_SIZE 5) 1) with pci := {s1.pci with held := false}, ddr := s5.ddr }

/-- The hypotheses of TheControllerTrainsAndServesItsClients are met. -/
theorem test_TheControllerTrainsAndServesItsClients :
    (∃ (s : State), s.bit DDR_STATUS 30 = 1 ∧ s.bit GLB_DOMAINS (s.blockDomain 15) = 1)
    ∧ (∃ (c : Nat) (ds : List (Nat × Int)) (s : State), c < 16 ∧ s.ddrReady = true ∧ (ds.map (·.1)).Nodup)
    ∧ (∃ (r : DdrReq) (s : State), r.client < 12 ∧ s.ddrReady = false)
    ∧ (∃ (r : DdrReq) (s : State), s.ddrNext = some r)
    ∧ (∃ (r : DdrReq) (s : State), s.wqWf ∧ r.client < 12 ∧ s.ddrReady = true ∧ s.ddr.queue = [] ∧ r.addr + (if r.write then r.data.length else r.len) ≤ s.ddrCapacity ∧ r.write = true ∧ s.ddrMay r = true)
    ∧ (∃ (r : DdrReq) (s : State), s.wqWf ∧ r.client < 12 ∧ s.ddrReady = true ∧ s.ddr.queue = [] ∧ r.addr + (if r.write then r.data.length else r.len) ≤ s.ddrCapacity ∧ r.write = false ∧ s.ddr.wq.length < 96 ∧ s.ddr.drain = false)
    ∧ (∃ (r : DdrReq) (s : State), s.wqWf ∧ r.client < 12 ∧ s.ddrReady = true ∧ s.ddr.queue = [] ∧ r.addr + (if r.write then r.data.length else r.len) ≤ s.ddrCapacity ∧ r.write = false ∧ 96 ≤ s.ddr.wq.length)
    ∧ (∃ (i : Nat) (r : DdrReq) (s : State), s.ddr.queue[i]? = some r ∧ r.client < 12 ∧ r.prom = false ∧ s.rd DDR_AGE % 2 ^ 17 ≤ (s.tick - r.tick) * 1000 + 999)
    ∧ (∃ (i : Nat) (r : DdrReq) (s : State), s.ddr.queue[i]? = some r ∧ (s.tick - r.tick) * 1000 + 999 < s.rd DDR_AGE % 2 ^ 17)
    ∧ (∃ (c r temp : Nat) (s : State), c < 16 ∧ r ≤ s.bit DDR_CFG 5 ∧ temp < 256 ∧ s.ddrReady = true)
    ∧ (∃ (e : DdrErr) (s : State), s.bit DDR_SCRUB 31 = 1 ∧ s.ddrReady = true ∧ e.addr / 64 = s.ddr.scrub ∧ s.ddr.scrub ∉ s.ddr.bad)
    ∧ (∃ (e : DdrErr) (s : State), s.bit DDR_SCRUB 31 = 1 ∧ s.ddrReady = true ∧ e.addr / 64 = s.ddr.scrub ∧ s.ddr.scrub ∉ s.ddr.bad ∧ e.uncorr = false)
    ∧ (∃ (e : DdrErr) (s : State), s.bit DDR_SCRUB 31 = 1 ∧ s.ddrReady = true ∧ e.addr / 64 = s.ddr.scrub ∧ e.uncorr = true)
    ∧ (∃ (off : Nat) (b : List Byte) (s : State), let a := s.rd DDR_BAR2_BASE % 2048 * 2 ^ 30 + off; let n := b.length; s.pci.held = false ∧ s.inPartition 5 a n = true ∧ s.ddrReady = true ∧ a + n ≤ s.ddrCapacity)
    ∧ (∃ (off : Nat) (b : List Byte) (s : State), let a := s.rd DDR_BAR2_BASE % 2048 * 2 ^ 30 + off; let n := b.length; s.pci.held = false ∧ s.inPartition 5 a n = false)
    ∧ (∃ (off : Nat) (len : Nat) (s : State), let a := s.rd DDR_BAR2_BASE % 2048 * 2 ^ 30 + off; s.pci.held = false ∧ s.ddrReady = true ∧ a + len ≤ s.ddrCapacity) :=
  ⟨⟨sT, by decide +kernel⟩,
    ⟨3, ([(1,2),(4,-5),(7,1),(50,9)]), ((s1.wr (DDR_CHc_TRAINl 3 1) 0x00FFFFFF)), by decide +kernel⟩,
    ⟨(⟨9,true,100,[1,2,3],0,0,false⟩), (State.reset), by decide +kernel⟩,
    ⟨⟨8, false, 100, [], 7, 0, true⟩, q5, by decide +kernel⟩,
    ⟨(⟨3,true,124,(List.range 70).map (fun i => BitVec.ofNat 8 i),0,0,false⟩), s5, by unfold State.wqWf; decide +kernel, by decide +kernel⟩,
    ⟨(⟨3,false,120,[],100,0,false⟩), s5, by unfold State.wqWf; decide +kernel, by decide +kernel⟩,
    ⟨(⟨3,false,120,[],100,0,false⟩), ({ s5 with ddr := { s5.ddr with wq := (List.range 100).map (fun i => (i+1, [(3, 5)])), bad := [1] } }), by unfold State.wqWf; decide +kernel, by decide +kernel⟩,
    ⟨1, (⟨3,false,100,[],7,0,false⟩), s6, by decide +kernel⟩,
    ⟨1, (⟨3,false,100,[],7,0,false⟩), ({ q5 with tim := { q5.tim with lastTick := some 1 } }), by decide +kernel⟩,
    ⟨3, 1, 97, s1, by decide +kernel⟩,
    ⟨(⟨3*64+5,false,4⟩), ({s1 with ddr := {s1.ddr with scrub := 3}}), by decide +kernel⟩,
    ⟨(⟨3*64+5,false,4⟩), ({s1 with ddr := {s1.ddr with scrub := 3}}), by decide +kernel⟩,
    ⟨(⟨3*64+5,true,4⟩), ({s1 with ddr := {s1.ddr with scrub := 3}}), by decide +kernel⟩,
    ⟨100, ([1,2,3]), sB, by decide +kernel⟩,
    ⟨65534, ([1,2,3]), sB, by decide +kernel⟩,
    ⟨100, 60, sB, by decide +kernel⟩⟩

end W17

/-! ### Hypotheses: group 18 -/
namespace W18

def b1 (l : List (Nat × Nat)) : State := up (S ([(PCI_STATUS, 2048), (FDM_CTRL, 1), (DDR_STATUS, 2^31), (DDR_PARTp_SIZE 5, 16)] ++ l))
def ch (l : List (Nat × Nat)) : State := b1 ([(FDM_CHn_CFG 5, 0x00640000 + 0x40001), (FDM_CHn_STATE 5, 1 + 3*2^16), (FDM_CHn_TAIL 5, 9), (FDM_CHn_RING_LO 5, 0x1000)] ++ l)
def desc (ctrl host ddr : Nat) : List Byte := toLE 4 ctrl ++ toLE 4 0 ++ toLE 8 host ++ toLE 8 ddr ++ toLE 8 0
def wk (l : List (Nat × Nat)) (els : List (Nat × Nat)) (ctrl code done bytes : Nat) : State := let s := ch l
  { s with fdm := { s.fdm with pre := setNth s.fdm.pre 5 [⟨3, ctrl, 0x5000, 100, code, els, done, bytes, 0x1F, true, 0, false⟩] }, ddr := { s.ddr with mem := [(101, 7), (130, 9)], wq := [(2, [(3, 8)])] } }
def d0 : State → FdmDesc := fun s => ((s.chPre 5).head?).getD ⟨0,0,0,0,0,[],0,0,0,true,0,false⟩
def k0 := wk [] [(0x5000, 10), (0x6000, 50)] (2^31+2^30+2^29+2) 0 1 10
def unm (s : State) : State := { s with pci := { s.pci with msix := [(3, 1), (15, 0)] } }
def k1 := unm (wk [(FDM_CHn_STATE 5, 1 + 3*2^16+32)] [(0x5000, 10), (0x6000, 50)] (2^31+2^30+2^29+2^28+2) 0 1 10)
def k2 := unm (wk [] [(0x5000, 10), (0x6000, 50)] (2^31+2^30+2^29+2^28+2) 5 1 10)
def k4 := (wk [] [(0x5000, 10), (0x6000, 50), (0x7000, 60)] (2^31+2^30+2^29+2) 0 1 10)
def sd (i len : Nat) : FdmDesc := ⟨i, 2^31+2^30+2^28+len, 0x9000+i*256, 0, 0, [(0x9000, len)], 0, 0, 0x1F, true, 0, false⟩
def k5 := let s := ch [(FDM_CHn_CFG 5, 0x00640000 + 0x40011)]
  { s with fdm := { s.fdm with pre := setNth s.fdm.pre 5 [sd 3 10, sd 4 10, sd 5 20] }, units := [⟨4,.honey,3,0,[1]⟩,⟨5,.honey,3,0,List.replicate 20 7⟩] }
def other (s : State) : State := let s := [(FDM_CHn_CFG 3, 0x00640000 + 0x40001), (FDM_CHn_STATE 3, 1)].foldl (fun s e => s.wr e.1 e.2) s
  { s with fdm := { s.fdm with pre := setNth s.fdm.pre 3 [⟨3, 2^31+2^28+2, 0x5000, 100, 0, [(0x5000, 10)], 0, 0, 0x1F, true, 0, false⟩] } }
def k7 := other (unm (wk [] [(0x5000, 10), (0x6000, 500)] (2^31+2^30+2^29+2^28+2) 0 1 10))

/-- The hypotheses of ForagerChannelsMoveHaltAndRecover are met. -/
theorem test_ForagerChannelsMoveHaltAndRecover :
    (∃ (n v : Nat) (s : State), s.pci.held = false ∧ n < 32 ∧ v < s.chSize n)
    ∧ (∃ (n v : Nat) (s : State), s.pci.held = false ∧ n < 32 ∧ s.chSize n ≤ v)
    ∧ (∃ (n : Nat) (s : State), s.pci.held = false ∧ 32 ≤ n)
    ∧ (∃ (n : Nat) (s : State), n < s.fdm.pre.length ∧ s.chCanFetch n = true ∧ s.bme = false)
    ∧ (∃ (n : Nat) (s : State) (src : _), n < s.fdm.pre.length ∧ s.chCanFetch n = true ∧ s.bme = true ∧ src < 3)
    ∧ (∃ (n : Nat) (b : List Byte) (s : State), n < s.fdm.pre.length ∧ s.chCanFetch n = true ∧ s.bme = true ∧ bitOf (leAt b 0 4) 31 = 0)
    ∧ (∃ (n : Nat) (b : List Byte) (s : State), n < s.fdm.pre.length ∧ s.chCanFetch n = true ∧ s.bme = true ∧ bitOf (leAt b 0 4) 31 = 1)
    ∧ (∃ (n : Nat) (d : FdmDesc) (s : State) (e rest : _), n < s.fdm.pre.length ∧ s.chMode n = 0 ∧ s.chWork n = some d ∧ d.known = true ∧ s.bme = false ∧ d.code = 0 ∧ d.els.drop d.done = e :: rest)
    ∧ (∃ (n : Nat) (d : FdmDesc) (s : State), n < s.fdm.pre.length ∧ s.chMode n = 0 ∧ s.chWork n = some d ∧ d.known = true ∧ s.bme = true ∧ d.code ≠ 0)
    ∧ (∃ (n : Nat) (d : FdmDesc) (data : List (List Byte)) (s : State), let within (d : FdmDesc) : Prop := ∀ e ∈ (d.els.drop d.done).take 1, d.part < e.2; n < s.fdm.pre.length ∧ s.chMode n = 0 ∧ s.chWork n = some d ∧ d.known = true ∧ s.bme = true ∧ d.code = 0 ∧ bitOf d.ctrl 28 = 0 ∧ data.map List.length = (d.els.drop d.done).map (·.2) ∧ s.ddrReady = true ∧ d.ddr + d.bytes + data.flatten.length ≤ s.ddrCapacity ∧ d.done ≤ d.els.length ∧ s.chTop n 0 = true ∧ within d)
    ∧ (∃ (n : Nat) (d : FdmDesc) (s : State), let within (d : FdmDesc) : Prop := ∀ e ∈ (d.els.drop d.done).take 1, d.part < e.2; n < s.fdm.pre.length ∧ s.chMode n = 0 ∧ s.chWork n = some d ∧ d.known = true ∧ s.bme = true ∧ d.code = 0 ∧ bitOf d.ctrl 28 = 1 ∧ (∀ e ∈ d.els, 1 ≤ e.2) ∧ s.ddrReady = true ∧ d.ddr + d.bytes + sumL ((d.els.drop d.done).map (·.2)) ≤ s.ddrCapacity ∧ d.done ≤ d.els.length ∧ s.chTop n 1 = true ∧ within d)
    ∧ (∃ (n : Nat) (d : FdmDesc) (s : State), n < s.fdm.pre.length ∧ s.chMode n = 0 ∧ s.chWork n = some d ∧ d.known = true ∧ s.bme = true ∧ d.code = 0 ∧ bitOf d.ctrl 28 = 1 ∧ s.chTop n 1 = false ∧ s.chProm n = false)
    ∧ (∃ (n : Nat) (d : FdmDesc) (s : State) (e rest : _), n < s.fdm.pre.length ∧ s.chMode n = 0 ∧ s.chWork n = some d ∧ d.known = true ∧ s.bme = true ∧ d.code = 0 ∧ bitOf d.ctrl 28 = 1 ∧ s.chTop n 1 = false ∧ s.chProm n = true ∧ d.els.drop d.done = e :: rest ∧ d.part + 64 < e.2 ∧ s.ddrReady = true ∧ d.ddr + d.bytes + e.2 ≤ s.ddrCapacity)
    ∧ (∃ (n src : Nat) (d : FdmDesc) (data : List (List Byte)) (part : List Byte) (s : State), n < s.fdm.pre.length ∧ s.chMode n = 0 ∧ s.chWork n = some d ∧ src < 3 ∧ d.code = 0 ∧ bitOf d.ctrl 28 = 0 ∧ (data = [] ∨ d.part = 0 ∧ s.chTop n 0 = true) ∧ data.length < (d.els.drop d.done).length ∧ data.map List.length = ((d.els.drop d.done).take data.length).map (·.2) ∧ s.ddrReady = true ∧ d.ddr + d.bytes + data.flatten.length + part.length ≤ s.ddrCapacity)
    ∧ (∃ (r src : Nat), r < 64 ∧ src < 3)
    ∧ (∃ (n : Nat) (u : FdmUnit) (s : State), n < 32 ∧ n < s.fdm.pre.length ∧ s.fdmOn = true ∧ s.chMode n = 1 ∧ s.chState n = 1 ∧ s.units.find? (·.ch == n) = some u ∧ u.bytes ≠ [] ∧ (s.chPre n).length ≤ 8 ∧ (∀ d ∈ s.chPre n, d.code = 0 ∧ d.known = true ∧ 1 ≤ d.ctrl % 2 ^ 24) ∧ s.bme = true ∧ s.chEn n = true ∧ s.stopPend n = false ∧ u.bytes.length ≤ sumL ((s.chPre n).map (fun d => d.ctrl % 2 ^ 24)) ∧ s.chTop n 1 = true)
    ∧ (∃ (n : Nat) (u : FdmUnit) (s : State), n < 32 ∧ n < s.fdm.pre.length ∧ s.fdmOn = true ∧ s.chMode n = 1 ∧ s.chState n = 1 ∧ s.units.find? (·.ch == n) = some u ∧ u.bytes ≠ [] ∧ (s.chPre n).length ≤ 8 ∧ (∀ d ∈ s.chPre n, d.code = 0 ∧ d.known = true ∧ 1 ≤ d.ctrl % 2 ^ 24) ∧ s.bme = false ∧ u.kind = .honey ∧ u.src < 1024 ∧ u.bytes.length ≤ sumL ((s.chPre n).map (fun d => d.ctrl % 2 ^ 24)))
    ∧ (∃ (n : Nat) (u : FdmUnit) (s : State), n < 32 ∧ n < s.fdm.pre.length ∧ s.fdmOn = true ∧ s.chMode n = 1 ∧ s.chState n = 1 ∧ s.units.find? (·.ch == n) = some u ∧ u.bytes ≠ [] ∧ (s.chPre n).length ≤ 8 ∧ (∀ d ∈ s.chPre n, d.code = 0 ∧ d.known = true ∧ 1 ≤ d.ctrl % 2 ^ 24) ∧ sumL ((s.chPre n).map (fun d => d.ctrl % 2 ^ 24)) < u.bytes.length)
    ∧ (∃ (n us : Nat) (s : State), (s.chPend n 0 = true ∨ s.chPend n 1 = true) ∧ n ∉ s.fdm.prom ∧ s.rd FDM_AGE % 1024 ≤ us)
    ∧ (∃ (n us : Nat) (s : State), (s.chPend n 0 = true ∨ s.chPend n 1 = true) ∧ n ∉ s.fdm.prom ∧ us < s.rd FDM_AGE % 1024)
    ∧ (∃ (n : Nat) (s : State), n < 32 ∧ n < s.fdm.pre.length)
    ∧ (∃ (v : Nat) (s : State), v < 2048 ∧ s.pci.held = false) :=
  ⟨⟨5, 15, (ch []), by decide +kernel⟩,
    ⟨31, 65536, up State.reset, by decide +kernel⟩,
    ⟨32, (ch []), by decide +kernel⟩,
    ⟨5, ((ch []).wr PCI_STATUS 0), by decide +kernel⟩,
    ⟨5, (ch []), 1, by decide +kernel⟩,
    ⟨5, (desc (2^28+100) 0x5000 (2^41)), (ch []), by decide +kernel⟩,
    ⟨5, (desc (2^31+100) 0x5000 64), (ch []), by decide +kernel⟩,
    ⟨5, (d0 k0), (k0.wr PCI_STATUS 0), ((0x6000,50)), ([]), by decide +kernel⟩,
    ⟨5, (d0 k2), (k2.wr (FDM_CHn_CFG 5) 0x640000), by decide +kernel⟩,
    ⟨5, (d0 k0), ([List.replicate 50 5]), k0, by decide +kernel⟩,
    ⟨5, (d0 k1), k1, by decide +kernel⟩,
    ⟨5, (d0 k7), k7, by decide +kernel⟩,
    ⟨5, (d0 k7), ({k7 with fdm := {k7.fdm with prom := [4,5]}}), ((0x6000,500)), ([]), by decide +kernel⟩,
    ⟨5, 1, (d0 k4), ([List.replicate 50 5]), ([1,2,3]), k4, by decide +kernel⟩,
    ⟨63, 1, by decide +kernel⟩,
    ⟨5, (⟨5,.honey,3,0,List.replicate 20 7⟩), k5, by decide +kernel⟩,
    ⟨5, (⟨5,.honey,3,0,List.replicate 20 7⟩), (k5.wr PCI_STATUS 0), by decide +kernel⟩,
    ⟨5, (⟨5,.honey,3,0,List.replicate 41 7⟩), ({k5 with units := [⟨5,.honey,3,0,List.replicate 41 7⟩]}), by decide +kernel⟩,
    ⟨5, 20, k4, by decide +kernel⟩,
    ⟨5, 19, k5, by decide +kernel⟩,
    ⟨5, k5, by decide +kernel⟩,
    ⟨3, ({ k5 with pci := { k5.pci with pba := [(3,1)] } }), by decide +kernel⟩⟩

end W18

/-! ### Hypotheses: group 20 -/
namespace W20

def R (seed k m : Nat) : Nat :=
  let x := (seed * 0x9E3779B97F4A7C15 + k * 0xBF58476D1CE4E5B9 + 0x94D049BB133111EB) % 2^64
  let x := (Nat.xor x (x / 2^30) * 0xBF58476D1CE4E5B9) % 2^64
  let x := (Nat.xor x (x / 2^27) * 0x94D049BB133111EB) % 2^64
  (Nat.xor x (x / 2^31)) % m
def hS (l : List (Nat × Nat)) : State := up (S (hb ++ l))
def rv (seed : Nat) : Nat := if seed % 4 == 0 then [0,1,2^32-1,2^31][seed/4 % 4]! else if seed % 4 == 1 then R seed 1 256 else R seed 1 (2^32)
def pS (seed : Nat) : State := let s := hS ((List.range 8).flatMap (fun n => [(PTPn_CFG n, 1 - R seed n 3 / 2 + R seed (n+9) 2 * 256), (PTPn_STATE n, 4 + R seed (n+20) 5)])); s

/-- The hypotheses of PlainRegistersTakeTheValueWritten are met. -/
theorem test_PlainRegistersTakeTheValueWritten :
    (∃ (a v new : Nat) (s : State), s.hostReaches .rw a v new ∧ a ∈ [PWR_STEP, PWR_AGE, PWR_THERM])
    ∧ (∃ (v new : Nat) (s : State), s.hostReaches .rw TIM_STEP_THR v new)
    ∧ (∃ (v new : Nat) (s : State), s.hostReaches .rw CLK_CTRL v new ∧ bitOf new 0 = 1 ∧ s.bit CLK_CTRL 0 = 1)
    ∧ (∃ (n v new : Nat) (s : State), s.hostReaches .rw (CLK_OUTn_DLY n) v new ∧ n < 4)
    ∧ (∃ (n v new : Nat) (s : State), s.hostReaches .rw (CLK_OUTn_CFG n) v new ∧ n < 4 ∧ n < s.clk.outs.length)
    ∧ (∃ (n v new : Nat) (s : State), s.hostReaches .rw (NEC_PORTn_CFG n) v new ∧ n < 64)
    ∧ (∃ (p r v new : Nat) (s : State), s.hostReaches .rw (CHN_CPp_CFG p + 4 * r) v new ∧ p < 4 ∧ r < 6)
    ∧ (∃ (i r v new : Nat) (s : State), s.hostReaches .rw (CHN_Ii_CFG i + 4 * r) v new ∧ i < 256 ∧ r < 3 ∧ (r = 0 → bitOf new 0 = 1))
    ∧ (∃ (p : Nat) (size : Bool) (v new : Nat) (s : State), s.hostReaches .rw (if size then DDR_PARTp_SIZE p else DDR_PARTp_BASE p) v new ∧ p < 6)
    ∧ (∃ (i r v new : Nat) (s : State), s.hostReaches .rw (ING_Ii_CFG i + 4 * r) v new ∧ i < 256 ∧ 1 ≤ r ∧ r < 4) :=
  ⟨⟨([PWR_STEP, PWR_AGE, PWR_THERM][1 % 3]!), (rv 1), (nw ([PWR_STEP, PWR_AGE, PWR_THERM][1 % 3]!) (hS []) (rv 1)), (hS []), hostReaches_of (by decide +kernel), by decide +kernel⟩,
    ⟨(rv 1), (nw TIM_STEP_THR (hS []) (rv 1)), (hS []), hostReaches_of (by decide +kernel)⟩,
    ⟨(rv 4), (nw CLK_CTRL (hS [(CLK_CTRL, 1)]) (rv 4)), (hS [(CLK_CTRL, 1)]), hostReaches_of (by decide +kernel), by decide +kernel⟩,
    ⟨(0 % 4), (rv 0), (nw (CLK_OUTn_DLY (0 % 4)) (hS [(CLK_OUTn_CFG 1, 5)]) (rv 0)), (hS [(CLK_OUTn_CFG 1, 5)]), hostReaches_of (by decide +kernel), by decide +kernel⟩,
    ⟨(1 % 4), (if 1 % 3 = 0 then rv 1 else (10000 + 1) * 1024 + 1 % 2), (nw (CLK_OUTn_CFG (1 % 4)) (hS [(CLK_OUTn_CFG 1, 5 + 10001 * 1024)]) (if 1 % 3 = 0 then rv 1 else (10000 + 1) * 1024 + 1 % 2)), (hS [(CLK_OUTn_CFG 1, 5 + 10001*1024)]), hostReaches_of (by decide +kernel), by decide +kernel⟩,
    ⟨(0 % 64), (rv 0), (nw (NEC_PORTn_CFG (0 % 64)) (hS [(NEC_PORTn_CFG 1, 5)]) (rv 0)), (hS [(NEC_PORTn_CFG 1, 5)]), hostReaches_of (by decide +kernel), by decide +kernel⟩,
    ⟨(0 % 4), (0 / 4 % 6), (rv (0 * 7)), (nw (CHN_CPp_CFG (0 % 4) + 4 * (0 / 4 % 6)) (hS []) (rv (0 * 7))), (hS []), hostReaches_of (by decide +kernel), by decide +kernel⟩,
    ⟨(4 * 4), (4 / 4 % 3), (rv (4 * 7)), (nw (CHN_Ii_CFG (4 * 4) + 4 * (4 / 4 % 3)) (hS [(CHN_CTRL, 1)]) (rv (4 * 7))), (hS [(CHN_CTRL, 1)]), hostReaches_of (by decide +kernel), by decide +kernel⟩,
    ⟨(0 % 6), (0 / 6 % 2 == 0), (rv (0 * 7)), (nw (if 0 / 6 % 2 == 0 then DDR_PARTp_SIZE (0 % 6) else DDR_PARTp_BASE (0 % 6)) (hS []) (rv (0 * 7))), (hS []), hostReaches_of (by decide +kernel), by decide +kernel⟩,
    ⟨(0 * 4), (1 + 0 / 4 % 3), (rv (0 * 7) % 2^(0 % 32)), (nw (ING_Ii_CFG (0 * 4) + 4 * (1 + 0 / 4 % 3)) (hS [(ING_Ii_RATE (0 * 4), 3200000), (ING_CTRL, 1)]) (rv (0 * 7) % 2^(0 % 32))), (hS [(ING_Ii_RATE (0 * 4), 3200000), (ING_CTRL, 1)]), hostReaches_of (by decide +kernel), by decide +kernel⟩⟩


/-- The hypotheses of StepThresholdHasItsRange are met. -/
theorem test_StepThresholdHasItsRange :
    (∃ (s : State), s.rd TIM_STEP_THR < 2 ^ 30)
    ∧ (∃ (v new : Nat) (s : State), s.hostArrives .rw TIM_STEP_THR v new ∧ 100 ≤ v ∧ v ≤ 1000000000 ∧ s.rd TIM_STEP_THR < 2 ^ 30)
    ∧ (∃ (v new : Nat) (s : State), s.hostArrives .rw TIM_STEP_THR v new ∧ v < 2 ^ 30 ∧ (v < 100 ∨ 1000000000 < v) ∧ s.rd TIM_STEP_THR < 2 ^ 30) :=
  ⟨⟨(hS [(TIM_STEP_THR, R 0 3 (2^30))]), by decide +kernel⟩,
    ⟨([100, 1000000000, 101, 999999999, 12345, 99, 100, 7777][0 % 8]!), (nw TIM_STEP_THR (hS []) ([100, 1000000000, 101, 999999999, 12345, 99, 100, 7777][0 % 8]!)), (hS []), hostArrives_of (by decide +kernel), by decide +kernel⟩,
    ⟨([99, 1000000001, 0, 2^30-1, 2^30][0 % 5]!), (nw TIM_STEP_THR (hS []) ([99, 1000000001, 0, 2^30-1, 2^30][0 % 5]!)), (hS []), hostArrives_of (by decide +kernel), by decide +kernel⟩⟩


/-- The hypotheses of PtpConfigurationRestartsAnInstance are met. -/
theorem test_PtpConfigurationRestartsAnInstance :
    ∃ (n v new : Nat) (s : State), s.hostReaches .rw (PTPn_CFG n) v new ∧ n < 8 ∧ n < s.tim.ptp.length :=
  ⟨(0 % 8), (R 0 77 2 + R 0 78 2 * 256 + R 0 79 4 * 65536), (nw (PTPn_CFG (0 % 8)) (pS 0) (R 0 77 2 + R 0 78 2 * 256 + R 0 79 4 * 65536)), (pS 0), hostReaches_of (by decide +kernel), by decide +kernel⟩


/-- The hypotheses of StoresAreWrittenThroughTheirWindows are met. -/
theorem test_StoresAreWrittenThroughTheirWindows :
    (∃ (e v new : Nat) (s : State), let a := s.fd (ING_FEe_COEF_ADDR e) ING_FEe_COEF_ADDR_ADDR; s.hostReaches .rw (ING_FEe_COEF_DATA e) v new ∧ e < 8 ∧ coefReserved a = false ∧ (s.wr (ING_FEe_COEF_DATA e) 0).coefBusy e a = false)
    ∧ (∃ (v new : Nat) (s : State), let w := s.rd CHN_WIN_ADDR; s.hostReaches .rw CHN_WIN_DATA v new ∧ (s.wr CHN_WIN_DATA 0).winBusy w = false)
    ∧ (∃ (v new : Nat) (s : State), let w := s.rd CHN_GAIN_ADDR; s.hostReaches .rw CHN_GAIN_DATA v new ∧ w % 2 ^ 22 < 2097152 ∧ s.bit CHN_GAIN_STATUS 1 ≠ 1 ∧ bitOf w 22 ≠ s.bit CHN_GAIN_STATUS 0)
    ∧ (∃ (v new : Nat) (s : State), let e := s.rd CMB_LIST_ADDR; s.hostReaches .rw CMB_LIST_DATA v new ∧ (s.wr CMB_LIST_DATA 0).listUsed e = false)
    ∧ (∃ (v new : Nat) (s : State), let p := s.rd WAG_WT_ADDR % 2 ^ 25; s.hostReaches .rw WAG_WT_DATA v new ∧ (s.wr WAG_WT_DATA new).wtBusy (p / 2 ^ 24) (p % 2 ^ 24) = false)
    ∧ (∃ (v new : Nat) (s : State), let p := s.rd WAG_GEO_ADDR % 2 ^ 23; s.hostReaches .rw WAG_GEO_DATA v new ∧ (s.wr WAG_GEO_DATA new).geoBusy (p / 2 ^ 22) (p % 2 ^ 22) = false)
    ∧ (∃ (v new : Nat) (s : State), let n := bitsOf (s.rd WRK_MEM_ADDR) 29 24; let a := bitsOf (s.rd WRK_MEM_ADDR) 15 0; s.hostReaches .rw WRK_MEM_DATA_LO v new ∧ s.wrkEn n = false ∧ bitsOf (s.rd WRK_MEM_ADDR) 17 16 = 0 ∧ a < 32768)
    ∧ (∃ (v new : Nat) (s : State), let n := bitsOf (s.rd WRK_MEM_ADDR) 29 24; s.hostReaches .rw WRK_MEM_DATA_LO v new ∧ s.wrkEn n = false ∧ bitsOf (s.rd WRK_MEM_ADDR) 17 16 = 1)
    ∧ (∃ (v new : Nat) (s : State), let n := bitsOf (s.rd WRK_MEM_ADDR) 29 24; s.hostReaches .rw WRK_MEM_DATA_LO v new ∧ s.wrkEn n = false ∧ bitsOf (s.rd WRK_MEM_ADDR) 17 16 = 2)
    ∧ (∃ (s : State), s.pci.held = false ∧ s.domainStopped WRK_MEM_DATA_LO = false ∧ bitsOf (s.rd WRK_MEM_ADDR) 17 16 = 1) :=
  ⟨⟨(0 % 8), (rv 0), (nw (ING_FEe_COEF_DATA (0 % 8)) (hS [(ING_FEe_COEF_ADDR (0 % 8), R 0 5 32768)]) (rv 0)), (hS [(ING_FEe_COEF_ADDR (0 % 8), R 0 5 32768)]), hostReaches_of (by decide +kernel), by decide +kernel⟩,
    ⟨(rv 0), (nw CHN_WIN_DATA (hS []) (rv 0)), (hS [(CHN_WIN_ADDR, R 0 5 (2^20))]), hostReaches_of (by decide +kernel), by decide +kernel⟩,
    ⟨(rv 12), (nw CHN_GAIN_DATA (hS []) (rv 12)), (hS [(CHN_GAIN_ADDR, R 12 5 (2^23)), (CHN_GAIN_STATUS, 12 % 4)]), hostReaches_of (by decide +kernel), by decide +kernel⟩,
    ⟨(rv 0), (nw CMB_LIST_DATA (hS []) (rv 0)), (hS [(CMB_LIST_ADDR, R 0 5 (2^18))]), hostReaches_of (by decide +kernel), by decide +kernel⟩,
    ⟨(rv 0), (nw WAG_WT_DATA (hS []) (rv 0)), (hS [(WAG_WT_ADDR, if 0 == 5 then 2^25 - 1 else R 0 5 (2^25))]), hostReaches_of (by decide +kernel), by decide +kernel⟩,
    ⟨(rv 0), (nw WAG_GEO_DATA (hS []) (rv 0)), (hS [(WAG_GEO_ADDR, if 0 == 5 then 2^23 - 1 else R 0 5 (2^23))]), hostReaches_of (by decide +kernel), by decide +kernel⟩,
    ⟨(rv 4), (nw WRK_MEM_DATA_LO (hS []) (rv 4)), (hS [(WRK_MEM_ADDR, R 4 5 65536 + 4 % 4 * 65536 + 4 / 4 % 4 * 2^30 + 5 * 2^24), (WRK_MEM_DATA_HI, rv (4 + 1))]), hostReaches_of (by decide +kernel), by decide +kernel⟩,
    ⟨(rv 1), (nw WRK_MEM_DATA_LO (hS []) (rv 1)), (hS [(WRK_MEM_ADDR, R 1 5 65536 + 1 % 4 * 65536 + 1 / 4 % 4 * 2^30 + 5 * 2^24), (WRK_MEM_DATA_HI, rv (1 + 1))]), hostReaches_of (by decide +kernel), by decide +kernel⟩,
    ⟨(rv 2), (nw WRK_MEM_DATA_LO (hS []) (rv 2)), (hS [(WRK_MEM_ADDR, R 2 5 65536 + 2 % 4 * 65536 + 2 / 4 % 4 * 2^30 + 5 * 2^24), (WRK_MEM_DATA_HI, rv (2 + 1))]), hostReaches_of (by decide +kernel), by decide +kernel⟩,
    ⟨(let s := hS [(WRK_MEM_ADDR, 7 + 1 * 65536 + 0 / 4 % 4 * 2^30 + 5 * 2^24)]; { s with wrk := { s.wrk with xm := [(5*65536+7, 345)] } }), by decide +kernel⟩⟩

end W20

/-! ### Hypotheses: group 21 -/
namespace W21

def grid : Nat := 6 * 2^11 + 7 * 2^16
def cs (flags d : Nat) : CtnSes := { cfg := 1 + flags + d * 256, cfg2 := 3 + 1 * 256 + 20 * 65536, sibase := 0, brood := 0, udp := 0, epoch := 0, grid := grid, maps := [(0, ⟨2*65536 + 4, 2 * 65536 + 7, 9⟩)], pend := none, first := 0, last := none, win := [some 0, some 1] }
def regs0 : List (Nat × Nat) := [(CTN_CTRL, 1), (GLB_DOMAINS, 4095), (CTN_ID, 5), (CTN_SWARM_ID, 0x1234),
  (CTN_SLICEe_LO 4, 10 + 2 * 65536), (CTN_SLICEe_HI 4, 5), (CTN_SLICEe_LO 5, 20 + 1 * 65536), (CTN_SLICEe_HI 5, 6),
  (CTN_INMAPe_LO 7, 0), (CTN_INMAPe_HI 7, 5 + 1 * 65536), (CTN_INMAPe_LO 8, 2), (CTN_INMAPe_HI 8, 6 + 0 * 65536)]
def en0 : State := up (St 9 (hb ++ [(ING_CTRL, 1), (ING_Ii_RATE 255, 3200000), (ING_Ii_FIR 255, 0), (ING_Ii_STATUS 255, 7 * 2^28)]))
def ctr : List (Nat × Nat) := [(CTN_SESx_CFG2 3, 3 + 1 * 256 + 20 * 65536), (CTN_SESx_GRID 3, grid), (CTN_SESx_MAP 3, 2 * 65536 + 4), (CTN_SESx_INMAP 3, 2 * 65536 + 7), (CTN_SESx_VERSION 3, 9)]
def en1 (k : Nat) : State := let s := up (St k (hb ++ regs0 ++ ctr)); { s with ctn := { s.ctn with ses := [(2, cs 0 99)] } }
def en2 (k : Nat) (c : CtnSes) : State := let s := up (St k (hb ++ regs0 ++ ctr ++ [(CTN_SESx_CFG 3, c.cfg)])); { s with ctn := { s.ctn with ses := [(2, cs 0 99), (3, c)] } }
def en3 (k : Nat) (c : CtnSes) : State := let s := up (St k (hb ++ regs0 ++ ctr ++ [(CTN_SESx_CFG 3, c.cfg), (CMB_SESx_LIST 3, 0), (CMB_SESx_START_LO 3, 5000), (CMB_CTRL, 1)])); { s with ctn := { s.ctn with ses := [(2, cs 0 99), (3, c)] }, cmb := { s.cmb with list := [(0,2),(2,0),(1,1)] } }
def en4 : State := let s := (en3 9 (cs 4 1024)).wr (CMB_SESx_CFG 3) 1; let s := s.wr (SUP_SESx_RATE 3) 100; { s with cmb := { s.cmb with ses := [(3, ⟨cs 4 1024, 7, none, none, 0, none⟩)] } }
def en5 : State := let s := en3 9 (cs 4 1024); (s.wr (WAG_SESx_STATUS 3) (2^28)).wr WAG_CTRL 1
def en6 : State := let s := up (St 9 (hb ++ [(WRK_CTRL, 1)])); { s with wrk := { s.wrk with cores := setNth s.wrk.cores 63 { WCore.reset with pc := 5 } } }
def en7 : State := let s := up (St 9 (hb ++ [(STG_CTRL, 1), (TRG_CTRL, 1), (STG_Bb_THR_LO 3, 700), (STG_Bb_MAP 3, 1 + 7 * 65536), (STG_ENTe 7, 2), (STG_ENTe 8, 9 + 5 * 65536 + 2^30), (ING_Ii_CFG 2, 7 * 2^24 + 1), (ING_Ii_CFG 9, 7 * 2^24 + 1)])); { s with trg := { s.trg with beams := [(2, 1), (3, 4)], reps := [⟨3,0,0,[],[]⟩, ⟨2,0,0,[],[]⟩] } }
def en8 : State := (en7.wr (STG_Bb_CFG 3) 1).wr (TRG_TCc_COUNT 6) 77 |>.wr (TRG_TCc_SRC 6 0) 3
def en9 (start : Nat) : State := up (St 9 (hb ++ [(ACQ_CTRL, 1), (DDR_PARTp_SIZE 0, 4096), (ACQ_CGc_MEMBERS 6, 5 + 256), (ING_Ii_CFG 5, 1), (ING_Ii_CFG 6, 1), (ACQ_CGc_ST 6, 99), (ACQ_CGc_PRE 6, 40), (ACQ_CGc_POST 6, 50), (ACQ_CGc_START_LO 6, start)]))
def cm0 : State := up (St 9 (hb ++ [(ING_CTRL, 1), (ING_Ii_CFG 255, 1), (ING_Ii_DLY_REF_LO 255, 10), (ING_Ii_DLY_D1 255, 2^32-5), (ING_Ii_DLY_D0_HI 255, 2^15)]))
def cm1 : State := up (St 9 (hb ++ [(CHN_CTRL, 1), (CHN_GAIN_EFF_LO, 10)]))
def wq0 : WagSes := ⟨some 0, [(0, 1)], none, [], [], [], none⟩
def cm3 (l : List (Nat × Nat)) : State := let s := en5.wr (WAG_SESx_CFG 3) (1 + 4); let s := l.foldl (fun s e => s.wr e.1 e.2) s; { s with wag := { s.wag with ses := [(3, wq0)] } }
def d0 : DecRec := ⟨0,[],false,0,0,0,0,0,0,0,0⟩
def cap0 : AcqCap := { (⟨0,0,0,0,0,d0,[],false,0,0,0,false,⟨0,0,[],0,0,0,0,0,false⟩⟩ : AcqCap) with seg := 3, sealed_ := true, ev := 4 }
def g6 : AcqGrp := { AcqGrp.reset with caps := [cap0], rel := [(2, 8, true)] }
def cm4 (e : Nat) : State := let s := en9 0; let s := s.wr (ACQ_CGc_REL_SEG 6) 3 |>.wr (ACQ_CGc_REL_EFF_LO 6) e; { s with acq := { s.acq with grps := [(5, AcqGrp.reset), (6, g6)] } }
def rr0 (st : Nat) (m : CmbMode) : State := let s := up (St 9 (hb ++ [(CMB_CTRL, 3), (CMB_Cc_STATE 5, st), (CMB_Cc_STATE 16, m.cw)])); { s with cmb := { s.cmb with modes := [(3, m)] } }
def rr4 : State := up (St 9 (hb ++ [(WRK_CTRL, 1), (WRK_PRETIRED 1, 0)]))
def rr6 (a b : Nat) : State := let s := up (St 9 (hb)); s.wr KPR_STATUS (a * 8 + b)
def L0 : State := live (St 9 hb)
def bad (i : Nat) : Pkt := let p := pk 3 []; { p with bytes := match i with | 0 => setNth p.bytes 2 2 | 1 => setNth p.bytes 6 0xC0 | 2 => setNth p.bytes 40 (nth p.bytes 40 0 + 1) | _ => let b := setNth (setNth p.bytes 8 0) 9 5; putBytes b 32 (tagOf (ky 64) b) }
def p1 : Pkt := pk 0x0003 ([])
def s1 : State := que (L0) p1
def u1 : State := uOf s1 p1
def p2 : Pkt := pk 0x0004 ([])
def s2 : State := que (L0) p2
def u2 : State := uOf s2 p2
def p3 : Pkt := pk 0x0108 ([])
def s3 : State := que (L0) p3
def u3 : State := uOf s3 p3
def p4 : Pkt := pk 0x0109 ([])
def s4 : State := que (L0) p4
def u4 : State := uOf s4 p4
def p7 : Pkt := pk 0x0106 (toBE 4 11 ++ toBE 2 254 ++ toBE 2 0)
def s7 : State := que ({ L0.wr CMD_AUDIT_NEXT 12 |>.wr CMD_AUDIT_OLDEST 10 with cmd := { L0.cmd with audit := [[1],[2]] } }) p7
def u7 : State := uOf s7 p7
def p8 : Pkt := pk 0x0106 (toBE 4 12 ++ toBE 2 254 ++ toBE 2 0)
def s8 : State := que ({ L0.wr CMD_AUDIT_NEXT 12 |>.wr CMD_AUDIT_OLDEST 10 with cmd := { L0.cmd with audit := [[1],[2]] } }) p8
def u8 : State := uOf s8 p8
def p9 : Pkt := pk 0x0106 (toBE 4 12 ++ toBE 2 0 ++ toBE 2 0)
def s9 : State := que ({ L0.wr CMD_AUDIT_NEXT 12 |>.wr CMD_AUDIT_OLDEST 10 with cmd := { L0.cmd with audit := [[1],[2]] } }) p9
def u9 : State := uOf s9 p9
def p11 : Pkt := pk 0x0104 (toBE 2 (2^14+1) ++ toBE 2 0 ++ List.replicate 32 5)
def s11 : State := que (L0) p11
def u11 : State := uOf s11 p11
def p14 : Pkt := pkS 0x0105 (toBE 2 5 ++ toBE 2 0)
def s14 : State := que ({ L0 with mon := { L0.mon with login := some 5 } }) p14
def u14 : State := uOf s14 p14
def p16 : Pkt := pk 0x0401 (toBE 8 (2^48-1))
def s16 : State := que (L0.wr TIM_CTRL 0xFFFFFFFF) p16
def u16 : State := uOf s16 p16
def p17 : Pkt := pk 0x0402 (toBE 8 (2^64-5) ++ toBE 8 10)
def s17 : State := que ((L0.wr TIM_STATUS 2)) p17
def u17 : State := uOf s17 p17
def p18 : Pkt := pk 0x0301 (toBE 8 10 ++ toBE 4 0 ++ toBE 4 0x4)
def s18 : State := que (L0.wr TIM_STATUS 1 |>.setBit GLB_SEAL_CFG 1 true) p18
def u18 : State := uOf s18 p18
def p19 : Pkt := pk 0x0601 (toBE 8 10 ++ toBE 4 255 ++ toBE 4 5 ++ toBE 4 0x8000 ++ toBE 4 (2^32-7) ++ toBE 4 9)
def s19 : State := que (L0 |>.wr ING_CTRL 1|>.wr TIM_STATUS 1) p19
def u19 : State := uOf s19 p19
def p20 : Pkt := pk 0x0701 (toBE 8 10 ++ toBE 4 0)
def s20 : State := que (L0|>.wr TIM_STATUS 1) p20
def u20 : State := uOf s20 p20
def p21 : Pkt := pk 0x0C01 (toBE 8 5 ++ toBE 4 3)
def s21 : State := que (live (cm3 [])|>.wr TIM_STATUS 1) p21
def u21 : State := uOf s21 p21
def p23 : Pkt := pk 0x0F01 (toBE 8 10 ++ toBE 4 6 ++ toBE 4 3)
def s23 : State := que (live (cm4 0)|>.wr TIM_STATUS 1) p23
def u23 : State := uOf s23 p23
def p26 : Pkt := pk 0x0A01 (toBE 4 0x105)
def s26 : State := que (live (rr0 2 ⟨[5], 1, some 5⟩)) p26
def u26 : State := uOf s26 p26
def ses0 : State := live (en2 9 (cs 4 1024)) |>.wr TIM_STATUS 1 |>.wr PWR_BUDGET 400000
def sesImg (st : State) (x : Nat) : List Byte := (sesRegs x).flatMap (fun r => toBE 4 (Nat.land r.2 (st.rd r.1)))
def ac (n cls : Nat) : State := (ses0.wr (CMD_SESx_CFG n) (2^30 + cls * 16))
def e11 := (regElems 4 false (pkParams p11.bytes))
def q11 := u11.regSteps false (Ctx.agent ⟨p11, 64, ky 64⟩) e11.2 1 ⟨p11, 0, [], s11.popCmd.rd (CMD_KEYk_H 64)⟩
def p13 : Pkt := pk 0x0002 (toBE 2 2 ++ toBE 2 0 ++ toBE 4 PWR_AGE ++ toBE 4 77 ++ toBE 4 CLK_CTRL ++ toBE 4 5)
def s13 : State := que (L0.wr CLK_CTRL 1) p13
def u13 : State := uOf s13 p13
def e13 := (regElems 8 false (pkParams p13.bytes))
def q13 := u13.regSteps true (Ctx.agent ⟨p13, 64, ky 64⟩) e13.2 5 ⟨p13, 0, [], s13.popCmd.rd (CMD_KEYk_H 64)⟩
def e14 := (regElems 8 false (pkParams p14.bytes))
def q14 := u14.regSteps true (Ctx.agent ⟨p14, 64, ky 64⟩) e14.2 5 ⟨p14, 0, [], s14.popCmd.rd (CMD_KEYk_H 64)⟩
def img6 : List (Nat × Nat) := imagesOf (sesRegs 6) (List.replicate 12 0 ++ sesImg (ses0.wr (CMD_SESx_CFG 6) 0x10 |>.wr (CMD_SESx_Q 6 7) 99) 6)
def pd (s : State) (l : List Pend) : State := { s with cmd := { s.cmd with pend := l } }
def ac3 : State := (ses0.wr (CMD_SESx_CFG 3) (2^30)) |>.wr (WRK_Wn_CFG 5) (1 + 3 * 2^22)
def fr6 : State := let s := (ac 6 1).wr (CMD_SESx_CFG 6) (2^31); { s with cmd := { s.cmd with ended := [6] } }
def ra : State := [(CMD_CTRL, 1), (CMD_RINGr_CFG 3, 1 + 4 * 65536), (CMD_RINGr_STATUS 3, 15)].foldl (fun s e => s.wr e.1 e.2) L0
def arp0 : State := { ra with cmd := { ra.cmd with prod := ra.cmd.prod.set 3 2 } }
def rxu (fl : Nat) : RxItem := ⟨.command, 4, 0x0A000001, mk 1 0 0 3 9 fl [], 5, 99, 777⟩
def arU (fl : Nat) : State := { ra with eth := { ra.eth with inbox := [⟨.arp, 0, 0, [], 0, 0, 0⟩, rxu fl, rxu 0] } }

/-- The hypotheses of EnablesStartTheWorkOfABlock are met. -/
theorem test_EnablesStartTheWorkOfABlock :
    (∃ (i v new : Nat) (s : State), s.hostReaches .rw (ING_Ii_CFG i) v new ∧ i < 256 ∧ i < s.ing.slots.length ∧ s.bit (ING_Ii_CFG i) 0 = 0 ∧ bitOf new 0 = 1)
    ∧ (∃ (x v new : Nat) (s : State), s.hostReaches .rw (CTN_SESx_CFG x) (enOf v) new ∧ x < 1024 ∧ s.bit (CTN_SESx_CFG x) 0 = 0 ∧ bitOf new 0 = 1)
    ∧ (∃ (x new : Nat) (c : CtnSes) (s : State), s.hostReaches .rw (CTN_SESx_CFG x) (setBits (s.rd (CTN_SESx_CFG x)) 0 0 0) new ∧ x < 1024 ∧ s.bit (CTN_SESx_CFG x) 0 = 1 ∧ s.ctnOf x = some c ∧ bitOf new 0 = 0)
    ∧ (∃ (x v new : Nat) (c : CtnSes) (s : State), s.hostReaches .rw (CMB_SESx_CFG x) (enOf v) new ∧ x < 1024 ∧ s.bit (CMB_SESx_CFG x) 0 = 0 ∧ bitOf new 0 = 1 ∧ s.ctnOf x = some c)
    ∧ (∃ (x v new : Nat) (m : CmbSes) (s : State), s.hostReaches .rw (SUP_SESx_CFG x) (enOf v) new ∧ x < 1024 ∧ s.bit (SUP_SESx_CFG x) 0 = 0 ∧ bitOf new 0 = 1 ∧ s.cmbOf x = some m ∧ m.dumped = none)
    ∧ (∃ (x v new : Nat) (s : State), s.hostReaches .rw (WAG_SESx_CFG x) (enOf v) new ∧ x < 1024 ∧ s.bit (WAG_SESx_CFG x) 0 = 0 ∧ bitOf new 0 = 1)
    ∧ (∃ (n v new : Nat) (s : State), s.hostReaches .rw (WRK_Wn_CFG n) v new ∧ n < 64 ∧ n < s.wrk.cores.length ∧ s.bit (WRK_Wn_CFG n) 0 = 0 ∧ bitOf new 0 = 1 ∧ (s.core n).run = none)
    ∧ (∃ (b v new : Nat) (s : State), s.hostReaches .rw (STG_Bb_CFG b) (enOf v) new ∧ b < 128 ∧ s.bit (STG_Bb_CFG b) 0 = 0 ∧ bitOf new 0 = 1)
    ∧ (∃ (c v new : Nat) (s : State), s.hostReaches .rw (TRG_TCc_CFG c) (enOf v) new ∧ c < 64 ∧ s.bit (TRG_TCc_CFG c) 0 = 0 ∧ bitOf new 0 = 1)
    ∧ (∃ (c v new : Nat) (a : AcqCfg) (s : State), s.hostReaches .rw (ACQ_CGc_CFG c) (enOf v) new ∧ c < 64 ∧ s.bit (ACQ_CGc_CFG c) 0 = 0 ∧ bitOf new 0 = 1 ∧ s.acqGrp c = none ∧ (s.wr (ACQ_CGc_CFG c) new).acqConfig c (new % 2 ^ 32) = some a) :=
  ⟨⟨255, 1, (nw (ING_Ii_CFG 255) en0 1), en0, hostReaches_of (by decide +kernel), by decide +kernel⟩,
    ⟨3, ([4 + 1024 * 256, 0x14 + 16 * 256][0 % 2]!), (nw (CTN_SESx_CFG 3) (en1 (0 * 1000)) (1 + [4 + 1024 * 256, 0x14 + 16 * 256][0 % 2]!)), (en1 (0 * 1000)), hostReaches_of (by decide +kernel), by decide +kernel⟩,
    ⟨3, (nw (CTN_SESx_CFG 3) (en2 (0 * 700) (cs 4 1024)) (4 + 1024 * 256)), ({ cs 4 1024 with first := 0 % 3, win := [some 2, some (0 / 2)] }), (en2 (0 * 700) { cs 4 1024 with first := 0 % 3, win := [some 2, some (0 / 2)] }), hostReaches_of (by decide +kernel), by decide +kernel⟩,
    ⟨3, (0 * 65536), (nw (CMB_SESx_CFG 3) (en3 9 (cs 4 1024)) (1 + 0 * 65536)), ({ cs 4 1024 with first := 0 * 3 }), (en3 9 { cs 4 1024 with first := 0 * 3 }), hostReaches_of (by decide +kernel), by decide +kernel⟩,
    ⟨3, 0, (nw (SUP_SESx_CFG 3) en4 1), (⟨cs 4 1024, 7, none, none, 0, none⟩), en4, hostReaches_of (by decide +kernel), by decide +kernel⟩,
    ⟨3, 4, (nw (WAG_SESx_CFG 3) en5 5), en5, hostReaches_of (by decide +kernel), by decide +kernel⟩,
    ⟨63, 0x80000001, (nw (WRK_Wn_CFG 63) en6 0x80000001), en6, hostReaches_of (by decide +kernel), by decide +kernel⟩,
    ⟨3, 0x80000, (nw (STG_Bb_CFG 3) en7 0x80001), en7, hostReaches_of (by decide +kernel), by decide +kernel⟩,
    ⟨6, (256 + 65536), (nw (TRG_TCc_CFG 6) en8 (1 + 256 + 65536)), en8, hostReaches_of (by decide +kernel), by decide +kernel⟩,
    ⟨6, (64 + 2^18), (nw (ACQ_CGc_CFG 6) (en9 (500*0)) (1 + 64 + 2^18)), ((((en9 (500*0)).wr (ACQ_CGc_CFG 6) (1 + 64 + 2^18)).acqConfig 6 (1+64+2^18)).getD ⟨0,0,[],0,0,0,0,0,false⟩), (en9 (500*0)), hostReaches_of (by decide +kernel), by decide +kernel⟩⟩


/-- The hypotheses of CommitsWaitForTheirTick are met. -/
theorem test_CommitsWaitForTheirTick :
    (∃ (i v new : Nat) (s : State), let kr := s.rd (ING_Ii_DLY_REF_LO i) + new % 2 ^ 32 * 2 ^ 32; s.hostReaches .rw (ING_Ii_DLY_REF_HI i) v new ∧ i < 256 ∧ i < s.ing.slots.length ∧ s.slotBegun i kr = false ∧ (s.slot i).pend = none)
    ∧ (∃ (v new : Nat) (s : State), let k := s.rd CHN_GAIN_EFF_LO + new % 2 ^ 32 * 2 ^ 32; s.hostReaches .rw CHN_GAIN_EFF_HI v new ∧ s.begun k = false ∧ s.chn.switched = false)
    ∧ (∃ (x v new : Nat) (c : CtnSes) (u : State) (s : State), let w := s.wr (CTN_SESx_NEXT_EFF_HI x) new; let k := s.rd (CTN_SESx_NEXT_EFF_LO x) + new % 2 ^ 32 * 2 ^ 32; s.hostReaches .rw (CTN_SESx_NEXT_EFF_HI x) v new ∧ w.mapCommit (w.withPendingMaps k) x k (w.nextMaps x) = (0, none, u) ∧ x < 1024 ∧ s.ctnOf x = some c)
    ∧ (∃ (x v new : Nat) (q : WagSes) (s : State), let e := s.rd (WAG_SESx_COMMIT_LO x) + new % 2 ^ 32 * 2 ^ 32; s.hostReaches .rw (WAG_SESx_COMMIT_HI x) v new ∧ x < 1024 ∧ s.bit (WAG_SESx_CFG x) 0 = 1 ∧ s.wagOf x = some q ∧ q.pend = none ∧ s.begun (if s.wagExplicit x then s.wagR x e else s.wagRelease x e) = false)
    ∧ (∃ (c v new : Nat) (g : AcqGrp) (p : AcqCap) (s : State), let seg := s.rd (ACQ_CGc_REL_SEG c) % 16; let r := s.rd (ACQ_CGc_REL_EFF_LO c) + new % 2 ^ 32 * 2 ^ 32; s.hostReaches .rw (ACQ_CGc_REL_EFF_HI c) v new ∧ c < 64 ∧ s.acqGrp c = some g ∧ g.caps.find? (fun p => p.seg == seg && p.sealed_) = some p ∧ s.replayed c p.ev = false ∧ g.rel.any (·.1 == seg) = false ∧ (r = 0 ∨ s.begun r = false)) :=
  ⟨⟨255, 0, (nw (ING_Ii_DLY_REF_HI 255) cm0 0), cm0, hostReaches_of (by decide +kernel), by decide +kernel⟩,
    ⟨0, (nw CHN_GAIN_EFF_HI cm1 0), cm1, hostReaches_of (by decide +kernel), by decide +kernel⟩,
    ⟨3, 0, (nw (CTN_SESx_NEXT_EFF_HI 3) sCommit 0), ctn3, _, sCommit, hostReaches_of (by decide +kernel), mapCommit_ok (c := ctn3) rfl (by decide +kernel) (admits [3] [] (by decide +kernel) (by decide +kernel) (by decide) (by simp) (by decide +kernel) (by decide +kernel)), by decide +kernel⟩,
    ⟨3, 0, (nw (WAG_SESx_COMMIT_HI 3) (cm3 [(WAG_SESx_COMMIT_LO 3, 5)]) 0), wq0, (cm3 [(WAG_SESx_COMMIT_LO 3, 5)]), hostReaches_of (by decide +kernel), by decide +kernel⟩,
    ⟨6, 0, (nw (ACQ_CGc_REL_EFF_HI 6) (cm4 10) 0), g6, cap0, (cm4 10), hostReaches_of (by decide +kernel), by decide +kernel⟩⟩


/-- The hypotheses of RetireAndRestore are met. -/
theorem test_RetireAndRestore :
    (∃ (c new : Nat) (s : State), s.hostReaches .wo CMB_RETIRE_CMD c new ∧ c < 16 ∧ s.combState c < 2 ∧ s.cmbMode.cw = 0 ∧ s.cmb.todo = [])
    ∧ (∃ (c new : Nat) (s : State), s.hostReaches .wo CMB_RETIRE_CMD (2 ^ 8 + c) new ∧ c < 16 ∧ s.combState c = 2 ∧ s.cmbMode.cw ≠ 1 ∧ s.cmb.todo = [])
    ∧ (∃ (on : Bool) (new : Nat) (s : State), s.hostReaches .rw CMB_CTRL (setBits (s.rd CMB_CTRL) 1 1 (if on then 1 else 0)) new ∧ s.rd CMB_CTRL < 4 ∧ s.bit CMB_CTRL 1 = (if on then 0 else 1) ∧ (on = true ↔ s.cmbMode.cw = 3) ∧ s.cmb.todo = [])
    ∧ (∃ (p : Pkt) (k : Nat) (key : List Byte) (u s : State), s.accepts p k key u ∧ pkOp p.bytes = 0x0A01 ∧ (pkParams p.bytes).length = 4 ∧ strayBits 0x11F (beAt (pkParams p.bytes) 0 4) = false)
    ∧ (∃ (p n q new : Nat) (s : State), s.hostReaches .wo WRK_RETIRE_CMD p new ∧ p < 68 ∧ s.coreRetired p = false ∧ s.wrk.phys.findIdx? (· == p) = some n ∧ (s.setRetired p true).freeSpare = some q)
    ∧ (∃ (p new : Nat) (s : State), s.hostReaches .wo WRK_RETIRE_CMD (2 ^ 8 + p) new ∧ p < 68 ∧ s.coreRetired p = true)
    ∧ (∃ (k new : Nat) (s : State), s.hostReaches .wo KPR_CMD k new ∧ k < 2 ∧ k ≠ s.keeper ∧ s.keeperState k ≠ 5 ∧ s.keeperState k ≠ 0 ∧ s.kpr.takeAt = none ∧ s.kpr.moves = [])
    ∧ (∃ (k new : Nat) (s : State), s.hostReaches .wo KPR_CMD (2 ^ 8 + k) new ∧ k < 2 ∧ s.keeperState k = 5 ∧ s.kpr.moves = [])
    ∧ (∃ (new : Nat) (s : State), s.hostReaches .rw DDR_CTRL (enOf (s.rd DDR_CTRL)) new ∧ s.bit DDR_CTRL 0 = 0 ∧ bitOf new 0 = 1) :=
  ⟨⟨5, (nw CMB_RETIRE_CMD (rr0 0 ⟨[], 0, none⟩) 5), (rr0 0 ⟨[], 0, none⟩), hostReaches_of (by decide +kernel), by decide +kernel⟩,
    ⟨5, (nw CMB_RETIRE_CMD (rr0 2 ⟨[], 0, none⟩) 261), (rr0 2 ⟨[5, 7], [0,3][0]!, none⟩), hostReaches_of (by decide +kernel), by decide +kernel⟩,
    ⟨false, (nw CMB_CTRL (rr0 2 ⟨[], 0, none⟩) 1), (rr0 2 ⟨[5, 7], [0,1][0]!, none⟩), hostReaches_of (by decide +kernel), by decide +kernel⟩,
    ⟨p26, 64, (ky 64), u26, s26, accepts_of rfl (gate_signPkt _ _ (hd _ _ _ _ _ _ _) _ _ (by decide +kernel) (by decide +kernel) (by decide +kernel) (by decide +kernel) (by decide +kernel)) (by decide +kernel) rfl (by decide +kernel), by simp only [p26, pkParams_pk]; decide +kernel⟩,
    ⟨([0, 63, 31][0]!), ([0, 63, 31][0]!), 64, (nw WRK_RETIRE_CMD rr4 ([0, 63, 31][0]!)), rr4, hostReaches_of (by decide +kernel), by decide +kernel⟩,
    ⟨([67, 5][0]!), (nw WRK_RETIRE_CMD rr4 (256 + [67, 5][0]!)), (let s := (rr4.wr (WRK_PRETIRED 2) 15).wr (WRK_PRETIRED 0) 0x20; { s with wrk := { s.wrk with stopped := [3, 5], errs := [(5, 3), (6, 3)] } }), hostReaches_of (by decide +kernel), by decide +kernel⟩,
    ⟨1, (nw KPR_CMD (rr6 4 2) 1), (rr6 4 1), hostReaches_of (by decide +kernel), by decide +kernel⟩,
    ⟨0, (nw KPR_CMD (rr6 4 2) (256 + 0)), (rr6 [5, 4][0]! [4, 5][0]!), hostReaches_of (by decide +kernel), by decide +kernel⟩,
    ⟨(nw DDR_CTRL rr4 1), (rr4.wr DDR_CFG (0 * 7)), hostReaches_of (by decide +kernel), by decide +kernel⟩⟩

end W21

/-! ### Hypotheses: group 22 -/
namespace W22

def grid : Nat := 6 * 2^11 + 7 * 2^16
def cs (flags d : Nat) : CtnSes := { cfg := 1 + flags + d * 256, cfg2 := 3 + 1 * 256 + 20 * 65536, sibase := 0, brood := 0, udp := 0, epoch := 0, grid := grid, maps := [(0, ⟨2*65536 + 4, 2 * 65536 + 7, 9⟩)], pend := none, first := 0, last := none, win := [some 0, some 1] }
def regs0 : List (Nat × Nat) := [(CTN_CTRL, 1), (GLB_DOMAINS, 4095), (CTN_ID, 5), (CTN_SWARM_ID, 0x1234),
  (CTN_SLICEe_LO 4, 10 + 2 * 65536), (CTN_SLICEe_HI 4, 5), (CTN_SLICEe_LO 5, 20 + 1 * 65536), (CTN_SLICEe_HI 5, 6),
  (CTN_INMAPe_LO 7, 0), (CTN_INMAPe_HI 7, 5 + 1 * 65536), (CTN_INMAPe_LO 8, 2), (CTN_INMAPe_HI 8, 6 + 0 * 65536)]
def ctr : List (Nat × Nat) := [(CTN_SESx_CFG2 3, 3 + 1 * 256 + 20 * 65536), (CTN_SESx_GRID 3, grid), (CTN_SESx_MAP 3, 2 * 65536 + 4), (CTN_SESx_INMAP 3, 2 * 65536 + 7), (CTN_SESx_VERSION 3, 9)]
def en3 (k : Nat) (c : CtnSes) : State := let s := up (St k (hb ++ regs0 ++ ctr ++ [(CTN_SESx_CFG 3, c.cfg), (CMB_SESx_LIST 3, 0), (CMB_SESx_START_LO 3, 5000), (CMB_CTRL, 1)])); { s with ctn := { s.ctn with ses := [(2, cs 0 99), (3, c)] }, cmb := { s.cmb with list := [(0,2),(2,0),(1,1)] } }
def en5 : State := let s := en3 9 (cs 4 1024); (s.wr (WAG_SESx_STATUS 3) (2^28)).wr WAG_CTRL 1
def en9 (start : Nat) : State := up (St 9 (hb ++ [(ACQ_CTRL, 1), (DDR_PARTp_SIZE 0, 4096), (ACQ_CGc_MEMBERS 6, 5 + 256), (ING_Ii_CFG 5, 1), (ING_Ii_CFG 6, 1), (ACQ_CGc_ST 6, 99), (ACQ_CGc_PRE 6, 40), (ACQ_CGc_POST 6, 50), (ACQ_CGc_START_LO 6, start)]))
def wq0 : WagSes := ⟨some 0, [(0, 1)], none, [], [], [], none⟩
def cm3 (l : List (Nat × Nat)) : State := let s := en5.wr (WAG_SESx_CFG 3) (1 + 4); let s := l.foldl (fun s e => s.wr e.1 e.2) s; { s with wag := { s.wag with ses := [(3, wq0)] } }
def d0 : DecRec := ⟨0,[],false,0,0,0,0,0,0,0,0⟩
def cap0 : AcqCap := { (⟨0,0,0,0,0,d0,[],false,0,0,0,false,⟨0,0,[],0,0,0,0,0,false⟩⟩ : AcqCap) with seg := 3, sealed_ := true, ev := 4 }
def g6 : AcqGrp := { AcqGrp.reset with caps := [cap0], rel := [(2, 8, true)] }
def cm4 (e : Nat) : State := let s := en9 0; let s := s.wr (ACQ_CGc_REL_SEG 6) 3 |>.wr (ACQ_CGc_REL_EFF_LO 6) e; { s with acq := { s.acq with grps := [(5, AcqGrp.reset), (6, g6)] } }
def rr0 (st : Nat) (m : CmbMode) : State := let s := up (St 9 (hb ++ [(CMB_CTRL, 3), (CMB_Cc_STATE 5, st), (CMB_Cc_STATE 16, m.cw)])); { s with cmb := { s.cmb with modes := [(3, m)] } }
def L0 : State := live (St 9 hb)
def bad (i : Nat) : Pkt := let p := pk 3 []; { p with bytes := match i with | 0 => setNth p.bytes 2 2 | 1 => setNth p.bytes 6 0xC0 | 2 => setNth p.bytes 40 (nth p.bytes 40 0 + 1) | _ => let b := setNth (setNth p.bytes 8 0) 9 5; putBytes b 32 (tagOf (ky 64) b) }
def p1 : Pkt := pk 0x0003 ([])
def s1 : State := que (L0) p1
def u1 : State := uOf s1 p1
def p2 : Pkt := pk 0x0004 ([])
def s2 : State := que (L0) p2
def u2 : State := uOf s2 p2
def p3 : Pkt := pk 0x0108 ([])
def s3 : State := que (L0) p3
def u3 : State := uOf s3 p3
def p4 : Pkt := pk 0x0109 ([])
def s4 : State := que (L0) p4
def u4 : State := uOf s4 p4
def p7 : Pkt := pk 0x0106 (toBE 4 11 ++ toBE 2 254 ++ toBE 2 0)
def s7 : State := que ({ L0.wr CMD_AUDIT_NEXT 12 |>.wr CMD_AUDIT_OLDEST 10 with cmd := { L0.cmd with audit := [[1],[2]] } }) p7
def u7 : State := uOf s7 p7
def p8 : Pkt := pk 0x0106 (toBE 4 12 ++ toBE 2 254 ++ toBE 2 0)
def s8 : State := que ({ L0.wr CMD_AUDIT_NEXT 12 |>.wr CMD_AUDIT_OLDEST 10 with cmd := { L0.cmd with audit := [[1],[2]] } }) p8
def u8 : State := uOf s8 p8
def p9 : Pkt := pk 0x0106 (toBE 4 12 ++ toBE 2 0 ++ toBE 2 0)
def s9 : State := que ({ L0.wr CMD_AUDIT_NEXT 12 |>.wr CMD_AUDIT_OLDEST 10 with cmd := { L0.cmd with audit := [[1],[2]] } }) p9
def u9 : State := uOf s9 p9
def p11 : Pkt := pk 0x0104 (toBE 2 (2^14+1) ++ toBE 2 0 ++ List.replicate 32 5)
def s11 : State := que (L0) p11
def u11 : State := uOf s11 p11
def p14 : Pkt := pkS 0x0105 (toBE 2 5 ++ toBE 2 0)
def s14 : State := que ({ L0 with mon := { L0.mon with login := some 5 } }) p14
def u14 : State := uOf s14 p14
def p16 : Pkt := pk 0x0401 (toBE 8 (2^48-1))
def s16 : State := que (L0.wr TIM_CTRL 0xFFFFFFFF) p16
def u16 : State := uOf s16 p16
def p17 : Pkt := pk 0x0402 (toBE 8 (2^64-5) ++ toBE 8 10)
def s17 : State := que ((L0.wr TIM_STATUS 2)) p17
def u17 : State := uOf s17 p17
def p18 : Pkt := pk 0x0301 (toBE 8 10 ++ toBE 4 0 ++ toBE 4 0x4)
def s18 : State := que (L0.wr TIM_STATUS 1 |>.setBit GLB_SEAL_CFG 1 true) p18
def u18 : State := uOf s18 p18
def p19 : Pkt := pk 0x0601 (toBE 8 10 ++ toBE 4 255 ++ toBE 4 5 ++ toBE 4 0x8000 ++ toBE 4 (2^32-7) ++ toBE 4 9)
def s19 : State := que (L0 |>.wr ING_CTRL 1|>.wr TIM_STATUS 1) p19
def u19 : State := uOf s19 p19
def p20 : Pkt := pk 0x0701 (toBE 8 10 ++ toBE 4 0)
def s20 : State := que (L0|>.wr TIM_STATUS 1) p20
def u20 : State := uOf s20 p20
def p21 : Pkt := pk 0x0C01 (toBE 8 5 ++ toBE 4 3)
def s21 : State := que (live (cm3 [])|>.wr TIM_STATUS 1) p21
def u21 : State := uOf s21 p21
def p23 : Pkt := pk 0x0F01 (toBE 8 10 ++ toBE 4 6 ++ toBE 4 3)
def s23 : State := que (live (cm4 0)|>.wr TIM_STATUS 1) p23
def u23 : State := uOf s23 p23
def p26 : Pkt := pk 0x0A01 (toBE 4 0x105)
def s26 : State := que (live (rr0 2 ⟨[5], 1, some 5⟩)) p26
def u26 : State := uOf s26 p26
def en2 (k : Nat) (c : CtnSes) : State := let s := up (St k (hb ++ regs0 ++ ctr ++ [(CTN_SESx_CFG 3, c.cfg)])); { s with ctn := { s.ctn with ses := [(2, cs 0 99), (3, c)] } }
def en6 : State := let s := up (St 9 (hb ++ [(WRK_CTRL, 1)])); { s with wrk := { s.wrk with cores := setNth s.wrk.cores 63 { WCore.reset with pc := 5 } } }
def ses0 : State := live (en2 9 (cs 4 1024)) |>.wr TIM_STATUS 1 |>.wr PWR_BUDGET 400000
def sesImg (st : State) (x : Nat) : List Byte := (sesRegs x).flatMap (fun r => toBE 4 (Nat.land r.2 (st.rd r.1)))
def ac (n cls : Nat) : State := (ses0.wr (CMD_SESx_CFG n) (2^30 + cls * 16))
def e11 := (regElems 4 false (pkParams p11.bytes))
def q11 := u11.regSteps false (Ctx.agent ⟨p11, 64, ky 64⟩) e11.2 1 ⟨p11, 0, [], s11.popCmd.rd (CMD_KEYk_H 64)⟩
def p13 : Pkt := pk 0x0002 (toBE 2 2 ++ toBE 2 0 ++ toBE 4 PWR_AGE ++ toBE 4 77 ++ toBE 4 CLK_CTRL ++ toBE 4 5)
def s13 : State := que (L0.wr CLK_CTRL 1) p13
def u13 : State := uOf s13 p13
def e13 := (regElems 8 false (pkParams p13.bytes))
def q13 := u13.regSteps true (Ctx.agent ⟨p13, 64, ky 64⟩) e13.2 5 ⟨p13, 0, [], s13.popCmd.rd (CMD_KEYk_H 64)⟩
def e14 := (regElems 8 false (pkParams p14.bytes))
def q14 := u14.regSteps true (Ctx.agent ⟨p14, 64, ky 64⟩) e14.2 5 ⟨p14, 0, [], s14.popCmd.rd (CMD_KEYk_H 64)⟩
def img6 : List (Nat × Nat) := imagesOf (sesRegs 6) (List.replicate 12 0 ++ sesImg (ses0.wr (CMD_SESx_CFG 6) 0x10 |>.wr (CMD_SESx_Q 6 7) 99) 6)
def pd (s : State) (l : List Pend) : State := { s with cmd := { s.cmd with pend := l } }
def ac3 : State := (ses0.wr (CMD_SESx_CFG 3) (2^30)) |>.wr (WRK_Wn_CFG 5) (1 + 3 * 2^22)
def fr6 : State := let s := (ac 6 1).wr (CMD_SESx_CFG 6) (2^31); { s with cmd := { s.cmd with ended := [6] } }
def ra : State := [(CMD_CTRL, 1), (CMD_RINGr_CFG 3, 1 + 4 * 65536), (CMD_RINGr_STATUS 3, 15)].foldl (fun s e => s.wr e.1 e.2) L0
def arp0 : State := { ra with cmd := { ra.cmd with prod := ra.cmd.prod.set 3 2 } }
def rxu (fl : Nat) : RxItem := ⟨.command, 4, 0x0A000001, mk 1 0 0 3 9 fl [], 5, 99, 777⟩
def arU (fl : Nat) : State := { ra with eth := { ra.eth with inbox := [⟨.arp, 0, 0, [], 0, 0, 0⟩, rxu fl, rxu 0] } }

/-- The hypotheses of PacketsPassTheirChecksOrDoNothing are met. -/
theorem test_PacketsPassTheirChecksOrDoNothing :
    (∃ (p : Pkt) (cnt : Nat) (auth : Bool) (r i : Nat) (s : State), s.nextCmd = some p ∧ pkOp p.bytes = 0x0003 ∧ p.via = .ring r i ∧ s.popCmd.gate p.bytes = .drop cnt auth ∧ cnt ∈ [CMD_DISC_HDR, CMD_DISC_KEY, CMD_DISC_TAG, CMD_DISC_TARGET])
    ∧ (∃ (p : Pkt) (k : Nat) (key reply : List Byte) (t s : State), s.popCmd.gate p.bytes = .pass k key ∧ s.popCmd.turn p k = (.resend reply, t) ∧ s.nextCmd = some p ∧ pkOp p.bytes = 0x0003)
    ∧ (∃ (p : Pkt) (k st : Nat) (key : List Byte) (t s : State), s.nextCmd = some p ∧ s.popCmd.gate p.bytes = .pass k key ∧ s.popCmd.turn p k = (.refuse st, t) ∧ pkOp p.bytes = 0x0003)
    ∧ (∃ (p : Pkt) (k : Nat) (key : List Byte) (u s : State), s.nextCmd = some p ∧ s.popCmd.gate p.bytes = .pass k key ∧ s.popCmd.turn p k = (.run, u) ∧ opCodes.contains (pkOp p.bytes) = false) :=
  ⟨⟨(bad 1), ([CMD_DISC_HDR, CMD_DISC_KEY, CMD_DISC_TAG, CMD_DISC_TARGET][1]!), (1 == 1 || 1 == 2), 3, 7, (que L0 (bad 1)), by decide +kernel⟩,
    ⟨(pk 3 []), 64, (ky 64), ([1, 2, 3]), (sCached.popCmd), sCached, gate_signPkt _ _ (hd _ _ _ _ _ _ _) _ _ (by decide +kernel) (by decide +kernel) (by decide +kernel) (by decide +kernel) (by decide +kernel), turn_cached, by decide +kernel⟩,
    ⟨(pk 3 []), 64, 0x300, (ky 64), (uOf ((que L0 (pk 3 [])).wr (CMD_KEYk_H 64) 99) (pk 3 [])), ((que L0 (pk 3 [])).wr (CMD_KEYk_H 64) 99), rfl, gate_signPkt _ _ (hd _ _ _ _ _ _ _) _ _ (by decide +kernel) (by decide +kernel) (by decide +kernel) (by decide +kernel) (by decide +kernel), Prod.ext (by decide +kernel) rfl, by decide +kernel⟩,
    ⟨(pk 0x777 []), 64, (ky 64), (uOf (que L0 (pk 0x777 [])) (pk 0x777 [])), ((que L0 (pk 0x777 []))), rfl, gate_signPkt _ _ (hd _ _ _ _ _ _ _) _ _ (by decide +kernel) (by decide +kernel) (by decide +kernel) (by decide +kernel) (by decide +kernel), Prod.ext (by decide +kernel) rfl, by decide +kernel⟩⟩


/-- The hypotheses of CommandsEndWithEntryCountAndReply are met. -/
theorem test_CommandsEndWithEntryCountAndReply :
    (∃ (p : Pkt) (st : Nat) (u : State) (r i : Nat), p.via = .ring r i ∧ 48 ≤ p.bytes.length ∧ st < 2 ^ 16 ∧ u.pci.held = false ∧ u.bit PCI_STATUS 11 = 1 ∧ u.cmd.audit.length < 8192 ∧ u.rd CMD_AUDIT_NEXT + 1 < 2 ^ 32)
    ∧ (∃ (p : Pkt) (k : Nat) (key : List Byte) (u s : State), s.accepts p k key u ∧ pkOp p.bytes = 0x0003 ∧ pkParams p.bytes = [])
    ∧ (∃ (p : Pkt) (k : Nat) (key : List Byte) (u s : State), s.accepts p k key u ∧ pkOp p.bytes = 0x0004 ∧ pkParams p.bytes = [])
    ∧ (∃ (p : Pkt) (k : Nat) (key : List Byte) (u s : State), s.accepts p k key u ∧ pkOp p.bytes = 0x0108 ∧ pkParams p.bytes = [])
    ∧ (∃ (p : Pkt) (k : Nat) (key : List Byte) (u s : State), s.accepts p k key u ∧ pkOp p.bytes = 0x0109 ∧ pkParams p.bytes = [] ∧ u.keeperState (1 - u.keeper) = 3) :=
  ⟨⟨(pk 0x777 [5,6]), (0 * 3), L0, 3, 7, by decide +kernel⟩,
    ⟨p1, 64, (ky 64), u1, s1, accepts_of rfl (gate_signPkt _ _ (hd _ _ _ _ _ _ _) _ _ (by decide +kernel) (by decide +kernel) (by decide +kernel) (by decide +kernel) (by decide +kernel)) (by decide +kernel) rfl (by decide +kernel), by simp only [p1, pkParams_pk]; decide +kernel⟩,
    ⟨p2, 64, (ky 64), u2, s2, accepts_of rfl (gate_signPkt _ _ (hd _ _ _ _ _ _ _) _ _ (by decide +kernel) (by decide +kernel) (by decide +kernel) (by decide +kernel) (by decide +kernel)) (by decide +kernel) rfl (by decide +kernel), by simp only [p2, pkParams_pk]; decide +kernel⟩,
    ⟨p3, 64, (ky 64), u3, s3, accepts_of rfl (gate_signPkt _ _ (hd _ _ _ _ _ _ _) _ _ (by decide +kernel) (by decide +kernel) (by decide +kernel) (by decide +kernel) (by decide +kernel)) (by decide +kernel) rfl (by decide +kernel), by simp only [p3, pkParams_pk]; decide +kernel⟩,
    ⟨p4, 64, (ky 64), u4, s4, accepts_of rfl (gate_signPkt _ _ (hd _ _ _ _ _ _ _) _ _ (by decide +kernel) (by decide +kernel) (by decide +kernel) (by decide +kernel) (by decide +kernel)) (by decide +kernel) rfl (by decide +kernel), by simp only [p4, pkParams_pk]; decide +kernel⟩⟩


/-- The hypotheses of AuditReadReturnsTheEntries are met. -/
theorem test_AuditReadReturnsTheEntries :
    (∃ (p : Pkt) (k : Nat) (key : List Byte) (u s : State), let start := beAt (pkParams p.bytes) 0 4; let n := beAt (pkParams p.bytes) 4 2; let next := u.rd CMD_AUDIT_NEXT; s.accepts p k key u ∧ pkOp p.bytes = 0x0106 ∧ (pkParams p.bytes).length = 8 ∧ 1 ≤ n ∧ n ≤ 254 ∧ beAt (pkParams p.bytes) 6 2 = 0 ∧ start < next)
    ∧ (∃ (p : Pkt) (k : Nat) (key : List Byte) (u s : State), let start := beAt (pkParams p.bytes) 0 4; let n := beAt (pkParams p.bytes) 4 2; let next := u.rd CMD_AUDIT_NEXT; s.accepts p k key u ∧ pkOp p.bytes = 0x0106 ∧ (pkParams p.bytes).length = 8 ∧ 1 ≤ n ∧ n ≤ 254 ∧ beAt (pkParams p.bytes) 6 2 = 0 ∧ next ≤ start)
    ∧ (∃ (p : Pkt) (k : Nat) (key : List Byte) (u s : State), let n := beAt (pkParams p.bytes) 4 2; s.accepts p k key u ∧ pkOp p.bytes = 0x0106 ∧ (pkParams p.bytes).length = 8 ∧ (n = 0 ∨ 254 < n)) :=
  ⟨⟨p7, 64, (ky 64), u7, s7, accepts_of rfl (gate_signPkt _ _ (hd _ _ _ _ _ _ _) _ _ (by decide +kernel) (by decide +kernel) (by decide +kernel) (by decide +kernel) (by decide +kernel)) (by decide +kernel) rfl (by decide +kernel), by simp only [p7, pkParams_pk]; decide +kernel⟩,
    ⟨p8, 64, (ky 64), u8, s8, accepts_of rfl (gate_signPkt _ _ (hd _ _ _ _ _ _ _) _ _ (by decide +kernel) (by decide +kernel) (by decide +kernel) (by decide +kernel) (by decide +kernel)) (by decide +kernel) rfl (by decide +kernel), by simp only [p8, pkParams_pk]; decide +kernel⟩,
    ⟨p9, 64, (ky 64), u9, s9, accepts_of rfl (gate_signPkt _ _ (hd _ _ _ _ _ _ _) _ _ (by decide +kernel) (by decide +kernel) (by decide +kernel) (by decide +kernel) (by decide +kernel)) (by decide +kernel) rfl (by decide +kernel), by simp only [p9, pkParams_pk]; decide +kernel⟩⟩


/-- The hypotheses of AuditClearLeavesItsOwnEntry are met. -/
theorem test_AuditClearLeavesItsOwnEntry :
    ∃ (p : Pkt) (k : Nat) (key : List Byte) (u s : State), s.accepts p k key u ∧ pkParams p.bytes = [] ∧ pkOp p.bytes = 0x0107 :=
  ⟨(pkM 0x0107), 68, (Config.makerKey 0), (uOf sM (pkM 0x0107)), sM, accepts_of rfl (gate_signPkt _ _ (hd _ _ _ _ _ _ _) _ _ (by decide +kernel) (by decide +kernel) (by decide +kernel) rfl (by decide +kernel)) (by decide +kernel) rfl (by decide +kernel), pkParams_signPkt _ _ _ rfl, by decide +kernel⟩


/-- The hypotheses of KeysAreLoadedAndRevoked are met. -/
theorem test_KeysAreLoadedAndRevoked :
    (∃ (p : Pkt) (k j : Nat) (key : List Byte) (u s : State), s.accepts p k key u ∧ pkOp p.bytes = 0x0104 ∧ keyField (beAt (pkParams p.bytes) 0 2) = some j ∧ j < 68 ∧ (pkParams p.bytes).length = (if j < 64 then 164 else 36) ∧ beAt (pkParams p.bytes) 2 2 = 0)
    ∧ (∃ (p : Pkt) (k j : Nat) (key : List Byte) (u s : State), s.accepts p k key u ∧ pkOp p.bytes = 0x0105 ∧ (pkParams p.bytes).length = 4 ∧ keyField (beAt (pkParams p.bytes) 0 2) = some j ∧ beAt (pkParams p.bytes) 2 2 = 0 ∧ u.rd (CMD_KEYk_STATE j) % 4 = 1 ∧ (slotRole k = 2 ∨ (slotRole k = 0 ∧ j = k) ∨ (slotRole k = 1 ∧ j < 68 ∧ u.installers ≠ [j]))) :=
  ⟨⟨p11, 64, 65, (ky 64), u11, s11, accepts_of rfl (gate_signPkt _ _ (hd _ _ _ _ _ _ _) _ _ (by decide +kernel) (by decide +kernel) (by decide +kernel) (by decide +kernel) (by decide +kernel)) (by decide +kernel) rfl (by decide +kernel), by simp only [p11, pkParams_pk]; decide +kernel⟩,
    ⟨p14, 5, 5, (ky 5), u14, s14, accepts_of rfl (gate_signPkt _ _ (hd _ _ _ _ _ _ _) _ _ (by decide +kernel) (by decide +kernel) (by decide +kernel) (by decide +kernel) (by decide +kernel)) (by decide +kernel) rfl (by decide +kernel), by simp only [p14, pkParams_pkS]; decide +kernel⟩⟩


/-- The hypotheses of TimeAndReferenceCommands are met. -/
theorem test_TimeAndReferenceCommands :
    (∃ (p : Pkt) (k : Nat) (key : List Byte) (u s : State), s.accepts p k key u ∧ pkOp p.bytes = 0x0401 ∧ (pkParams p.bytes).length = 8 ∧ beAt (pkParams p.bytes) 0 8 < 2 ^ 48 ∧ u.fd TIM_CTRL TIM_CTRL_TOD_SRC ≠ 0 ∧ u.timeValid = false)
    ∧ (∃ (p : Pkt) (k : Nat) (key : List Byte) (u s : State), let d := signed 64 (beAt (pkParams p.bytes) 0 8); let sec := beAt (pkParams p.bytes) 8 8; s.accepts p k key u ∧ pkOp p.bytes = 0x0402 ∧ (pkParams p.bytes).length = 16 ∧ sec < 2 ^ 48 ∧ 0 < sec ∧ u.begun ((sec - 1) * 1000000) = false ∧ u.bit TIM_STATUS 1 = 1 ∧ u.bit TIM_STATUS 2 = 0 ∧ d + u.stepOfs ≤ u.stepThr ∧ -u.stepThr ≤ d + u.stepOfs)
    ∧ (∃ (p : Pkt) (k : Nat) (key : List Byte) (u s : State), let tk := beAt (pkParams p.bytes) 0 8; let img := beAt (pkParams p.bytes) 12 4; s.accepts p k key u ∧ pkOp p.bytes = 0x0301 ∧ (pkParams p.bytes).length = 16 ∧ beAt (pkParams p.bytes) 8 4 = 0 ∧ strayBits 0xF1C img = false ∧ clkInRange CLK_CTRL img u = true ∧ u.timeValid = true ∧ tk ≠ 0 ∧ u.begun tk = false) :=
  ⟨⟨p16, 64, (ky 64), u16, s16, accepts_of rfl (gate_signPkt _ _ (hd _ _ _ _ _ _ _) _ _ (by decide +kernel) (by decide +kernel) (by decide +kernel) (by decide +kernel) (by decide +kernel)) (by decide +kernel) rfl (by decide +kernel), by simp only [p16, pkParams_pk]; decide +kernel⟩,
    ⟨p17, 64, (ky 64), u17, s17, accepts_of rfl (gate_signPkt _ _ (hd _ _ _ _ _ _ _) _ _ (by decide +kernel) (by decide +kernel) (by decide +kernel) (by decide +kernel) (by decide +kernel)) (by decide +kernel) rfl (by decide +kernel), by simp only [p17, pkParams_pk]; decide +kernel⟩,
    ⟨p18, 64, (ky 64), u18, s18, accepts_of rfl (gate_signPkt _ _ (hd _ _ _ _ _ _ _) _ _ (by decide +kernel) (by decide +kernel) (by decide +kernel) (by decide +kernel) (by decide +kernel)) (by decide +kernel) rfl (by decide +kernel), by simp only [p18, pkParams_pk]; decide +kernel⟩⟩


/-- The hypotheses of CommitCommands are met. -/
theorem test_CommitCommands :
    (∃ (p : Pkt) (k : Nat) (key : List Byte) (u s : State), let b := pkParams p.bytes; let tk := beAt b 0 8; let i := beAt b 8 4; s.accepts p k key u ∧ pkOp p.bytes = 0x0601 ∧ (pkParams p.bytes).length = 28 ∧ i < 256 ∧ i < u.ing.slots.length ∧ strayBits (rwMask (ING_Ii_DLY_D0_HI 0)) (beAt b 16 4) = false ∧ u.timeValid = true ∧ tk ≠ 0 ∧ u.begun tk = false ∧ u.slotBegun i tk = false ∧ (u.slot i).pend = none)
    ∧ (∃ (p : Pkt) (k : Nat) (key : List Byte) (u s : State), let tk := beAt (pkParams p.bytes) 0 8; s.accepts p k key u ∧ pkOp p.bytes = 0x0701 ∧ (pkParams p.bytes).length = 12 ∧ beAt (pkParams p.bytes) 8 4 = 0 ∧ u.timeValid = true ∧ tk ≠ 0 ∧ u.begun tk = false ∧ u.chn.switched = false)
    ∧ (∃ (p : Pkt) (k : Nat) (key : List Byte) (q : WagSes) (u s : State), let e := beAt (pkParams p.bytes) 0 8; let x := beAt (pkParams p.bytes) 8 4; s.accepts p k key u ∧ pkOp p.bytes = 0x0C01 ∧ (pkParams p.bytes).length = 12 ∧ x < 1024 ∧ (slotRole k ≠ 0 ∨ x = pkSession p.bytes) ∧ u.timeValid = true ∧ u.wagOf x = some q ∧ q.pend = none ∧ u.bit (WAG_SESx_CFG x) 0 = 1 ∧ u.begun (if u.wagExplicit x then u.wagR x e else u.wagRelease x e) = false)
    ∧ (∃ (p : Pkt) (k : Nat) (key : List Byte) (g : AcqGrp) (cap : AcqCap) (u s : State), let r := beAt (pkParams p.bytes) 0 8; let c := beAt (pkParams p.bytes) 8 4; let seg := beAt (pkParams p.bytes) 12 4; s.accepts p k key u ∧ pkOp p.bytes = 0x0F01 ∧ (pkParams p.bytes).length = 16 ∧ c < 64 ∧ seg < 16 ∧ (slotRole k ≠ 0 ∨ u.cgSession c = pkSession p.bytes) ∧ u.timeValid = true ∧ u.acqGrp c = some g ∧ g.caps.find? (fun q => q.seg == seg && q.sealed_) = some cap ∧ u.replayed c cap.ev = false ∧ g.rel.any (·.1 == seg) = false ∧ (r = 0 ∨ u.begun r = false))
    ∧ (∃ (p : Pkt) (k : Nat) (key : List Byte) (c : CtnSes) (v u s : State), let b := pkParams p.bytes; let tk := beAt b 0 8; let x := beAt b 8 4; let w := (((u.wr (CTN_SESx_NEXT_MAP x) (beAt b 12 4)).wr (CTN_SESx_NEXT_INMAP x) (beAt b 16 4)).wr (CTN_SESx_NEXT_VERSION x) (beAt b 20 4)).wr64 (CTN_SESx_NEXT_EFF_LO x) (CTN_SESx_NEXT_EFF_HI x) tk; s.accepts p k key u ∧ w.mapCommit (u.viewAt tk) x tk (w.nextMaps x) = (0, none, v) ∧ pkOp p.bytes = 0x0801 ∧ (pkParams p.bytes).length = 24 ∧ x < 1024 ∧ strayBits (rwMask (CTN_SESx_NEXT_MAP x)) (beAt b 12 4) = false ∧ strayBits (rwMask (CTN_SESx_NEXT_INMAP x)) (beAt b 16 4) = false ∧ strayBits (rwMask (CTN_SESx_NEXT_VERSION x)) (beAt b 20 4) = false ∧ (slotRole k ≠ 0 ∨ x = pkSession p.bytes) ∧ u.ctnOf x = some c ∧ u.bit (CTN_SESx_CFG x) 0 = 1 ∧ u.timeValid = true ∧ tk ≠ 0 ∧ u.begun tk = false) :=
  ⟨⟨p19, 64, (ky 64), u19, s19, accepts_of rfl (gate_signPkt _ _ (hd _ _ _ _ _ _ _) _ _ (by decide +kernel) (by decide +kernel) (by decide +kernel) (by decide +kernel) (by decide +kernel)) (by decide +kernel) rfl (by decide +kernel), by simp only [p19, pkParams_pk]; decide +kernel⟩,
    ⟨p20, 64, (ky 64), u20, s20, accepts_of rfl (gate_signPkt _ _ (hd _ _ _ _ _ _ _) _ _ (by decide +kernel) (by decide +kernel) (by decide +kernel) (by decide +kernel) (by decide +kernel)) (by decide +kernel) rfl (by decide +kernel), by simp only [p20, pkParams_pk]; decide +kernel⟩,
    ⟨p21, 64, (ky 64), wq0, u21, s21, accepts_of rfl (gate_signPkt _ _ (hd _ _ _ _ _ _ _) _ _ (by decide +kernel) (by decide +kernel) (by decide +kernel) (by decide +kernel) (by decide +kernel)) (by decide +kernel) rfl (by decide +kernel), by simp only [p21, pkParams_pk]; decide +kernel⟩,
    ⟨p23, 64, (ky 64), g6, cap0, u23, s23, accepts_of rfl (gate_signPkt _ _ (hd _ _ _ _ _ _ _) _ _ (by decide +kernel) (by decide +kernel) (by decide +kernel) (by decide +kernel) (by decide +kernel)) (by decide +kernel) rfl (by decide +kernel), by simp only [p23, pkParams_pk]; decide +kernel⟩,
    ⟨cq25, 64, (ky 64), ctn3, _, (uOf (que (calmC []) cq25) cq25), (que (calmC []) cq25), accepts_of rfl (gate_signPkt _ _ (hd _ _ _ _ _ _ _) _ _ (by decide +kernel) (by decide +kernel) (by decide +kernel) (by decide +kernel) (by decide +kernel)) (by decide +kernel) rfl (by decide +kernel), mapCommit_ok (c := ctn3) (by decide +kernel) (by simp only [cq25, pkParams_pk]; decide +kernel) (admits [3] [] (by simp only [cq25, pkParams_pk]; decide +kernel) (by simp only [cq25, pkParams_pk]; decide +kernel) (by decide) (by simp) (by simp only [cq25, pkParams_pk]; decide +kernel) (by simp only [cq25, pkParams_pk]; decide +kernel)), by simp only [cq25, pkParams_pk]; decide +kernel⟩⟩

end W22

/-! ### Hypotheses: group 23 -/
namespace W23

def grid : Nat := 6 * 2^11 + 7 * 2^16
def cs (flags d : Nat) : CtnSes := { cfg := 1 + flags + d * 256, cfg2 := 3 + 1 * 256 + 20 * 65536, sibase := 0, brood := 0, udp := 0, epoch := 0, grid := grid, maps := [(0, ⟨2*65536 + 4, 2 * 65536 + 7, 9⟩)], pend := none, first := 0, last := none, win := [some 0, some 1] }
def regs0 : List (Nat × Nat) := [(CTN_CTRL, 1), (GLB_DOMAINS, 4095), (CTN_ID, 5), (CTN_SWARM_ID, 0x1234),
  (CTN_SLICEe_LO 4, 10 + 2 * 65536), (CTN_SLICEe_HI 4, 5), (CTN_SLICEe_LO 5, 20 + 1 * 65536), (CTN_SLICEe_HI 5, 6),
  (CTN_INMAPe_LO 7, 0), (CTN_INMAPe_HI 7, 5 + 1 * 65536), (CTN_INMAPe_LO 8, 2), (CTN_INMAPe_HI 8, 6 + 0 * 65536)]
def ctr : List (Nat × Nat) := [(CTN_SESx_CFG2 3, 3 + 1 * 256 + 20 * 65536), (CTN_SESx_GRID 3, grid), (CTN_SESx_MAP 3, 2 * 65536 + 4), (CTN_SESx_INMAP 3, 2 * 65536 + 7), (CTN_SESx_VERSION 3, 9)]
def en2 (k : Nat) (c : CtnSes) : State := let s := up (St k (hb ++ regs0 ++ ctr ++ [(CTN_SESx_CFG 3, c.cfg)])); { s with ctn := { s.ctn with ses := [(2, cs 0 99), (3, c)] } }
def en6 : State := let s := up (St 9 (hb ++ [(WRK_CTRL, 1)])); { s with wrk := { s.wrk with cores := setNth s.wrk.cores 63 { WCore.reset with pc := 5 } } }
def L0 : State := live (St 9 hb)
def ses0 : State := live (en2 9 (cs 4 1024)) |>.wr TIM_STATUS 1 |>.wr PWR_BUDGET 400000
def sesImg (st : State) (x : Nat) : List Byte := (sesRegs x).flatMap (fun r => toBE 4 (Nat.land r.2 (st.rd r.1)))
def ac (n cls : Nat) : State := (ses0.wr (CMD_SESx_CFG n) (2^30 + cls * 16))
def p8 : Pkt := pk 0x0D01 (toBE 8 10 ++ toBE 4 63)
def s8 : State := que (live en6 |>.wr TIM_STATUS 1) p8
def u8 : State := uOf s8 p8
def p9 : Pkt := pk 0x0103 (toBE 8 10 ++ toBE 4 3 ++ toBE 4 3 ++ toBE 4 31 ++ toBE 4 7 ++ toBE 6 0x112233445566 ++ toBE 6 0xAABBCCDDEEFF ++ toBE 2 0x800 ++ [0x45,0,0,0,0,0,0,0,64,17,0,0] ++ toBE 4 0x0A000002 ++ toBE 4 0x0A000003 ++ toBE 2 1000 ++ toBE 2 2000 ++ [0,0,0,0])
def s9 : State := que (live en6 |>.wr TIM_STATUS 1) p9
def u9 : State := uOf s9 p9
def p11 : Pkt := pk 0x0001 (toBE 2 2 ++ toBE 2 0 ++ toBE 4 GLB_ID ++ toBE 4 GLB_UID_LO)
def s11 : State := que (L0) p11
def u11 : State := uOf s11 p11
def e11 := (regElems 4 false (pkParams p11.bytes))
def q11 := u11.regSteps false (Ctx.agent ⟨p11, 64, ky 64⟩) e11.2 1 ⟨p11, 0, [], s11.popCmd.rd (CMD_KEYk_H 64)⟩
def p13 : Pkt := pk 0x0002 (toBE 2 2 ++ toBE 2 0 ++ toBE 4 PWR_AGE ++ toBE 4 77 ++ toBE 4 CLK_CTRL ++ toBE 4 5)
def s13 : State := que (L0.wr CLK_CTRL 1) p13
def u13 : State := uOf s13 p13
def e13 := (regElems 8 false (pkParams p13.bytes))
def q13 := u13.regSteps true (Ctx.agent ⟨p13, 64, ky 64⟩) e13.2 5 ⟨p13, 0, [], s13.popCmd.rd (CMD_KEYk_H 64)⟩
def p14 : Pkt := pk 0x0002 (toBE 2 2 ++ toBE 2 0 ++ toBE 4 PWR_AGE ++ toBE 4 77 ++ toBE 4 GLB_ID ++ toBE 4 5)
def s14 : State := que (L0.wr CLK_CTRL 1) p14
def u14 : State := uOf s14 p14
def e14 := (regElems 8 false (pkParams p14.bytes))
def q14 := u14.regSteps true (Ctx.agent ⟨p14, 64, ky 64⟩) e14.2 5 ⟨p14, 0, [], s14.popCmd.rd (CMD_KEYk_H 64)⟩
def img6 : List (Nat × Nat) := imagesOf (sesRegs 6) (List.replicate 12 0 ++ sesImg (ses0.wr (CMD_SESx_CFG 6) 0x10 |>.wr (CMD_SESx_Q 6 7) 99) 6)
def pd (s : State) (l : List Pend) : State := { s with cmd := { s.cmd with pend := l } }
def ac3 : State := (ses0.wr (CMD_SESx_CFG 3) (2^30)) |>.wr (WRK_Wn_CFG 5) (1 + 3 * 2^22)
def fr6 : State := let s := (ac 6 1).wr (CMD_SESx_CFG 6) (2^31); { s with cmd := { s.cmd with ended := [6] } }
def ra : State := [(CMD_CTRL, 1), (CMD_RINGr_CFG 3, 1 + 4 * 65536), (CMD_RINGr_STATUS 3, 15)].foldl (fun s e => s.wr e.1 e.2) L0
def arp0 : State := { ra with cmd := { ra.cmd with prod := ra.cmd.prod.set 3 2 } }
def rxu (fl : Nat) : RxItem := ⟨.command, 4, 0x0A000001, mk 1 0 0 3 9 fl [], 5, 99, 777⟩
def arU (fl : Nat) : State := { ra with eth := { ra.eth with inbox := [⟨.arp, 0, 0, [], 0, 0, 0⟩, rxu fl, rxu 0] } }

/-- The hypotheses of SessionChangesAreAdmittedOrRefused are met. -/
theorem test_SessionChangesAreAdmittedOrRefused :
    (∃ (p : Pkt) (k : Nat) (key : List Byte) (u s : State), let b := pkParams p.bytes; let tk := beAt b 0 8; let x := beAt b 8 4; let imgs := imagesOf (sesRegs x) b; let cfg := imageAt imgs (CMD_SESx_CFG x); let v := (u.viewAt tk).laidChange (.setSes x imgs); s.accepts p k key u ∧ v.admission (some x) = none ∧ pkOp p.bytes = 0x0101 ∧ (pkParams p.bytes).length = 188 ∧ x < 1024 ∧ strayAny (sesRegs x) imgs = false ∧ bitsOf cfg 5 4 < 3 ∧ (x = 0 → bitsOf cfg 5 4 = 1) ∧ (bitOf cfg 1 = 1 → bitsOf cfg 5 4 = 2 ∧ bitOf cfg 0 = 0) ∧ (bitOf (imageAt imgs (CTN_SESx_CFG x)) 0 = 1 → dwellOk (imageAt imgs (CTN_SESx_CFG x)) = true) ∧ u.sesState x ≠ 2 ∧ u.timeValid = true ∧ tk ≠ 0 ∧ u.begun tk = false ∧ ((u.viewAt tk).sesState x = 0 → imageAt imgs (CTN_SESx_EPOCH_LO x) + imageAt imgs (CTN_SESx_EPOCH_HI x) * 2 ^ 32 ≤ tk))
    ∧ (∃ (p : Pkt) (k : Nat) (key : List Byte) (u s : State) (r : _), let b := pkParams p.bytes; let tk := beAt b 0 8; let x := beAt b 8 4; let imgs := imagesOf (sesRegs x) b; let cfg := imageAt imgs (CMD_SESx_CFG x); let v := (u.viewAt tk).laidChange (.setSes x imgs); s.accepts p k key u ∧ v.admission (some x) = some r ∧ pkOp p.bytes = 0x0101 ∧ (pkParams p.bytes).length = 188 ∧ x < 1024 ∧ strayAny (sesRegs x) imgs = false ∧ bitsOf cfg 5 4 < 3 ∧ (x = 0 → bitsOf cfg 5 4 = 1) ∧ (bitOf cfg 1 = 1 → bitsOf cfg 5 4 = 2 ∧ bitOf cfg 0 = 0) ∧ (bitOf (imageAt imgs (CTN_SESx_CFG x)) 0 = 1 → dwellOk (imageAt imgs (CTN_SESx_CFG x)) = true) ∧ u.sesState x ≠ 2 ∧ u.timeValid = true ∧ tk ≠ 0 ∧ u.begun tk = false ∧ ((u.viewAt tk).sesState x = 0 → imageAt imgs (CTN_SESx_EPOCH_LO x) + imageAt imgs (CTN_SESx_EPOCH_HI x) * 2 ^ 32 ≤ tk))
    ∧ (∃ (p : Pkt) (k : Nat) (key : List Byte) (u s : State), let tk := beAt (pkParams p.bytes) 0 8; let x := beAt (pkParams p.bytes) 8 4; s.accepts p k key u ∧ ((u.viewAt tk).laidChange (.remove x)).admission none = none ∧ pkOp p.bytes = 0x0102 ∧ (pkParams p.bytes).length = 12 ∧ 0 < x ∧ x < 1024 ∧ u.sesState x ≠ 2 ∧ (u.sesState x ≠ 0 ∨ u.setPending x = true) ∧ u.timeValid = true ∧ tk ≠ 0 ∧ u.begun tk = false)
    ∧ (∃ (p : Pkt) (k : Nat) (key : List Byte) (u s : State), let tk := beAt (pkParams p.bytes) 0 8; let mw := beAt (pkParams p.bytes) 12 4; let v := u.viewAt tk; s.accepts p k key u ∧ (v.rd PWR_BUDGET ≤ mw ∨ v.classAPower ≤ mw) ∧ pkOp p.bytes = 0x0201 ∧ (pkParams p.bytes).length = 16 ∧ beAt (pkParams p.bytes) 8 4 = 0 ∧ 150000 ≤ mw ∧ mw ≤ 480000 ∧ u.timeValid = true ∧ tk ≠ 0 ∧ u.begun tk = false)
    ∧ (∃ (p : Pkt) (k : Nat) (key : List Byte) (u s : State), let tk := beAt (pkParams p.bytes) 0 8; let mw := beAt (pkParams p.bytes) 12 4; let v := u.viewAt tk; s.accepts p k key u ∧ mw < v.classAPower ∧ pkOp p.bytes = 0x0201 ∧ (pkParams p.bytes).length = 16 ∧ beAt (pkParams p.bytes) 8 4 = 0 ∧ 150000 ≤ mw ∧ mw ≤ 480000 ∧ u.timeValid = true ∧ tk ≠ 0 ∧ u.begun tk = false ∧ mw < v.rd PWR_BUDGET)
    ∧ (∃ (p : Pkt) (k : Nat) (key : List Byte) (u s : State), let b := pkParams p.bytes; let tk := beAt b 0 8; let g := beAt b 8 4; let imgs := imagesOf (slotRegs g) b; let x := bitsOf (imageAt imgs (TRG_SESg_CFG g)) 31 22; let w := (u.viewAt tk).laidChange (.trigSlot g imgs); s.accepts p k key u ∧ w.admission none = none ∧ pkOp p.bytes = 0x0E01 ∧ (pkParams p.bytes).length = 168 ∧ g < 8 ∧ strayAny (slotRegs g) imgs = false ∧ (slotRole k ≠ 0 ∨ (x = pkSession p.bytes ∧ (u.slotOn g = true → u.slotSession g = pkSession p.bytes))) ∧ u.timeValid = true ∧ tk ≠ 0 ∧ u.begun tk = false ∧ (u.viewAt tk).sesState x = 1 ∧ (u.viewAt tk).sesClass x = 0 ∧ (slotRegs g).any (fun r => (trgPre r.1 (w.rd r.1) ((u.viewAt tk).setBit (TRG_SESg_CFG g) 0 false)).isSome) = false) :=
  ⟨⟨cq1, 64, (ky 64), (uOf (que (calm []) cq1) cq1), (que (calm []) cq1), accepts_of rfl (gate_signPkt _ _ (hd _ _ _ _ _ _ _) _ _ (by decide +kernel) (by decide +kernel) (by decide +kernel) (by decide +kernel) (by decide +kernel)) (by decide +kernel) rfl (by decide +kernel), admits [] [] (by simp only [cq1, pkParams_pk]; decide +kernel) (by simp) (by simp) (by simp) (by simp only [cq1, pkParams_pk]; decide +kernel) (by simp only [cq1, pkParams_pk]; decide +kernel), by simp only [cq1, pkParams_pk]; decide +kernel⟩,
    ⟨cq1, 64, (ky 64), (uOf (que (calm [(PWR_BUDGET, 150000)]) cq1) cq1), (que (calm [(PWR_BUDGET, 150000)]) cq1), (⟨18, 0, 200000, 150000⟩), accepts_of rfl (gate_signPkt _ _ (hd _ _ _ _ _ _ _) _ _ (by decide +kernel) (by decide +kernel) (by decide +kernel) (by decide +kernel) (by decide +kernel)) (by decide +kernel) rfl (by decide +kernel), admits [] [] (by simp only [cq1, pkParams_pk]; decide +kernel) (by simp) (by simp) (by simp) (by simp only [cq1, pkParams_pk]; decide +kernel) (by simp only [cq1, pkParams_pk]; decide +kernel), by simp only [cq1, pkParams_pk]; decide +kernel⟩,
    ⟨cq3, 64, (ky 64), (uOf (que (calm [(CMD_SESx_CFG 6, 2 ^ 30 + 0x10)]) cq3) cq3), (que (calm [(CMD_SESx_CFG 6, 2 ^ 30 + 0x10)]) cq3), accepts_of rfl (gate_signPkt _ _ (hd _ _ _ _ _ _ _) _ _ (by decide +kernel) (by decide +kernel) (by decide +kernel) (by decide +kernel) (by decide +kernel)) (by decide +kernel) rfl (by decide +kernel), admits [] [] (by simp only [cq3, pkParams_pk]; decide +kernel) (by simp) (by simp) (by simp) (by decide +kernel) (by simp only [cq3, pkParams_pk]; decide +kernel), by simp only [cq3, pkParams_pk]; decide +kernel⟩,
    ⟨cq4, 64, (ky 64), (uOf (que (calm [(CMD_SESx_CFG 6, 2 ^ 30)]) cq4) cq4), (que (calm [(CMD_SESx_CFG 6, 2 ^ 30)]) cq4), accepts_of rfl (gate_signPkt _ _ (hd _ _ _ _ _ _ _) _ _ (by decide +kernel) (by decide +kernel) (by decide +kernel) (by decide +kernel) (by decide +kernel)) (by decide +kernel) rfl (by decide +kernel), Or.inl (by decide +kernel), by simp only [cq4, pkParams_pk]; decide +kernel⟩,
    ⟨cq6, 64, (ky 64), (uOf (que (calm [(CMD_SESx_CFG 6, 2 ^ 30)]) cq6) cq6), (que (calm [(CMD_SESx_CFG 6, 2 ^ 30)]) cq6), accepts_of rfl (gate_signPkt _ _ (hd _ _ _ _ _ _ _) _ _ (by decide +kernel) (by decide +kernel) (by decide +kernel) (by decide +kernel) (by decide +kernel)) (by decide +kernel) rfl (by decide +kernel), by rw [classA (by simp only [cq6, pkParams_pk]; decide +kernel)]; simp only [cq6, pkParams_pk]; decide +kernel, by simp only [cq6, pkParams_pk]; decide +kernel⟩,
    ⟨cq7, 64, (ky 64), (uOf (que (calm [(CMD_SESx_CFG 6, 2 ^ 30)]) cq7) cq7), (que (calm [(CMD_SESx_CFG 6, 2 ^ 30)]) cq7), accepts_of rfl (gate_signPkt _ _ (hd _ _ _ _ _ _ _) _ _ (by decide +kernel) (by decide +kernel) (by decide +kernel) (by decide +kernel) (by decide +kernel)) (by decide +kernel) rfl (by decide +kernel), admits [] [7] (by simp only [cq7, pkParams_pk]; decide +kernel) (by simp) (by decide) (by simp only [cq7, pkParams_pk]; decide +kernel) (by decide +kernel) (by simp only [cq7, pkParams_pk]; decide +kernel), by simp only [cq7, pkParams_pk]; decide +kernel⟩⟩


/-- The hypotheses of SessionsBecomeActiveRemovingAndFree are met. -/
theorem test_SessionsBecomeActiveRemovingAndFree :
    (∃ (x k : Nat) (imgs : List (Nat × Nat)) (s : State), x < 1024 ∧ imgs.length = (sesRegs x).length ∧ (s.dueChange (fun c => match c with | .setSes y _ => y == x | _ => false) = some ⟨k, false, .setSes x imgs⟩) ∧ s.sesState x ≠ 2 ∧ s.inControl = true)
    ∧ (∃ (x k : Nat) (s : State), x < 1024 ∧ s.dueChange (fun c => c == .remove x) = some ⟨k, false, .remove x⟩ ∧ s.sesState x = 1 ∧ s.inControl = true)
    ∧ (∃ (x : Nat) (s : State), 0 < x ∧ x < 1024 ∧ s.sesState x = 2 ∧ s.sesStopped x = true ∧ x ∈ s.cmd.ended ∧ s.inControl = true) :=
  ⟨⟨6, 9, img6, (pd ses0 [⟨2, false, .budget 5⟩, ⟨9, false, .setSes 6 img6⟩]), by decide +kernel⟩,
    ⟨3, 9, (pd ac3 [⟨2, false, .budget 5⟩, ⟨9, false, .remove 3⟩]), by decide +kernel⟩,
    ⟨6, (let s := fr6; { s with untimed := [3, 6], eth := { s.eth with streams := [⟨6,1,1,1,[],3⟩, ⟨5,1,1,1,[],3⟩] } }), by decide +kernel⟩⟩


/-- The hypotheses of WorkersAndStreamsAreSetByCommand are met. -/
theorem test_WorkersAndStreamsAreSetByCommand :
    (∃ (p : Pkt) (k : Nat) (key : List Byte) (u s : State), let tk := beAt (pkParams p.bytes) 0 8; let n := beAt (pkParams p.bytes) 8 4; s.accepts p k key u ∧ pkOp p.bytes = 0x0D01 ∧ (pkParams p.bytes).length = 12 ∧ n < 64 ∧ n < u.wrk.cores.length ∧ u.wrkEn n = false ∧ (slotRole k ≠ 0 ∨ bitsOf (u.rd (WRK_Wn_CFG n)) 31 22 = pkSession p.bytes) ∧ (u.core n).run = none ∧ u.timeValid = true ∧ tk ≠ 0 ∧ u.begun tk = false)
    ∧ (∃ (p : Pkt) (k : Nat) (key : List Byte) (w u s : State), let b := pkParams p.bytes; let tk := beAt b 0 8; let x := beAt b 8 4; let kind := beAt b 12 4; let port := beAt b 16 4; let q := beAt b 20 4; s.accepts p k key u ∧ pkOp p.bytes = 0x0103 ∧ (pkParams p.bytes).length ∈ [66, 70, 86, 90] ∧ x < 1024 ∧ kind < 4 ∧ port < 32 ∧ q < 8 ∧ tmplOk (b.drop 24) = true ∧ (slotRole k ≠ 0 ∨ x = pkSession p.bytes) ∧ u.timeValid = true ∧ tk ≠ 0 ∧ u.begun tk = false ∧ u.addNeigh (tmplV6 (b.drop 24)) (tmplDst (b.drop 24)) port = some w) :=
  ⟨⟨p8, 64, (ky 64), u8, s8, accepts_of rfl (gate_signPkt _ _ (hd _ _ _ _ _ _ _) _ _ (by decide +kernel) (by decide +kernel) (by decide +kernel) (by decide +kernel) (by decide +kernel)) (by decide +kernel) rfl (by decide +kernel), by simp only [p8, pkParams_pk]; decide +kernel⟩,
    ⟨p9, 64, (ky 64), ((u9.addNeigh false 0x0A000003 31).getD u9), u9, s9, accepts_of rfl (gate_signPkt _ _ (hd _ _ _ _ _ _ _) _ _ (by decide +kernel) (by decide +kernel) (by decide +kernel) (by decide +kernel) (by decide +kernel)) (by decide +kernel) rfl (by decide +kernel), by simp only [p9, pkParams_pk]; decide +kernel⟩⟩


/-- The hypotheses of GathersAndScattersWorkThroughTheirElements are met. -/
theorem test_GathersAndScattersWorkThroughTheirElements :
    (∃ (scatter : Bool) (p : Pkt) (k n cause : Nat) (key : List Byte) (els : List (Nat × Nat)) (r : RegRun) (u w s : State), s.accepts p k key u ∧ pkOp p.bytes = (if scatter then 0x0002 else 0x0001) ∧ regElems (if scatter then 8 else 4) (pkUrgent p.bytes) (pkParams p.bytes) = (0, els) ∧ u.regSteps scatter (Ctx.agent ⟨p, k, key⟩) els (if pkUrgent p.bytes then 512 else n) ⟨p, 0, [], s.popCmd.rd (CMD_KEYk_H k)⟩ = (r, cause, w) ∧ cause = 0 ∧ r.done = els.length)
    ∧ (∃ (scatter : Bool) (p : Pkt) (k n cause : Nat) (key : List Byte) (els : List (Nat × Nat)) (r : RegRun) (u w s : State), s.accepts p k key u ∧ pkOp p.bytes = (if scatter then 0x0002 else 0x0001) ∧ regElems (if scatter then 8 else 4) (pkUrgent p.bytes) (pkParams p.bytes) = (0, els) ∧ u.regSteps scatter (Ctx.agent ⟨p, k, key⟩) els (if pkUrgent p.bytes then 512 else n) ⟨p, 0, [], s.popCmd.rd (CMD_KEYk_H k)⟩ = (r, cause, w) ∧ cause ≠ 0)
    ∧ (∃ (scatter : Bool) (p : Pkt) (k n cause : Nat) (key : List Byte) (els : List (Nat × Nat)) (r : RegRun) (u w s : State), s.accepts p k key u ∧ pkOp p.bytes = (if scatter then 0x0002 else 0x0001) ∧ regElems (if scatter then 8 else 4) (pkUrgent p.bytes) (pkParams p.bytes) = (0, els) ∧ u.regSteps scatter (Ctx.agent ⟨p, k, key⟩) els (if pkUrgent p.bytes then 512 else n) ⟨p, 0, [], s.popCmd.rd (CMD_KEYk_H k)⟩ = (r, cause, w) ∧ cause = 0 ∧ r.done < els.length) :=
  ⟨⟨true, p13, 64, 5, (q13.2.1), (ky 64), (e13.2), (q13.1), u13, (q13.2.2), s13, accepts_of rfl (gate_signPkt _ _ (hd _ _ _ _ _ _ _) _ _ (by decide +kernel) (by decide +kernel) (by decide +kernel) (by decide +kernel) (by decide +kernel)) (by decide +kernel) rfl (by decide +kernel), by simp only [p13, pkParams_pk]; decide +kernel⟩,
    ⟨true, p14, 64, 5, (q14.2.1), (ky 64), (e14.2), (q14.1), u14, (q14.2.2), s14, accepts_of rfl (gate_signPkt _ _ (hd _ _ _ _ _ _ _) _ _ (by decide +kernel) (by decide +kernel) (by decide +kernel) (by decide +kernel) (by decide +kernel)) (by decide +kernel) rfl (by decide +kernel), by simp only [p14, pkParams_pk]; decide +kernel⟩,
    ⟨false, p11, 64, 1, (q11.2.1), (ky 64), (e11.2), (q11.1), u11, (q11.2.2), s11, accepts_of rfl (gate_signPkt _ _ (hd _ _ _ _ _ _ _) _ _ (by decide +kernel) (by decide +kernel) (by decide +kernel) (by decide +kernel) (by decide +kernel)) (by decide +kernel) rfl (by decide +kernel), by simp only [p11, pkParams_pk]; decide +kernel⟩⟩


/-- The hypotheses of PacketsEnterTheQueues are met. -/
theorem test_PacketsEnterTheQueues :
    (∃ (r : Nat) (b : List Byte) (s : State), let i := s.rd (CMD_RINGr_STATUS r) % 65536; let pkt := slice b 0 (min 8192 (48 + beAt b 16 4)); r < 64 ∧ s.inControl = true ∧ s.bit CMD_CTRL 0 = 1 ∧ s.bit (CMD_RINGr_CFG r) 0 = 1 ∧ s.pci.held = false ∧ s.bme = true ∧ i ≠ nth s.cmd.prod r 0 ∧ s.queueFull pkt = false)
    ∧ (∃ (x : RxItem) (w s : State), s.takeRx (fun x => x.kind == .command) = (some x, w) ∧ s.inControl = true ∧ s.bit CMD_CTRL 0 = 1 ∧ s.queueFull x.bytes = false)
    ∧ (∃ (r v : Nat) (s : State), r < 64 ∧ r < s.cmd.prod.length ∧ s.pci.held = false ∧ v < 2 ^ bitsOf (s.rd (CMD_RINGr_CFG r)) 19 16) :=
  ⟨⟨3, ((pk 3 []).bytes ++ [1,2,3]), arp0, by decide +kernel⟩,
    ⟨(rxu (64 * 0)), ((arU (64*0)).takeRx (fun x => x.kind == .command) |>.2), (arU (64*0)), rfl, by decide +kernel⟩,
    ⟨3, ([0, 15, 16][0]!), ra, by decide +kernel⟩⟩

end W23

/-! ### Hypotheses: group 24 -/
namespace W24

def L0 : State := live (St 9 hb)
def kp (a b : Nat) (l : List (Nat × Nat)) (f : Kpr → Kpr) : State := let s := L0.wr KPR_STATUS (a * 8 + b); let s := l.foldl (fun s e => s.wr e.1 e.2) s; { s with kpr := f s.kpr }
def rvS : State := atTick (kp 3 4 [(KPR_CTRL, 3), (KPR_STATUS, 2^31 + 3*8+4 + 10*256), (TIM_STATUS, 1)] (fun q => {q with revertTo := some 0})) 2000000
def th (st rth : Nat) (temp : Int) : State := ((L0.wr PWR_STATUS (st * 2^30 + rth)).wr PWR_THERM (100*2^24 + 110*2^16 + 5 * 256 + 7)).wr PWR_TEMP (unsigned 16 temp)
def rl (l : List (Nat × Nat)) : State := l.foldl (fun s e => s.wr e.1 e.2) (L0.wr PWR_CTRL 3 |>.wr (PWR_RAILr_CFG 0) 65536 |>.wr (PWR_RAILr_CFG 8) 65541 |>.wr PWR_BUDGET 200000)
def rsS (held : Bool) : State := let s := let L0 := { L0 with tim := { L0.tim with us := 77 } }; L0.wr MON_BOOT (2^28) |>.wr MON_CTRL 3 |>.wr (CTN_CTRL) 1 |>.wr GLB_ERR 3 |>.wr KPR_UNAVAIL_LO (2^32-5) |>.wr MON_WARM_CNT 3; { s with mon := { s.mon with revoked := [1], login := some 64, health := [1,2], held := held, wrong := 2 }, kpr := { s.kpr with orphan := true }, out := [.uart []], cmd := { s.cmd with audit := [[1]] } }
def ent (ty : Nat) (b : List Byte) : List Byte := toBE 1 ty ++ [0,0,0] ++ toBE 4 b.length ++ b ++ List.replicate ((8 - b.length % 8) % 8) 0
def img0 (gen : Nat) (es : List (List Byte)) : List Byte :=
  let body := es.flatten
  let h := toBE 2 0xB714 ++ [1, 0] ++ toBE 4 gen ++ toBE 4 body.length ++ toBE 4 es.length ++ toBE 4 (crc32c body).toNat ++ List.replicate 40 0
  h ++ toBE 4 (crc32c h).toNat ++ body
def im (g : Nat) := img0 g [ent 1 (pk 3 []).bytes, ent 2 (toBE 2 3 ++ [0,0] ++ toBE 4 100), ent 3 []]
def bsel : State := L0.wr MON_BOOT 0
def bim (l : List BootEntry) : State := { bsel with mon := { bsel.mon with image := l } }
def ml (m : Mon → Mon) : State := let s := L0.wr MON_CTRL 1; { s with mon := m s.mon }
def chb : List Byte := [1,2,3,4,5,6,7,8]
def good : List Byte := (hmac (ky 64) (asc "FV9600 MON" ++ chb)).take 8

/-- The hypotheses of KeepersFaultSwitchAndRecover are met. -/
theorem test_KeepersFaultSwitchAndRecover :
    (∃ (s : State), s.inControl = true)
    ∧ (∃ (s : State), s.kpr.recWait = true ∧ s.kpr.recAt + 10 ≤ s.tim.us ∧ s.keeperState (1 - s.keeper) = 3 ∧ s.kpr.takeAt = none)
    ∧ (∃ (k cause : Nat) (s : State), k < 2 ∧ cause ∈ [1, 2, 3] ∧ s.keeperState k = 4)
    ∧ (∃ (b : Nat) (s : State), s.kpr.takeAt = some b ∧ b ≤ s.tim.us ∧ s.kpr.orphan = false)
    ∧ (∃ (k : Nat) (s : State), k < 2 ∧ s.keeperState k = 1 ∧ s.kpr.moves = [])
    ∧ (∃ (k : Nat) (s : State), k < 2 ∧ s.keeperState k = 2 ∧ s.keeperState (1 - k) = 4 ∧ s.kpr.moves = [])
    ∧ (∃ (k : Nat) (s : State), s.kpr.revertTo = some k ∧ k < 2 ∧ k ≠ s.keeper ∧ s.bit KPR_CTRL 1 = 1 ∧ s.inControl = true ∧ s.timeValid = true ∧ s.keeperState k = 3 ∧ 10 ≤ bitsOf (s.rd KPR_STATUS) 11 8 ∧ s.tick % 1000000 = 0)
    ∧ (∃ (k : Nat) (s : State), k < 2 ∧ s.keeperState k ∈ [2, 3, 4]) :=
  ⟨⟨(kp 4 (2 + 0 / 2) [] id), by decide +kernel⟩,
    ⟨(let s := kp 4 3 [(KPR_FAULT_LIMIT, [3,1][0]!)] (fun q => { q with recWait := true }); { s with tim := { s.tim with us := 10 } }), by decide +kernel⟩,
    ⟨0, (1 + 0 % 3), (kp 4 (2 + 0 / 3 % 2) [(KPR_FAULT_LIMIT, 3), (KPR_CTRL, 0 / 6)] id), by decide +kernel⟩,
    ⟨9, (let s := kp 1 3 [] (fun q => {q with gap := true, takeAt := some 9, swCause := (3, 0), swTick := 7}); let s := { s with tim := { s.tim with us := 9 } }; if 0 == 0 then s else { s with cmd := { s.cmd with run := some ⟨pk 2 [], 1, [5], 3⟩ } }), by decide +kernel⟩,
    ⟨0, (kp 1 4 [] id), by decide +kernel⟩,
    ⟨1, (kp 4 2 [] id), by decide +kernel⟩,
    ⟨0, rvS, by decide +kernel⟩,
    ⟨(0 % 2), (kp 4 (2 + 0/4) [(KPR_FAULT_LIMIT, 3), (KPR_CTRL, 1)] id), by decide +kernel⟩⟩


/-- The hypotheses of TemperatureAndMeasuredPowerBoundTheWork are met. -/
theorem test_TemperatureAndMeasuredPowerBoundTheWork :
    (∃ (c : Int) (sensor : Nat) (s : State), s.mon.held = false ∧ s.mon.trip = false ∧ sensor < 32 ∧ s.duePeriod 10 s.pwr.sampled = true ∧ -32768 ≤ c ∧ c < 920)
    ∧ (∃ (c : Int) (sensor : Nat) (s : State), s.mon.held = false ∧ s.mon.trip = false ∧ sensor < 32 ∧ s.duePeriod 10 s.pwr.sampled = true ∧ 920 ≤ c)
    ∧ (∃ (s : State), s.thermal = 2 ∧ s.inControl = true ∧ s.atMs = true ∧ s.pwr.stepped ≠ some s.tim.us)
    ∧ (∃ (s : State), s.bit PWR_CTRL 1 = 1 ∧ s.mon.trip = false ∧ s.inControl = true ∧ s.duePeriod 1000 s.pwr.railed = true) :=
  ⟨⟨(([-32768, -5, 799, 800, 880, 919, 30, 2, 920, 1500, 40000][0]! : Int)), (0 + 8), (th (0 % 3) 5 (300)), by decide +kernel⟩,
    ⟨(([-32768, -5, 799, 800, 880, 919, 30, 2, 920, 1500, 40000][8]! : Int)), (8 + 8), (th (8 % 3) 5 (300)), by decide +kernel⟩,
    ⟨(th 2 [7,8,6,1000][0 / 4 * 3 - 0 / 4 * 3 + 0 % 4]! ([880, 839, 840, 879, 838, 900, -9, 3][0]! : Int)), by decide +kernel⟩,
    ⟨(rl []), by decide +kernel⟩⟩


/-- The hypotheses of ResetsStartThePartAgain are met. -/
theorem test_ResetsStartThePartAgain :
    (∃ (c : Instr) (cause : Nat), (c, cause) ∈ [(Instr.porLLow, 0), (Instr.pwrgoodFall, 1)])
    ∧ (∃ (s : State), s.mon.held = true)
    ∧ (∃ (s : State), s.kpr.orphan = true ∧ s.bit MON_CTRL 1 = 1 ∧ s.mon.trip = false ∧ s.mon.held = false ∧ s.kpr.orphanAt + bitsOf (s.rd MON_CTRL) 15 8 * 1000000 ≤ s.tim.us)
    ∧ (∃ (k : Nat) (s : State), s.monOn = true ∧ s.mon.wait = false ∧ s.mon.login = some k ∧ 1 ≤ slotRole k ∧ s.mon.trip = false)
    ∧ (∃ (s : State), s.pci.held = true) :=
  ⟨⟨(Instr.porLLow), 0, by decide +kernel⟩,
    ⟨(rsS true), by decide +kernel⟩,
    ⟨(rsS false), by decide +kernel⟩,
    ⟨64, (rsS false), by decide +kernel⟩,
    ⟨(let s := rsS false; { s with pci := { s.pci with held := true } }), by decide +kernel⟩⟩


/-- The hypotheses of BootImageRunsItsEntries are met. -/
theorem test_BootImageRunsItsEntries :
    (∃ (c0 c1 : List Byte) (s : State) (b : _), let best : Option (Nat × Nat × List BootEntry) := match bootCopy c0, bootCopy c1 with | some x, some y => if x.1 < y.1 then some (1, y) else some (0, x) | some x, none => some (0, x) | none, some y => some (1, y) | none, none => none; best = some b ∧ s.bootMode = 0 ∧ s.bootState = 0 ∧ s.mon.held = false)
    ∧ (∃ (c0 c1 : List Byte) (s : State), let best : Option (Nat × Nat × List BootEntry) := match bootCopy c0, bootCopy c1 with | some x, some y => if x.1 < y.1 then some (1, y) else some (0, x) | some x, none => some (0, x) | none, some y => some (1, y) | none, none => none; s.bootMode = 0 ∧ s.bootState = 0 ∧ s.mon.held = false ∧ best = none)
    ∧ (∃ (b : List Byte) (rest : List BootEntry) (s : State), s.mon.image = .packet b :: rest ∧ s.mon.busy = false ∧ s.mon.held = false ∧ s.queueFull b = false)
    ∧ (∃ (cond ms : Nat) (rest : List BootEntry) (s : State), s.mon.image = .wait cond ms :: rest ∧ s.condMet cond = true)
    ∧ (∃ (cond ms : Nat) (rest : List BootEntry) (s : State), s.mon.image = .wait cond ms :: rest ∧ s.condMet cond = false)
    ∧ (∃ (cond ms : Nat) (rest : List BootEntry) (s : State), s.mon.image = .wait cond ms :: rest ∧ s.condMet cond = false ∧ s.mon.since + ms * 1000 ≤ s.tim.us)
    ∧ (∃ (cond ms : Nat) (rest : List BootEntry) (s : State), s.mon.image = .wait cond ms :: rest ∧ s.condMet cond = false ∧ s.tim.us < s.mon.since + ms * 1000)
    ∧ (∃ (rest : List BootEntry) (s : State), s.mon.image = .stop :: rest) :=
  ⟨⟨([1]), bcopy, bsel, ((1, 5, [.stop])), by simp only [bcopy_ok, (by decide +kernel : bootCopy [1] = none)], by decide +kernel⟩,
    ⟨([im 5, im 5, im 5, [1], [1]][4]!), ([im 5, im 6, [2], im 3, []][4]!), bsel, by decide +kernel⟩,
    ⟨(mk 1 0 0 3 9 (64*0) []), ([.stop]), (bim [.packet (mk 1 0 0 3 9 (64*0) []), .stop]), by decide +kernel⟩,
    ⟨3, 7, ([.stop]), ((bim [.wait 3 7, .stop]).wr MON_STATE (7-0*4)), by decide +kernel⟩,
    ⟨3, 7, ([.stop]), (let s := (bim [.wait 3 7, .stop]).wr MON_STATE (1+0); { s with tim := { s.tim with us := 6999 + 0 } }), by decide +kernel⟩,
    ⟨3, 7, ([.stop]), (let s := (bim [.wait 3 7, .stop]).wr MON_STATE (1+1); { s with tim := { s.tim with us := 6999 + 1 } }), by decide +kernel⟩,
    ⟨3, 7, ([.stop]), (let s := (bim [.wait 3 7, .stop]).wr MON_STATE (1+0); { s with tim := { s.tim with us := 6999 + 0 } }), by decide +kernel⟩,
    ⟨([]), ((bim [.stop]).wr MON_STATE (511-256*0)), by decide +kernel⟩⟩


/-- The hypotheses of MonitorLinesAnswer are met. -/
theorem test_MonitorLinesAnswer :
    (∃ (s : State), s.monOn = true ∧ s.mon.wait = false)
    ∧ (∃ (role slot k : Nat) (s : State), s.monOn = true ∧ s.mon.wait = false ∧ role < 3 ∧ slotOf role slot = some k ∧ s.mon.locked = false)
    ∧ (∃ (b ch key : List Byte) (k : Nat) (s : State), s.monOn = true ∧ s.mon.wait = false ∧ s.mon.chal = some (k, ch) ∧ s.mon.locked = false ∧ s.keyOf k = some key ∧ b = (hmac key (asc "FV9600 MON" ++ ch)).take 8)
    ∧ (∃ (b ch key : List Byte) (k : Nat) (s : State), b ≠ (hmac key (asc "FV9600 MON" ++ ch)).take 8 ∧ s.monOn = true ∧ s.mon.wait = false ∧ s.mon.chal = some (k, ch) ∧ s.mon.locked = false ∧ s.keyOf k = some key)
    ∧ (∃ (s : State), s.mon.lockAt + 60000000 ≤ s.tim.us)
    ∧ (∃ (s : State), s.tim.us < s.mon.lockAt + 60000000)
    ∧ (∃ (s : State), s.mon.inAt + 600000000 ≤ s.tim.us)
    ∧ (∃ (s : State), s.tim.us < s.mon.inAt + 600000000)
    ∧ (∃ (k : Nat) (s : State), s.monOn = true ∧ s.mon.wait = false ∧ s.mon.login = some k)
    ∧ (∃ (k : Nat) (s : State) (b : _), s.monOn = true ∧ s.mon.wait = false ∧ s.mon.login = some k ∧ s.kpr.orphan = false ∧ s.queueFull b = true)
    ∧ (∃ (k : Nat) (s : State) (b : _), s.monOn = true ∧ s.mon.wait = false ∧ s.mon.login = some k ∧ s.kpr.orphan = false ∧ s.queueFull b = false)
    ∧ (∃ (k : Nat) (s : State) (n : _), s.monOn = true ∧ s.mon.wait = false ∧ s.mon.login = some k ∧ 1 ≤ slotRole k ∧ 533 ≤ div16Of n ∧ div16Of n ≤ 1600000)
    ∧ (∃ (n : Nat) (b : List Byte) (s : State) (c : Instr), c ∈ [Instr.monHealth, .monPkt b, .monBaud n, .monResetWarm] ∧ s.monOn = true ∧ s.mon.wait = false ∧ s.mon.login = none)
    ∧ (∃ (s : State), s.monOn = true) :=
  ⟨⟨(ml id), by decide +kernel⟩,
    ⟨1, 3, 67, (ml id), by decide +kernel⟩,
    ⟨(if 0 == 0 then good else [1]), chb, (ky 64), 64, (ml (fun m => { m with chal := some (64, chb), wrong := 0 % 3 })), by decide +kernel⟩,
    ⟨([1]), chb, (ky 64), 64, (ml (fun m => { m with chal := some (64, chb), wrong := 1 % 3 })), fun e => by simpa using congrArg List.length e, by decide +kernel⟩,
    ⟨(let s := ml (fun m => { m with login := some 64, locked := true }); { s with tim := { s.tim with us := 60000000 } }), by decide +kernel⟩,
    ⟨(ml (fun m => { m with login := some 64, locked := true })), by decide +kernel⟩,
    ⟨(let s := ml (fun m => { m with login := some 64, locked := true }); { s with tim := { s.tim with us := 600000000 } }), by decide +kernel⟩,
    ⟨(let s := ml (fun m => { m with login := some 64, locked := true }); { s with tim := { s.tim with us := 60000000 } }), by decide +kernel⟩,
    ⟨64, (let s := ml (fun m => { m with login := some 64, health := [1,2,3] }); if 0 = 2 then { s with cmd := { s.cmd with urgQ := List.replicate 16 (pk 3 []), ordQ := List.replicate 256 (pk 3 []) } } else s), by decide +kernel⟩,
    ⟨64, (let s := ml (fun m => { m with login := some 64, health := [1,2,3] }); if 2 = 2 then { s with cmd := { s.cmd with urgQ := List.replicate 16 (pk 3 []), ordQ := List.replicate 256 (pk 3 []) } } else s), ((pk 3 []).bytes), by decide +kernel⟩,
    ⟨64, (let s := ml (fun m => { m with login := some 64, health := [1,2,3] }); if 0 = 2 then { s with cmd := { s.cmd with urgQ := List.replicate 16 (pk 3 []), ordQ := List.replicate 256 (pk 3 []) } } else s), ((pk 3 []).bytes), by decide +kernel⟩,
    ⟨64, (let s := ml (fun m => { m with login := some 64, health := [1,2,3] }); if 0 = 2 then { s with cmd := { s.cmd with urgQ := List.replicate 16 (pk 3 []), ordQ := List.replicate 256 (pk 3 []) } } else s), ([115200, 1000, 3001876][0]!), by decide +kernel⟩,
    ⟨5, ([]), (ml id), (.monPkt []), by simp, by decide +kernel⟩,
    ⟨(ml id), by decide +kernel⟩⟩

end W24

/-! ### Hypotheses: group 25 -/
namespace W25

def L0 : State := live (St 9 hb)
def ts (k : Option Nat) (now : Nat) (_ : Nat) (l : List (Nat × Nat)) : State := let s := l.foldl (fun s e => s.wr e.1 e.2) (L0.wr TIM_STATUS 1); { s with tim := { s.tim with now := now, lastTick := k } }
def wd : State := let s := (atTick L0 9).wr WRK_CTRL 1 |>.wr (WRK_Wn_CFG 63) 1 |>.wr (WRK_Wn_CFG 5) 1 |>.wr (WRK_Wn_START_LO 63) 7 |>.wr (WRK_Wn_START_LO 5) 8; s
def dis : State := { (atTick L0 9) with trg := { L0.trg with reps := [⟨3,0,0,[],[]⟩] } }
def hs (l : List (Nat × Nat)) : State := let s := atTick L0 1000000; l.foldl (fun s e => s.wr e.1 e.2) s

/-- The hypotheses of TicksBeginAtTheirBoundaries are met. -/
theorem test_TicksBeginAtTheirBoundaries :
    (∃ (s : State), s.mon.held = false ∧ s.timeValid = true ∧ s.bit GLB_DOMAINS 3 = 1 ∧ s.tim.step = none ∧ 0 < s.clockStep)
    ∧ (∃ (s : State), s.mon.held = false ∧ s.timeValid = false) :=
  ⟨⟨(ts (if 0 < 4 then some 9 else none) (9 * tickU + 0 % 4 * 200000000000001) 0 []), by decide +kernel⟩,
    ⟨((ts none (9 * tickU + 5 + 0) 0 [(TIM_STATUS, 0), (MON_STATE, 2^9 * (0 % 2))])), by decide +kernel⟩⟩


/-- The hypotheses of WaitsAndDeadlinesEnd are met. -/
theorem test_WaitsAndDeadlinesEnd :
    (∃ (k n : Nat) (s : State), k + 2 = s.tick ∧ s.tim.lastTick ≠ none ∧ s.worksOn 13 k = true ∧ n < 64 ∧ n < s.wrk.cores.length ∧ s.wrkEn n = true ∧ (s.core n).run = none ∧ s.bit (WRK_Wn_STATUS n) 29 = 0 ∧ s.rd64 (WRK_Wn_START_LO n) (WRK_Wn_START_HI n) ≤ k ∧ (∀ r, (s.core n).ran = some r → r < k))
    ∧ (∃ (b k : Nat) (s : State), (b ∉ [10, 12, 13, 15] ∨ (b ≠ 15 ∧ k + deadlineOf b ≠ s.tick)))
    ∧ (∃ (s : State), s.bit (14 * 0x100000) 0 = 0 ∧ s.enTick 14 < s.tick)
    ∧ (∃ (s : State), s.bit (8 * 0x100000) 0 = 0 ∧ s.enTick 8 < s.tick)
    ∧ (∃ a : Nat, ∃ r, rowOf (a % 2 ^ 26) = some r) :=
  ⟨⟨7, 63, wd, by decide +kernel⟩,
    ⟨7, 7, wd, by decide +kernel⟩,
    ⟨dis, by decide +kernel⟩,
    ⟨dis, by decide +kernel⟩,
    ⟨CLK_CTRL, Option.isSome_iff_exists.mp (by decide +kernel)⟩⟩


/-- The hypotheses of HealthAndSealAreKept are met. -/
theorem test_HealthAndSealAreKept :
    (∃ (s : State), s.inControl = true ∧ (s.timeValid = true → s.tick % 1000000 = 0 ∧ s.tick ≠ 0 ∧ s.reported = false) ∧ (s.timeValid = false → s.kpr.repAt / 1000000 < s.tim.us / 1000000))
    ∧ (∃ (s : State), s.bit GLB_SEAL_CFG 0 = 1 ∧ s.inControl = true ∧ (s.pass.dirty = true ∨ s.sealStopped = true))
    ∧ (∃ (s : State), s.bit GLB_SEAL_CFG 0 = 1 ∧ s.inControl = true ∧ s.pass = ⟨false, true⟩ ∧ s.sealStopped = false)
    ∧ (∃ (s : State), s.bit GLB_SEAL_CFG 0 = 1 ∧ s.inControl = true ∧ s.pass = ⟨false, false⟩ ∧ s.sealStopped = false ∧ s.bit GLB_SEAL_STATUS 31 = 1 ∧ s.bit GLB_SEAL_STATUS 30 = 0) :=
  ⟨⟨(hs [(TIM_STATUS, 1), (KPR_HEALTH_SEQ, 2^32-1), (KPR_HEALTHw 2, 0xFFFFFFFF)]), by decide +kernel⟩,
    ⟨(let s := hs [(GLB_SEAL_CFG, 1), (GLB_SEAL_STATUS, [14, 15, 255][0]!)]; { s with pass := ⟨true, false⟩ }), by decide +kernel⟩,
    ⟨({ hs [(GLB_SEAL_CFG, 1)] with pass := ⟨false, true⟩ }), by decide +kernel⟩,
    ⟨(hs [(GLB_SEAL_CFG, 1), (GLB_SEAL_STATUS, 2 ^ 31)]), by decide +kernel⟩⟩

end W25


def aluI (op : Nat) : WInsn := .alu op none false false (if op = 0 then 0 else 1) (if s1Use op = 0 then 0 else 1) (if s2Use op then 2 else 0) noMove noMove
def memI (mop : Nat) : WInsn := .mem mop 7 (if mop < 4 then 65535 else 0) (if mop < 5 then 0 else 7) (if mop < 5 then 0 else 3) (if mop = 4 then 2 ^ 24 - 1 else 0)
def regI (rop : Nat) : WInsn := .reg rop 5 (if rop = 11 then 17 else 6) (if ([1, 2, 3, 5, 6, 7] : List Nat).contains rop then 7 else 0) (if 8 ≤ rop ∧ rop ≤ 10 then 23 else 0) false false
theorem alu_issues : ∀ op, op < 23 → (wS wCore (wEncode (aluI op))).issues 5 (aluI op) := by unfold State.issues State.stands; decide +kernel
theorem mem_issues : ∀ op, op < 9 → (wS wCore (wEncode (memI op))).issues 5 (memI op) := by unfold State.issues State.stands; decide +kernel
theorem reg_issues : ∀ op, op < 12 → (wS wCore (wEncode (regI op))).issues 5 (regI op) := by unfold State.issues State.stands; decide +kernel

/-- A worker meets the hypotheses of AluOperationsComputeTheirRow before each of its operations. -/
theorem test_AluOperationsComputeTheirRow : ∃ n, ∀ q ∈ [(Instr.nop n [], 0), (.mpy n [], 1), (.mpyn n [], 2), (.mac n [], 3), (.macn n [], 4), (.pwr n [], 5),
      (.add n [], 6), (.sub n [], 7), (.adda n [], 8), (.suba n [], 9), (.cmp n [], 10), (.cmpa n [], 11), (.abs n [], 12), (.neg n [], 13), (.clr n [], 14),
      (.mova n [], 15), (.lda n [], 16), (.ldl n [], 17), (.asr n [], 18), (.asl n [], 19), (.max n [], 20), (.min n [], 21), (.divs n [], 22)],
    ∃ (d s1 s2 : Nat) (imm : Option Nat) (sat rnd : Bool) (x y : WMove) (s : State),
      s.workersWf ∧ s.issues n (.alu q.2 imm sat rnd d s1 s2 x y) ∧ (s.core n).stays := by
  refine ⟨5, fun q hq => ?_⟩
  have h : q.2 < 23 := by fin_cases hq <;> decide
  exact ⟨_, _, _, _, _, _, _, _, wS wCore (wEncode (aluI q.2)), wS_wf _ _ (by decide +kernel), alu_issues _ h, stays_of rfl⟩

/-- And those of MemoryAndRegisterOperationsMoveAndCompute. -/
theorem test_MemoryAndRegisterOperationsMoveAndCompute : ∃ n,
    (∀ q ∈ [(Instr.ldx n [], 0), (.ldy n [], 1), (.stx n [], 2), (.sty n [], 3), (.ldi n [], 4), (.ldxp n [], 5), (.ldyp n [], 6), (.stxp n [], 7), (.styp n [], 8)],
      ∃ (rg addr pn pmod imm : Nat) (s : State), s.workersWf ∧ (s.core n).stays ∧ s.issues n (.mem q.2 rg addr pn pmod imm))
    ∧ ∀ q ∈ [(Instr.mov n [], 0), (.and n [], 1), (.or n [], 2), (.xor n [], 3), (.not n [], 4), (.addr n [], 5), (.subr n [], 6), (.cmpr n [], 7), (.lsl n [], 8),
        (.lsr n [], 9), (.asrr n [], 10), (.mvr n [], 11)],
      ∃ (rd rs rt sh : Nat) (sat rnd : Bool) (s : State), s.workersWf ∧ (s.core n).stays ∧ s.issues n (.reg q.2 rd rs rt sh sat rnd) := by
  refine ⟨5, fun q hq => ?_, fun q hq => ?_⟩
  · have h : q.2 < 9 := by fin_cases hq <;> decide
    exact ⟨_, _, _, _, _, wS wCore (wEncode (memI q.2)), wS_wf _ _ (by decide +kernel), stays_of rfl, mem_issues _ h⟩
  · have h : q.2 < 12 := by fin_cases hq <;> decide
    exact ⟨_, _, _, _, _, _, wS wCore (wEncode (regI q.2)), wS_wf _ _ (by decide +kernel), stays_of rfl, reg_issues _ h⟩

/-- And those of ControlInstructionsSteerTheRun. -/
theorem test_ControlInstructionsSteerTheRun :
    (∀ bop, bop = 0 ∨ bop = 1 → ∃ (n cond rg target : Nat) (s : State), s.workersWf ∧ s.issues n (.ctl bop cond rg target))
    ∧ (∃ (n : Nat) (s : State), s.workersWf ∧ s.issues n (.ctl 2 0 0 0))
    ∧ (∃ (n : Nat) (s : State) (sl : WSlot), s.workersWf ∧ (s.core n).slot = some sl ∧ sl.left = 1 ∧ sl.rte = true
        ∧ s.issues n (.alu 0 none false false 0 0 0 noMove noMove))
    ∧ (∃ (n : Nat) (s : State) (k : Nat), s.workersWf ∧ (s.core n).run = some k ∧ s.issues n (.ctl 3 0 0 0))
    ∧ (∀ lop, lop < 2 → ∃ (n bot count : Nat) (s : State), s.workersWf ∧ s.issues n (.rep lop bot count))
    ∧ (∃ (n : Nat) (s : State), s.workersWf ∧ s.issues n (.rep 2 0 0) ∧ ∀ e, (s.core n).stack.tail.head? = some e → e.2.2 ≠ (s.core n).pc)
    ∧ (∃ (n : Nat) (s : State), s.workersWf ∧ s.stands n (some (.ctl 4 0 0 0)) ∧ (s.core n).illegal (.ctl 4 0 0 0) = false ∧ (s.core n).handler = false)
    ∧ (∃ (n : Nat) (s : State), s.workersWf ∧ s.stands n none ∧ (s.core n).handler = false)
    ∧ ∃ (n : Nat) (s : State) (k : Nat), s.workersWf ∧ s.stands n none ∧ (s.core n).handler = true ∧ (s.core n).run = some k := by
  refine ⟨fun bop hb => ⟨5, 12, 3, 2 ^ 15 - 1, wS wCore (wEncode (.ctl bop 12 3 (2 ^ 15 - 1))), wS_wf _ _ (by decide +kernel), ?_⟩,
    ⟨5, wS { wCore with handler := true } (wEncode (.ctl 2 0 0 0)), wS_wf _ _ (by decide +kernel), ?_⟩,
    ⟨5, wS { wCore with handler := true, slot := some ⟨1, none, 8, none, true⟩ } 0, _, wS_wf _ _ (by decide +kernel), rfl, rfl, rfl, ?_⟩,
    ⟨5, wS wCore (wEncode (.ctl 3 0 0 0)), 9, wS_wf _ _ (by decide +kernel), rfl, ?_⟩,
    fun lop hl => ⟨5, 2 ^ 15 - 1, 15, wS wCore (wEncode (.rep lop (2 ^ 15 - 1) 15)), wS_wf _ _ (by decide +kernel), ?_⟩,
    ⟨5, wS { wCore with stack := [(3, 4, 10)] } (wEncode (.rep 2 0 0)), wS_wf _ _ (by decide +kernel), ?_, by simp [wS_core]⟩,
    ⟨5, wS wCore (wEncode (.ctl 4 0 0 0)), wS_wf _ _ (by decide +kernel), ?_, by decide +kernel, rfl⟩,
    ⟨5, wS wCore (7 * 2 ^ 45), wS_wf _ _ (by decide +kernel), ?_, rfl⟩,
    ⟨5, wS { wCore with handler := true } (7 * 2 ^ 45), 9, wS_wf _ _ (by decide +kernel), ?_, rfl, rfl⟩⟩
  · rcases hb with rfl | rfl <;> (unfold State.issues State.stands; decide +kernel)
  · unfold State.issues State.stands; decide +kernel
  · unfold State.issues State.stands; decide +kernel
  · unfold State.issues State.stands; decide +kernel
  · interval_cases lop <;> (unfold State.issues State.stands; decide +kernel)
  · unfold State.issues State.stands; decide +kernel
  · unfold State.stands; decide +kernel
  · unfold State.stands; decide +kernel
  · unfold State.stands; decide +kernel

/-- The words, codes and steps of the statements about worker words and registers. -/
theorem test_WorkerWordsAndInstructionsMatch : (∃ i : WInsn, i.ok = true) ∧ ∃ (w : Nat) (i : WInsn), w < 2 ^ 48 ∧ wDecode w = some i :=
  ⟨⟨.rep 0 0x2A 16, by decide +kernel⟩, 0x8000_2A00_0010, .rep 0 0x2A 16, by decide +kernel⟩
theorem test_WorkerRegistersKeepTheirWidths : ∃ s t : State, s.workersWf ∧ step s = .next t :=
  ⟨wS wCore 0, _, wS_wf _ _ (by decide +kernel), rfl⟩
theorem test_RegisterCodesHoldTheirBits : (∃ n code : Nat, n < 64 ∧ (code < 58 ∨ code = 61 ∨ code = 62))
    ∧ (∃ (c : WCore) (code v : Nat), c.wf ∧ code < 64 ∧ regWritable code = true ∧ v < 2 ^ 24) :=
  ⟨⟨63, 57, by decide⟩, wCore, 58, 2 ^ 24 - 1, core_wf (by decide +kernel), by decide⟩


/-! ### Well-formedness: each check at its last value and the one after -/

/-- Every check of `Instr.wf` takes the last value of its range and refuses the next. -/
theorem test_wf_bounds :
    [(Instr.announceReceiptTimeout 7).wf, (Instr.ppsRefEdge 12 0 0).wf, (Instr.esmcPduReceive 31 0).wf, (Instr.clkOutCfgWrite 3 false 0).wf,
      (Instr.laneMarkerCheck 15 0 ⟨0, false, []⟩ 0 0).wf, (Instr.laneMarkerCheck 0 16 ⟨0, false, []⟩ 0 0).wf, (Instr.nectarBlockReceive 63 0 []).wf,
      (Instr.slotBlockIntake 255).wf, (Instr.coefDataWrite 7 0).wf, (Instr.chnProfileCfgWrite 3 0 0).wf, (Instr.frameEnqueue 0 7).wf,
      (Instr.broodSend 1023 0 0).wf, (Instr.peerAge 1023).wf, (Instr.combTickWork 16 0 []).wf, (Instr.workerRunStart 63).wf,
      (Instr.retireCore 67).wf, (Instr.conditionEnable 63 0).wf, (Instr.stingReport 127 0).wf, (Instr.trigInEdge 7 0).wf,
      (Instr.heartbeatSend 7).wf, (Instr.captureRingWrite 63 0).wf, (Instr.ddrRefresh 15 0 0).wf, (Instr.ddrRefresh 0 1 0).wf,
      (Instr.ddrPartitionWrite 5 false 0).wf, (Instr.foragerDoorbell 31 0).wf, (Instr.busError 95 [] [] 0 0).wf, (Instr.msixVectorUnmask 2047).wf,
      (Instr.commandRingDoorbell 63 0).wf, (Instr.keeperFault 1 0).wf, (Instr.blockDeadline 19 0).wf, (Instr.timStepThrWrite (2 ^ 32 - 1)).wf,
      (Instr.ingCfgWrite 0 3 0).wf, (Instr.chnInputCfgWrite 0 2 0).wf, (Instr.ethAddressWrite 0 6 0).wf, (Instr.chnProfileCfgWrite 0 5 0).wf].all id = true
    ∧ [(Instr.announceReceiptTimeout 8).wf, (Instr.ppsRefEdge 13 0 0).wf, (Instr.esmcPduReceive 32 0).wf, (Instr.clkOutCfgWrite 4 false 0).wf,
      (Instr.laneMarkerCheck 16 0 ⟨0, false, []⟩ 0 0).wf, (Instr.laneMarkerCheck 0 17 ⟨0, false, []⟩ 0 0).wf, (Instr.nectarBlockReceive 64 0 []).wf,
      (Instr.slotBlockIntake 256).wf, (Instr.coefDataWrite 8 0).wf, (Instr.chnProfileCfgWrite 4 0 0).wf, (Instr.frameEnqueue 0 8).wf,
      (Instr.broodSend 1024 0 0).wf, (Instr.peerAge 1024).wf, (Instr.combTickWork 17 0 []).wf, (Instr.workerRunStart 64).wf,
      (Instr.retireCore 68).wf, (Instr.conditionEnable 64 0).wf, (Instr.stingReport 128 0).wf, (Instr.trigInEdge 8 0).wf,
      (Instr.heartbeatSend 8).wf, (Instr.captureRingWrite 64 0).wf, (Instr.ddrRefresh 16 0 0).wf, (Instr.ddrRefresh 0 2 0).wf,
      (Instr.ddrPartitionWrite 6 false 0).wf, (Instr.foragerDoorbell 32 0).wf, (Instr.busError 96 [] [] 0 0).wf, (Instr.msixVectorUnmask 2048).wf,
      (Instr.commandRingDoorbell 64 0).wf, (Instr.keeperFault 2 0).wf, (Instr.blockDeadline 20 0).wf, (Instr.timStepThrWrite (2 ^ 32)).wf,
      (Instr.ingCfgWrite 0 4 0).wf, (Instr.chnInputCfgWrite 0 3 0).wf, (Instr.ethAddressWrite 0 7 0).wf, (Instr.chnProfileCfgWrite 0 6 0).wf].any id = false := by decide +kernel

/-! ### The spec's words and numbers -/

/-- Table 14-12. -/
theorem test_table_14_12 :
    wDecode 0x8000_2A00_0010 = some (.rep 0 0x2A 16) ∧ wDecode 0x8200_2600_0006 = some (.rep 1 0x26 6)
    ∧ wDecode 0x0300_0000_0804 = some (.alu 3 none false false 0 0 0 noMove ⟨1, 0, 0, 1⟩)
    ∧ wDecode 0x0301_1000_088C = some (.alu 3 none false false 0 1 1 noMove ⟨1, 1, 0, 3⟩)
    ∧ wDecode 0x3300_0000_0012 = some (.alu 19 (some 18) false false 0 0 0 noMove noMove)
    ∧ wDecode 0x00C0_0609_001C = some (.alu 0 none true true 0 0 0 ⟨3, 0, 2, 1⟩ ⟨0, 0, 1, 3⟩) := by decide +kernel

/-- Table 14-11: the beam sums after the shift by 18, stored convergent and truncated. -/
theorem test_table_14_11 :
    [6502, 6560, 6624].map (fun v => ((accRead (v * 2 ^ 18) true true).1, (accRead (v * 2 ^ 18) false false).1)) = [(102, 101), (102, 102), (104, 103)] := by
  decide +kernel

/-- The pointers of the example of chapter 13: a buffer of 48 words, and a bit-reversed walk. -/
theorem test_pointers :
    (WCore.postMod { WCore.reset with cur := { WBank.reset with p := [0, 0, 0x12E, 0, 0, 0, 0, 0] }, l := [0, 0, 48, 0, 0, 0, 0, 0], m := [0, 0, 5, 0, 0, 0, 0, 0] } 2 3) = 0x103
    ∧ (WCore.postMod { WCore.reset with cur := { WBank.reset with p := [0, 0, 0, 0x40, 0, 0, 0, 0] }, mr := 8, m := [0, 0, 0, 0x80, 0, 0, 0, 0] } 3 3) = 0xC0 := by
  decide +kernel

/-- The cell of the example of chapter 10: (3 − j5) by the conjugate of (−2 + j6). -/
theorem test_cell : cellProd (3, -5) (-2, 6) = (-36, -8) := by decide

/-- The segmentation of the example of chapter 8. -/
theorem test_segments : segSize 9000 false 64 12 = 8904 ∧ ceilDiv 4194300 8904 = 472 ∧ 4194300 - 471 * 8904 = 516 := by decide

/-- R65: a write of 0x0108_0008 to GLB_GUARD_LO puts CLK in LIVE and CTN in GUARDED and leaves the rest. -/
theorem test_masked_write : (rowOf GLB_GUARD_LO).map (fun r => (r.merge 0x0000_FF04 0x0108_0008, r.acc)) = some (0xFE0C, .mw) := by decide +kernel

/-- Table 11-2: the two roundings of each sum. -/
theorem test_table_11_2 :
    [0, 1, 2, 3].map (hfAdd 0x4C000000 1 false) = [0x4C000000, 0x4C000000, 0x4C000000, 0x4C000001] ∧ [0, 1].map (hfAdd 0xCBFFFFFF (-1) false) = [0xCC000000, 0xCBFFFFFF] := by
  decide +kernel

end Sys2Proof.Tests
end

section
/-!
PROOFS. The part as power-on reset leaves it (R9, R68): what a register of it reads as, and the closed guards, hive time and the
keepers that follow from the values of GLB_GUARD_LO, GLB_GUARD_HI, TIM_STATUS and KPR_STATUS.
-/
namespace Sys2Proof.Machine

/-! ### Registers after reset -/

/-- Reset leaves no register written, so each reads as the value its header line states (R9). -/
@[simp] theorem State.rd_reset (a : Nat) : State.reset.rd a = (resetVal a).toNat :=
  State.rd_unwritten fun _ h => absurd h List.not_mem_nil

theorem State.bit_reset_of_resetVal_zero {a : Nat} (h : resetVal a = 0) (i : Nat) : State.reset.bit a i = 0 := by
  simp [State.bit, bitOf, h]

theorem resetVal_GLB_GUARD_LO : resetVal GLB_GUARD_LO = 0 := by decide +kernel
theorem resetVal_GLB_GUARD_HI : resetVal GLB_GUARD_HI = 0 := by decide +kernel
theorem resetVal_TIM_STATUS : resetVal TIM_STATUS = 0 := by decide +kernel
theorem resetVal_KPR_STATUS : resetVal KPR_STATUS = 0x22 := by decide +kernel

/-! ### What follows from them -/

theorem State.timeValid_reset : State.reset.timeValid = false := by
  simp [State.timeValid, State.bit_reset_of_resetVal_zero resetVal_TIM_STATUS]

/-- Every guard bit resets to 0, which is GUARDED: a block with a guard is guarded as soon as its EN bit is 1. -/
theorem State.guarded_reset {b : Nat} (h1 : 1 ≤ b) (h19 : b ≤ 19) :
    State.reset.guarded b = (State.reset.bit (b * 0x100000) 0 == 1) := by
  have lo := State.bit_reset_of_resetVal_zero resetVal_GLB_GUARD_LO b
  have hi := State.bit_reset_of_resetVal_zero resetVal_GLB_GUARD_HI (b - 16)
  simp [State.guarded, h1, h19, lo, hi]

theorem State.keeperState_reset_A : State.reset.keeperState 0 = 4 := by
  simp [State.keeperState, resetVal_KPR_STATUS, bitsOf]

theorem State.keeperState_reset_B : State.reset.keeperState 1 = 2 := by
  simp [State.keeperState, resetVal_KPR_STATUS, bitsOf]

/-- Settles O3: no register is written at reset, so each reads as its reset value, and the guards, TIME_VALID and the keepers'
states are read off those values; the strobe, the queues and the keys are fields of the state after reset. -/
theorem resetLeavesTheStatedValues : Obligations.ResetLeavesTheStatedValues := by
  unfold Obligations.ResetLeavesTheStatedValues
  have noStrobe : State.reset.tim.lastTick = none := rfl
  have noPending : State.reset.pending = [] := rfl
  have noOrdinary : State.reset.cmd.ordQ = [] := rfl
  have noUrgent : State.reset.cmd.urgQ = [] := rfl
  have noKeys : State.reset.cmd.keys = [] := rfl
  exact ⟨State.rd_reset, State.timeValid_reset, noStrobe, fun _ => State.guarded_reset, State.keeperState_reset_A,
    State.keeperState_reset_B, noPending, noOrdinary, noUrgent, noKeys⟩

end Sys2Proof.Machine
end

section
/-!
PROOFS. No command stops the block (R27, R44): every branch of every meaning answers a next state.
-/
namespace Sys2Proof.Machine

/-- The outcome is a next state. -/
def IsNext (o : Res) : Prop := ∃ t, o = .next t

theorem IsNext.next {t : State} : IsNext (.next t) := ⟨t, rfl⟩

theorem IsNext.ite {c : Prop} [Decidable c] {a b : Res} (ha : IsNext a) (hb : IsNext b) : IsNext (if c then a else b) := by
  split <;> assumption

/-! ### The meanings that commands share -/

theorem hostTo_isNext (ok : Bool) (a v : Nat) (s : State) : IsNext (hostTo ok a v s) := .next

theorem monLine_isNext (l : MonLine) (s : State) : IsNext (monLine l s) := .ite .next (.ite .next (.ite .next .next))

theorem serveOp_isNext (op type : Nat) (keep : Ctx → Bool) (body : Ctx → State → Done) (s : State) :
    IsNext (serveOp op type keep body s) := by
  unfold serveOp
  split
  · exact .ite .next .next
  · exact .next

theorem regRow_isNext (scatter : Bool) (op n : Nat) (s : State) : IsNext (regRow scatter op n s) := by
  unfold regRow
  split
  · exact .ite .next .next
  · split
    · refine .ite ?_ .next
      split
      · exact .next
      · exact .next
    · exact .next

theorem execHostRegisterWrite_isNext (off : Nat) (v : Option Nat) (dw : Bool) (s : State) :
    IsNext (execHostRegisterWrite off v dw s) := by
  cases v with
  | none => exact .ite .next (.ite .next .next)
  | some w => exact .ite .next (.ite .next .next)

/-! ### Meanings of a shape of their own -/

theorem execFrameReceive_isNext (n : Nat) (f : RxFrame) (s : State) : IsNext (execFrameReceive n f s) := by
  dsimp only [execFrameReceive]
  refine .ite .next ?_
  split
  · exact .next
  · exact .ite .next .next
  · exact .ite .next (.ite .next .next)
  · exact .ite .next .next

theorem execTxFrameStart_isNext (n : Nat) (s : State) : IsNext (execTxFrameStart n s) := by
  dsimp only [execTxFrameStart]
  refine .ite .next ?_
  split
  · split <;> exact .next
  · split <;> exact .next
  · exact .next
  · exact .next

theorem execIcmpEchoRequest_isNext (n : Nat) (v6 : Bool) (dst : Nat) (payload : List Byte) (s : State) :
    IsNext (execIcmpEchoRequest n v6 dst payload s) := by
  dsimp only [execIcmpEchoRequest]
  refine .ite .next ?_
  split
  · exact .next
  · exact .ite .next .next

theorem execHoneyDrainStart_isNext (x j : Nat) (s : State) : IsNext (execHoneyDrainStart x j s) := by
  dsimp only [execHoneyDrainStart]
  split
  · exact .next
  · split
    · exact .ite .next .next
    · exact .next

theorem execHoneySend_isNext (x : Nat) (errs : List WordErr) (s : State) : IsNext (execHoneySend x errs s) := by
  dsimp only [execHoneySend]
  split
  · exact .next
  · split
    · exact .next
    · refine .ite .next ?_
      split <;> exact .next

theorem execDrainOverrun_isNext (x : Nat) (s : State) : IsNext (execDrainOverrun x s) := by
  dsimp only [execDrainOverrun]
  split
  · split
    · exact .ite .next .next
    · exact .next
  · exact .next

theorem execResultCollect_isNext (k : Nat) (s : State) : IsNext (execResultCollect k s) := by
  dsimp only [execResultCollect]
  refine .ite .next ?_
  split <;> exact .next

theorem execTriggerMessageReceive_isNext (s : State) : IsNext (execTriggerMessageReceive s) := by
  dsimp only [execTriggerMessageReceive]
  split
  · exact .next
  · refine .ite .next ?_
    split <;> exact .next

theorem execBar2Access_isNext (off : Nat) (data : Option (List Byte)) (len : Nat) (errs : List DdrErr) (s : State) :
    IsNext (execBar2Access off data len errs s) := by
  dsimp only [execBar2Access]
  refine .ite .next ?_
  split <;> exact .next

theorem execDescriptorFetch_isNext (n : Nat) (d g : HostRead) (s : State) : IsNext (execDescriptorFetch n d g s) := by
  dsimp only [execDescriptorFetch]
  refine .ite .next (.ite .next ?_)
  split
  · exact .next
  · refine .ite .next (.ite ?_ .next)
    split <;> exact .next

theorem execDescriptorComplete_isNext (n : Nat) (data : List (List Byte)) (errs : List DdrErr) (s : State) :
    IsNext (execDescriptorComplete n data errs s) := by
  dsimp only [execDescriptorComplete]
  split
  · exact .next
  · exact .ite .next (.ite .next (.ite .next (.ite .next (.ite .next (.ite .next .next)))))

theorem execStreamUnitDeliver_isNext (n : Nat) (s : State) : IsNext (execStreamUnitDeliver n s) := by
  dsimp only [execStreamUnitDeliver]
  refine .ite .next ?_
  split
  · exact .next
  · exact .ite .next (.ite .next (.ite .next (.ite .next .next)))

theorem execBusError_isNext (n : Nat) (data : List (List Byte)) (part : List Byte) (src addr : Nat) (s : State) :
    IsNext (execBusError n data part src addr s) := by
  dsimp only [execBusError]
  split
  · exact .ite .next .next
  · exact .ite .next (.ite .next .next)

theorem execCommandPacketArrive_isNext (src : PktSrc) (s : State) : IsNext (execCommandPacketArrive src s) := by
  dsimp only [execCommandPacketArrive]
  split
  · refine .ite .next (.ite .next ?_)
    split
    · exact .next
    · exact .ite .next .next
  · split
    · exact .next
    · exact .ite .next (.ite .next (.ite .next .next))

theorem execBlockDisable_isNext (b : Nat) (s : State) : IsNext (execBlockDisable b s) := by
  dsimp only [execBlockDisable]
  refine .ite .next ?_
  split <;> exact .next

theorem execBootImageSelect_isNext (c0 c1 : List Byte) (s : State) : IsNext (execBootImageSelect c0 c1 s) := by
  dsimp only [execBootImageSelect]
  refine .ite .next ?_
  split <;> exact .next

/-! ### All commands -/

/-- The other cases stand in groups of one shape: the tests a meaning makes and the object it looks up before it answers. -/
theorem exec_isNext (c : Instr) (s : State) : IsNext (exec c s) := by
  cases c with
  | waitAbandon | timNowFracRead | stepApply | chnInputStop | linkDown | presenceFinalise | mapSwitch | weightBankSwitch | workerTimerInterrupt
  | workerWarnInterrupt | nop | mpy | mpyn | mac | macn | pwr | add | sub | adda | suba | cmp | cmpa | abs | neg | clr | mova | lda | ldl | asr
  | asl | max | min | divs | ldx | ldy | stx | sty | ldi | ldxp | ldyp | stxp | styp | mov | and | or | xor | not | addr | subr | cmpr | lsl | lsr
  | asrr | mvr | br | brx | rte | tend | trap | repImmediate | repRegister | repx | perstLAssert | keeperFault | porLLow | pwrgoodFall
  | loginLockExpire | loginIdleTimeout | undefinedEncoding =>
    exact .next
  | blockDeadline | ptpMessageSend | announceReceiptTimeout | ppsRefEdge | candidateQualify | candidateLoss | waitToRestoreExpire | dpllLock
  | esmcPduReceive | esmcTimeout | pullDone | ppsOutPulse | tickOutPulse | dfeAdapt | nectarPortAbsent | rateMeasurementLatch | resampleGridTick
  | dlyModelApply | linkUp | queueAgePromote | multicastQuery | hiveAnnounceSend | peerAge | combTickWork | waggleTickWork | workerOverrun
  | workerSwitchInterval | conditionEvaluate | collectorEvaluate | heartbeatSend | collectorTakeover | hitChangeRecord | powerHistoryFrame
  | ddrRequest | ddrRefresh | dqsIntervalCheck | patrolScrub | foragerAgePromote | msixVectorUnmask | sessionFree | thermalSample | mirrorRecord
  | mirrorAckTimeout | keeperLogicResetDone | keeperSyncComplete | keeperMemoryPatrol | healthReport | resetEnd | autoWarmReset | uartFramingError
  | perstLDeassert =>
    exact .ite .next .next
  | timStepThrWrite | ptpCfgWrite | clkCtrlWrite | clkOutCfgWrite | necPortCfgWrite | dlyModelCommit | ingCfgWrite | coefDataWrite
  | chnProfileCfgWrite | chnInputCfgWrite | winDataWrite | gainDataWrite | gainEffCommit | ethAddressWrite | ctnSessionEnable | ctnSessionDisable
  | mapCommitWrite | retireComb | restoreComb | witnessEnableWrite | cmbSessionEnable | cmbListDataWrite | supSessionEnable | weightCommitWrite
  | wagSessionEnable | weightDataWrite | geometryDataWrite | retireCore | restoreCore | workerEnable | stingBeamEnable | conditionEnable
  | segmentReleaseCommit | captureGroupEnable | ddrEnable | ddrPartitionWrite | foragerStart | foragerStop | foragerResume | foragerSkip
  | foragerAbort | foragerChannelDisable | retireKeeper | restoreKeeper =>
    exact hostTo_isNext _ _ _ _
  | timeSet | timeAcceptStep | refMode | gainCommit | mapCommit | combRetire | weightCommit | workerStart | trigSlotSet | segRelease | identify
  | healthRead | sessionSet | sessionRemove | streamSet | keyLoad | keyRevoke | auditRead | auditClear | sealCommit | keeperSwitch | budgetSet
  | delayModel =>
    exact serveOp_isNext _ _ _ _ _
  | monHelp | monId | monStatus | monLogin | monLoginResponse | monLogout | monHealth | monPkt | monBaud | monResetWarm | monSyntaxError =>
    exact monLine_isNext _ _
  | tickStrobe | laneMarkerCheck | nectarBlockReceive | spectrumCompute | mmVerifySend | arpRequest | trigInEdge | eventRecordEmit
  | ddrTrainingComplete | commandRingDoorbell =>
    exact .ite .next (.ite .next .next)
  | ptpMessageReceive | neighbourSolicitation | workerRunStart | foragerDoorbell | thermalStep | railRead =>
    exact .ite .next (.ite .next (.ite .next .next))
  | wrkMemDataAccess | hostRegisterWrite =>
    exact execHostRegisterWrite_isNext _ _ _ _
  | regGather | regScatter =>
    exact regRow_isNext _ _ _ _
  | frameReceive => exact execFrameReceive_isNext _ _ _
  | txFrameStart => exact execTxFrameStart_isNext _ _
  | icmpEchoRequest => exact execIcmpEchoRequest_isNext _ _ _ _ _
  | honeyDrainStart => exact execHoneyDrainStart_isNext _ _ _
  | honeySend => exact execHoneySend_isNext _ _ _
  | drainOverrun => exact execDrainOverrun_isNext _ _
  | resultCollect => exact execResultCollect_isNext _ _
  | triggerMessageReceive => exact execTriggerMessageReceive_isNext _
  | bar2Access => exact execBar2Access_isNext _ _ _ _ _
  | descriptorFetch => exact execDescriptorFetch_isNext _ _ _ _
  | descriptorComplete => exact execDescriptorComplete_isNext _ _ _ _
  | streamUnitDeliver => exact execStreamUnitDeliver_isNext _ _
  | busError => exact execBusError_isNext _ _ _ _ _ _
  | commandPacketArrive => exact execCommandPacketArrive_isNext _ _
  | blockDisable => exact execBlockDisable_isNext _ _
  | sealPass => exact .ite .next (.ite .next (.ite .next (.ite (.ite .next .next) .next)))
  | bootImageSelect => exact execBootImageSelect_isNext _ _ _
  | timeOfDayLoad | slotStart | slotStop | gainBankSwitch | gainSwitchDone | bulkSend | dadComplete | neighbourRefresh | multicastReportSend
  | stateChangeReportRepeat | broodFrameReceive | coreMigrateComplete | ddrAgePromote | sessionActivate | sessionRemoveApply | bootPacket | bootWait
  | bootWaitTimeout | unknownOpcode =>
    dsimp only [exec, execTimeOfDayLoad, execSlotStart, execSlotStop, execGainBankSwitch, execGainSwitchDone, execBulkSend, execDadComplete,
      execNeighbourRefresh, execMulticastReportSend, execStateChangeReportRepeat, execBroodFrameReceive, execCoreMigrateComplete,
      execDdrAgePromote, execSessionActivate, execSessionRemoveApply, execBootPacket, execBootWait, execBootWaitTimeout, execUnknownOpcode]
    split
    · exact .ite .next .next
    · exact .next
  | broodSend | combDump | phaseEngineRelease | stingReport | digestReceive | segmentSwitch | keeperSwitchover | keeperRevert =>
    dsimp only [exec, execBroodSend, execCombDump, execPhaseEngineRelease, execStingReport, execDigestReceive, execSegmentSwitch,
      execKeeperSwitchover, execKeeperRevert]
    split
    · exact .next
    · exact .ite .next .next
  | groupStateChange | epochMiss | domainAccessTimeout | bootEnd =>
    dsimp only [exec, execGroupStateChange, execEpochMiss, execDomainAccessTimeout, execBootEnd]
    split <;> exact .next
  | slotBlockIntake | frameEnqueue | trigOutPulse =>
    dsimp only [exec, execSlotBlockIntake, execFrameEnqueue, execTrigOutPulse]
    split
    · exact .next
    · exact .ite .next (.ite .next (.ite .next (.ite .next .next)))
  | broodWindowRelease | witnessCompare =>
    dsimp only [exec, execBroodWindowRelease, execWitnessCompare]
    split
    · exact .next
    · exact .ite .next (.ite .next (.ite .next .next))
  | hiveAnnounceReceive | heartbeatReceive =>
    dsimp only [exec, execHiveAnnounceReceive, execHeartbeatReceive]
    split
    · exact .next
    · exact .ite .next (.ite .next .next)
  | superDumpApply | decisionTake =>
    dsimp only [exec, execSuperDumpApply, execDecisionTake]
    split
    · exact .next
    · refine .ite .next ?_
      split
      · exact .next
      · exact .ite .next .next
  | captureRingWrite | replaySupply =>
    dsimp only [exec, execCaptureRingWrite, execReplaySupply]
    split
    · exact .next
    · split
      · exact .next
      · exact .ite .next .next
  | captureSeal | segmentFree =>
    dsimp only [exec, execCaptureSeal, execSegmentFree]
    split
    · exact .next
    · split <;> exact .next

/-- Settles O2: the command's meaning answers a next state in each of its branches. -/
theorem everyCommandAnswersANextState : Obligations.EveryCommandAnswersANextState := exec_isNext

end Sys2Proof.Machine
end

section
/-!
PROOFS. Deadlines (R43): a dump that no super has taken by its deadline is given up there.
-/
namespace Sys2Proof.Machine

/-- A dump whose dwell ended in tick 0: its super has until the end of tick 2 to take it. -/
def overdueDump : Dump := ⟨0, 0, 0, [], 0, ⟨0, 0, 0, 0, 0, 0, 0, [], none, 0, none, [], 0⟩, [], []⟩

/-- Tick 5 has begun and the dump still waits. -/
def overdueState : State :=
  { State.reset with tim := { Tim.reset with lastTick := some 5 }, cmb := { Cmb.reset with dumps := [overdueDump] } }

theorem supAbandon_overdueState (off : Bool) :
    overdueState.supAbandon 2 off = ({ overdueState with cmb := Cmb.reset }, false) := by
  cases off <;> decide +kernel

/-- The deadline of tick 2 in the supers gives the dump up. -/
theorem blockDeadline_overdueState :
    exec (.blockDeadline 11 2) overdueState = .next { overdueState with cmb := Cmb.reset } :=
  congrArg (fun r => Host.Outcome.next (raiseFault 11 r)) (supAbandon_overdueState _)

/-- Refutes O59: the third clause leaves the supers (block 11) without a deadline act, but their deadline gives up a dump they have
not taken. -/
theorem not_waitsAndDeadlinesEnd : ¬ Obligations.WaitsAndDeadlinesEnd := by
  unfold Obligations.WaitsAndDeadlinesEnd
  rintro ⟨-, -, otherBlocksIdle, -⟩
  have idle : exec (.blockDeadline 11 2) overdueState = .next overdueState := otherBlocksIdle 11 2 overdueState (.inl (by decide))
  rw [blockDeadline_overdueState, Host.Outcome.next.injEq] at idle
  have dumps : Cmb.reset.dumps = [overdueDump] := congrArg (fun s : State => s.cmb.dumps) idle
  exact absurd dumps (by decide)

end Sys2Proof.Machine
end

section
/-!
PROOFS. The rings of the acquisition unit (R304, R432): RING_SIZE counts units of 64 KiB and takes values up to 2^23 - 1, so a ring can
hold more than 2^32 units of 64 bytes, while RING_WR is a register of 32 bits.
-/
namespace Sys2Proof.Machine

/-- Tick 1 has begun. The power history keeps every tick, of no input, in a ring of 2^32 + 1024 units that is empty and whose write
pointer stands at the last unit the register can name. -/
def longRingState : State :=
  [(GLB_DOMAINS, 2 ^ 10), (ACQ_CTRL, 1), (DDR_STATUS, 2 ^ 31), (ACQ_HIST_CFG, 2 ^ 31 + 1), (ACQ_HIST_RING_SIZE, 2 ^ 22 + 1),
    (ACQ_HIST_RING_WR, 2 ^ 32 - 1), (ACQ_HIST_RING_RD, 2 ^ 32 - 1)].foldl (fun s e => s.wr e.1 e.2)
    { State.reset with tim := { Tim.reset with lastTick := some 1 } }

/-- No input's power is kept. -/
theorem longRingState_inputs : (List.range 256).filter (fun i => longRingState.bit (ACQ_HIST_IN (i / 32)) (i % 32) == 1) = [] := by
  decide +kernel

/-- The frame of tick 0 is its 64 bytes of header. -/
theorem longRingState_frame : (longRingState.histFrame [] 0).length = 64 := by decide +kernel

/-- The frame is due. -/
theorem longRingState_due : longRingState.bit ACQ_HIST_CFG 31 = 1 ∧ longRingState.blockOn 15 = true
    ∧ (∀ o, longRingState.acq.histLast = some o → o < 0) ∧ 0 % (longRingState.rd ACQ_HIST_CFG % 2 ^ 20) = 0
    ∧ longRingState.begun (0 + 1) = true ∧ longRingState.begun (0 + 7) = false ∧ longRingState.canonReady [] 0 = true := by
  decide +kernel

/-- The ring has room for it. -/
theorem longRingState_room : ringFits (longRingState.rd ACQ_HIST_RING_WR) (longRingState.rd ACQ_HIST_RING_RD)
      (longRingState.rd ACQ_HIST_RING_SIZE * 1024) (ceilDiv 64 64) = true
    ∧ longRingState.rd ACQ_HIST_RING_WR < longRingState.rd ACQ_HIST_RING_SIZE * 1024
    ∧ longRingState.ddrReady = true ∧ longRingState.ddr.bad = []
    ∧ longRingState.rd ACQ_HIST_RING_BASE * 65536 + longRingState.rd ACQ_HIST_RING_SIZE * 65536 ≤ longRingState.ddrCapacity := by
  decide +kernel

/-- One unit further on lies unit 2^32 of the ring, which no register of 32 bits can name. -/
theorem longRingState_advance :
    (longRingState.rd ACQ_HIST_RING_WR + ceilDiv 64 64) % (longRingState.rd ACQ_HIST_RING_SIZE * 1024) = 2 ^ 32 := by
  decide +kernel

/-- Refutes O31: a history frame written at unit 2^32 - 1 of a longer ring leaves RING_WR at unit 2^32 by the statement, but RING_WR
holds 32 bits. -/
theorem not_eventsHistoriesAndReplaysLeave : ¬ Obligations.EventsHistoriesAndReplaysLeave := by
  unfold Obligations.EventsHistoriesAndReplaysLeave
  rintro ⟨-, -, -, history, -⟩
  have frame := history 0 longRingState
  rw [longRingState_inputs] at frame
  obtain ⟨on, block, last, kept, ended, open_, ready⟩ := longRingState_due
  have room := longRingState_room
  rw [← longRingState_frame] at room
  obtain ⟨t, -, ⟨pointer, -⟩, -⟩ := (frame on block last kept ended open_ ready).1 room
  rw [longRingState_frame, longRingState_advance] at pointer
  exact absurd pointer (State.rd_lt t ACQ_HIST_RING_WR).ne

end Sys2Proof.Machine
end

section
/-!
PROOFS. A command that comes up in its turn (R479, R481, R486): the row of Table 19-5 runs its body and ends it with the body's status.
-/
namespace Sys2Proof.Machine

section Accepted
variable {s u : State} {p : Pkt} {k : Nat} {key : List Byte} {op : Nat} {body : Ctx → State → Done}

/-- An accepted packet of the row's opcode: the row is its body over the state after the common checks, and a refusal leaves
nothing of the body's state (R486). -/
theorem opRow_of_accepts (h : s.accepts p k key u) (ho : pkOp p.bytes = op) :
    opRow op body s = .next (if 2 ≤ (body ⟨p, k, key⟩ u).status
      then u.endCmd 1 true p k key (body ⟨p, k, key⟩ u).status (body ⟨p, k, key⟩ u).params
      else (body ⟨p, k, key⟩ u).state.endCmd 1 true p k key (body ⟨p, k, key⟩ u).status (body ⟨p, k, key⟩ u).params) := by
  obtain ⟨next, gate, turn, checked⟩ := h
  simp [opRow, serveOp, State.serve, next, ho, gate, turn, checked]

/-- A body that executes leaves its own state. -/
theorem opRow_executes {ps : List Byte} {t : State} (h : s.accepts p k key u) (ho : pkOp p.bytes = op)
    (hb : body ⟨p, k, key⟩ u = ⟨0, ps, t⟩) : opRow op body s = .next (t.endCmd 1 true p k key 0 ps) := by
  simp [opRow_of_accepts h ho, hb]

/-- A body that refuses leaves the state before it. -/
theorem opRow_refuses {st : Nat} (h : s.accepts p k key u) (ho : pkOp p.bytes = op)
    (hb : body ⟨p, k, key⟩ u = refuse st u) (hst : 2 ≤ st) : opRow op body s = .next (u.endCmd 1 true p k key st []) := by
  simp [opRow_of_accepts h ho, hb, refuse, hst]

end Accepted

/-- With time valid, a tick other than 0 that has not begun is the effective tick itself (R55). -/
theorem State.effTick_of_not_begun {s : State} {k : Nat} (valid : s.timeValid = true) (hk : k ≠ 0) (later : s.begun k = false) :
    s.effTick k = (0, k, false) := by
  simp [State.effTick, valid, hk, later]

/-- A change with an effective tick marks no product (R56). -/
theorem State.markAt_timed (s : State) (k : Nat) (xs : List Nat) : s.markAt false k xs = s := rfl

/-! ### COMMIT_PENDING (R510) -/

theorem State.setBit_eq (s : State) (a i : Nat) (b : Bool) : s.setBit a i b = { s with regs := (s.setBit a i b).regs } := rfl

theorem State.sealPending_eq (s : State) : s.sealPending = { s with regs := s.sealPending.regs } := by
  unfold State.sealPending
  split
  · exact s.setBit_eq _ _ _
  · rfl

@[simp] theorem State.sealPending_cmd (s : State) : s.sealPending.cmd = s.cmd := by
  rw [State.sealPending_eq]

theorem State.sealPending_sameRegs (s : State) : s.sameRegs s.sealPending [GLB_SEAL_STATUS] := by
  intro a ha
  unfold State.sealPending
  split
  · exact s.rd_setBit_ne _ _ (by simpa using ha)
  · rfl

theorem State.bit_sealPending (s : State) : s.sealPending.bit GLB_SEAL_STATUS 30
    = if s.bit GLB_SEAL_CFG 1 = 1 then 1 else s.bit GLB_SEAL_STATUS 30 := by
  unfold State.sealPending
  split
  · simp
  · rfl

end Sys2Proof.Machine
end

section
/-!
PROOFS. The time and reference commands (R68, R83, R100): what the bodies of TIME_SET, TIME_ACCEPT_STEP and REF_MODE leave where
nothing refuses them.
-/
namespace Sys2Proof.Machine

/-- TIME_SET while TOD_SRC is not 0 and no time is valid: SECONDS waits for the edge (R68). -/
theorem timeSet_waits {s : State} (sec : Nat) (source : s.fd TIM_CTRL TIM_CTRL_TOD_SRC ≠ 0) (invalid : s.timeValid = false) :
    timeSet sec s = (0, { s with tim := { s.tim with todPend := some (sec, s.tim.now), todEdge := false } }) := by
  simp [timeSet, source, invalid]

/-- TIME_ACCEPT_STEP of a pending step that is not yet scheduled, within the threshold and with its apply second ahead (R83). -/
theorem timeAcceptStep_schedules {s : State} {d : Int} {sec : Nat} (pos : 0 < sec) (ahead : s.begun ((sec - 1) * 1000000) = false)
    (stepPending : s.bit TIM_STATUS 1 = 1) (unscheduled : s.bit TIM_STATUS 2 = 0) (le : d + s.stepOfs ≤ s.stepThr)
    (ge : -s.stepThr ≤ d + s.stepOfs) :
    timeAcceptStep d sec s = (0, { s.setBit TIM_STATUS 2 true with tim := { s.tim with step := some (d, sec) } }) := by
  simp [timeAcceptStep, pos.ne', ahead, stepPending, unscheduled, le.not_gt, ge.not_gt]

section Accepted
variable {s u : State} {p : Pkt} {k : Nat} {key : List Byte} (h : s.accepts p k key u)
include h

theorem timeSet_runs (op : pkOp p.bytes = 0x0401) (len : (pkParams p.bytes).length = 8) (range : beAt (pkParams p.bytes) 0 8 < 2 ^ 48)
    (source : u.fd TIM_CTRL TIM_CTRL_TOD_SRC ≠ 0) (invalid : u.timeValid = false) :
    exec .timeSet s = .next (({ u with tim := { u.tim with todPend := some (beAt (pkParams p.bytes) 0 8, u.tim.now), todEdge := false } } :
      State).endCmd 1 true p k key 0 []) := by
  refine opRow_executes h op ?_
  simp only [Ctx.b, len, range.not_ge, timeSet_waits _ source invalid, ne_eq, not_true_eq_false, if_false]

theorem timeAcceptStep_runs (op : pkOp p.bytes = 0x0402) (len : (pkParams p.bytes).length = 16)
    (range : beAt (pkParams p.bytes) 8 8 < 2 ^ 48) {t : State}
    (body : timeAcceptStep (signed 64 (beAt (pkParams p.bytes) 0 8)) (beAt (pkParams p.bytes) 8 8) u = (0, t)) :
    exec .timeAcceptStep s = .next (t.endCmd 1 true p k key 0 []) := by
  refine opRow_executes h op ?_
  simp only [Ctx.b, len, range.not_ge, body, ne_eq, not_true_eq_false, if_false]

theorem refMode_runs (op : pkOp p.bytes = 0x0301) (len : (pkParams p.bytes).length = 16) (zero : beAt (pkParams p.bytes) 8 4 = 0)
    (fields : strayBits 0xF1C (beAt (pkParams p.bytes) 12 4) = false) (range : clkInRange CLK_CTRL (beAt (pkParams p.bytes) 12 4) u = true)
    (eff : u.effTick (beAt (pkParams p.bytes) 0 8) = (0, beAt (pkParams p.bytes) 0 8, false)) :
    exec .refMode s = .next ((u.admitChange ⟨beAt (pkParams p.bytes) 0 8, false, .refMode (beAt (pkParams p.bytes) 12 4)⟩).sealPending.endCmd
      1 true p k key 0 []) := by
  refine opRow_executes h op ?_
  simp [Ctx.b, len, zero, fields, range, eff, State.markAt_timed, done]

end Accepted

/-- Settles O46: each body is executed in its turn, and what it leaves is read off the equation of its operation. -/
theorem timeAndReferenceCommands : Obligations.TimeAndReferenceCommands := by
  unfold Obligations.TimeAndReferenceCommands
  refine ⟨?timeSet, ?acceptStep, ?refMode⟩
  case timeSet =>
    intro p k key u s op h len range source invalid
    exact ⟨_, timeSet_runs h op len range source invalid, rfl⟩
  case acceptStep =>
    intro p k key u s op h len d sec range pos ahead stepPending unscheduled le ge
    have bit1 : (u.setBit TIM_STATUS 2 true).bit TIM_STATUS 1 = 1 := by
      rw [State.bit_setBit_ne _ _ _ (by decide) (by decide), stepPending]
    exact ⟨_, timeAcceptStep_runs h op len range (timeAcceptStep_schedules pos ahead stepPending unscheduled le ge),
      rfl, u.bit_setBit_same TIM_STATUS 2 true (by decide), bit1, fun a ha => u.rd_setBit_ne 2 true (by simpa using ha), rfl⟩
  case refMode =>
    intro p k key u s op h len tk img zero fields range valid hk later
    have pend := congrArg Cmd.pend (u.admitChange ⟨tk, false, .refMode img⟩).sealPending_cmd
    exact ⟨_, refMode_runs h op len zero fields range (State.effTick_of_not_begun valid hk later), pend, State.bit_sealPending _,
      State.sealPending_sameRegs _, (State.sealPending_eq _).trans (by rw [pend]; rfl)⟩

end Sys2Proof.Machine
end

section
/-!
PROOFS. A strobe while no time is valid (R69): a microsecond of the keepers' local oscillator passes, at which their waiting moves take
effect (R549).
-/
namespace Sys2Proof.Machine

/-! ### The keepers' moves (R549) -/

theorem State.setKeeper_kpr (s : State) (k v : Nat) : (s.setKeeper k v).kpr = s.kpr := s.setFd_kpr _ _ _
theorem State.setClean_kpr (s : State) (n : Nat) : (s.setClean n).kpr = s.kpr := s.setFd_kpr _ _ _

theorem State.holdOutputs_moves (s : State) : s.holdOutputs.kpr.moves = s.kpr.moves := rfl

theorem State.goOrphan_moves (s : State) : s.goOrphan.kpr.moves = s.kpr.moves := by
  rw [State.goOrphan, State.setBit_kpr]
  show (s.when (!s.kpr.gap) State.holdOutputs).kpr.moves = s.kpr.moves
  cases !s.kpr.gap
  · rfl
  · exact s.holdOutputs_moves

/-- A move taking effect leaves the list of those that wait. -/
theorem State.keeperMoved_moves (s : State) (m : Nat × Nat) : (s.keeperMoved m).kpr.moves = s.kpr.moves := by
  unfold State.keeperMoved
  extract_lets st down
  have entered (v : Nat) : ((s.setKeeper m.1 v).setClean 0).kpr.moves = s.kpr.moves := by rw [State.setClean_kpr, State.setKeeper_kpr]
  have down_moves : down.kpr.moves = s.kpr.moves := by
    rw [State.flag_kpr]
    exact entered 5
  split
  · split
    · rw [State.setKeeper_kpr]
    · rfl
  · split
    · split
      · rw [State.setBit_kpr]
        exact entered 3
      · rfl
    · split
      · rfl
      · split
        · exact down.goOrphan_moves.trans down_moves
        · exact down_moves

/-- Once they have been made, no move waits. -/
theorem State.keeperMoves_moves (s : State) : s.keeperMoves.kpr.moves = [] :=
  State.each_keeps (·.kpr.moves = []) _ _ (fun s m _ h => (s.keeperMoved_moves m).trans h) _ rfl

/-! ### The microsecond -/

@[simp] theorem State.monLatch_kpr (s : State) : s.monLatch.kpr = s.kpr := by
  rw [State.monLatch, State.showReady, State.setBit_kpr, State.wr_kpr]

theorem State.when_kpr {s : State} (c : Bool) {f : State → State} (h : (f s).kpr = s.kpr) : (s.when c f).kpr = s.kpr := by
  cases c
  · rfl
  · exact h

theorem State.count64_kpr (s : State) (lo hi : Nat) : (s.count64 lo hi).kpr = s.kpr := s.wr64_kpr _ _ _

@[simp] theorem State.countTick_kpr (s : State) (bad : Bool) : (s.countTick bad).kpr = s.kpr := by
  unfold State.countTick
  split
  · exact (State.when_kpr bad (State.count64_kpr _ _ _)).trans (s.count64_kpr _ _)
  · rfl

theorem State.echoTick_kpr (s : State) : s.echoTick.kpr = s.kpr := rfl

/-- No move waits after a microsecond of the local oscillator. -/
theorem State.localTick_moves (s : State) : s.localTick.kpr.moves = [] := by
  unfold State.localTick
  extract_lets next tim advanced ticked moved
  have none_waits : moved.kpr.moves = [] := State.keeperMoves_moves _
  rw [State.monLatch_kpr, State.countTick_kpr, State.when_kpr _ moved.echoTick_kpr, none_waits]

/-- While no time is valid the strobe is a microsecond of the local oscillator (R69). -/
theorem tickStrobe_of_not_timeValid {s : State} (running : s.mon.held = false) (invalid : s.timeValid = false) :
    exec .tickStrobe s = .next s.usTick.localTick := by
  show execTickStrobe s = _
  simp [execTickStrobe, running, invalid]

/-! ### The counterexample -/

/-- The part out of power-on reset, keeper B's copy complete: at the next boundary it goes from SYNC to STANDBY. -/
def keeperMoveState : State :=
  { State.reset with mon := { Mon.reset with held := false }, kpr := { Kpr.reset with moves := [(1, 3)] } }

/-- Refutes O58: its second clause has a strobe at TIME_VALID 0 leave the keepers as they are, but a keeper's move that waits takes
effect at that microsecond (R549) and waits no longer. -/
theorem not_ticksBeginAtTheirBoundaries : ¬ Obligations.TicksBeginAtTheirBoundaries := by
  unfold Obligations.TicksBeginAtTheirBoundaries
  rintro ⟨-, noStrobe⟩
  have invalid : keeperMoveState.timeValid = false := State.timeValid_reset
  obtain ⟨t, taken, -, frame, -⟩ := noStrobe keeperMoveState rfl invalid
  have kept : t.kpr.moves = [(1, 3)] := congrArg (·.kpr.moves) frame
  rw [tickStrobe_of_not_timeValid rfl invalid, Host.Outcome.next.injEq] at taken
  rw [← taken, State.localTick_moves] at kept
  exact absurd kept (by decide)

end Sys2Proof.Machine
end

section
/-!
PROOFS. The status a command ended with: what its reply carries (R477) and what the audit log keeps of it (R527, Table 21-6). A row that
runs a command from a ring answers one status only, and the log tells it.
-/
namespace Sys2Proof.Machine

/-! ### Numbers inside byte strings -/

theorem beAt_append_left (l r : List Byte) {i k : Nat} (h : i + k ≤ l.length) : beAt (l ++ r) i k = beAt l i k := by
  rw [beAt, slice_append _ _ _ _ h, beAt]

theorem beAt_append_right (l r : List Byte) (k : Nat) : beAt (l ++ r) l.length k = beAt r 0 k := by
  simp [beAt, slice]

/-- Bytes put in later leave a number alone. -/
theorem beAt_putBytes_before (l v : List Byte) {i j k : Nat} (h : i + k ≤ j) (hj : j ≤ l.length) :
    beAt (putBytes l j v) i k = beAt l i k := by
  have len : i + k ≤ (l.take j).length := by simp; omega
  calc beAt (putBytes l j v) i k = beAt (l.take j) i k := by rw [putBytes, List.append_assoc, beAt_append_left _ _ len]
    _ = beAt (l.take j ++ l.drop j) i k := (beAt_append_left _ _ len).symm
    _ = beAt l i k := by rw [List.take_append_drop]

/-- A 16-bit number is read back from its two bytes. -/
theorem beAt_toBE (l r : List Byte) {i n : Nat} (hi : l.length = i) (hn : n < 2 ^ 16) : beAt (l ++ toBE 2 n ++ r) i 2 = n := by
  have bytes : toBE 2 n = [BitVec.ofNat 8 (n / 256), BitVec.ofNat 8 n] := by simp [toBE, List.range_succ]
  rw [List.append_assoc, ← hi, beAt_append_right, bytes]
  simp [beAt, slice, ofBE]
  omega

/-! ### The reply and the entry -/

/-- STATUS of the newest entry of the audit log. -/
def State.auditedStatus (s : State) : Nat := beAt (s.cmd.audit.getLastD []) 18 2

/-- A reply carries the command's status in its header (R477). -/
theorem State.beAt_replyBytes (s : State) (key b ps : List Byte) {st : Nat} (h : st < 2 ^ 16) :
    beAt (s.replyBytes key b st ps) 20 2 = st := by
  unfold State.replyBytes
  extract_lets f r
  rw [beAt_putBytes_before _ _ (by decide) (by simp [r, slice_length]; omega)]
  have fields : r = (toBE 2 0x504C ++ [1] ++ toBE 1 f ++ slice b 4 4 ++ toBE 2 s.hiveId ++ slice b 10 6 ++ toBE 4 ps.length)
      ++ toBE 2 st ++ ([0, 0] ++ pkNonce b ++ List.replicate 16 0 ++ ps) := by simp only [r, List.append_assoc]
  rw [fields]
  exact beAt_toBE _ _ (by simp [slice_length]) h

/-- An entry appended to the log keeps the command's status (R527). -/
theorem State.audit_auditedStatus (s : State) (type : Nat) (c : AuditCmd) (h : c.status < 2 ^ 16) :
    (s.audit type c).auditedStatus = c.status := by
  unfold State.auditedStatus State.audit
  extract_lets n hd prev chain full log s1 s2 s3 s4
  have newest : s4.cmd.audit = log := by simp only [s4, s3, s2, State.wr_cmd]
  have entry : beAt (log.getLastD []) 18 2 = c.status := by
    rw [List.getLastD_concat, beAt_append_left _ _ (by simp [hd, State.auditHead])]
    exact beAt_toBE _ _ (by simp) h
  split
  · rw [State.flag_cmd, newest, entry]
  · rw [newest, entry]

theorem State.auditedStatus_congr {s t : State} (h : t.cmd = s.cmd) : t.auditedStatus = s.auditedStatus := by
  rw [State.auditedStatus, h, State.auditedStatus]

/-! ### The end of a command from a ring -/

theorem State.ringFail_cmd (s : State) (n : Nat) : (s.ringFail n).cmd = s.cmd := by
  rw [State.ringFail, State.flag_cmd, State.setBit_cmd]

theorem State.hostPut_cmd (s : State) (a : Nat) (b : List Byte) : (s.hostPut a b).cmd = s.cmd := by
  unfold State.hostPut
  split <;> rfl

theorem State.sendVec_cmd (s : State) (v : Nat) : (s.sendVec v).cmd = s.cmd := by rw [State.sendVec_eq]

/-- A reply written to a ring, or lost on its way there, touches nothing of the sequencer (R487). -/
theorem State.sendReply_ring_cmd (s : State) (n i : Nat) (urgent : Bool) (r : List Byte) :
    (s.sendReply (.ring n i) urgent r).cmd = s.cmd := by
  unfold State.sendReply
  dsimp only
  split
  · exact s.ringFail_cmd n
  · split
    · exact (State.ringFail_cmd _ n).trans (s.flag_cmd _ _)
    · rw [State.sendVec_cmd, State.hostPut_cmd, State.hostPut_cmd]

theorem State.countReply_cmd (s : State) (st : Nat) : (s.countReply st).cmd = s.cmd := s.count_cmd _ _

/-- The audit log tells the status of a command from a ring. -/
theorem State.endCmd_auditedStatus (s : State) (type : Nat) (keep : Bool) {p : Pkt} {n i : Nat} (via : p.via = .ring n i) (k : Nat)
    (key ps : List Byte) {st : Nat} (h : st < 2 ^ 16) : (s.endCmd type keep p k key st ps).auditedStatus = st := by
  unfold State.endCmd
  extract_lets full s1 r
  have status : beAt r 20 2 = st := by
    simp only [r, State.fitReply, via]
    exact s.beAt_replyBytes key p.bytes ps h
  rw [via, State.auditedStatus_congr (State.sendReply_ring_cmd _ _ _ _ _), State.auditedStatus_congr (State.countReply_cmd _ _), status,
    State.auditPkt, State.audit_auditedStatus _ _ _ h]

/-- So a row that runs a command from a ring ends it with the status the log tells. -/
theorem Runs.status_eq {c : Instr} {s t : State} {p : Pkt} {n i k : Nat} {key ps : List Byte} {st : Nat} {P : State → Prop}
    (h : Runs c s p k key st ps P) (via : p.via = .ring n i) (hst : st < 2 ^ 16) (ran : exec c s = .next t) : t.auditedStatus = st := by
  obtain ⟨v, ended, -⟩ := h
  rw [ran, Host.Outcome.next.injEq] at ended
  rw [ended, v.endCmd_auditedStatus 1 true via k key ps hst]

end Sys2Proof.Machine
end

section
/-!
PROOFS. The range of W (R40, R489): a SESSION_SET that enables its session in the corner turn with W outside 1 to 10,000 is refused with
BAD_PARAM, whatever the admission checks say.
-/
namespace Sys2Proof.Machine

/-- SESSION_SET with EN of the session's corner turn at 1 and W outside 1 to 10,000 (R40, R489). -/
theorem sessionSet_refuses_bad_window {s u : State} {p : Pkt} {k : Nat} {key : List Byte} (h : s.accepts p k key u)
    (op : pkOp p.bytes = 0x0101) (len : (pkParams p.bytes).length = 188) {imgs : List (Nat × Nat)}
    (images : imagesOf (sesRegs (beAt (pkParams p.bytes) 8 4)) (pkParams p.bytes) = imgs)
    (enabled : bitOf (imageAt imgs (CTN_SESx_CFG (beAt (pkParams p.bytes) 8 4))) 0 = 1)
    (window : wRangeOk (imageAt imgs (CTN_SESx_CFG2 (beAt (pkParams p.bytes) 8 4))) = false) :
    exec .sessionSet s = .next (u.endCmd 1 true p k key 0x0102 []) := by
  refine opRow_refuses h op ?_ (by decide)
  simp [Ctx.b, len, images, enabled, window]

/-! ### The counterexample -/

/-- The key of installer slot 0. -/
def windowKey : List Byte := List.replicate 32 7

/-- Tick 10, session 1, EN of CTN_SESx_CFG with a dwell of 1,024 ticks, and every other image 0, so W is 0. -/
def windowParams : List Byte := toBE 8 10 ++ toBE 4 1 ++ toBE 4 (1024 * 2 ^ 8 + 1) ++ List.replicate 172 0

/-- SESSION_SET from installer slot 0 to every hive, SEQ 9. -/
def windowHeader : List Byte :=
  toBE 2 0x504C ++ [1, 0] ++ toBE 2 0 ++ toBE 2 (2 ^ 14) ++ toBE 2 0xFFFF ++ toBE 2 0x0101 ++ toBE 4 9 ++ toBE 4 188 ++ List.replicate 12 0

def windowPkt : Pkt := ⟨.ring 0 0, signPkt windowKey windowHeader windowParams⟩

/-- Tick 9 is in progress, time is valid, the slot's key is ACTIVE, and the packet is the only command. -/
def windowState : State :=
  { (State.reset.wr TIM_STATUS 1).wr (CMD_KEYk_STATE 64) 1 with
    tim := { Tim.reset with lastTick := some 9 }, mon := { Mon.reset with held := false }
    cmd := { Cmd.reset with keys := [(64, windowKey)], ordQ := [windowPkt] } }

/-- The state its body runs in: the queue is empty and the window of the key holds SEQ 9 (R481). -/
def windowTurn : State := (windowState.popCmd.turn windowPkt 64).2

theorem windowPkt_params : pkParams windowPkt.bytes = windowParams := by
  have : 48 = (windowHeader ++ tagOf windowKey (windowHeader ++ List.replicate 16 0 ++ windowParams)).length := by
    simp [windowHeader]
  rw [pkParams, windowPkt, signPkt, this, List.drop_left]

theorem windowParams_tick : beAt windowParams 0 8 = 10 := by decide +kernel
theorem windowParams_session : beAt windowParams 8 4 = 1 := by decide +kernel

theorem windowState_nextCmd : windowState.nextCmd = some windowPkt := by
  have control : windowState.inControl = true := by decide +kernel
  rw [State.nextCmd, control]
  rfl

theorem windowState_gate : windowState.popCmd.gate windowPkt.bytes = .pass 64 windowKey :=
  gate_signPkt _ _ _ _ _ (by decide +kernel) (by decide +kernel) (by decide +kernel) (by decide +kernel) (by decide +kernel)

theorem windowState_accepts : windowState.accepts windowPkt 64 windowKey windowTurn :=
  ⟨windowState_nextCmd, windowState_gate, Prod.ext (by decide +kernel) rfl, by decide +kernel⟩

theorem sessionSet_windowState : exec .sessionSet windowState = .next (windowTurn.endCmd 1 true windowPkt 64 windowKey 0x0102 []) :=
  sessionSet_refuses_bad_window windowState_accepts (by decide +kernel) (by rw [windowPkt_params]; decide +kernel) rfl
    (by rw [windowPkt_params]; decide +kernel) (by rw [windowPkt_params]; decide +kernel)

/-- The row ends the command with BAD_PARAM and with no other status. -/
theorem windowState_status {st : Nat} {ps : List Byte} {P : State → Prop} (hst : st < 2 ^ 16)
    (h : Runs .sessionSet windowState windowPkt 64 windowKey st ps P) : st = 0x0102 := by
  rw [← h.status_eq rfl hst sessionSet_windowState, windowTurn.endCmd_auditedStatus 1 true rfl 64 windowKey [] (by decide)]

/-- Refutes O48: its clause for SESSION_SET checks the dwell of a session that is enabled but not its W, so it has this command either
admitted or refused by an admission check, and the row answers BAD_PARAM. -/
theorem not_sessionChangesAreAdmittedOrRefused : ¬ Obligations.SessionChangesAreAdmittedOrRefused := by
  unfold Obligations.SessionChangesAreAdmittedOrRefused
  rintro ⟨sessionSet, -⟩
  have clause := sessionSet windowPkt 64 windowKey windowTurn windowState (by decide +kernel) windowState_accepts
  simp only [windowPkt_params, windowParams_tick, windowParams_session] at clause
  obtain ⟨admitted, refused⟩ := clause (by decide +kernel) (by decide +kernel) (by decide +kernel) (by decide +kernel) (by decide +kernel)
    (by decide +kernel) (by decide +kernel) (by decide +kernel) (by decide +kernel) (by decide +kernel) (by decide +kernel)
    (fun _ => by decide +kernel)
  cases verdict : ((windowTurn.viewAt 10).laidChange (.setSes 1 (imagesOf (sesRegs 1) windowParams))).admission (some 1) with
  | none => exact absurd (windowState_status (by decide) (admitted verdict)) (by decide)
  | some r => exact absurd (windowState_status (by decide) (refused r verdict)) (by decide)

end Sys2Proof.Machine
end

section
/-!
PROOFS. The registers an operation leaves alone, shown write by write.
-/
namespace Sys2Proof.Machine

section
variable {s t : State} {l : List Nat} {a : Nat}

theorem State.sameRegs_of_regs_eq (h : t.regs = s.regs) : s.sameRegs t l := fun _ _ => by rw [State.rd, h, State.rd]

theorem State.sameRegs.wr (h : s.sameRegs t l) (v : Nat) (ha : a ∈ l) : s.sameRegs (t.wr a v) l := fun b hb => by
  rw [State.rd_wr_ne _ _ (ne_of_mem_of_not_mem ha hb).symm, h b hb]

theorem State.sameRegs.setBit (h : s.sameRegs t l) (i : Nat) (v : Bool) (ha : a ∈ l) : s.sameRegs (t.setBit a i v) l := h.wr _ ha

theorem State.sameRegs.monLatch (h : s.sameRegs t l) (ha : MON_STATE ∈ l) : s.sameRegs t.monLatch l := (h.wr _ ha).setBit _ _ ha

theorem State.sameRegs.flag (h : s.sameRegs t l) (i : Nat) (ha : a ∈ l) (he : PCI_ERR ∈ l) : s.sameRegs (t.flag a i) l := fun b hb => by
  rw [State.rd_flag_ne _ _ (ne_of_mem_of_not_mem ha hb).symm (ne_of_mem_of_not_mem he hb).symm, h b hb]

end

theorem State.bit_flag_ne (s : State) {a b : Nat} (i j : Nat) (h : b ≠ a) (g : b ≠ PCI_ERR) : (s.flag a i).bit b j = s.bit b j := by
  rw [State.bit, State.rd_flag_ne _ _ h g, State.bit]

end Sys2Proof.Machine
end

section
/-!
PROOFS. Hive time (R67, R68, R84): what the snapshot, the time of day and a scheduled step leave.
-/
namespace Sys2Proof.Machine

/-! ### The snapshot (R67) -/

/-- The registers of the snapshot hold the fields of one instant, as each field fits its registers. -/
theorem rd_timNowFracRead {cycles : Nat} {s t : State} (h : exec (.timNowFracRead cycles) s = .next t) :
    t.rd TIM_NOW_FRAC = (s.elapse cycles).fraction ∧ t.rd TIM_NOW_NS = (s.elapse cycles).nanoseconds
    ∧ t.rd64 TIM_NOW_SEC_LO TIM_NOW_SEC_HI = (s.elapse cycles).seconds
    ∧ t.rd64 TIM_TICK_LO TIM_TICK_HI = (s.elapse cycles).tim.now / tickU % 2 ^ 64 := by
  have frac : (s.elapse cycles).fraction < 2 ^ 16 := Nat.mod_lt _ (by decide)
  have ns : (s.elapse cycles).nanoseconds < 1000000000 := Nat.mod_lt _ (by decide)
  have sec : (s.elapse cycles).seconds < 2 ^ 48 := Nat.mod_lt _ (by decide)
  cases h
  simp [State.rd64, State.rd_wr_ne]
  omega

theorem timNowFracRead_sameRegs {cycles : Nat} {s t : State} (h : exec (.timNowFracRead cycles) s = .next t) :
    s.sameRegs t [TIM_NOW_FRAC, TIM_NOW_NS, TIM_NOW_SEC_LO, TIM_NOW_SEC_HI, TIM_TICK_LO, TIM_TICK_HI] := by
  cases h
  iterate 6 refine State.sameRegs.wr ?_ _ (by decide)
  exact State.sameRegs_of_regs_eq rfl

/-! ### The time of day (R68) -/

/-- A pending TIME_SET whose edge has come while no time is valid is loaded. -/
theorem timeOfDayLoad_loads {s : State} {sec at_ : Nat} (pending : s.tim.todPend = some (sec, at_)) (invalid : s.timeValid = false)
    (due : s.todDue at_ = true) : exec .timeOfDayLoad s = .next (s.setTime (sec % 2 ^ 48 * secU)) := by
  show execTimeOfDayLoad s = _
  simp [execTimeOfDayLoad, pending, invalid, due]

/-- Nothing is loaded while time is valid, without a pending TIME_SET, or before its edge. -/
theorem timeOfDayLoad_idle {s : State} (h : ∀ sec at_, s.tim.todPend = some (sec, at_) → s.timeValid = true ∨ s.todDue at_ = false) :
    Idle .timeOfDayLoad s := by
  show execTimeOfDayLoad s = _
  unfold execTimeOfDayLoad
  split
  · next sec at_ pending => rcases h sec at_ pending with valid | early <;> simp [*]
  · rfl

theorem State.todDue_iff (s : State) (at_ : Nat) : s.todDue at_ = true ↔
    if s.candIsPps (s.fd CLK_STATUS CLK_STATUS_ACTIVE) = true then s.tim.todEdge = true else s.tim.now % secU < s.clockStep ∧ at_ < s.tim.now := by
  unfold State.todDue
  split <;> simp

theorem State.setTime_timeValid (s : State) (now : Nat) : (s.setTime now).timeValid = true := by
  have latched : (s.setBit TIM_STATUS 0 true).sameRegs (s.setTime now) [MON_STATE] :=
    State.sameRegs.monLatch (State.sameRegs_of_regs_eq rfl) (by decide)
  rw [State.timeValid, State.bit, latched TIM_STATUS (by decide)]
  simp

theorem State.setTime_sameRegs (s : State) (now : Nat) : s.sameRegs (s.setTime now) [TIM_STATUS, MON_STATE] :=
  State.sameRegs.monLatch (State.sameRegs.setBit (State.sameRegs_of_regs_eq rfl) 0 true (by decide)) (by decide)

/-! ### A scheduled step (R84) -/

theorem stepApply_applies {s : State} {d : Int} {sec : Nat} (scheduled : s.tim.step = some (d, sec))
    (due : sec * secU ≤ s.nextTick * tickU) : exec .stepApply s = .next s.applyStep := by
  show execStepApply s = _
  simp [execStepApply, State.stepDue, scheduled, due]

theorem stepApply_idle {s : State} (h : s.tim.step = none ∨ ∃ d sec, s.tim.step = some (d, sec) ∧ s.nextTick * tickU < sec * secU) :
    Idle .stepApply s := by
  show execStepApply s = _
  rcases h with unscheduled | ⟨d, sec, scheduled, early⟩
  · simp [execStepApply, State.stepDue, unscheduled]
  · simp [execStepApply, State.stepDue, scheduled, early]

/-- Hive time becomes S + Δ, and no step is scheduled any more. -/
theorem State.applyStep_tim {s : State} {d : Int} {sec : Nat} (scheduled : s.tim.step = some (d, sec)) :
    s.applyStep.tim.now = ((((sec * 1000000000 * 2 ^ 16 : Nat) : Int) + d) * (2 ^ 32 : Nat)).toNat
    ∧ s.applyStep.tim.step = none ∧ s.applyStep.tim.lastTick = s.tim.lastTick := by
  simp [State.applyStep, scheduled]

/-- STEP_PENDING and STEP_SCHED clear, and STEP_APPLIED is set. -/
theorem State.applyStep_bits {s : State} {d : Int} {sec : Nat} (scheduled : s.tim.step = some (d, sec)) :
    s.applyStep.bit TIM_STATUS 1 = 0 ∧ s.applyStep.bit TIM_STATUS 2 = 0 ∧ s.applyStep.bit TIM_HIST 2 = 1 := by
  simp only [State.applyStep, scheduled]
  refine ⟨?_, ?_, State.bit_flag_same _ 2 (by decide) (by decide)⟩
  · rw [State.bit_flag_ne _ _ _ (by decide) (by decide), State.bit_setBit_ne _ _ _ (by decide) (by decide), State.bit_setBit_same _ _ _ _ (by decide)]
    rfl
  · rw [State.bit_flag_ne _ _ _ (by decide) (by decide), State.bit_setBit_same _ _ _ _ (by decide)]
    rfl

theorem State.applyStep_sameRegs (s : State) : s.sameRegs s.applyStep [TIM_STATUS, TIM_HIST, PCI_ERR] := by
  unfold State.applyStep
  split
  · exact State.sameRegs_of_regs_eq rfl
  · refine State.sameRegs.flag ?_ _ (by decide) (by decide)
    iterate 2 refine State.sameRegs.setBit ?_ _ _ (by decide)
    exact State.sameRegs_of_regs_eq rfl

theorem State.applyStep_eq (s : State) :
    s.applyStep = { s with regs := s.applyStep.regs, tim := s.applyStep.tim, pci := s.applyStep.pci, out := s.applyStep.out } := by
  unfold State.applyStep
  split
  · rfl
  · rw [State.flag_eq]
    rfl

/-- Settles O4: the snapshot's registers hold the instant's fields; a load and a step leave what setTime and applyStep do, and where the
edge or the second has not come, neither does anything. -/
theorem hiveTimeIsReadLoadedAndStepped : Obligations.HiveTimeIsReadLoadedAndStepped := by
  unfold Obligations.HiveTimeIsReadLoadedAndStepped
  refine ⟨?read, ?load, ?valid, ?early, ?step, fun _ => stepApply_idle⟩
  case read =>
    intro cycles s
    obtain ⟨frac, ns, sec, tick⟩ := rd_timNowFracRead (cycles := cycles) (s := s) rfl
    exact ⟨_, rfl, frac, ns, sec, tick, timNowFracRead_sameRegs rfl, rfl⟩
  case load =>
    intro sec at_ s pending invalid due
    exact ⟨_, timeOfDayLoad_loads pending invalid ((s.todDue_iff at_).mpr due), s.setTime_timeValid _, rfl, s.setTime_sameRegs _, rfl⟩
  case valid => exact fun s valid => timeOfDayLoad_idle fun _ _ _ => .inl valid
  case early =>
    intro sec at_ s pending noPps early
    refine timeOfDayLoad_idle fun sec' at' pending' => .inr ?_
    cases pending.symm.trans pending'
    simp [State.todDue, noPps, early]
  case step =>
    intro d sec s scheduled due nonneg
    obtain ⟨now, step, lastTick⟩ := State.applyStep_tim scheduled
    obtain ⟨pending, sched, applied⟩ := State.applyStep_bits scheduled
    have instant : (s.applyStep.tim.now : Int) = ((sec * 1000000000 * 2 ^ 16 : Nat) + d) * 2 ^ 32 := by rw [now]; omega
    exact ⟨_, stepApply_applies scheduled due, instant, step, pending, sched, applied, lastTick, s.applyStep_sameRegs, s.applyStep_eq⟩

end Sys2Proof.Machine
end

section
/-!
PROOFS. A host write that arrives (R496, R499, R501): the block's rules ignore it, or the register takes its new contents and the block
does what the write sets off.
-/
namespace Sys2Proof.Machine

/-- Noting that a sealed register was written (R508) changes the seal pass alone. -/
theorem State.marked_pass (u : State) (marks : Bool) :
    ∃ p, (if marks = true then { u with pass := { u.pass with dirty := true } } else u) = { u with pass := p } := by
  cases marks
  · exact ⟨u.pass, rfl⟩
  · exact ⟨{ u.pass with dirty := true }, rfl⟩

section
variable {s : State} {a v new : Nat}

/-- Nothing before the register stops the write. -/
theorem State.hostWrite_of_arrives (h : s.hostArrives .rw a v new) :
    ∃ r, rowOf a = some r ∧ r.acc = .rw ∧ new = r.merge (s.rd a) (v % 2 ^ 32) ∧ s.guardStops r a (s.rd a) new = false
      ∧ s.hostWrite a v = (s.applyWrite r a (v % 2 ^ 32)).2 := by
  obtain ⟨running, noMsix, noPba, allowed, clocked, open_, r, row, acc, merged, unguarded⟩ := h
  refine ⟨r, row, acc, merged, unguarded, ?_⟩
  simp [State.hostWrite, State.regWrite, running, noMsix, noPba, row, allowed, clocked, open_, acc]

/-- The block ignores the write. -/
theorem State.hostWrite_of_refused {t : State} (h : s.hostArrives .rw a v new) (refused : blockPre a new s = some t) :
    s.hostWrite a v = t := by
  obtain ⟨r, -, -, merged, unguarded, written⟩ := State.hostWrite_of_arrives h
  rw [merged] at unguarded refused
  rw [written]
  simp only [State.applyWrite, unguarded, refused, Bool.false_eq_true, if_false]

/-- The write reaches its register: but for the mark of a seal pass, the state is what the write sets off, with its messages. -/
theorem State.hostWrite_of_reaches (h : s.hostReaches .rw a v new) :
    ∃ p, s.hostWrite a v = State.messages { blockPost a (s.rd a) (v % 2 ^ 32) (s.wr a new) with pass := p } a := by
  obtain ⟨arrives, free⟩ := h
  obtain ⟨r, -, acc, merged, unguarded, written⟩ := State.hostWrite_of_arrives arrives
  have kept : (r.acc == .wo) = false := by rw [acc]; rfl
  rw [merged] at unguarded free ⊢
  rw [written]
  simp only [State.applyWrite, unguarded, free, kept, Bool.false_eq_true, if_false]
  exact (State.marked_pass _ _).imp fun _ h => congrArg (State.messages · a) h

end

/-! ### Registers of hive time -/

/-- TIM has no INT_EN register and its flags stand in TIM_HIST, so a write of another register sends no message (R504). -/
theorem State.messages_of_tim (s : State) {a : Nat} (block : a / 0x100000 = 4) (h : a ≠ TIM_HIST) : s.messages a = s := by
  have notFault : a ≠ GLB_FAULT := by rintro rfl; contradiction
  simp [State.messages, block, flagReg, intEnOf, h, notFault]

theorem blockPost_of_tim {a : Nat} (old v : Nat) (s : State) (block : a / 0x100000 = 4) (h : a ≠ TIM_CTRL) : blockPost a old v s = timPost a s := by
  have notControl : a % 0x100000 ≠ 0 := fun zero => h (by unfold TIM_CTRL; omega)
  simp [blockPost, State.noteEn, block, notControl]

theorem blockPre_of_tim {a : Nat} (new : Nat) (s : State) (block : a / 0x100000 = 4) : blockPre a new s = timPre a new s := by
  simp [blockPre, block]

/-- A write that reaches a register of TIM with no flags and no EN leaves what timPost makes of it, but for the mark of a seal pass. -/
theorem State.hostWrite_tim {s : State} {a v new : Nat} (h : s.hostReaches .rw a v new) (block : a / 0x100000 = 4) (hist : a ≠ TIM_HIST)
    (control : a ≠ TIM_CTRL) : ∃ p, s.hostWrite a v = { timPost a (s.wr a new) with pass := p } := by
  obtain ⟨p, written⟩ := State.hostWrite_of_reaches h
  exact ⟨p, by rw [written, State.messages_of_tim _ block hist, blockPost_of_tim _ _ _ block control]⟩

end Sys2Proof.Machine
end

section
/-!
PROOFS. The step threshold (R82): TIM_STEP_THR, its reset value and its range.
-/
namespace Sys2Proof.Machine

theorem resetVal_TIM_STEP_THR : resetVal TIM_STEP_THR = 1000 := by decide +kernel

theorem rowOf_TIM_STEP_THR : rowOf TIM_STEP_THR = some ⟨"TIM_STEP_THR", TIM_STEP_THR, 1, 4, 1, 4, .rw, 1000, 2 ^ 30 - 1, false⟩ := by decide +kernel

/-- Without its spare bits the register holds the threshold alone. -/
theorem State.stepThr_eq {s : State} (h : s.rd TIM_STEP_THR < 2 ^ 30) : s.stepThr = (s.rd TIM_STEP_THR : Int) * 2 ^ 16 := by
  have field : s.fd TIM_STEP_THR TIM_STEP_THR_THR = s.rd TIM_STEP_THR := by
    simp only [State.fd, bitsOf]
    omega
  simp [State.stepThr, field]

/-- A write of the 30 bits of the field makes the contents the value written. -/
theorem State.hostArrives_stepThr_new {s : State} {v new : Nat} (h : s.hostArrives .rw TIM_STEP_THR v new) (hv : v < 2 ^ 30)
    (hs : s.rd TIM_STEP_THR < 2 ^ 30) : new = v := by
  obtain ⟨-, -, -, -, -, -, r, row, -, merged, -⟩ := h
  cases rowOf_TIM_STEP_THR.symm.trans row
  have low (n : Nat) : Nat.land n (2 ^ 30 - 1) = n % 2 ^ 30 := Nat.and_two_pow_sub_one_eq_mod n 30
  rw [merged]
  simp only [RegRow.merge, dropBits, low]
  omega

theorem timPre_stepThr_inRange {new : Nat} (s : State) (lo : 100 ≤ new) (hi : new ≤ 1000000000) : timPre TIM_STEP_THR new s = none := by
  have notIntv : ¬ (0x400100 ≤ TIM_STEP_THR) := by decide
  simp [timPre, lo, hi, notIntv]

theorem timPre_stepThr_outOfRange {new : Nat} (s : State) (h : new < 100 ∨ 1000000000 < new) :
    timPre TIM_STEP_THR new s = some (s.flag TIM_HIST 4) := by
  have outside : ¬ (100 ≤ new ∧ new ≤ 1000000000) := by omega
  simp [timPre, ← Bool.decide_and, outside]

theorem timPost_stepThr (s : State) : timPost TIM_STEP_THR s = s := rfl

theorem exec_timStepThrWrite (v : Nat) (s : State) : exec (.timStepThrWrite v) s = .next (s.hostWrite TIM_STEP_THR v) := rfl

/-- Settles O35: a value in the range reaches the register, which sets nothing off; one outside is refused with RANGE_ERR. -/
theorem stepThresholdHasItsRange : Obligations.StepThresholdHasItsRange := by
  unfold Obligations.StepThresholdHasItsRange
  refine ⟨?reset, fun _ => State.stepThr_eq, ?stored, ?refused⟩
  case reset =>
    rw [State.stepThr_eq (by simp [resetVal_TIM_STEP_THR])]
    simp [resetVal_TIM_STEP_THR]
  case stored =>
    intro v new s arrives lo hi before
    obtain rfl := State.hostArrives_stepThr_new arrives (by omega) before
    have free : blockPre TIM_STEP_THR new s = none := (blockPre_of_tim _ _ rfl).trans (timPre_stepThr_inRange s lo hi)
    obtain ⟨p, written⟩ := State.hostWrite_tim ⟨arrives, free⟩ rfl (by decide) (by decide)
    refine ⟨_, exec_timStepThrWrite new s, ?_⟩
    rw [written, timPost_stepThr]
    exact ⟨(s.rd_wr_same _ _).trans (Nat.mod_eq_of_lt (by omega)), rfl⟩
  case refused =>
    intro v new s arrives hv out before
    obtain rfl := State.hostArrives_stepThr_new arrives hv before
    have refused : blockPre TIM_STEP_THR new s = some (s.flag TIM_HIST 4) :=
      (blockPre_of_tim _ _ rfl).trans (timPre_stepThr_outOfRange s out)
    refine ⟨_, exec_timStepThrWrite new s, ?_⟩
    rw [State.hostWrite_of_refused arrives refused]
    exact ⟨s.rd_flag_ne _ (by decide) (by decide), s.bit_flag_same _ (by decide) (by decide), (State.sameRegs_of_regs_eq rfl).flag _ (by decide) (by decide)⟩

end Sys2Proof.Machine
end

section
/-!
PROOFS. A PTP clock, one of the instances of R71: its entry in the list of them and its portState, each with what leaves it alone.
-/
namespace Sys2Proof.Machine

/-! ### Lists by index -/

section
variable {α : Type} (d v : α)

theorem nth_setNth_same {l : List α} {i : Nat} (h : i < l.length) : nth (setNth l i v) i d = v := by
  induction l generalizing i with
  | nil => exact absurd h (Nat.not_lt_zero i)
  | cons x t ih =>
    cases i with
    | zero => rfl
    | succ i => exact ih (Nat.lt_of_succ_lt_succ h)

theorem nth_setNth_ne (l : List α) {i j : Nat} (h : j ≠ i) : nth (setNth l i v) j d = nth l j d := by
  induction l generalizing i j with
  | nil => rfl
  | cons x t ih =>
    cases i with
    | zero => cases j with
      | zero => contradiction
      | succ j => rfl
    | succ i => cases j with
      | zero => rfl
      | succ j => exact ih (by omega)

end

/-! ### The clocks -/

theorem State.ptpInst_setPtp_same {s : State} {n : Nat} (h : n < s.tim.ptp.length) (p : PtpInst) : (s.setPtp n p).ptpInst n = p :=
  nth_setNth_same _ _ h

theorem State.ptpInst_setPtp_ne (s : State) {n m : Nat} (p : PtpInst) (h : m ≠ n) : (s.setPtp n p).ptpInst m = s.ptpInst m :=
  nth_setNth_ne _ _ _ h

@[simp] theorem State.portState_setPtp (s : State) (n m : Nat) (p : PtpInst) : (s.setPtp n p).portState m = s.portState m := rfl

@[simp] theorem State.ptpInst_setPortState (s : State) (n v m : Nat) : (s.setPortState n v).ptpInst m = s.ptpInst m := rfl

@[simp] theorem State.portState_setPortState_same (s : State) (n v : Nat) : (s.setPortState n v).portState n = v % 2 ^ 4 :=
  s.fd_setFd_same _ _ _ (by decide)

theorem State.rd_setPortState_ne (s : State) {n a : Nat} (v : Nat) (h : a ≠ PTPn_STATE n) : (s.setPortState n v).rd a = s.rd a :=
  s.rd_setFd_ne _ _ h

theorem PTPn_STATE_ne {n m : Nat} (h : m ≠ n) : PTPn_STATE m ≠ PTPn_STATE n := by unfold PTPn_STATE; omega
theorem PTPn_CFG_ne_STATE (m n : Nat) : PTPn_CFG m ≠ PTPn_STATE n := by unfold PTPn_CFG PTPn_STATE; omega

theorem State.portState_congr {s t : State} {m : Nat} (h : t.rd (PTPn_STATE m) = s.rd (PTPn_STATE m)) : t.portState m = s.portState m := by
  rw [State.portState, State.fd, h, State.portState, State.fd]

theorem State.portState_setPortState_ne (s : State) {n m : Nat} (v : Nat) (h : m ≠ n) : (s.setPortState n v).portState m = s.portState m :=
  State.portState_congr (s.rd_setPortState_ne v (PTPn_STATE_ne h))

end Sys2Proof.Machine
end

section
/-!
PROOFS. PTP clocks that share a port and a domainNumber (R73), and the write of PTPn_CFG.
-/
namespace Sys2Proof.Machine

/-! ### The conflict of R73 -/

/-- Clock m is enabled, and so is a lower one on its port with its domainNumber. -/
def State.ptpClash (s : State) (m : Nat) : Prop :=
  s.bit (PTPn_CFG m) 0 = 1 ∧ ∃ j, j < m ∧ s.bit (PTPn_CFG j) 0 = 1
    ∧ s.fd (PTPn_CFG j) PTPn_CFG_PORT = s.fd (PTPn_CFG m) PTPn_CFG_PORT
    ∧ s.fd (PTPn_CFG j) PTPn_CFG_DOMAIN = s.fd (PTPn_CFG m) PTPn_CFG_DOMAIN

/-- What `State.ptpConflicts` does at clock m. -/
def State.ptpFault (s : State) (m : Nat) : State :=
  if s.bit (PTPn_CFG m) 0 = 1 && (List.range m).any (fun j => s.bit (PTPn_CFG j) 0 == 1
      && s.fd (PTPn_CFG j) PTPn_CFG_PORT == s.fd (PTPn_CFG m) PTPn_CFG_PORT
      && s.fd (PTPn_CFG j) PTPn_CFG_DOMAIN == s.fd (PTPn_CFG m) PTPn_CFG_DOMAIN)
  then s.setPortState m 2 else s

theorem State.ptpConflicts_eq_each (s : State) : s.ptpConflicts = s.each (List.range 8) State.ptpFault := rfl

theorem State.ptpFault_of_clash {s : State} {m : Nat} (h : s.ptpClash m) : s.ptpFault m = s.setPortState m 2 := by
  obtain ⟨enabled, j, lower, jEnabled, port, domain⟩ := h
  refine if_pos ?_
  simp only [Bool.and_eq_true, decide_eq_true_eq, List.any_eq_true, List.mem_range, beq_iff_eq]
  exact ⟨enabled, j, lower, ⟨jEnabled, port⟩, domain⟩

theorem State.ptpFault_of_not_clash {s : State} {m : Nat} (h : ¬ s.ptpClash m) : s.ptpFault m = s := by
  refine if_neg fun clash => h ?_
  simp only [Bool.and_eq_true, decide_eq_true_eq, List.any_eq_true, List.mem_range, beq_iff_eq] at clash
  obtain ⟨enabled, j, lower, ⟨jEnabled, port⟩, domain⟩ := clash
  exact ⟨enabled, j, lower, jEnabled, port, domain⟩

/-- Only the configurations decide who clashes. -/
theorem State.ptpClash_congr {s t : State} (h : ∀ i, t.rd (PTPn_CFG i) = s.rd (PTPn_CFG i)) (m : Nat) : t.ptpClash m ↔ s.ptpClash m := by
  simp only [State.ptpClash, State.bit, State.fd, h]

theorem State.rd_ptpFault_ne (s : State) {m a : Nat} (h : a ≠ PTPn_STATE m) : (s.ptpFault m).rd a = s.rd a := by
  unfold State.ptpFault
  split
  · exact s.rd_setPortState_ne _ h
  · rfl

theorem State.ptpFault_eq (s : State) (m : Nat) : s.ptpFault m = { s with regs := (s.ptpFault m).regs } := by
  unfold State.ptpFault
  split <;> rfl

theorem State.ptpClash_ptpFault (s : State) (k m : Nat) : (s.ptpFault k).ptpClash m ↔ s.ptpClash m :=
  State.ptpClash_congr (fun i => s.rd_ptpFault_ne (PTPn_CFG_ne_STATE i k)) m

theorem State.portState_ptpFault_ne (s : State) {k m : Nat} (h : m ≠ k) : (s.ptpFault k).portState m = s.portState m :=
  State.portState_congr (s.rd_ptpFault_ne (PTPn_STATE_ne h))

/-- A clock that does not clash keeps its portState. -/
theorem State.portState_each_ptpFault_of_not_clash {m : Nat} (l : List Nat) (s : State) (h : ¬ s.ptpClash m) :
    (s.each l State.ptpFault).portState m = s.portState m := by
  induction l generalizing s with
  | nil => rfl
  | cons k t ih =>
    have kept : (s.ptpFault k).portState m = s.portState m := by
      by_cases e : m = k
      · rw [← e, State.ptpFault_of_not_clash h]
      · exact s.portState_ptpFault_ne e
    exact (ih _ (mt (s.ptpClash_ptpFault k m).mp h)).trans kept

/-- One that clashes is FAULTY once its turn has come. -/
theorem State.portState_each_ptpFault_of_clash {m : Nat} (l : List Nat) (s : State) (h : s.ptpClash m) (turn : m ∈ l ∨ s.portState m = 2) :
    (s.each l State.ptpFault).portState m = 2 := by
  induction l generalizing s with
  | nil => exact turn.resolve_left List.not_mem_nil
  | cons k t ih =>
    refine ih _ ((s.ptpClash_ptpFault k m).mpr h) ?_
    by_cases e : m = k
    · right
      rw [← e, State.ptpFault_of_clash h]
      exact s.portState_setPortState_same m 2
    · rw [s.portState_ptpFault_ne e]
      exact turn.imp_left fun mem => (List.mem_cons.mp mem).resolve_left e

theorem State.portState_ptpConflicts_of_clash {s : State} {m : Nat} (hm : m < 8) (h : s.ptpClash m) : s.ptpConflicts.portState m = 2 := by
  rw [State.ptpConflicts_eq_each]
  exact State.portState_each_ptpFault_of_clash _ s h (.inl (List.mem_range.mpr hm))

theorem State.portState_ptpConflicts_of_not_clash {s : State} {m : Nat} (h : ¬ s.ptpClash m) :
    s.ptpConflicts.portState m = s.portState m := by
  rw [State.ptpConflicts_eq_each]
  exact State.portState_each_ptpFault_of_not_clash _ s h

theorem State.ptpConflicts_eq (s : State) : s.ptpConflicts = { s with regs := s.ptpConflicts.regs } := by
  obtain ⟨r, h⟩ : ∃ r, s.ptpConflicts = { s with regs := r } := by
    rw [State.ptpConflicts_eq_each]
    refine State.each_keeps (∃ r, · = { s with regs := r }) _ _ (fun t m _ ⟨r, h⟩ => ?_) s ⟨s.regs, rfl⟩
    subst h
    exact ⟨_, State.ptpFault_eq _ m⟩
  rw [h]

theorem State.rd_ptpConflicts_ne (s : State) {a : Nat} (h : ∀ m, m < 8 → a ≠ PTPn_STATE m) : s.ptpConflicts.rd a = s.rd a := by
  rw [State.ptpConflicts_eq_each]
  exact State.each_keeps (fun t => t.rd a = s.rd a) _ _
    (fun t m mem same => (t.rd_ptpFault_ne (h m (List.mem_range.mp mem))).trans same) s rfl

theorem State.rd_ptpConflicts_cfg (s : State) (i : Nat) : s.ptpConflicts.rd (PTPn_CFG i) = s.rd (PTPn_CFG i) :=
  s.rd_ptpConflicts_ne fun m _ => PTPn_CFG_ne_STATE i m

@[simp] theorem State.ptpInst_ptpConflicts (s : State) (m : Nat) : s.ptpConflicts.ptpInst m = s.ptpInst m := by
  rw [State.ptpConflicts_eq]; rfl

theorem State.ptpClash_ptpConflicts (s : State) (m : Nat) : s.ptpConflicts.ptpClash m ↔ s.ptpClash m :=
  State.ptpClash_congr s.rd_ptpConflicts_cfg m

/-! ### The write -/

/-- Clock n starts anew in portState v. -/
def State.ptpRestart (s : State) (n v : Nat) : State := (s.setPtp n PtpInst.reset).setPortState n v

/-- After a write of PTPn_CFG clock n starts anew by its EN, and the conflicts are judged. -/
theorem timPost_ptpCfg {n : Nat} (h : n < 8) (s : State) :
    timPost (PTPn_CFG n) s = (s.ptpRestart n (if s.bit (PTPn_CFG n) 0 = 1 then 1 else 3)).ptpConflicts := by
  obtain ⟨lo, hi, aligned⟩ : 0x400100 ≤ PTPn_CFG n ∧ PTPn_CFG n < 0x400300 ∧ PTPn_CFG n % 0x40 = 0 := by
    unfold PTPn_CFG; omega
  simp [timPost, lo, hi, aligned, State.ptpRestart]

theorem exec_ptpCfgWrite {n : Nat} (h : n < 8) (v : Nat) (s : State) : exec (.ptpCfgWrite n v) s = .next (s.hostWrite (PTPn_CFG n) v) := by
  show execPtpCfgWrite n v s = _
  simp [execPtpCfgWrite, hostTo, h]

theorem State.portState_ptpRestart_same (s : State) {n v : Nat} (hv : v < 2 ^ 4) : (s.ptpRestart n v).portState n = v :=
  (State.portState_setPortState_same _ _ _).trans (Nat.mod_eq_of_lt hv)

theorem State.portState_ptpRestart_ne (s : State) {n m : Nat} (v : Nat) (h : m ≠ n) : (s.ptpRestart n v).portState m = s.portState m :=
  (State.portState_setPortState_ne _ _ h).trans (s.portState_setPtp _ _ _)

theorem State.ptpInst_restart_conflicts {s : State} {n : Nat} (h : n < s.tim.ptp.length) (v m : Nat) :
    (s.ptpRestart n v).ptpConflicts.ptpInst m = if m = n then PtpInst.reset else s.ptpInst m := by
  rw [State.ptpInst_ptpConflicts, State.ptpRestart, State.ptpInst_setPortState]
  split
  · next e => rw [e]; exact State.ptpInst_setPtp_same h _
  · next e => exact s.ptpInst_setPtp_ne _ e

theorem State.rd_restart_conflicts_ne (s : State) {n : Nat} (v : Nat) (hn : n < 8) {a : Nat} (h : ∀ m, m < 8 → a ≠ PTPn_STATE m) :
    (s.ptpRestart n v).ptpConflicts.rd a = s.rd a :=
  (State.rd_ptpConflicts_ne _ h).trans (State.rd_setPortState_ne _ _ (h n hn))

/-- The portState in which a clock restarts on a write of `new` to its configuration: INITIALIZING, or DISABLED. -/
def ptpStart (new : Nat) : Nat := if bitOf new 0 = 1 then 1 else 3

theorem ptpStart_lt (new : Nat) : ptpStart new < 2 ^ 4 := by
  unfold ptpStart
  split <;> decide

/-- What a write of PTPn_CFG leaves that reaches the register. -/
theorem State.hostWrite_ptpCfg {s : State} {n v new : Nat} (hn : n < 8) (h : s.hostReaches .rw (PTPn_CFG n) v new) :
    ∃ p, s.hostWrite (PTPn_CFG n) v = { ((s.wr (PTPn_CFG n) new).ptpRestart n (ptpStart new)).ptpConflicts with pass := p } := by
  have block : PTPn_CFG n / 0x100000 = 4 := by unfold PTPn_CFG; omega
  have above (a : Nat) (ha : a < 0x400100) : PTPn_CFG n ≠ a := by unfold PTPn_CFG; omega
  have en : (s.wr (PTPn_CFG n) new).bit (PTPn_CFG n) 0 = bitOf new 0 := by
    rw [State.bit, State.rd_wr_same]
    simp only [bitOf]
    omega
  obtain ⟨p, written⟩ := State.hostWrite_tim h block (above _ (by decide)) (above _ (by decide))
  exact ⟨p, by rw [written, timPost_ptpCfg hn, en, ptpStart]⟩

/-- Settles O36: the write reaches its register, the clock starts anew, and the conflicts are judged on the configurations the
write leaves. -/
theorem ptpConfigurationRestartsAnInstance : Obligations.PtpConfigurationRestartsAnInstance := by
  unfold Obligations.PtpConfigurationRestartsAnInstance
  intro n v new s hn listed reaches
  obtain ⟨p, written⟩ := State.hostWrite_ptpCfg hn reaches
  refine ⟨_, exec_ptpCfgWrite hn v s, ?_⟩
  rw [written]
  let w := s.wr (PTPn_CFG n) new
  have clashes (m : Nat) := (w.ptpRestart n (ptpStart new)).ptpClash_ptpConflicts m
  have inst (m : Nat) := State.ptpInst_restart_conflicts (s := w) listed (ptpStart new) m
  have rest {a : Nat} (h : ∀ m, m < 8 → a ≠ PTPn_STATE m) := w.rd_restart_conflicts_ne (ptpStart new) hn h
  refine ⟨?contents, ?restarted, ?faulty, ?starts, ?keepsState, ?keepsInst, ?registers, ?frame⟩
  case contents => exact (rest fun m _ => PTPn_CFG_ne_STATE n m).trans (s.rd_wr_same _ _)
  case restarted => exact (inst n).trans (if_pos rfl)
  case faulty => exact fun m hm clash => State.portState_ptpConflicts_of_clash hm ((clashes m).mp clash)
  case starts =>
    exact fun free => (State.portState_ptpConflicts_of_not_clash (mt (clashes n).mpr free)).trans (w.portState_ptpRestart_same (ptpStart_lt new))
  case keepsState =>
    intro m _ ne free
    have before : w.portState m = s.portState m := State.portState_congr (s.rd_wr_ne _ (PTPn_CFG_ne_STATE n m).symm)
    exact (State.portState_ptpConflicts_of_not_clash (mt (clashes m).mpr free)).trans ((w.portState_ptpRestart_ne _ ne).trans before)
  case keepsInst => exact fun m _ ne => (inst m).trans (if_neg ne)
  case registers =>
    intro a ha
    simp only [List.mem_cons, List.mem_map, List.mem_range, not_or, not_exists, not_and] at ha
    obtain ⟨notCfg, notState⟩ := ha
    exact (rest fun m hm e => notState m hm e.symm).trans (s.rd_wr_ne _ notCfg)
  case frame => rw [State.ptpConflicts_eq]; rfl

end Sys2Proof.Machine
end

section
/-!
PROOFS. PTP messages received (R72, R77, R80): what is discarded, and the offset of a one-step Sync.
-/
namespace Sys2Proof.Machine

/-! ### Messages on their way to their handler -/

theorem State.takeRx_fst (s : State) (p : RxItem → Bool) : (s.takeRx p).1 = s.eth.inbox.find? p := by
  unfold State.takeRx
  split <;> simp [*]

/-- Taking a message changes the inbox alone. -/
theorem State.takeRx_snd (s : State) (p : RxItem → Bool) : ∃ inbox, (s.takeRx p).2 = { s with eth := { s.eth with inbox := inbox } } := by
  unfold State.takeRx
  split
  · exact ⟨_, rfl⟩
  · exact ⟨s.eth.inbox, rfl⟩

/-! ### Reception (R72, R77) -/

/-- The messages R72 has clock n discard. -/
def State.ptpForeign (s : State) (n : Nat) (m : PtpMsg) : Prop :=
  m.kind = .management ∨ m.kind = .signaling ∨ m.domain ≠ s.fd (PTPn_CFG n) PTPn_CFG_DOMAIN ∨ m.sdo ≠ s.fd (PTPn_CFG n) PTPn_CFG_MAJOR_SDO
    ∨ m.transport ≠ s.fd (PTPn_CFG n) PTPn_CFG_TRANSPORT

/-- The received frame of a message for clock n. -/
def State.ptpRx (s : State) (n : Nat) : RxItem → Bool := fun x => x.kind == .ptp && x.port == s.fd (PTPn_CFG n) PTPn_CFG_PORT

/-- The timestamp captured with the frame; without one, that of the local clock. -/
def State.ptpStampOf (s : State) (n : Nat) (m : PtpMsg) : Int :=
  match s.eth.inbox.find? (s.ptpRx n) with | some x => x.stamp | none => s.capture m.capture

theorem ptpMessageReceive_discards {s : State} {n : Nat} {m : PtpMsg} (runs : s.ptpRuns n = true) (foreign : s.ptpForeign n m) :
    exec (.ptpMessageReceive n m) s = .next (s.count (PTPn_DISCARD n) 1) := by
  show execPtpMessageReceive n m s = _
  unfold State.ptpForeign at foreign
  simp [execPtpMessageReceive, runs, foreign, or_assoc]

theorem ptpMessageReceive_accepts {s : State} {n : Nat} {m : PtpMsg} (runs : s.ptpRuns n = true) (own : ¬ s.ptpForeign n m)
    (works : s.portState n ≠ 2) :
    exec (.ptpMessageReceive n m) s = .next ((s.takeRx (s.ptpRx n)).2.ptpAccept n { m with capture := s.ptpStampOf n m }) := by
  show execPtpMessageReceive n m s = _
  simp only [State.ptpForeign, not_or, not_not] at own
  obtain ⟨management, signaling, domain, sdo, transport⟩ := own
  simp only [State.ptpStampOf, ← State.takeRx_fst, execPtpMessageReceive, runs, management, signaling, domain, sdo, transport, works, ne_eq,
    not_true_eq_false, decide_false, Bool.not_true, Bool.or_false, Bool.false_eq_true, if_false]
  rfl

/-! ### The offset (R80) -/

theorem unsigned_lt (w : Nat) (i : Int) : unsigned w i < 2 ^ w := by
  have pos : (0 : Int) < (2 ^ w : Nat) := by exact_mod_cast Nat.two_pow_pos w
  have lo := Int.emod_nonneg i pos.ne'
  have hi := Int.emod_lt_of_pos i pos
  unfold unsigned
  omega

/-- A one-step Sync of the parent completes (t2 − t1) − corr at once. -/
theorem State.ptpAccept_oneStepSync {s : State} {n : Nat} {m : PtpMsg} (sync : m.kind = .sync) (oneStep : m.twoStep = false)
    (slave : s.portState n = 9) (parent : (s.ptpInst n).best.map (·.source) = some m.source) :
    s.ptpAccept n m = s.ptpSync n (m.capture - (s.rd (PTPn_RXLAT n) : Nat) - m.ts - m.corr) := by
  simp [State.ptpAccept, sync, oneStep, State.ptpSlave, slave, parent]

/-- A measurement of a SLAVE that is not the time source stands in its registers, and nothing follows. -/
theorem State.offsetMeasured_of_slave {s : State} {n : Nat} (slave : s.portState n = 9) (source : n ≠ s.timeSource) (off : Int) :
    s.offsetMeasured n off = s.wr64 (PTPn_OFFSET_LO n) (PTPn_OFFSET_HI n) (unsigned 64 off) := by
  have slave' : (s.wr64 (PTPn_OFFSET_LO n) (PTPn_OFFSET_HI n) (unsigned 64 off)).portState n = 9 := by
    rw [State.portState_congr (s.rd_wr64_ne _ (by unfold PTPn_STATE PTPn_OFFSET_LO; omega) (by unfold PTPn_STATE PTPn_OFFSET_HI; omega)), slave]
  have source' : n ≠ (s.wr64 (PTPn_OFFSET_LO n) (PTPn_OFFSET_HI n) (unsigned 64 off)).timeSource := by
    rwa [State.timeSource, State.fd,
      s.rd_wr64_ne _ (by unfold TIM_CTRL PTPn_OFFSET_LO; omega) (by unfold TIM_CTRL PTPn_OFFSET_HI; omega)]
  simp [State.offsetMeasured, slave', source']

/-- What clock n keeps of a complete Sync. -/
def State.ptpSynced (s : State) (n : Nat) (ms : Int) : PtpInst := { s.ptpInst n with syncT2 := none, ms := some ms }

/-- With the path delay known, a complete Sync of such a SLAVE is a measurement. -/
theorem State.ptpSync_of_slave {s : State} {n : Nat} {mpd : Int} (slave : s.portState n = 9) (source : n ≠ s.timeSource)
    (known : (s.ptpInst n).mpd = some mpd) (ms : Int) :
    s.ptpSync n ms = (s.setPtp n (s.ptpSynced n ms)).wr64 (PTPn_OFFSET_LO n) (PTPn_OFFSET_HI n) (unsigned 64 (ms - mpd - s.ptpAsym n)) := by
  simp only [State.ptpSync, State.ptpSynced, known]
  exact State.offsetMeasured_of_slave (s := s.setPtp n _) slave source _

/-- (t2 − t1) − corr of a one-step Sync, t2 the timestamp captured with its frame (R77, R78). -/
def State.ptpMs (s : State) (n : Nat) (m : PtpMsg) : Int := s.ptpStampOf n m - (s.rd (PTPn_RXLAT n) : Nat) - m.ts - m.corr

/-- Such a Sync takes its frame from the inbox, and its offset stands in the registers. -/
theorem ptpMessageReceive_measures {s : State} {n : Nat} {m : PtpMsg} {mpd : Int} (runs : s.ptpRuns n = true) (own : ¬ s.ptpForeign n m)
    (sync : m.kind = .sync) (oneStep : m.twoStep = false) (slave : s.portState n = 9) (source : n ≠ s.timeSource)
    (parent : (s.ptpInst n).best.map (·.source) = some m.source) (known : (s.ptpInst n).mpd = some mpd) :
    ∃ inbox, exec (.ptpMessageReceive n m) s
      = .next ((({ s with eth := { s.eth with inbox := inbox } } : State).setPtp n (s.ptpSynced n (s.ptpMs n m))).wr64
          (PTPn_OFFSET_LO n) (PTPn_OFFSET_HI n) (unsigned 64 (s.ptpMs n m - mpd - s.ptpAsym n))) := by
  obtain ⟨inbox, taken⟩ := s.takeRx_snd (s.ptpRx n)
  let u : State := { s with eth := { s.eth with inbox := inbox } }
  have accepted := State.ptpAccept_oneStepSync (s := u) (m := { m with capture := s.ptpStampOf n m }) sync oneStep slave parent
  have measured := State.ptpSync_of_slave (s := u) slave source known (s.ptpMs n m)
  refine ⟨inbox, (ptpMessageReceive_accepts runs own (by rw [slave]; decide)).trans ?_⟩
  rw [taken]
  exact congrArg Host.Outcome.next (accepted.trans measured)

end Sys2Proof.Machine
end

section
/-!
PROOFS. PTP messages sent (R76, R79), and announces that cease (R92).
-/
namespace Sys2Proof.Machine

/-! ### Sending (R76, R79) -/

/-- The frame of message m of clock n, as it is handed to the port. -/
def State.ptpTxFrame (s : State) (n : Nat) (kind : PtpKind) (m : PtpMsg) : TxFrame :=
  let b := s.ptpFrame (s.fd (PTPn_CFG n) PTPn_CFG_PORT) m (s.ptpLog n kind)
  { kind := if ptpEvent kind then .ptpEvent else .ptpGeneral, src := n, sid := 0, queue := if ptpEvent kind then 7 else 6,
    len := max 64 (b.length + 4), age := s.tick, dst := 0, bytes := b, ptp := some m }

/-- What clock n keeps of a message it has sent, captured at `at_`. -/
def State.ptpSent (s : State) (n : Nat) (kind : PtpKind) (at_ : Int) : PtpInst :=
  (s.ptpInst n).sentMsg kind (s.bit (PTPn_CFG n) 9 == 1) (s.egress n at_) s.tim.us

theorem ptpMessageSend_sends {s : State} {n : Nat} {kind : PtpKind} (pre cap : Int) (runs : s.ptpRuns n = true)
    (due : s.ptpMay n kind = true) :
    exec (.ptpMessageSend n kind pre cap) s = .next ((s.setPtp n (s.ptpSent n kind (s.capture cap))).txWait
      (s.fd (PTPn_CFG n) PTPn_CFG_PORT) (s.ptpTxFrame n kind (s.ptpMsgOut n kind (s.capture pre)))) := by
  show execPtpMessageSend n kind pre cap s = _
  simp only [execPtpMessageSend, runs, due, Bool.not_true, Bool.or_false, Bool.false_eq_true, if_false]
  rfl

/-- A two-step Sync leaves its sequence id and egress timestamp for the Follow_Up. -/
theorem State.ptpSent_syncTx {s : State} {n : Nat} (twoStep : s.bit (PTPn_CFG n) 9 = 1) (pre at_ : Int) :
    (s.ptpSent n .sync at_).syncTx = some ((s.ptpMsgOut n .sync pre).seq, s.egress n at_) := by
  simp [State.ptpSent, PtpInst.sentMsg, State.ptpMsgOut, State.ptpFields, twoStep]

/-- A one-step Sync carries the whole nanoseconds of its egress timestamp and the rest as correction. -/
theorem State.ptpMsgOut_oneStepSync {s : State} {n : Nat} (oneStep : s.bit (PTPn_CFG n) 9 = 0) (at_ : Int) :
    (s.ptpMsgOut n .sync at_).ts = wholeNs (s.egress n at_) ∧ (s.ptpMsgOut n .sync at_).corr = s.egress n at_ % 65536 := by
  simp [State.ptpMsgOut, State.ptpFields, oneStep]

/-! ### Announces that cease (R92) -/

/-- What clock n keeps when its parent is forgotten. -/
def State.ptpForgets (s : State) (n : Nat) : PtpInst :=
  { s.ptpInst n with
    best := none, syncT2 := none, since := s.tim.us
    foreign := (s.ptpInst n).foreign.filter (fun f => (s.ptpInst n).best.map (·.source) != some f.msg.source) }

theorem announceReceiptTimeout_forgets {s : State} {n : Nat} (runs : s.ptpRuns n = true)
    (hears : s.portState n = 4 ∨ s.portState n = 7 ∨ s.portState n = 8 ∨ s.portState n = 9) (source : n ≠ s.timeSource)
    (late : (s.ptpInst n).since + s.fd (PTPn_INTV n) ⟨27, 24⟩ * s.annUs n ≤ s.tim.us) :
    exec (.announceReceiptTimeout n) s = .next ((s.setPtp n (s.ptpForgets n)).setPortState n
      (if s.fd (PTPn_CFG n) PTPn_CFG_SLAVE_ONLY = 1 then 4 else 6)) := by
  show execAnnounceReceiptTimeout n s = _
  have source' (p : PtpInst) (v : Nat) : n ≠ ((s.setPtp n p).setPortState n v).timeSource := by
    rwa [State.timeSource, State.fd, State.rd_setPortState_ne _ _ (by unfold TIM_CTRL PTPn_STATE; omega)]
  have listed : ([4, 7, 8, 9] : List Nat).contains (s.portState n) = true := by simpa using hears
  simp only [execAnnounceReceiptTimeout, runs, listed, late.not_gt, source', Bool.not_true, Bool.or_false, decide_false, Bool.false_eq_true, if_false]
  rfl

/-- Settles O5: each message and each timeout leaves what the equation of its case says. -/
theorem ptpMessagesMeasureTheOffset : Obligations.PtpMessagesMeasureTheOffset := by
  unfold Obligations.PtpMessagesMeasureTheOffset
  refine ⟨?discard, ?offset, ?send, ?oneStep, ?timeout⟩
  case discard =>
    intro n m s runs foreign
    exact ⟨_, ptpMessageReceive_discards runs foreign, s.rd_count_same _ _, (State.sameRegs_of_regs_eq rfl).wr _ (by simp), rfl⟩
  case offset =>
    intro n m mpd s runs sync oneStep domain sdo transport slave source parent known listed
    have own : ¬ s.ptpForeign n m := by simp [State.ptpForeign, sync, domain, sdo, transport]
    obtain ⟨inbox, measured⟩ := ptpMessageReceive_measures runs own sync oneStep slave source parent known
    refine ⟨_, measured, ?_, ?_, rfl⟩
    · refine (State.rd64_wr64 _ _ (by unfold PTPn_OFFSET_LO PTPn_OFFSET_HI; omega)).trans ?_
      exact Nat.mod_eq_of_lt (unsigned_lt 64 _)
    · exact ((State.sameRegs_of_regs_eq rfl).wr _ (by simp)).wr _ (by simp)
  case send =>
    intro n kind pre cap s runs due
    refine ⟨_, ptpMessageSend_sends pre cap runs due, ⟨_, rfl, rfl, rfl, rfl, rfl, rfl⟩, ?_, rfl, fun i ne => ?_, rfl⟩
    · rintro rfl twoStep listed
      exact (congrArg PtpInst.syncTx (State.ptpInst_setPtp_same listed _)).trans (State.ptpSent_syncTx twoStep _ _)
    · exact s.ptpInst_setPtp_ne _ ne
  case oneStep =>
    intro n cap s oneStep
    obtain ⟨ts, corr⟩ := State.ptpMsgOut_oneStepSync oneStep cap
    simp only [ts, corr, wholeNs, State.egress]
    omega
  case timeout =>
    intro n s runs hears source late
    refine ⟨_, announceReceiptTimeout_forgets runs hears source late, ?_, fun listed => ?_, fun i ne => ?_, ?_, rfl⟩
    · rw [State.portState_setPortState_same]
      split <;> rfl
    · rw [State.ptpInst_setPortState, State.ptpInst_setPtp_same listed]
      rfl
    · rw [State.ptpInst_setPortState, s.ptpInst_setPtp_ne _ ne]
    · exact (State.sameRegs_of_regs_eq rfl).wr _ (by simp)

end Sys2Proof.Machine
end

section
/-!
PROOFS. Enabling a nectar port (R118, R143): NEC_PORTn_CFG does more than hold what is written, as a port that is enabled begins with the
tick in progress.
-/
namespace Sys2Proof.Machine

theorem State.butPass.nec_eq {t u : State} (h : t.butPass u) : t.nec = u.nec := by
  unfold State.butPass at h
  rw [h]

/-- Tick 5 has begun, the ingest domain's clock runs, the host may write the nectar block, and no port is enabled. -/
def portOffState : State :=
  { (State.reset.wr GLB_DOMAINS (2 ^ 4)).wr GLB_BAR0_WE_LO (2 ^ 5) with
    tim := { Tim.reset with lastTick := some 5 }, pci := { State.reset.pci with held := false } }

theorem rowOf_NEC_PORTn_CFG_zero :
    rowOf (NEC_PORTn_CFG 0) = some ⟨"NEC_PORTn_CFG", NEC_PORTn_CFG 0, 64, 0x40, 1, 4, .rw, 0, 0xFFFF, false⟩ := by decide +kernel

/-- A write of EN to the configuration of port 0 reaches the register. -/
theorem portOffState_reaches : portOffState.hostReaches .rw (NEC_PORTn_CFG 0) 1 1 :=
  ⟨⟨rfl, by decide, by decide, by decide, by decide +kernel, by decide +kernel, _, rowOf_NEC_PORTn_CFG_zero, rfl, by decide +kernel,
    by decide +kernel⟩, by decide +kernel⟩

theorem portOffState_nothing_due : (nth portOffState.nec.ports 0 NecPort.reset).todo = [] := by decide

/-- Port 0, now enabled, has tick 5 to settle. -/
theorem portOffState_enabled : (nth (portOffState.hostWrite (NEC_PORTn_CFG 0) 1).nec.ports 0 NecPort.reset).todo = [(5, 5)] := by
  decide +kernel

/-- Refutes O34: its clause for NEC_PORTn_CFG has the write change the register alone, but where it sets EN the port's ticks to settle
begin with the tick in progress. -/
theorem not_plainRegistersTakeTheValueWritten : ¬ Obligations.PlainRegistersTakeTheValueWritten := by
  unfold Obligations.PlainRegistersTakeTheValueWritten
  rintro ⟨-, -, -, -, -, necPort, -⟩
  obtain ⟨t, taken, alone⟩ := necPort 0 1 1 portOffState (by decide) portOffState_reaches
  have written : exec (.necPortCfgWrite 0 1) portOffState = .next (portOffState.hostWrite (NEC_PORTn_CFG 0) 1) := rfl
  rw [written, Host.Outcome.next.injEq] at taken
  have kept : t.nec = portOffState.nec := alone.nec_eq
  have due := portOffState_enabled
  rw [taken, kept, portOffState_nothing_due] at due
  exact absurd due (by decide)

end Sys2Proof.Machine
end

section
/-!
PROOFS. Bits and fields of a register that another field of it leaves alone, and the registers outside a list that an operation may change.
-/
namespace Sys2Proof.Machine

/-- Setting a field leaves the bits outside it alone. -/
theorem State.bit_setFd_ne (s : State) (a : Nat) {f : Fld} (v : Nat) {i : Nat} (hf : f.hi < 32) (h : i < f.lo ∨ f.hi < i) :
    (s.setFd a f v).bit a i = s.bit a i := by
  rw [State.bit, State.rd_setFd_same _ _ _ _ hf, bitOf_setBits_ne _ _ _ _ _ h, State.bit]

/-- Setting a bit leaves the fields it lies outside alone. -/
theorem State.fd_setBit_ne (s : State) (a : Nat) {f : Fld} {i : Nat} (b : Bool) (hi : i < 32) (h : f.hi < i ∨ i < f.lo) :
    (s.setBit a i b).fd a f = s.fd a f := by
  rw [State.fd, State.rd_setBit_same _ _ _ _ hi, bitsOf_setBits_ne _ _ _ _ _ _ h, State.fd]

section
variable {s t u : State} {l : List Nat} {a : Nat}

theorem State.sameRegs.setFd (h : s.sameRegs t l) (f : Fld) (v : Nat) (ha : a ∈ l) : s.sameRegs (t.setFd a f v) l := h.wr _ ha

theorem State.sameRegs.trans (h : s.sameRegs t l) (g : t.sameRegs u l) : s.sameRegs u l := fun a ha => (g a ha).trans (h a ha)

theorem State.sameRegs.mono {m : List Nat} (h : s.sameRegs t l) (sub : l ⊆ m) : s.sameRegs t m := fun a ha => h a (mt (@sub a) ha)

theorem State.sameRegs.bit (h : s.sameRegs t l) (ha : a ∉ l) (i : Nat) : t.bit a i = s.bit a i := by
  rw [State.bit, h a ha, State.bit]

theorem State.sameRegs.fd (h : s.sameRegs t l) (ha : a ∉ l) (f : Fld) : t.fd a f = s.fd a f := by
  rw [State.fd, h a ha, State.fd]

end

theorem State.fd_flag_ne (s : State) {a b : Nat} (i : Nat) (f : Fld) (h : b ≠ a) (g : b ≠ PCI_ERR) : (s.flag a i).fd b f = s.fd b f := by
  rw [State.fd, State.rd_flag_ne _ _ h g, State.fd]

theorem State.monLatch_sameRegs (s : State) : s.sameRegs s.monLatch [MON_STATE] :=
  State.sameRegs.monLatch (State.sameRegs_of_regs_eq rfl) (by decide)

end Sys2Proof.Machine
end

section
/-!
PROOFS. The DPLL (R101, R102, R104, R106, R107) and the pulse pins (R112, R113, R115): how LOCKED is entered, how a pull shrinks and ends,
and which pulses leave the part.
-/
namespace Sys2Proof.Machine

/-! ### LOCKED (R101, R102) -/

/-- What entering LOCKED leaves (R101), before the start-up state is latched. -/
def State.locked (s : State) : State :=
  let u := (s.setFd CLK_STATUS CLK_STATUS_STATE 2).flag CLK_HIST 3
  { u with clk := { u.clk with yLog := [signed 32 (s.rd TIM_INCR)] } }

theorem dpllLock_locks {s : State} (acquires : s.dpll = 1) (ref : s.fd CLK_STATUS CLK_STATUS_ACTIVE < 13)
    (long : bitsOf (s.rd CLK_LOCK) 23 16 * 1000000 ≤ s.clk.lockFor) (holds : s.lockHolds (s.fd CLK_STATUS CLK_STATUS_ACTIVE) = true) :
    exec .dpllLock s = .next s.locked.monLatch := by
  have incr : ((s.setFd CLK_STATUS CLK_STATUS_STATE 2).flag CLK_HIST 3).rd TIM_INCR = s.rd TIM_INCR := by
    rw [State.rd_flag_ne _ _ (by decide) (by decide), State.rd_setFd_ne _ _ _ (by decide)]
  show execDpllLock s = _
  have enough : s.fd CLK_LOCK ⟨23, 16⟩ * 1000000 ≤ s.clk.lockFor := long
  simp only [execDpllLock, acquires, ref, enough, holds, incr, decide_true, Bool.and_self, if_true]
  rfl

theorem dpllLock_idle {s : State} (h : s.dpll ≠ 1 ∨ s.clk.lockFor < bitsOf (s.rd CLK_LOCK) 23 16 * 1000000) : Idle .dpllLock s := by
  show execDpllLock s = _
  refine if_neg fun all => ?_
  simp only [Bool.and_eq_true, decide_eq_true_eq] at all
  obtain ⟨⟨⟨acquires, -⟩, long⟩, -⟩ := all
  exact h.elim (· acquires) (long.not_gt ·)

/-- The lock condition of R102 in figures. -/
theorem State.lockHolds_iff (s : State) (act : Nat) : s.lockHolds act = true ↔
    if s.candHasPhase act = true ∧ s.timeValid = true then s.clk.phase.natAbs ≤ bitsOf (s.rd CLK_LOCK) 13 0 * 65536
    else (signed 32 (s.rd (CANDc_FOFS act)) - signed 32 (s.rd TIM_INCR)).natAbs * 1000000000 ≤ 2 ^ 40 := by
  simp only [State.lockHolds, Bool.and_eq_true]
  split <;> exact decide_eq_true_iff

theorem State.locked_sameRegs (s : State) : s.sameRegs s.locked [CLK_STATUS, CLK_HIST, PCI_ERR] :=
  State.sameRegs.flag (State.sameRegs.setFd (State.sameRegs_of_regs_eq rfl) _ _ (by decide)) _ (by decide) (by decide)

theorem State.locked_dpll (s : State) : s.locked.dpll = 2 :=
  (State.fd_flag_ne _ _ _ (by decide) (by decide)).trans (s.fd_setFd_same _ _ _ (by decide))

theorem State.locked_bit (s : State) : s.locked.bit CLK_HIST 3 = 1 := State.bit_flag_same _ _ (by decide) (by decide)

theorem State.locked_clk (s : State) : s.locked.clk = { s.clk with yLog := [signed 32 (s.rd TIM_INCR)] } := by
  simp only [State.locked, State.flag_clk, State.setFd_clk]

theorem State.locked_eq (s : State) :
    s.locked = { s with regs := s.locked.regs, clk := s.locked.clk, pci := s.locked.pci, out := s.locked.out } := by
  unfold State.locked
  rw [State.flag_eq]
  rfl

/-! ### Pulls (R104, R106, R107) -/

theorem pullDone_ends {s : State} (pulling : s.bit CLK_STATUS 2 = 1) (gone : s.clk.phase = 0) :
    exec .pullDone s = .next ((s.setBit CLK_STATUS 2 false).flag CLK_HIST 5) := by
  show execPullDone s = _
  simp [execPullDone, pulling, gone]

theorem pullDone_idle {s : State} (left : s.clk.phase ≠ 0) : Idle .pullDone s := by
  show execPullDone s = _
  simp [execPullDone, left]

/-- By how much a tick of slewing shrinks the difference (R106): SLOPE over a tick with what was left over, and never past zero. -/
def State.slewBy (s : State) : Nat := min ((bitsOf (s.rd CLK_PULL) 9 0 * 65536 + s.clk.slewRem) / 1000000) s.clk.phase.natAbs

/-- The difference `x` after `n` of it have been removed. -/
def shrunk (x : Int) (n : Nat) : Int := x - (if x < 0 then -1 else 1) * (n : Int)

theorem natAbs_shrunk_add {x : Int} {n : Nat} (h : n ≤ x.natAbs) : (shrunk x n).natAbs + n = x.natAbs := by
  unfold shrunk
  split <;> omega

theorem natAbs_sub_shrunk (x : Int) (n : Nat) : (x - shrunk x n).natAbs = n := by
  unfold shrunk
  split <;> omega

theorem State.slew_phase (s : State) : s.slew.2.clk.phase = if s.timeValid = true then shrunk s.clk.phase s.slewBy else s.clk.phase := by
  unfold State.slew
  by_cases zero : s.clk.phase = 0
  · simp [zero, shrunk, State.slewBy]
  · cases valid : s.timeValid
    · simp
    · simp only [zero, decide_false, Bool.not_true, Bool.or_self, Bool.false_eq_true, if_false, if_true]
      rfl

theorem State.slew_eq (s : State) :
    s.slew.2 = { s with clk := { s.clk with phase := s.slew.2.clk.phase, slewRem := s.slew.2.clk.slewRem } } := by
  unfold State.slew
  split <;> rfl

/-- A tick of slewing takes nothing from the difference, or as much of it as SLOPE allows. -/
theorem State.slew_bounds (s : State) :
    s.slew.2.clk.phase.natAbs ≤ s.clk.phase.natAbs
    ∧ (s.clk.phase - s.slew.2.clk.phase).natAbs * 1000000 ≤ bitsOf (s.rd CLK_PULL) 9 0 * 65536 + s.clk.slewRem := by
  have step : s.slewBy ≤ s.clk.phase.natAbs := Nat.min_le_right _ _
  have slope : s.slewBy ≤ (bitsOf (s.rd CLK_PULL) 9 0 * 65536 + s.clk.slewRem) / 1000000 := Nat.min_le_left _ _
  have shrinks := natAbs_shrunk_add step
  rw [s.slew_phase]
  split
  · rw [natAbs_sub_shrunk]
    omega
  · simp

/-! ### Pulses (R112, R113, R115) -/

/-- The pulses of the pins once `pin` has one from `start` on, `width` ns long. -/
def State.pulsesWith (s : State) (pin : Pin) (start : Int) (width : Nat) : List (Pin × Int × Int) :=
  (pin, start, start + 4 * (width : Int)) :: s.clk.pulses.filter (·.1 != pin)

theorem State.pulse_eq (s : State) (pin : Pin) (start : Int) (width : Nat) (low : Bool) :
    s.pulse pin start width low = { s with clk := { s.clk with pulses := s.pulsesWith pin start width }
                                           out := if s.kpr.gap = true then s.out else .pulse pin start width low :: s.out } := by
  by_cases gap : s.kpr.gap = true
  · rw [if_pos gap]
    exact if_pos gap
  · rw [if_neg gap]
    exact if_neg gap

theorem State.pulse_out (s : State) (pin : Pin) (start : Int) (width : Nat) (low : Bool) :
    (s.pulse pin start width low).out = if s.kpr.gap = true then s.out else .pulse pin start width low :: s.out := by
  rw [State.pulse_eq]

theorem State.pulse_regs (s : State) (pin : Pin) (start : Int) (width : Nat) (low : Bool) : (s.pulse pin start width low).regs = s.regs := by
  rw [State.pulse_eq]

/-- The measured edge PPS_OUTn follows (R112): none with SRC at 0, nor where no 1PPS input is active or none has come from it. -/
def State.ppsOutEdge (s : State) (n : Nat) : Option Int :=
  if s.bit (PPS_OUTn_CFG n) 1 = 1 && s.candIsPps (s.fd CLK_STATUS CLK_STATUS_ACTIVE) then s.clk.ppsEdge else none

/-- The instant at which the pulse of PPS_OUTn for hive second `sec` is due (R112). -/
def State.ppsOutStart (s : State) (n sec : Nat) : Int :=
  (sec * 4000000000 : Nat) + (s.ppsOutEdge n).elim 0 (fun e => fromSecond e / 16384) + signed 32 (s.rd (PPS_OUTn_OFS n))

/-- What the pulse of PPS_OUTn for hive second `sec` leaves. -/
def State.ppsOutPulsed (s : State) (n sec : Nat) : State :=
  (s.setBit (PPS_OUTn_STATUS n) 0 (s.bit (PPS_OUTn_CFG n) 1 == 1 && (s.ppsOutEdge n).isNone)).pulse (.ppsOut n) (s.ppsOutStart n sec)
    (s.rd (PPS_OUTn_WIDTH n)) (s.bit (PPS_OUTn_CFG n) 3 == 1)

theorem ppsOutPulse_pulses {n sec : Nat} {s : State} (hn : n < 4) (enabled : s.bit (PPS_OUTn_CFG n) 0 = 1)
    (free : s.squelched (PPS_OUTn_CFG n) = false) (due : s.edgeDue (.ppsOut n) (s.ppsOutStart n sec) = true) :
    exec (.ppsOutPulse n sec) s = .next (s.ppsOutPulsed n sec) := by
  show execPpsOutPulse n sec s = _
  unfold execPpsOutPulse
  extract_lets cfg second ref start
  have startEq : start = s.ppsOutStart n sec := by
    have offset : (match ref with | some e => fromSecond e / 16384 | none => 0) = ref.elim 0 (fun e => fromSecond e / 16384) := by
      cases ref <;> rfl
    exact congrArg (second + · + _) offset
  have width (b : Bool) : (s.setBit (PPS_OUTn_STATUS n) 0 b).rd (PPS_OUTn_WIDTH n) = s.rd (PPS_OUTn_WIDTH n) :=
    s.rd_setBit_ne _ _ (by unfold PPS_OUTn_STATUS PPS_OUTn_WIDTH; omega)
  have polarity (b : Bool) : (s.setBit (PPS_OUTn_STATUS n) 0 b).bit cfg 3 = s.bit cfg 3 := by
    rw [State.bit, State.rd_setBit_ne _ _ _ (by unfold cfg PPS_OUTn_STATUS PPS_OUTn_CFG; omega), State.bit]
  rw [startEq]
  simp only [hn.not_ge, enabled, free, due, cfg, decide_false, Bool.not_true, Bool.or_false, Nat.one_ne_zero, Bool.false_eq_true, if_false]
  rw [width, polarity]
  rfl

theorem tickOutPulse_pulses {k : Nat} {s : State} (enabled : s.bit TICK_OUT_CFG 0 = 1) (free : s.squelched TICK_OUT_CFG = false)
    (multiple : s.fd TICK_OUT_CFG TICK_OUT_CFG_DIV ∣ k) (due : s.edgeDue .tickOut ((k * 4000 : Nat) + signed 32 (s.rd TICK_OUT_OFS)) = true) :
    exec (.tickOutPulse k) s
      = .next (s.pulse .tickOut ((k * 4000 : Nat) + signed 32 (s.rd TICK_OUT_OFS)) (s.rd TICK_OUT_WIDTH) (s.bit TICK_OUT_CFG 3 == 1)) := by
  show execTickOutPulse k s = _
  simp only [execTickOutPulse, enabled, free, due, Nat.mod_eq_zero_of_dvd multiple, ne_eq, not_true_eq_false, decide_false, Bool.not_true,
    Bool.or_false, Nat.one_ne_zero, Bool.false_eq_true, if_false]

/-- With SRC at 0 the alignment instant is the hive second, else the measured edge's distance from its second. -/
theorem State.ppsOutEdge_eq (s : State) (n : Nat) : s.ppsOutEdge n = if s.bit (PPS_OUTn_CFG n) 1 = 0 then none
    else if s.candIsPps (s.fd CLK_STATUS CLK_STATUS_ACTIVE) = true then s.clk.ppsEdge else none := by
  unfold State.ppsOutEdge
  rcases bitOf_cases (s.rd (PPS_OUTn_CFG n)) 1 with own | ref <;> simp [State.bit, *]

theorem State.ppsOutPulsed_fallback (s : State) (n sec : Nat) :
    (s.ppsOutPulsed n sec).bit (PPS_OUTn_STATUS n) 0 = if s.bit (PPS_OUTn_CFG n) 1 = 0 ∨ (s.ppsOutEdge n).isSome = true then 0 else 1 := by
  unfold State.ppsOutPulsed
  rw [(State.sameRegs_of_regs_eq (State.pulse_regs _ _ _ _ _)).bit List.not_mem_nil, State.bit_setBit_same _ _ _ _ (by decide)]
  rcases bitOf_cases (s.rd (PPS_OUTn_CFG n)) 1 with own | ref <;> cases s.ppsOutEdge n <;> simp [State.bit, *]

theorem State.ppsOutPulsed_sameRegs (s : State) (n sec : Nat) : s.sameRegs (s.ppsOutPulsed n sec) [PPS_OUTn_STATUS n] :=
  State.sameRegs.trans (State.sameRegs.setBit (State.sameRegs_of_regs_eq rfl) _ _ (by simp)) (State.sameRegs_of_regs_eq (State.pulse_regs _ _ _ _ _))

/-- Settles O7: the lock condition in figures is the model's; a tick of slewing takes from the difference what SLOPE allows; and each pulse
that is due is given at the instant R112 or R113 states. -/
theorem dpllLocksAndPulsesLeave : Obligations.DpllLocksAndPulsesLeave := by
  unfold Obligations.DpllLocksAndPulsesLeave
  refine ⟨?lock, fun _ => dpllLock_idle, ?pullEnds, fun _ => pullDone_idle, ?slew, ?ppsOut, ?tickOut⟩
  case lock =>
    intro s act acquires ref long holds
    have latched := s.locked.monLatch_sameRegs
    refine ⟨_, dpllLock_locks acquires ref long ((s.lockHolds_iff act).mpr holds), ?_, ?_, s.locked_clk, ?_, ?_⟩
    · exact (latched.fd (by decide) _).trans s.locked_dpll
    · exact (latched.bit (by decide) _).trans s.locked_bit
    · exact (s.locked_sameRegs.mono (by decide)).trans (latched.mono (by decide))
    · show State.monLatch s.locked = _
      rw [s.locked_eq]
      rfl
  case pullEnds =>
    intro s pulling gone
    refine ⟨_, pullDone_ends pulling gone, ?_, State.bit_flag_same _ _ (by decide) (by decide), ?_, ?_, ?_⟩
    · rw [State.bit_flag_ne _ _ _ (by decide) (by decide)]
      exact s.bit_setBit_same _ _ _ (by decide)
    · exact (State.fd_flag_ne _ _ _ (by decide) (by decide)).trans (s.fd_setBit_ne _ _ (by decide) (by decide))
    · exact State.sameRegs.flag (State.sameRegs.setBit (State.sameRegs_of_regs_eq rfl) _ _ (by decide)) _ (by decide) (by decide)
    · rw [State.flag_eq]
      rfl
  case slew =>
    intro s p
    obtain ⟨shrinks, slope⟩ := s.slew_bounds
    refine ⟨Nat.mul_le_mul_right _ shrinks, slope, fun invalid => ?_, s.slew_eq⟩
    exact s.slew_phase.trans (if_neg (by simp [invalid]))
  case ppsOut =>
    intro n sec s hn enabled free own edge start due
    have startEq : start = s.ppsOutStart n sec := by
      have offset : (if own then 0 else match edge with | some e => fromSecond e / 16384 | none => 0)
          = (if own then none else edge).elim 0 (fun e => fromSecond e / 16384) := by
        split
        · rfl
        · cases edge <;> rfl
      rw [State.ppsOutStart, s.ppsOutEdge_eq]
      exact congrArg (((sec * 4000000000 : Nat) : Int) + · + _) offset
    rw [startEq] at due ⊢
    refine ⟨_, ppsOutPulse_pulses hn enabled free due, State.pulse_out _ _ _ _ _, ?_, s.ppsOutPulsed_sameRegs n sec, ?_⟩
    · rw [s.ppsOutPulsed_fallback, s.ppsOutEdge_eq]
      by_cases h : s.bit (PPS_OUTn_CFG n) 1 = 0 <;> simp [own, edge, h]
    · rw [State.ppsOutPulsed, State.pulse_eq]
      rfl
  case tickOut =>
    intro k s enabled free multiple start due
    refine ⟨_, tickOutPulse_pulses enabled free multiple due, State.pulse_out _ _ _ _ _, ?_⟩
    rw [State.pulse_eq]

end Sys2Proof.Machine
end

section
/-!
PROOFS. A reference candidate's record (R92, R99): its STATUS register, its bits of CLK_QUALIFIED and CLK_IN_WTR, the ticks of its wait, and
since when its conditions hold; and what judging a candidate leaves alone.
-/
namespace Sys2Proof.Machine

/-! ### Lists and bits -/

section
variable {α : Type}

@[simp] theorem length_setNth (l : List α) (i : Nat) (v : α) : (setNth l i v).length = l.length := by
  induction l generalizing i with
  | nil => rfl
  | cons x t ih => cases i with
    | zero => rfl
    | succ i => exact congrArg (· + 1) (ih i)

/-- An index set to the default reads as the default, past the end of the list too. -/
theorem nth_setNth_default (l : List α) (i : Nat) (d : α) : nth (setNth l i d) i d = d := by
  by_cases h : i < l.length
  · exact nth_setNth_same d d h
  · exact List.getD_eq_default _ _ (by rw [length_setNth]; omega)

end

theorem State.bit_setBit_other (s : State) {a b : Nat} (i j : Nat) (v : Bool) (h : b ≠ a) : (s.setBit a i v).bit b j = s.bit b j := by
  rw [State.bit, s.rd_setBit_ne _ _ h, State.bit]

theorem State.bit_setFd_other (s : State) {a b : Nat} (f : Fld) (v j : Nat) (h : b ≠ a) : (s.setFd a f v).bit b j = s.bit b j := by
  rw [State.bit, s.rd_setFd_ne _ _ h, State.bit]

/-- A flag that has been set stays set when another is. -/
theorem State.bit_flag_keeps (s : State) {a : Nat} (i j : Nat) (hi : i < 32) (ha : a ≠ PCI_ERR) (h : s.bit a j = 1) : (s.flag a i).bit a j = 1 := by
  by_cases e : j = i
  · rw [e]
    exact s.bit_flag_same i hi ha
  · rwa [State.bit, s.rd_flag_same i hi ha, bitOf_setBits_ne _ _ _ _ _ (by omega)]

theorem CANDc_STATUS_ne {c a : Nat} (h : a < 0x300110) : CANDc_STATUS c ≠ a := by unfold CANDc_STATUS; omega
theorem not_mem_status_pair {c a b : Nat} (h : a < 0x300110) (g : a ≠ b) : a ∉ [CANDc_STATUS c, b] := by
  simp [g, (CANDc_STATUS_ne (c := c) h).symm]

theorem CANDc_STATUS_ne_PCI_ERR (c : Nat) : CANDc_STATUS c ≠ PCI_ERR := by unfold CANDc_STATUS PCI_ERR; omega

/-! ### QUALIFIED -/

theorem State.setQualified_sameRegs (s : State) (c : Nat) (b : Bool) : s.sameRegs (s.setQualified c b) [CANDc_STATUS c, CLK_QUALIFIED] :=
  State.sameRegs.setBit (State.sameRegs.setBit (State.sameRegs_of_regs_eq rfl) _ _ (by simp)) _ _ (by simp)

@[simp] theorem State.candQualified_setQualified (s : State) (c : Nat) (b : Bool) : (s.setQualified c b).candQualified c = b := by
  rw [State.candQualified, State.setQualified, State.bit_setBit_other _ _ _ _ (CANDc_STATUS_ne (by decide)), s.bit_setBit_same _ _ _ (by decide)]
  cases b <;> rfl

theorem State.bit_setQualified (s : State) {c : Nat} (hc : c < 13) (b : Bool) : (s.setQualified c b).bit CLK_QUALIFIED c = if b then 1 else 0 :=
  State.bit_setBit_same _ _ _ _ (by omega)

theorem State.bit_status_setQualified (s : State) (c : Nat) (b : Bool) {i : Nat} (hi : i ≠ 8) :
    (s.setQualified c b).bit (CANDc_STATUS c) i = s.bit (CANDc_STATUS c) i := by
  rw [State.setQualified, State.bit_setBit_other _ _ _ _ (CANDc_STATUS_ne (by decide)), s.bit_setBit_ne _ _ (by decide) hi]

/-! ### Wait to restore -/

theorem State.setWtr_sameRegs (s : State) (c t : Nat) : s.sameRegs (s.setWtr c t) [CANDc_STATUS c, CLK_IN_WTR] :=
  State.sameRegs.setFd (State.sameRegs.setBit (State.sameRegs.setBit (State.sameRegs_of_regs_eq rfl) _ _ (by simp)) _ _ (by simp)) _ _ (by simp)

theorem State.setWtr_eq (s : State) (c t : Nat) :
    s.setWtr c t = { s with regs := (s.setWtr c t).regs, clk := { s.clk with wtrTicks := setNth s.clk.wtrTicks c t } } := rfl

@[simp] theorem State.candInWtr_setWtr (s : State) (c t : Nat) : (s.setWtr c t).candInWtr c = (t != 0) := by
  rw [State.candInWtr, State.setWtr, State.bit_setFd_ne _ _ _ (by decide) (by decide),
    State.bit_setBit_other _ _ _ _ (CANDc_STATUS_ne (by decide)), State.bit_setBit_same _ _ _ _ (by decide)]
  cases t != 0 <;> rfl

theorem State.bit_setWtr_zero (s : State) {c : Nat} (hc : c < 13) : (s.setWtr c 0).bit CLK_IN_WTR c = 0 := by
  rw [State.setWtr, State.bit_setFd_other _ _ _ _ (CANDc_STATUS_ne (by decide)).symm, State.bit_setBit_same _ _ _ _ (by omega)]
  rfl

theorem State.bit_status_setWtr (s : State) (c t : Nat) {i : Nat} (hi : i < 9) : (s.setWtr c t).bit (CANDc_STATUS c) i = s.bit (CANDc_STATUS c) i := by
  rw [State.setWtr, State.bit_setFd_ne _ _ _ (by decide) (.inl (show i < 16 by omega)),
    State.bit_setBit_other _ _ _ _ (CANDc_STATUS_ne (by decide)), State.bit_setBit_ne _ _ _ (by decide) (by omega)]
  rfl

@[simp] theorem State.candQualified_setWtr (s : State) (c t : Nat) : (s.setWtr c t).candQualified c = s.candQualified c := by
  rw [State.candQualified, s.bit_status_setWtr _ _ (by decide), State.candQualified]

/-! ### What judging a candidate leaves alone -/

/-- `t` is `s` after a judgement of candidate c: of the registers only its STATUS, QUALIFIED and waits of the candidates and the flags may
differ, ACTIVITY stays and a flag set stays set; beside the registers its wait, its first loss and since when its conditions hold. -/
structure State.judged (s : State) (c : Nat) (t : State) : Prop where
  regs : s.sameRegs t [CANDc_STATUS c, CLK_QUALIFIED, CLK_IN_WTR, CLK_HIST, PCI_ERR]
  activity : t.bit (CANDc_STATUS c) 0 = s.bit (CANDc_STATUS c) 0
  flags : ∀ i, s.bit CLK_HIST i = 1 → t.bit CLK_HIST i = 1
  length : t.clk.okSince.length = s.clk.okSince.length
  frame : ∃ r wtr lost ok p o, t = { s with
    regs := r, clk := { s.clk with wtrTicks := wtr, lostOnce := lost, okSince := ok }, pci := p, out := o }

namespace State.judged
variable {s t u : State} {c : Nat}

theorem refl : s.judged c s := ⟨fun _ _ => rfl, rfl, fun _ => id, rfl, _, _, _, _, _, _, rfl⟩

theorem trans (h : s.judged c t) (g : t.judged c u) : s.judged c u := by
  refine ⟨h.regs.trans g.regs, g.activity.trans h.activity, fun i => g.flags i ∘ h.flags i, g.length.trans h.length, ?_⟩
  obtain ⟨_, _, _, _, _, _, rfl⟩ := h.frame
  obtain ⟨_, _, _, _, _, _, rfl⟩ := g.frame
  exact ⟨_, _, _, _, _, _, rfl⟩

theorem edgeAt (h : s.judged c t) : t.clk.edgeAt = s.clk.edgeAt := by
  obtain ⟨_, _, _, _, _, _, rfl⟩ := h.frame
  rfl

theorem ppsEdge (h : s.judged c t) : t.clk.ppsEdge = s.clk.ppsEdge := by
  obtain ⟨_, _, _, _, _, _, rfl⟩ := h.frame
  rfl

theorem phase (h : s.judged c t) : t.clk.phase = s.clk.phase := by
  obtain ⟨_, _, _, _, _, _, rfl⟩ := h.frame
  rfl

theorem tim (h : s.judged c t) : t.tim = s.tim := by
  obtain ⟨_, _, _, _, _, _, rfl⟩ := h.frame
  rfl

theorem eq (h : s.judged c t) : t = { s with regs := t.regs, clk := t.clk, pci := t.pci, out := t.out } := by
  obtain ⟨_, _, _, _, _, _, rfl⟩ := h.frame
  rfl

end State.judged

theorem State.judged_setQualified (s : State) (c : Nat) (b : Bool) : s.judged c (s.setQualified c b) where
  regs := (s.setQualified_sameRegs c b).mono (by simp)
  activity := s.bit_status_setQualified c b (by decide)
  flags i h := ((s.setQualified_sameRegs c b).bit (not_mem_status_pair (by decide) (by decide)) i).trans h
  length := rfl
  frame := ⟨_, _, _, _, _, _, rfl⟩

theorem State.judged_setWtr (s : State) (c t : Nat) : s.judged c (s.setWtr c t) where
  regs := (s.setWtr_sameRegs c t).mono (by simp)
  activity := s.bit_status_setWtr c t (by decide)
  flags i h := ((s.setWtr_sameRegs c t).bit (not_mem_status_pair (by decide) (by decide)) i).trans h
  length := by rw [State.setWtr_eq]
  frame := ⟨_, _, _, _, _, _, s.setWtr_eq c t⟩

theorem State.judged_flag (s : State) (c : Nat) {i : Nat} (hi : i < 32) : s.judged c (s.flag CLK_HIST i) where
  regs := State.sameRegs.flag (State.sameRegs_of_regs_eq rfl) _ (by simp) (by simp)
  activity := s.bit_flag_ne _ _ (CANDc_STATUS_ne (by decide)) (CANDc_STATUS_ne_PCI_ERR c)
  flags j := s.bit_flag_keeps i j hi (by decide)
  length := by rw [State.flag_clk]
  frame := by
    rw [State.flag_eq]
    exact ⟨_, _, _, _, _, _, rfl⟩

theorem State.judged_setOk (s : State) (c : Nat) (v : Option Nat) : s.judged c (s.setOk c v) where
  regs := State.sameRegs_of_regs_eq rfl
  activity := rfl
  flags _ := id
  length := length_setNth _ _ _
  frame := ⟨_, _, _, _, _, _, rfl⟩

theorem State.judged_when {s : State} {c : Nat} (b : Bool) {f : State → State} (h : s.judged c (f s)) : s.judged c (s.when b f) := by
  cases b
  · exact .refl
  · exact h

theorem State.judged_passCand (s : State) (c : Nat) : s.judged c (s.passCand c) := by
  unfold State.passCand
  split
  · exact s.judged_setOk c _
  · exact .refl

/-! ### The loss of QUALIFIED (R92) -/

theorem State.loseCand_of_not_qualified {s : State} {c : Nat} (h : s.candQualified c = false) : s.loseCand c = s := by
  simp [State.loseCand, h]

/-- QUALIFIED and the wait are gone. -/
def State.unqualified (s : State) (c : Nat) : State := (s.setQualified c false).setWtr c 0

/-- An enabled candidate has lost QUALIFIED, so that its next qualification waits (R99). -/
def State.losesOnce (s : State) (c : Nat) : State := { s with clk := { s.clk with lostOnce := setNth s.clk.lostOnce c true } }

theorem State.unqualified_sameRegs (s : State) (c : Nat) : s.sameRegs (s.unqualified c) [CANDc_STATUS c, CLK_QUALIFIED, CLK_IN_WTR] :=
  ((s.setQualified_sameRegs c false).mono (by simp)).trans ((State.setWtr_sameRegs _ c 0).mono (by simp))

theorem State.candEn_unqualified (s : State) (c : Nat) : (s.unqualified c).candEn c = s.candEn c := by
  have cfg : CANDc_CFG c ∉ [CANDc_STATUS c, CLK_QUALIFIED, CLK_IN_WTR] := by
    simp only [List.mem_cons, List.not_mem_nil, or_false]
    unfold CANDc_CFG CANDc_STATUS CLK_QUALIFIED CLK_IN_WTR
    omega
  rw [State.candEn, (s.unqualified_sameRegs c).bit cfg, State.candEn]

theorem State.loseCand_of_qualified {s : State} {c : Nat} (h : s.candQualified c = true) :
    s.loseCand c = (s.unqualified c).when (s.candEn c) fun u => (u.losesOnce c).flag CLK_HIST 0 := by
  rw [← s.candEn_unqualified c, State.loseCand]
  simp only [h, Bool.not_true, Bool.false_eq_true, if_false]
  rfl

theorem State.judged_losesOnce (s : State) (c : Nat) : s.judged c (s.losesOnce c) where
  regs := State.sameRegs_of_regs_eq rfl
  activity := rfl
  flags _ := id
  length := rfl
  frame := ⟨_, _, _, _, _, _, rfl⟩

theorem State.judged_loseCand (s : State) (c : Nat) : s.judged c (s.loseCand c) := by
  cases h : s.candQualified c
  · rw [State.loseCand_of_not_qualified h]
    exact .refl
  · rw [State.loseCand_of_qualified h]
    have gone : s.judged c (s.unqualified c) := (s.judged_setQualified c false).trans (State.judged_setWtr _ c 0)
    exact gone.trans (State.judged_when _ ((State.judged_losesOnce _ c).trans (State.judged_flag _ c (by decide))))

theorem State.judged_failCand (s : State) (c : Nat) : s.judged c (s.failCand c) := (s.judged_setOk c none).trans (State.judged_loseCand _ c)

/-- Noting the loss touches neither QUALIFIED nor the wait. -/
theorem State.bit_noteLoss (s : State) (c : Nat) (b : Bool) {a : Nat} (i : Nat) (ha : a ≠ CLK_HIST) (hp : a ≠ PCI_ERR) :
    (s.when b fun u => (u.losesOnce c).flag CLK_HIST 0).bit a i = s.bit a i := by
  have same : s.sameRegs (s.losesOnce c) [] := State.sameRegs_of_regs_eq rfl
  cases b
  · rw [State.when_false]
  · rw [State.when_true, State.bit_flag_ne _ _ _ ha hp, same.bit List.not_mem_nil]

theorem State.candQualified_unqualified (s : State) (c : Nat) : (s.unqualified c).candQualified c = false := by
  rw [State.unqualified, State.candQualified_setWtr, State.candQualified_setQualified]

theorem State.candQualified_loseCand (s : State) (c : Nat) : (s.loseCand c).candQualified c = false := by
  cases h : s.candQualified c
  · rwa [State.loseCand_of_not_qualified h]
  · rw [State.loseCand_of_qualified h, State.candQualified, State.bit_noteLoss _ _ _ _ (CANDc_STATUS_ne (by decide)) (CANDc_STATUS_ne_PCI_ERR c)]
    exact s.candQualified_unqualified c

theorem State.loseCand_okSince (s : State) (c : Nat) : (s.loseCand c).clk.okSince = s.clk.okSince := by
  cases h : s.candQualified c
  · rw [State.loseCand_of_not_qualified h]
  · rw [State.loseCand_of_qualified h]
    cases s.candEn c
    · rfl
    · rw [State.when_true, State.flag_clk]
      rfl

/-- A candidate that was QUALIFIED loses its bit of CLK_QUALIFIED and its wait, and sets LOSS where it is enabled. -/
theorem State.loseCand_clears {s : State} {c : Nat} (hc : c < 13) (h : s.candQualified c = true) :
    (s.loseCand c).bit CLK_QUALIFIED c = 0 ∧ (s.loseCand c).candInWtr c = false ∧ (s.candEn c = true → (s.loseCand c).bit CLK_HIST 0 = 1) := by
  rw [State.loseCand_of_qualified h]
  refine ⟨?_, ?_, fun enabled => ?_⟩
  · rw [State.bit_noteLoss _ _ _ _ (by decide) (by decide), State.unqualified,
      (State.setWtr_sameRegs _ c 0).bit (not_mem_status_pair (by decide) (by decide)), s.bit_setQualified hc]
    rfl
  · rw [State.candInWtr, State.bit_noteLoss _ _ _ _ (CANDc_STATUS_ne (by decide)) (CANDc_STATUS_ne_PCI_ERR c)]
    exact State.candInWtr_setWtr _ c 0
  · rw [enabled]
    exact State.bit_flag_same _ _ (by decide) (by decide)

/-- The same of a condition's failure. -/
theorem State.failCand_clears {s : State} {c : Nat} (hc : c < 13) (h : s.candQualified c = true) :
    (s.failCand c).bit CLK_QUALIFIED c = 0 ∧ (s.failCand c).candInWtr c = false ∧ (s.candEn c = true → (s.failCand c).bit CLK_HIST 0 = 1) := by
  have same : s.sameRegs (s.setOk c none) [] := State.sameRegs_of_regs_eq rfl
  have qualified : (s.setOk c none).candQualified c = s.candQualified c := congrArg (· == 1) (same.bit List.not_mem_nil 8)
  have enabled : (s.setOk c none).candEn c = s.candEn c := congrArg (· == 1) (same.bit List.not_mem_nil 0)
  rw [← enabled]
  exact State.loseCand_clears hc (qualified.trans h)

theorem State.candQualified_failCand (s : State) (c : Nat) : (s.failCand c).candQualified c = false := State.candQualified_loseCand _ c

theorem State.failCand_okSince (s : State) (c : Nat) : nth (s.failCand c).clk.okSince c none = none := by
  rw [State.failCand, State.loseCand_okSince]
  exact nth_setNth_default _ _ _

/-- The conditions of a candidate hold since some microsecond. -/
theorem State.passCand_okSince {s : State} {c : Nat} (h : c < s.clk.okSince.length) : (nth (s.passCand c).clk.okSince c none).isSome = true := by
  unfold State.passCand
  cases since : nth s.clk.okSince c none with
  | none => exact congrArg Option.isSome (nth_setNth_same _ _ h)
  | some t => exact congrArg Option.isSome since

theorem State.passCand_regs (s : State) (c : Nat) : (s.passCand c).regs = s.regs := by
  unfold State.passCand
  split <;> rfl

end Sys2Proof.Machine
end

section
/-!
PROOFS. Qualification and loss of a reference candidate (R92, R99): the conditions of Table 4-4 as they last and as they fail.
-/
namespace Sys2Proof.Machine

/-! ### What is measured of a candidate -/

/-- FOFS of candidate c holds the measured offset. -/
def State.noteFofs (s : State) (c : Nat) (fofs : Int) : State := s.wr (CANDc_FOFS c) (unsigned 32 fofs)

theorem State.noteFofs_sameRegs (s : State) (c : Nat) (fofs : Int) : s.sameRegs (s.noteFofs c fofs) [CANDc_FOFS c] :=
  State.sameRegs.wr (State.sameRegs_of_regs_eq rfl) _ (by simp)

theorem State.rd_noteFofs (s : State) (c : Nat) (fofs : Int) : (s.noteFofs c fofs).rd (CANDc_FOFS c) = unsigned 32 fofs :=
  (s.rd_wr_same _ _).trans (Nat.mod_eq_of_lt (unsigned_lt 32 fofs))

theorem CANDc_FOFS_ne_STATUS (c : Nat) : CANDc_FOFS c ≠ CANDc_STATUS c := by unfold CANDc_FOFS CANDc_STATUS; omega
theorem CANDc_QTOL_ne_FOFS (c : Nat) : CANDc_QTOL c ≠ CANDc_FOFS c := by unfold CANDc_QTOL CANDc_FOFS; omega
theorem CANDc_FOFS_ne_of_lt {c a : Nat} (h : a < 0x300114) : a ≠ CANDc_FOFS c := by unfold CANDc_FOFS; omega

/-- The other registers of the candidates are none of those that judging one changes. -/
theorem not_mem_judged {c a : Nat} (lo : 0x300100 ≤ a) (hi : a < 0x400000) (status : a ≠ CANDc_STATUS c) :
    a ∉ [CANDc_STATUS c, CLK_QUALIFIED, CLK_IN_WTR, CLK_HIST, PCI_ERR] := by
  simp only [List.mem_cons, List.not_mem_nil, or_false, status, false_or]
  unfold CLK_QUALIFIED CLK_IN_WTR CLK_HIST PCI_ERR
  omega

/-- Neither a candidate's FOFS nor its STATUS but for QL decides whether its conditions hold. -/
theorem State.candHolds_congr {s t : State} {c : Nat} (hc : c < 13) (regs : s.sameRegs t [CANDc_FOFS c, CANDc_STATUS c])
    (ql : t.candQl c = s.candQl c) (edgeAt : t.clk.edgeAt = s.clk.edgeAt) (tim : t.tim = s.tim) : t.candHolds c = s.candHolds c := by
  have reg {a : Nat} (h : a ≠ CANDc_FOFS c) (g : a ≠ CANDc_STATUS c) : t.rd a = s.rd a := regs a (by simp [h, g])
  have above {a : Nat} (h : 0x400000 ≤ a) : t.rd a = s.rd a :=
    reg (by unfold CANDc_FOFS; omega) (by unfold CANDc_STATUS; omega)
  have cfg : t.rd (CANDc_CFG c) = s.rd (CANDc_CFG c) :=
    reg (by unfold CANDc_CFG CANDc_FOFS; omega) (by unfold CANDc_CFG CANDc_STATUS; omega)
  have status : t.rd TIM_STATUS = s.rd TIM_STATUS := above (by decide)
  have ctrl : t.rd TIM_CTRL = s.rd TIM_CTRL := above (by decide)
  have ptp (n : Nat) : t.rd (PTPn_CFG n) = s.rd (PTPn_CFG n) := above (by unfold PTPn_CFG; omega)
  have state (n : Nat) : t.rd (PTPn_STATE n) = s.rd (PTPn_STATE n) := above (by unfold PTPn_STATE; omega)
  have eth (n : Nat) : t.rd (ETHn_STATUS n) = s.rd (ETHn_STATUS n) := above (by unfold ETHn_STATUS; omega)
  simp only [State.candHolds, State.candIsPps, State.bit, State.fd, ql, edgeAt, tim, cfg, status, ctrl, ptp, state, eth]
  rfl

theorem State.candHolds_noteFofs (s : State) {c : Nat} (hc : c < 13) (fofs : Int) : (s.noteFofs c fofs).candHolds c = s.candHolds c :=
  State.candHolds_congr hc ((s.noteFofs_sameRegs c fofs).mono (by simp))
    ((s.noteFofs_sameRegs c fofs).fd (by simp) _) rfl rfl

theorem State.fofsOk_congr {s t : State} {c : Nat} (h : t.rd (CANDc_QTOL c) = s.rd (CANDc_QTOL c)) (fofs : Int) :
    t.fofsOk c fofs = s.fofsOk c fofs := by
  rw [State.fofsOk, h, State.fofsOk]

/-! ### QUALIFIED (R92, R99) -/

theorem State.qualifyCand_of_new {s : State} {c : Nat} (h : s.candQualified c = false) (new : nth s.clk.lostOnce c false = false) :
    s.qualifyCand c = s.setQualified c true := by
  have new' : nth (s.setQualified c true).clk.lostOnce c false = false := new
  simp only [State.qualifyCand, h, new', Bool.false_eq_true, if_false]

/-- The ticks a candidate waits to restore. -/
def State.wtrWait (s : State) : Nat := bitsOf (s.rd CLK_WTR) 11 0 * 1000000

theorem State.qualifyCand_of_lostOnce {s : State} {c : Nat} (h : s.candQualified c = false) (lost : nth s.clk.lostOnce c false = true) :
    s.qualifyCand c = (s.setQualified c true).setWtr c s.wtrWait := by
  have lost' : nth (s.setQualified c true).clk.lostOnce c false = true := lost
  have wtr : (s.setQualified c true).rd CLK_WTR = s.rd CLK_WTR :=
    s.setQualified_sameRegs c true _ (not_mem_status_pair (by decide) (by decide))
  simp only [State.qualifyCand, h, lost', Bool.false_eq_true, if_false, if_true, State.fd, wtr]
  rfl

/-- A candidate that was not QUALIFIED is, and its bit of CLK_QUALIFIED says so. -/
theorem State.qualifyCand_qualifies {s : State} {c : Nat} (hc : c < 13) (h : s.candQualified c = false) :
    (s.qualifyCand c).candQualified c = true ∧ (s.qualifyCand c).bit CLK_QUALIFIED c = 1 := by
  cases lost : nth s.clk.lostOnce c false
  · rw [State.qualifyCand_of_new h lost]
    exact ⟨s.candQualified_setQualified c true, s.bit_setQualified hc true⟩
  · rw [State.qualifyCand_of_lostOnce h lost, State.candQualified_setWtr,
      (State.setWtr_sameRegs _ c _).bit (not_mem_status_pair (by decide) (by decide))]
    exact ⟨s.candQualified_setQualified c true, s.bit_setQualified hc true⟩

theorem State.qualifyCand_frame {s : State} {c : Nat} (h : s.candQualified c = false) :
    s.sameRegs (s.qualifyCand c) [CANDc_STATUS c, CLK_QUALIFIED, CLK_IN_WTR] ∧ ∃ r k, s.qualifyCand c = { s with regs := r, clk := k } := by
  have qualified : s.sameRegs (s.setQualified c true) [CANDc_STATUS c, CLK_QUALIFIED, CLK_IN_WTR] := (s.setQualified_sameRegs c true).mono (by simp)
  cases lost : nth s.clk.lostOnce c false
  · rw [State.qualifyCand_of_new h lost]
    exact ⟨qualified, _, _, rfl⟩
  · rw [State.qualifyCand_of_lostOnce h lost]
    exact ⟨qualified.trans ((State.setWtr_sameRegs _ c _).mono (by simp)), _, _, State.setWtr_eq _ c _⟩

theorem candidateQualify_qualifies {c since : Nat} {fofs : Int} {s : State} (hc : c < 13) (ok : nth s.clk.okSince c none = some since)
    (long : since + bitsOf (s.rd (CANDc_QTOL c)) 23 16 * 1000000 ≤ s.tim.us) (holds : s.candHolds c = true)
    (tolerated : c = 8 ∨ s.fofsOk c fofs = true) : exec (.candidateQualify c fofs) s = .next ((s.noteFofs c fofs).qualifyCand c) := by
  have qtol : (s.noteFofs c fofs).rd (CANDc_QTOL c) = s.rd (CANDc_QTOL c) := s.rd_wr_ne _ (CANDc_QTOL_ne_FOFS c)
  have lasted : (s.noteFofs c fofs).candLong c = true := by
    have ok' : nth (s.noteFofs c fofs).clk.okSince c none = some since := ok
    rw [State.candLong, ok', qtol]
    exact decide_eq_true long
  have within : (decide (c = 8) || (s.noteFofs c fofs).fofsOk c fofs) = true := by
    rwa [State.fofsOk_congr qtol, Bool.or_eq_true, decide_eq_true_eq]
  have met : ((s.noteFofs c fofs).candLong c && (s.noteFofs c fofs).candHolds c && (decide (c = 8) || (s.noteFofs c fofs).fofsOk c fofs)) = true := by
    rw [lasted, s.candHolds_noteFofs hc, holds, within]
    rfl
  show execCandidateQualify c fofs s = _
  rw [execCandidateQualify, if_neg hc.not_ge]
  exact congrArg Host.Outcome.next (if_pos met)

/-! ### The loss of a condition (R92) -/

/-- Only the phase of a 1PPS candidate failed while time is valid. -/
def State.phaseOnly (s : State) (c : Nat) (far : Bool) : Bool := far && s.candIsPps c && s.timeValid

/-- PHASE_FAR is set where only the phase failed. -/
def State.lossNoted (s : State) (c : Nat) (far : Bool) : State := s.when (s.phaseOnly c far) (·.flag CLK_HIST 6)

theorem State.judged_lossNoted (s : State) (c : Nat) (far : Bool) : s.judged c (s.lossNoted c far) :=
  State.judged_when _ (s.judged_flag c (by decide))

theorem State.bit_lossNoted (s : State) (c : Nat) (far : Bool) {a : Nat} (i : Nat) (ha : a ≠ CLK_HIST) (hp : a ≠ PCI_ERR) :
    (s.lossNoted c far).bit a i = s.bit a i := by
  unfold State.lossNoted
  cases s.phaseOnly c far
  · rw [State.when_false]
  · exact s.bit_flag_ne _ _ ha hp

theorem State.candQualified_lossNoted (s : State) (c : Nat) (far : Bool) : (s.lossNoted c far).candQualified c = s.candQualified c :=
  congrArg (· == 1) (s.bit_lossNoted c far 8 (CANDc_STATUS_ne (by decide)) (CANDc_STATUS_ne_PCI_ERR c))

theorem State.candEn_lossNoted (s : State) (c : Nat) (far : Bool) : (s.lossNoted c far).candEn c = s.candEn c :=
  congrArg (· == 1) (s.bit_lossNoted c far 0 (by unfold CANDc_CFG CLK_HIST; omega) (by unfold CANDc_CFG PCI_ERR; omega))

theorem State.lossNoted_phaseFar {s : State} {c : Nat} (pps : s.candIsPps c = true) (valid : s.timeValid = true) :
    (s.lossNoted c true).bit CLK_HIST 6 = 1 := by
  rw [State.lossNoted, State.phaseOnly, pps, valid]
  exact s.bit_flag_same _ (by decide) (by decide)

theorem candidateLoss_fails {c : Nat} (far : Bool) {s : State} (hc : c < 13) (failed : c ≠ 8 ∨ s.candHolds 8 = false) :
    exec (.candidateLoss c far) s = .next ((s.lossNoted c far).failCand c) := by
  show execCandidateLoss c far s = _
  refine if_neg fun idle => ?_
  simp only [Bool.or_eq_true, Bool.and_eq_true, decide_eq_true_eq] at idle
  rcases idle with past | ⟨ptp, holds⟩
  · omega
  · rcases failed with other | fails
    · exact other ptp
    · rw [fails] at holds
      contradiction

end Sys2Proof.Machine
end

section
/-!
PROOFS. An edge of a 1PPS input (R91, R92): what is measured of it, and how it judges its candidate.
-/
namespace Sys2Proof.Machine

/-- The edge is noted: its frequency offset, and ACTIVITY. -/
def State.ppsNoted (s : State) (c : Nat) (fofs : Int) : State := (s.noteFofs c fofs).setBit (CANDc_STATUS c) 0 true

/-- The distance of an edge from its second. -/
def State.ppsOffset (s : State) (c : Nat) (edge : Int) : Int := fromSecond (s.capture edge - signed 32 (s.rd (CANDc_DLY c)) * 16384)

/-- The phase condition of Table 4-4 fails. -/
def State.ppsFar (s : State) (off : Int) : Bool := s.timeValid && decide ((s.fd TIM_STEP_THR TIM_STEP_THR_THR * 65536 : Nat) < off.natAbs)

theorem State.ppsFar_eq_false_iff (s : State) (off : Int) : s.ppsFar off = false ↔ s.timeValid = false ∨ (off.natAbs : Int) ≤ s.stepThr := by
  have near : ¬ s.fd TIM_STEP_THR TIM_STEP_THR_THR * 65536 < off.natAbs ↔ (off.natAbs : Int) ≤ s.stepThr := Nat.not_lt.trans Int.ofNat_le.symm
  exact Bool.and_eq_false_iff.trans (or_congr_right (decide_eq_false_iff_not.trans near))

theorem State.ppsNoted_sameRegs (s : State) (c : Nat) (fofs : Int) : s.sameRegs (s.ppsNoted c fofs) [CANDc_FOFS c, CANDc_STATUS c] :=
  State.sameRegs.setBit ((s.noteFofs_sameRegs c fofs).mono (by simp)) _ _ (by simp)

theorem State.ppsMeasured_of_active {s : State} {c : Nat} (e off : Int) (far : Bool) (h : s.fd CLK_STATUS CLK_STATUS_ACTIVE = c) :
    ∃ ofs b, s.ppsMeasured c e off far = { s with
      clk := { s.clk with edgeAt := setNth s.clk.edgeAt c (some s.tim.us), edgeOfs := ofs, ppsEdge := some e, phase := if far then s.clk.phase else off }
      tim := { s.tim with todEdge := b } } := ⟨_, _, if_pos h⟩

theorem State.ppsMeasured_of_other {s : State} {c : Nat} (e off : Int) (far : Bool) (h : s.fd CLK_STATUS CLK_STATUS_ACTIVE ≠ c) :
    ∃ ofs, s.ppsMeasured c e off far = { s with clk := { s.clk with edgeAt := setNth s.clk.edgeAt c (some s.tim.us), edgeOfs := ofs } } :=
  ⟨_, if_neg h⟩

/-- Whichever reference is active, the edge is noted, and the registers and the candidates' records stay. -/
theorem State.ppsMeasured_frame (s : State) (c : Nat) (e off : Int) (far : Bool) :
    ∃ ofs edge phase b, s.ppsMeasured c e off far = { s with
      clk := { s.clk with edgeAt := setNth s.clk.edgeAt c (some s.tim.us), edgeOfs := ofs, ppsEdge := edge, phase := phase }
      tim := { s.tim with todEdge := b } } := by
  by_cases h : s.fd CLK_STATUS CLK_STATUS_ACTIVE = c
  · obtain ⟨ofs, b, eq⟩ := State.ppsMeasured_of_active e off far h
    exact ⟨ofs, _, _, b, eq⟩
  · obtain ⟨ofs, eq⟩ := State.ppsMeasured_of_other e off far h
    exact ⟨ofs, _, _, _, eq⟩

theorem State.capture_ppsNoted (s : State) (c : Nat) (fofs edge : Int) : (s.ppsNoted c fofs).capture edge = s.capture edge := rfl

theorem State.ppsOffset_ppsNoted (s : State) (c : Nat) (fofs edge : Int) : (s.ppsNoted c fofs).ppsOffset c edge = s.ppsOffset c edge := by
  have dly : CANDc_DLY c ∉ [CANDc_FOFS c, CANDc_STATUS c] := by simp
  rw [State.ppsOffset, s.ppsNoted_sameRegs c fofs _ dly, State.capture_ppsNoted, State.ppsOffset]

theorem State.ppsFar_ppsNoted (s : State) {c : Nat} (hc : c < 8) (fofs off : Int) : (s.ppsNoted c fofs).ppsFar off = s.ppsFar off := by
  have tim {a : Nat} (h : 0x400000 ≤ a) : a ∉ [CANDc_FOFS c, CANDc_STATUS c] := by
    simp only [List.mem_cons, List.not_mem_nil, or_false]
    unfold CANDc_FOFS CANDc_STATUS
    omega
  rw [State.ppsFar, State.timeValid, (s.ppsNoted_sameRegs c fofs).bit (tim (by decide)), (s.ppsNoted_sameRegs c fofs).fd (tim (by decide)),
    State.ppsFar, State.timeValid]

theorem State.fd_ppsNoted_active (s : State) (c : Nat) (fofs : Int) :
    (s.ppsNoted c fofs).fd CLK_STATUS CLK_STATUS_ACTIVE = s.fd CLK_STATUS CLK_STATUS_ACTIVE :=
  (s.ppsNoted_sameRegs c fofs).fd (by simp [CANDc_FOFS_ne_of_lt (c := c) (a := CLK_STATUS) (by decide),
    (CANDc_STATUS_ne (c := c) (a := CLK_STATUS) (by decide)).symm]) _

theorem State.bit_status_ppsNoted (s : State) (c : Nat) (fofs : Int) {i : Nat} (hi : i ≠ 0) :
    (s.ppsNoted c fofs).bit (CANDc_STATUS c) i = s.bit (CANDc_STATUS c) i := by
  rw [State.ppsNoted, State.bit_setBit_ne _ _ _ (by decide) hi, (s.noteFofs_sameRegs c fofs).bit (by simp)]

theorem State.candHolds_ppsNoted (s : State) {c : Nat} (hc : c < 13) (fofs : Int) : (s.ppsNoted c fofs).candHolds c = s.candHolds c := by
  have ql : (s.ppsNoted c fofs).candQl c = s.candQl c := by
    rw [State.candQl, State.ppsNoted, State.fd_setBit_ne _ _ _ (by decide) (by decide), (s.noteFofs_sameRegs c fofs).fd (by simp), State.candQl]
  exact State.candHolds_congr hc (s.ppsNoted_sameRegs c fofs) ql rfl rfl

/-- Where no edge had come in time before this one, the conditions had failed. -/
def State.ppsTimed (s : State) (c : Nat) : State := s.when (!s.candHolds c) (·.failCand c)

theorem State.judged_ppsTimed (s : State) (c : Nat) : s.judged c (s.ppsTimed c) := State.judged_when _ (s.judged_failCand c)

/-- The edge measured. -/
def State.ppsSeen (s : State) (c : Nat) (edge : Int) : State :=
  (s.ppsTimed c).ppsMeasured c (s.capture edge) (s.ppsOffset c edge) (s.ppsFar (s.ppsOffset c edge))

/-- The conditions hold, or one has failed; where only the phase condition did, PHASE_FAR says so. -/
def State.ppsJudged (s : State) (c : Nat) (far good : Bool) : State :=
  if !far && good then s.passCand c else (s.when (far && good) (·.flag CLK_HIST 6)).failCand c

theorem State.judged_ppsJudged (s : State) (c : Nat) (far good : Bool) : s.judged c (s.ppsJudged c far good) := by
  unfold State.ppsJudged
  split
  · exact s.judged_passCand c
  · exact (State.judged_when _ (s.judged_flag c (by decide))).trans (State.judged_failCand _ c)

theorem State.ppsSeen_frame (s : State) (c : Nat) (edge : Int) :
    ∃ ofs e phase b, s.ppsSeen c edge = { s.ppsTimed c with
      clk := { (s.ppsTimed c).clk with edgeAt := setNth s.clk.edgeAt c (some s.tim.us), edgeOfs := ofs, ppsEdge := e, phase := phase }
      tim := { s.tim with todEdge := b } } := by
  rw [← (s.judged_ppsTimed c).edgeAt, ← (s.judged_ppsTimed c).tim]
  exact State.ppsMeasured_frame _ _ _ _ _

theorem State.ppsSeen_sameRegs (s : State) (c : Nat) (edge : Int) :
    s.sameRegs (s.ppsSeen c edge) [CANDc_STATUS c, CLK_QUALIFIED, CLK_IN_WTR, CLK_HIST, PCI_ERR] := by
  obtain ⟨_, _, _, _, eq⟩ := s.ppsSeen_frame c edge
  rw [eq]
  exact (s.judged_ppsTimed c).regs.trans (State.sameRegs_of_regs_eq rfl)

theorem State.bit_ppsSeen (s : State) (c : Nat) (edge : Int) (a i : Nat) : (s.ppsSeen c edge).bit a i = (s.ppsTimed c).bit a i := by
  obtain ⟨_, _, _, _, eq⟩ := s.ppsSeen_frame c edge
  have same : (s.ppsTimed c).sameRegs (s.ppsSeen c edge) [] := State.sameRegs_of_regs_eq (by rw [eq])
  exact same.bit List.not_mem_nil i

theorem State.ppsSeen_okSince_length (s : State) (c : Nat) (edge : Int) : (s.ppsSeen c edge).clk.okSince.length = s.clk.okSince.length := by
  obtain ⟨_, _, _, _, eq⟩ := s.ppsSeen_frame c edge
  rw [eq]
  exact (s.judged_ppsTimed c).length

theorem State.ppsSeen_edgeAt (s : State) (c : Nat) (edge : Int) : (s.ppsSeen c edge).clk.edgeAt = setNth s.clk.edgeAt c (some s.tim.us) := by
  obtain ⟨_, _, _, _, eq⟩ := s.ppsSeen_frame c edge
  rw [eq]

theorem State.fd_ppsTimed_active (s : State) (c : Nat) :
    (s.ppsTimed c).fd CLK_STATUS CLK_STATUS_ACTIVE = s.fd CLK_STATUS CLK_STATUS_ACTIVE :=
  (s.judged_ppsTimed c).regs.fd (by simp [(CANDc_STATUS_ne (c := c) (a := CLK_STATUS) (by decide)).symm]) _

/-- An edge of the active input sets the alignment instant and, where it lies near its second, the phase. -/
theorem State.ppsSeen_of_active {s : State} {c : Nat} (edge : Int) (h : s.fd CLK_STATUS CLK_STATUS_ACTIVE = c) :
    (s.ppsSeen c edge).clk.ppsEdge = some (s.capture edge)
    ∧ (s.ppsSeen c edge).clk.phase = if s.ppsFar (s.ppsOffset c edge) then s.clk.phase else s.ppsOffset c edge := by
  rw [← (s.judged_ppsTimed c).phase]
  obtain ⟨_, _, eq⟩ := State.ppsMeasured_of_active (s.capture edge) (s.ppsOffset c edge) (s.ppsFar (s.ppsOffset c edge))
    ((s.fd_ppsTimed_active c).trans h)
  rw [State.ppsSeen, eq]
  exact ⟨rfl, rfl⟩

theorem State.ppsSeen_of_other {s : State} {c : Nat} (edge : Int) (h : s.fd CLK_STATUS CLK_STATUS_ACTIVE ≠ c) :
    (s.ppsSeen c edge).clk.ppsEdge = s.clk.ppsEdge ∧ (s.ppsSeen c edge).clk.phase = s.clk.phase ∧ (s.ppsSeen c edge).tim = s.tim := by
  rw [← (s.judged_ppsTimed c).phase, ← (s.judged_ppsTimed c).ppsEdge, ← (s.judged_ppsTimed c).tim]
  obtain ⟨_, eq⟩ := State.ppsMeasured_of_other (s.capture edge) (s.ppsOffset c edge) (s.ppsFar (s.ppsOffset c edge))
    (ne_of_eq_of_ne (s.fd_ppsTimed_active c) h)
  rw [State.ppsSeen, eq]
  exact ⟨rfl, rfl, rfl⟩

/-- What an edge leaves. -/
def State.ppsTaken (s : State) (c : Nat) (edge fofs : Int) : State :=
  ((s.ppsNoted c fofs).ppsSeen c edge).ppsJudged c (s.ppsFar (s.ppsOffset c edge)) (s.fofsOk c fofs)

theorem ppsRefEdge_takes {c : Nat} (edge fofs : Int) {s : State} (hc : c < 8) (pps : s.candIsPps c = true) :
    exec (.ppsRefEdge c edge fofs) s = .next (s.ppsTaken c edge fofs) := by
  have idle : ¬ (decide (c ≥ 8) || !s.candIsPps c) = true := by simp [pps, hc]
  have qtol : ((s.ppsNoted c fofs).ppsSeen c edge).rd (CANDc_QTOL c) = s.rd (CANDc_QTOL c) := by
    have kept := State.ppsSeen_sameRegs (s.ppsNoted c fofs) c edge (CANDc_QTOL c) (not_mem_judged (by unfold CANDc_QTOL; omega) (by unfold CANDc_QTOL; omega) (by simp))
    exact kept.trans (s.ppsNoted_sameRegs c fofs _ (by simp))
  rw [State.ppsTaken, ← s.ppsFar_ppsNoted hc fofs, ← s.ppsOffset_ppsNoted c fofs, ← State.fofsOk_congr qtol]
  exact if_neg idle

section
variable (s : State) (c : Nat) (edge fofs : Int)

theorem State.judged_ppsTaken : ((s.ppsNoted c fofs).ppsSeen c edge).judged c (s.ppsTaken c edge fofs) := State.judged_ppsJudged _ c _ _

theorem State.ppsTaken_sameRegs_ppsNoted :
    (s.ppsNoted c fofs).sameRegs (s.ppsTaken c edge fofs) [CANDc_STATUS c, CLK_QUALIFIED, CLK_IN_WTR, CLK_HIST, PCI_ERR] :=
  (State.ppsSeen_sameRegs _ c edge).trans (s.judged_ppsTaken c edge fofs).regs

theorem State.ppsTaken_sameRegs :
    s.sameRegs (s.ppsTaken c edge fofs) [CANDc_FOFS c, CANDc_STATUS c, CLK_QUALIFIED, CLK_IN_WTR, CLK_HIST, PCI_ERR] :=
  ((s.ppsNoted_sameRegs c fofs).mono (by simp)).trans ((s.ppsTaken_sameRegs_ppsNoted c edge fofs).mono (by simp))

/-- ACTIVITY is set. -/
theorem State.ppsTaken_activity : (s.ppsTaken c edge fofs).bit (CANDc_STATUS c) 0 = 1 := by
  rw [(s.judged_ppsTaken c edge fofs).activity, State.bit_ppsSeen, (State.judged_ppsTimed _ c).activity]
  exact State.bit_setBit_same _ _ _ _ (by decide)

theorem State.rd_ppsTaken_fofs (hc : c < 8) : (s.ppsTaken c edge fofs).rd (CANDc_FOFS c) = unsigned 32 fofs := by
  rw [s.ppsTaken_sameRegs_ppsNoted c edge fofs _ (not_mem_judged (by unfold CANDc_FOFS; omega) (by unfold CANDc_FOFS; omega) (by simp)),
    State.ppsNoted, State.rd_setBit_ne _ _ _ (CANDc_FOFS_ne_STATUS c), s.rd_noteFofs]

theorem State.ppsTaken_frame : ∃ r k b p o, s.ppsTaken c edge fofs
    = { s with regs := r, clk := k, tim := { s.tim with todEdge := b }, pci := p, out := o } := by
  obtain ⟨_, _, _, _, _, _, taken⟩ := (s.judged_ppsTaken c edge fofs).frame
  obtain ⟨_, _, _, _, seen⟩ := (s.ppsNoted c fofs).ppsSeen_frame c edge
  obtain ⟨_, _, _, _, _, _, timed⟩ := ((s.ppsNoted c fofs).judged_ppsTimed c).frame
  rw [taken, seen, timed]
  exact ⟨_, _, _, _, _, rfl⟩

theorem State.ppsTaken_edgeAt : (s.ppsTaken c edge fofs).clk.edgeAt = setNth s.clk.edgeAt c (some s.tim.us) := by
  rw [(s.judged_ppsTaken c edge fofs).edgeAt, State.ppsSeen_edgeAt]
  rfl

end

section
variable {s : State} {c : Nat} {edge fofs : Int}

theorem State.ppsTaken_of_pass (near : s.ppsFar (s.ppsOffset c edge) = false) (good : s.fofsOk c fofs = true) :
    s.ppsTaken c edge fofs = ((s.ppsNoted c fofs).ppsSeen c edge).passCand c := by
  rw [State.ppsTaken, near, good]
  rfl

/-- A candidate whose conditions hold keeps QUALIFIED, or goes on without it. -/
theorem State.candQualified_ppsTaken (hc : c < 8) (near : s.ppsFar (s.ppsOffset c edge) = false) (good : s.fofsOk c fofs = true)
    (holds : s.candHolds c = true) : (s.ppsTaken c edge fofs).candQualified c = s.candQualified c := by
  have pass : ((s.ppsNoted c fofs).ppsSeen c edge).sameRegs (s.ppsTaken c edge fofs) [] := by
    rw [State.ppsTaken_of_pass near good]
    exact State.sameRegs_of_regs_eq (State.passCand_regs _ c)
  have timed : (s.ppsNoted c fofs).ppsTimed c = s.ppsNoted c fofs := by
    rw [State.ppsTimed, s.candHolds_ppsNoted (by omega), holds]
    rfl
  rw [State.candQualified, pass.bit List.not_mem_nil, State.bit_ppsSeen, timed, s.bit_status_ppsNoted c fofs (by decide), State.candQualified]

theorem State.ppsTaken_okSince (near : s.ppsFar (s.ppsOffset c edge) = false) (good : s.fofsOk c fofs = true)
    (listed : c < s.clk.okSince.length) : (nth (s.ppsTaken c edge fofs).clk.okSince c none).isSome = true := by
  rw [State.ppsTaken_of_pass near good]
  exact State.passCand_okSince (by rwa [State.ppsSeen_okSince_length])

/-- A condition has failed. -/
theorem State.ppsTaken_of_fail (fails : s.ppsFar (s.ppsOffset c edge) = true ∨ s.fofsOk c fofs = false) :
    s.ppsTaken c edge fofs = (((s.ppsNoted c fofs).ppsSeen c edge).when (s.ppsFar (s.ppsOffset c edge) && s.fofsOk c fofs)
      (·.flag CLK_HIST 6)).failCand c := by
  refine if_neg fun pass => ?_
  rw [Bool.and_eq_true, Bool.not_eq_true'] at pass
  rcases fails with far | bad
  · exact absurd (far.symm.trans pass.1) (by decide)
  · exact absurd (bad.symm.trans pass.2) (by decide)

theorem State.ppsTaken_phaseFar (far : s.ppsFar (s.ppsOffset c edge) = true) (good : s.fofsOk c fofs = true) :
    (s.ppsTaken c edge fofs).bit CLK_HIST 6 = 1 := by
  rw [State.ppsTaken_of_fail (.inl far), far, good]
  exact (State.judged_failCand _ c).flags 6 (State.bit_flag_same _ _ (by decide) (by decide))

theorem State.ppsTaken_of_active (hc : c < 8) (active : s.fd CLK_STATUS CLK_STATUS_ACTIVE = c) :
    (s.ppsTaken c edge fofs).clk.ppsEdge = some (s.capture edge)
    ∧ (s.ppsTaken c edge fofs).clk.phase = if s.ppsFar (s.ppsOffset c edge) then s.clk.phase else s.ppsOffset c edge := by
  have noted : (s.ppsNoted c fofs).fd CLK_STATUS CLK_STATUS_ACTIVE = c := (s.fd_ppsNoted_active c fofs).trans active
  obtain ⟨ppsEdge, phase⟩ := State.ppsSeen_of_active edge noted
  rw [s.ppsOffset_ppsNoted, s.ppsFar_ppsNoted hc] at phase
  rw [(s.judged_ppsTaken c edge fofs).ppsEdge, (s.judged_ppsTaken c edge fofs).phase]
  exact ⟨ppsEdge, phase⟩

theorem State.ppsTaken_of_other (other : s.fd CLK_STATUS CLK_STATUS_ACTIVE ≠ c) :
    (s.ppsTaken c edge fofs).clk.ppsEdge = s.clk.ppsEdge ∧ (s.ppsTaken c edge fofs).clk.phase = s.clk.phase
    ∧ (s.ppsTaken c edge fofs).tim = s.tim := by
  have noted : (s.ppsNoted c fofs).fd CLK_STATUS CLK_STATUS_ACTIVE ≠ c := ne_of_eq_of_ne (s.fd_ppsNoted_active c fofs) other
  rw [(s.judged_ppsTaken c edge fofs).ppsEdge, (s.judged_ppsTaken c edge fofs).phase, (s.judged_ppsTaken c edge fofs).tim]
  exact State.ppsSeen_of_other edge noted

end

end Sys2Proof.Machine
end

section
/-!
PROOFS. The end of a wait to restore (R99), the quality level an SSM gives (R94), and the statement on the candidates.
-/
namespace Sys2Proof.Machine

/-! ### The end of a wait (R99) -/

theorem waitToRestoreExpire_ends {c : Nat} {s : State} (hc : c < 13) (waits : s.candInWtr c = true) (last : nth s.clk.wtrTicks c 0 ≤ 1) :
    exec (.waitToRestoreExpire c) s = .next (s.setWtr c 0) := by
  show execWaitToRestoreExpire c s = _
  simp only [execWaitToRestoreExpire, hc, waits, last, decide_true, Bool.and_self, if_true]

theorem waitToRestoreExpire_idle {c : Nat} {s : State} (left : 1 < nth s.clk.wtrTicks c 0) : Idle (.waitToRestoreExpire c) s := by
  show execWaitToRestoreExpire c s = _
  simp only [execWaitToRestoreExpire, left.not_ge, decide_false, Bool.and_false, Bool.false_eq_true, if_false]

/-! ### The quality level (R94) -/

theorem State.setCandQl_sameRegs (s : State) (c ql : Nat) : s.sameRegs (s.setCandQl c ql) [CANDc_STATUS c] :=
  State.sameRegs.setFd (State.sameRegs_of_regs_eq rfl) _ _ (by simp)

theorem State.candQl_setCandQl (s : State) (c ql : Nat) : (s.setCandQl c ql).candQl c = ql % 16 := s.fd_setFd_same _ _ _ (by decide)

/-- A message taken by its handler leaves the list of those that wait. -/
theorem State.takeRx_eq (s : State) (p : RxItem → Bool) : (s.takeRx p).2 = { s with eth := { s.eth with inbox := (s.takeRx p).2.eth.inbox } } := by
  unfold State.takeRx
  split <;> rfl

/-- An ESMC PDU is taken, at this microsecond. -/
def State.esmcTaken (s : State) (p : Nat) : State :=
  let u := (s.takeRx (fun x => x.kind == .esmc && x.port == p)).2
  { u with clk := { u.clk with esmcAt := setNth u.clk.esmcAt p u.tim.us } }

theorem State.esmcTaken_eq (s : State) (p : Nat) : s.esmcTaken p
    = { s with clk := { s.clk with esmcAt := setNth s.clk.esmcAt p s.tim.us }, eth := { s.eth with inbox := (s.esmcTaken p).eth.inbox } } := by
  unfold State.esmcTaken
  rw [State.takeRx_eq]

/-- The quality level CLK_SSM_MAP gives an SSM code. -/
def State.ssmQl (s : State) (ssm : Nat) : Nat := s.rd64 CLK_SSM_MAP_LO CLK_SSM_MAP_HI / 2 ^ (4 * (ssm % 16)) % 16

theorem esmcPduReceive_sets {p : Nat} (hp : p < 4) (ssm : Nat) (s : State) :
    exec (.esmcPduReceive p ssm) s = .next ((s.esmcTaken p).setCandQl (9 + p) (s.ssmQl ssm)) := by
  have same : s.sameRegs (s.esmcTaken p) [] := State.sameRegs_of_regs_eq (by rw [State.esmcTaken_eq])
  have map : (s.esmcTaken p).ssmQl ssm = s.ssmQl ssm := by
    rw [State.ssmQl, State.rd64, same _ List.not_mem_nil, same _ List.not_mem_nil, State.ssmQl, State.rd64]
  rw [← map]
  exact if_neg hp.not_ge

theorem esmcTimeout_sets {p : Nat} {s : State} (hp : p < 4) (late : nth s.clk.esmcAt p 0 + 5000000 ≤ s.tim.us) :
    exec (.esmcTimeout p) s = .next (s.setCandQl (9 + p) 15) := by
  show execEsmcTimeout p s = _
  simp only [execEsmcTimeout, hp.not_ge, late.not_gt, decide_false, Bool.or_self, Bool.false_eq_true, if_false]

theorem esmcTimeout_idle {p : Nat} {s : State} (early : s.tim.us < nth s.clk.esmcAt p 0 + 5000000) : Idle (.esmcTimeout p) s := by
  show execEsmcTimeout p s = _
  simp only [execEsmcTimeout, early, decide_true, Bool.or_true, if_true]

/-! ### The statement -/

/-- Settles O6: each row is one of the shared operations on the candidate's record, and what it leaves is read off their lemmas. -/
theorem candidatesQualifyAndFail : Obligations.CandidatesQualifyAndFail := by
  unfold Obligations.CandidatesQualifyAndFail
  refine ⟨?qualify, ?loss, ?edge, ?wait, ?quality⟩
  case qualify =>
    intro c since fofs s hc ok long notYet holds tolerated
    have within : c = 8 ∨ s.fofsOk c fofs = true := tolerated.imp_right decide_eq_true
    let u := s.noteFofs c fofs
    have noted : s.sameRegs u [CANDc_FOFS c] := s.noteFofs_sameRegs c fofs
    have status (i : Nat) : u.bit (CANDc_STATUS c) i = s.bit (CANDc_STATUS c) i := noted.bit (by simp) i
    have notYet' : u.candQualified c = false := by rw [State.candQualified, status, ← State.candQualified, notYet]
    obtain ⟨qualified, shown⟩ := State.qualifyCand_qualifies hc notYet'
    obtain ⟨regs, _, _, frame⟩ := State.qualifyCand_frame notYet'
    have fofsKept : CANDc_FOFS c ∉ [CANDc_STATUS c, CLK_QUALIFIED, CLK_IN_WTR] := by
      simp only [List.mem_cons, List.not_mem_nil, or_false]
      unfold CANDc_FOFS CANDc_STATUS CLK_QUALIFIED CLK_IN_WTR
      omega
    refine ⟨_, candidateQualify_qualifies hc ok long holds within, qualified, shown, ?_, fun new => ?_, fun lost listed => ?_, ?_, ?_⟩
    · exact (regs _ fofsKept).trans (s.rd_noteFofs c fofs)
    · rw [State.qualifyCand_of_new notYet' new]
      refine ⟨rfl, ?_, (noted.mono (by simp)).trans ((u.setQualified_sameRegs c true).mono (by simp))⟩
      rw [State.candInWtr, u.bit_status_setQualified c true (by decide), status, State.candInWtr]
    · have wtr : u.wtrWait = bitsOf (s.rd CLK_WTR) 11 0 * 1000000 := by
        rw [State.wtrWait, noted _ (by simpa using CANDc_FOFS_ne_of_lt (c := c) (a := CLK_WTR) (by decide))]
      rw [State.qualifyCand_of_lostOnce notYet' lost, wtr, State.candInWtr_setWtr]
      exact ⟨nth_setNth_same _ _ listed, by simp⟩
    · exact (noted.mono (by simp)).trans (regs.mono (by simp))
    · rw [frame]
      rfl
  case loss =>
    intro c far s hc failed
    have all : s.judged c ((s.lossNoted c far).failCand c) := (s.judged_lossNoted c far).trans (State.judged_failCand _ c)
    refine ⟨_, candidateLoss_fails far hc failed, State.candQualified_failCand _ c, State.failCand_okSince _ c, fun was => ?_,
      fun isFar pps valid => ?_, all.regs, all.eq⟩
    · rw [← s.candEn_lossNoted c far]
      exact State.failCand_clears hc ((s.candQualified_lossNoted c far).trans was)
    · rw [isFar]
      exact (State.judged_failCand _ c).flags 6 (State.lossNoted_phaseFar pps valid)
  case edge =>
    intro c edge fofs s hc pps e off near
    have nearIff : s.ppsFar (s.ppsOffset c edge) = false ↔ near := s.ppsFar_eq_false_iff off
    have isFar (h : ¬ near) : s.ppsFar (s.ppsOffset c edge) = true := Bool.eq_true_of_not_eq_false (mt nearIff.mp h)
    refine ⟨_, ppsRefEdge_takes edge fofs hc pps, s.ppsTaken_activity c edge fofs, s.rd_ppsTaken_fofs c edge fofs hc, fun listed => ?_,
      fun h good holds => State.candQualified_ppsTaken hc (nearIff.mpr h) good holds,
      fun h good listed => State.ppsTaken_okSince (nearIff.mpr h) good listed, fun fails => ?_,
      fun h good => State.ppsTaken_phaseFar (isFar h) good, fun active => ?_, State.ppsTaken_of_other, s.ppsTaken_sameRegs c edge fofs, ?_⟩
    · rw [s.ppsTaken_edgeAt]
      exact nth_setNth_same _ _ listed
    · rw [State.ppsTaken_of_fail (fails.imp_left isFar)]
      exact ⟨State.candQualified_failCand _ c, State.failCand_okSince _ c⟩
    · obtain ⟨ppsEdge, phase⟩ := State.ppsTaken_of_active (fofs := fofs) (edge := edge) hc active
      exact ⟨ppsEdge, fun h => by rw [phase, nearIff.mpr h]; rfl, fun h => by rw [phase, isFar h]; rfl⟩
    · obtain ⟨_, _, _, _, _, frame⟩ := s.ppsTaken_frame c edge fofs
      rw [frame]
  case wait =>
    intro c s hc waits
    refine ⟨fun last => ⟨_, waitToRestoreExpire_ends hc waits last, s.candInWtr_setWtr c 0, s.bit_setWtr_zero hc, s.candQualified_setWtr c 0,
      s.setWtr_sameRegs c 0, s.setWtr_eq c 0⟩, waitToRestoreExpire_idle⟩
  case quality =>
    intro p ssm s hp
    refine ⟨⟨_, esmcPduReceive_sets hp ssm s, ?_, ?_, ?_, ?_⟩, fun late => ?_, esmcTimeout_idle⟩
    · rw [State.candQl_setCandQl, State.ssmQl, Nat.mod_mod]
    · show (s.esmcTaken p).clk = _
      rw [State.esmcTaken_eq]
    · have same : s.sameRegs (s.esmcTaken p) [CANDc_STATUS (9 + p)] := State.sameRegs_of_regs_eq (by rw [State.esmcTaken_eq])
      exact same.trans (State.setCandQl_sameRegs _ _ _)
    · rw [State.esmcTaken_eq]
      rfl
    · exact ⟨_, esmcTimeout_sets hp late, s.candQl_setCandQl _ 15, s.setCandQl_sameRegs _ 15, rfl⟩

end Sys2Proof.Machine
end

section
/-!
PROOFS. The equaliser of a nectar lane (R131): each tap is a field of NEC_LANE_DFE, and an adaptation steps and clamps every one of them.
-/
namespace Sys2Proof.Machine

/-! ### Taps as fields -/

/-- Tap h(k + 1) as the register holds it. -/
def tapOf (r k : Nat) : Int := signed 6 (r / 2 ^ (6 * k))

theorem tapOf_eq (r k : Nat) : tapOf r k = signed 6 (bitsOf r (6 * k + 5) (6 * k)) := by
  have width : 6 * k + 5 + 1 - 6 * k = 6 := by omega
  simp [tapOf, bitsOf, signed, width]

/-- A value in the range of a tap survives its 6 bits. -/
theorem signed_unsigned_six {i : Int} (lo : -32 ≤ i) (hi : i < 32) : signed 6 (unsigned 6 i % 2 ^ 6) = i := by
  simp only [signed, unsigned]
  split_ifs <;> omega

/-- The clamp of R131 keeps a tap in the range of its field. -/
theorem dfeTap_range (k : Nat) (tap sgn : Int) : -32 ≤ dfeTap k tap sgn ∧ dfeTap k tap sgn < 32 := by
  simp only [dfeTap, satS]
  split_ifs <;> omega

/-- Tap h(k + 1) after its step. -/
def tapStepped (sgns : List Int) (r k : Nat) : Int := dfeTap k (tapOf r k) (Int.sign (nth sgns k 0))

/-- The register after the step of that tap. -/
def dfeStepped (sgns : List Int) (r k : Nat) : Nat := setBits r (6 * k + 5) (6 * k) (unsigned 6 (tapStepped sgns r k))

theorem tapOf_dfeStepped_same (sgns : List Int) (r k : Nat) : tapOf (dfeStepped sgns r k) k = tapStepped sgns r k := by
  obtain ⟨lo, hi⟩ := dfeTap_range k (tapOf r k) (Int.sign (nth sgns k 0))
  have width : 6 * k + 5 + 1 - 6 * k = 6 := by omega
  rw [tapOf_eq, dfeStepped, bitsOf_setBits, width]
  exact signed_unsigned_six lo hi

theorem tapOf_dfeStepped_ne (sgns : List Int) (r : Nat) {j k : Nat} (h : j ≠ k) : tapOf (dfeStepped sgns r k) j = tapOf r j := by
  rw [tapOf_eq, dfeStepped, bitsOf_setBits_ne _ _ _ _ _ _ (by omega), ← tapOf_eq]

/-! ### All taps -/

/-- The register after the steps of the first m taps. -/
def dfeAdapted (sgns : List Int) (r m : Nat) : Nat := (List.range m).foldl (dfeStepped sgns) r

theorem dfeAdapted_succ (sgns : List Int) (r m : Nat) : dfeAdapted sgns r (m + 1) = dfeStepped sgns (dfeAdapted sgns r m) m := by
  simp [dfeAdapted, List.range_succ]

theorem tapOf_dfeAdapted (sgns : List Int) (r m k : Nat) :
    tapOf (dfeAdapted sgns r m) k = if k < m then tapStepped sgns r k else tapOf r k := by
  induction m with
  | zero => rfl
  | succ m ih =>
    rw [dfeAdapted_succ]
    by_cases h : k = m
    · subst h
      have before : tapOf (dfeAdapted sgns r k) k = tapOf r k := ih.trans (if_neg (lt_irrefl k))
      rw [tapOf_dfeStepped_same, tapStepped, before, if_pos (Nat.lt_succ_self k), tapStepped]
    · rw [tapOf_dfeStepped_ne _ _ h, ih]
      exact if_congr (by omega) rfl rfl

theorem dfeAdapted_lt (sgns : List Int) {r m : Nat} (hr : r < 2 ^ 32) (hm : m ≤ 5) : dfeAdapted sgns r m < 2 ^ 32 := by
  induction m with
  | zero => exact hr
  | succ m ih =>
    rw [dfeAdapted_succ]
    exact setBits_lt _ _ _ _ (ih (by omega)) (by omega)

theorem dfeAdapt_adapts {b u : Nat} (sgns : List Int) {s : State} (on : s.blockOn 5 = true) (hb : b < 16) (hu : u < 17)
    (lane : s.laneOn b u = true) :
    exec (.dfeAdapt b u sgns) s = .next (s.wr (NEC_LANE_DFE b u) (dfeAdapted sgns (s.rd (NEC_LANE_DFE b u)) 5)) := by
  have sign (i : Int) : (if i > 0 then 1 else if i < 0 then -1 else 0) = Int.sign i := by
    rcases lt_trichotomy i 0 with h | rfl | h
    · simp [h, h.not_gt, Int.sign_eq_neg_one_of_neg h]
    · rfl
    · simp [h, Int.sign_eq_one_of_pos h]
  show execDfeAdapt b u sgns s = _
  simp only [execDfeAdapt, on, hb.not_ge, hu.not_ge, lane, sign, decide_false, Bool.not_true, Bool.or_self, Bool.false_eq_true, if_false]
  rfl

end Sys2Proof.Machine
end

section
/-!
PROOFS. Work on the lanes of a nectar bundle (R127 to R130): the registers it may change, and what alignment and rejoin leave alone.
-/
namespace Sys2Proof.Machine

/-! ### The registers of a bundle -/

/-- The registers that the states and the alignment of the lanes of bundle b stand in. -/
def laneRegs (b : Nat) : List Nat := [NEC_BUNDLEb_STATUS b, NEC_BUNDLEb_HIST b, PCI_ERR] ++ (List.range 17).map (NEC_LANE_STATUS b)

theorem mem_laneRegs {a b : Nat} : a ∈ laneRegs b ↔
    a = NEC_BUNDLEb_STATUS b ∨ a = NEC_BUNDLEb_HIST b ∨ a = PCI_ERR ∨ ∃ v, v < 17 ∧ a = NEC_LANE_STATUS b v := by
  simp [laneRegs, eq_comm]

theorem status_mem_laneRegs (b : Nat) : NEC_BUNDLEb_STATUS b ∈ laneRegs b := mem_laneRegs.mpr (.inl rfl)
theorem hist_mem_laneRegs (b : Nat) : NEC_BUNDLEb_HIST b ∈ laneRegs b := mem_laneRegs.mpr (.inr (.inl rfl))
theorem pciErr_mem_laneRegs (b : Nat) : PCI_ERR ∈ laneRegs b := mem_laneRegs.mpr (.inr (.inr (.inl rfl)))
theorem lane_mem_laneRegs (b : Nat) {u : Nat} (hu : u < 17) : NEC_LANE_STATUS b u ∈ laneRegs b :=
  mem_laneRegs.mpr (.inr (.inr (.inr ⟨u, hu, rfl⟩)))

theorem status_ne_hist (b : Nat) : NEC_BUNDLEb_STATUS b ≠ NEC_BUNDLEb_HIST b := by unfold NEC_BUNDLEb_STATUS NEC_BUNDLEb_HIST; omega
theorem lane_ne_status (b u : Nat) : NEC_LANE_STATUS b u ≠ NEC_BUNDLEb_STATUS b := by unfold NEC_LANE_STATUS NEC_BUNDLEb_STATUS; omega
theorem lane_ne_hist (b u : Nat) : NEC_LANE_STATUS b u ≠ NEC_BUNDLEb_HIST b := by unfold NEC_LANE_STATUS NEC_BUNDLEb_HIST; omega
theorem lane_ne_pciErr (b u : Nat) : NEC_LANE_STATUS b u ≠ PCI_ERR := by unfold NEC_LANE_STATUS PCI_ERR; omega
theorem status_ne_pciErr {b : Nat} (hb : b < 16) : NEC_BUNDLEb_STATUS b ≠ PCI_ERR := by unfold NEC_BUNDLEb_STATUS PCI_ERR; omega
theorem hist_ne_pciErr {b : Nat} (hb : b < 16) : NEC_BUNDLEb_HIST b ≠ PCI_ERR := by unfold NEC_BUNDLEb_HIST PCI_ERR; omega
theorem lane_ne_lane {b u v : Nat} (h : v ≠ u) : NEC_LANE_STATUS b v ≠ NEC_LANE_STATUS b u := by unfold NEC_LANE_STATUS; omega

/-! ### What any work on the lanes leaves alone -/

/-- `t` is `s` after work on the lanes of bundle b that changes no register outside `l`: a flag of the bundle that was set stays set. -/
structure State.laneWork (s : State) (b : Nat) (l : List Nat) (t : State) : Prop where
  regs : s.sameRegs t l
  flags : ∀ i, s.bit (NEC_BUNDLEb_HIST b) i = 1 → t.bit (NEC_BUNDLEb_HIST b) i = 1
  frame : ∃ r n p o, t = { s with regs := r, nec := n, pci := p, out := o }

namespace State.laneWork
variable {s t w : State} {b u : Nat} {l m : List Nat}

theorem refl : s.laneWork b l s := ⟨fun _ _ => rfl, fun _ => id, _, _, _, _, rfl⟩

theorem trans (h : s.laneWork b l t) (g : t.laneWork b l w) : s.laneWork b l w := by
  refine ⟨h.regs.trans g.regs, fun i => g.flags i ∘ h.flags i, ?_⟩
  obtain ⟨_, _, _, _, rfl⟩ := h.frame
  obtain ⟨_, _, _, _, rfl⟩ := g.frame
  exact ⟨_, _, _, _, rfl⟩

theorem mono (h : s.laneWork b l t) (sub : l ⊆ m) : s.laneWork b m t := ⟨h.regs.mono sub, h.flags, h.frame⟩

theorem eq (h : s.laneWork b l t) : t = { s with regs := t.regs, nec := t.nec, pci := t.pci, out := t.out } := by
  obtain ⟨_, _, _, _, rfl⟩ := h.frame
  rfl

theorem wr {a : Nat} (v : Nat) (ha : a ∈ l) (hist : a ≠ NEC_BUNDLEb_HIST b) : s.laneWork b l (s.wr a v) where
  regs := (State.sameRegs_of_regs_eq rfl).wr v ha
  flags i h := by rwa [State.bit, s.rd_wr_ne v hist.symm]
  frame := ⟨_, _, _, _, rfl⟩

theorem nec (n : Nec) : s.laneWork b l { s with nec := n } := ⟨State.sameRegs_of_regs_eq rfl, fun _ => id, _, _, _, _, rfl⟩

theorem flag {i : Nat} (hb : b < 16) (hi : i < 32) (hist : NEC_BUNDLEb_HIST b ∈ l) (err : PCI_ERR ∈ l) :
    s.laneWork b l (s.flag (NEC_BUNDLEb_HIST b) i) where
  regs := (State.sameRegs_of_regs_eq rfl).flag i hist err
  flags j h := s.bit_flag_keeps i j hi (hist_ne_pciErr hb) h
  frame := ⟨_, _, _, _, s.flag_eq _ _⟩

end State.laneWork

/-! ### Alignment and rejoin (R129, R130) -/

/-- `t` is `s` after work on the alignment of bundle b: lanes may be excluded or rejoin, but each keeps its state and its LOCKED bit. -/
structure State.alignWork (s : State) (b : Nat) (t : State) : Prop extends work : s.laneWork b (laneRegs b) t where
  fields : ∀ v f, v < 17 → f.hi < 3 ∨ 3 < f.lo → t.fd (NEC_LANE_STATUS b v) f = s.fd (NEC_LANE_STATUS b v) f
  locked : ∀ v, v < 17 → t.bit (NEC_BUNDLEb_STATUS b) v = s.bit (NEC_BUNDLEb_STATUS b) v

namespace State.alignWork
variable {s t w : State} {b u : Nat}

theorem refl : s.alignWork b s := ⟨.refl, fun _ _ _ _ => rfl, fun _ _ => rfl⟩

theorem trans (h : s.alignWork b t) (g : t.alignWork b w) : s.alignWork b w :=
  ⟨h.work.trans g.work, fun v f hv hf => (g.fields v f hv hf).trans (h.fields v f hv hf),
    fun v hv => (g.locked v hv).trans (h.locked v hv)⟩

theorem state (h : s.alignWork b t) (hu : u < 17) : t.laneState b u = s.laneState b u := h.fields u _ hu (.inl (by decide))

theorem each {α : Type} {l : List α} {f : State → α → State} (h : ∀ t x, x ∈ l → State.alignWork t b (f t x)) (s : State) :
    s.alignWork b (s.each l f) :=
  State.each_keeps (s.alignWork b ·) f l (fun t x hx g => g.trans (h t x hx)) s .refl

theorem ite {c : Prop} [Decidable c] (h : s.alignWork b t) (g : s.alignWork b w) : s.alignWork b (if c then t else w) := by
  split <;> assumption

theorem when (c : Bool) {f : State → State} (h : s.alignWork b (f s)) : s.alignWork b (s.when c f) := ite h refl

theorem nec (n : Nec) : s.alignWork b { s with nec := n } := ⟨.nec n, fun _ _ _ _ => rfl, fun _ _ => rfl⟩

theorem setAligned (v : Bool) : s.alignWork b (s.setBit (NEC_BUNDLEb_STATUS b) 31 v) where
  work := .wr _ (status_mem_laneRegs b) (status_ne_hist b)
  fields u f _ _ := by rw [State.fd, s.rd_setBit_ne _ _ (lane_ne_status b u), State.fd]
  locked _ hu := s.bit_setBit_ne _ _ (by decide) (by omega)

theorem setExcluded (hu : u < 17) (v : Bool) : s.alignWork b (s.setBit (NEC_LANE_STATUS b u) 3 v) where
  work := .wr _ (lane_mem_laneRegs b hu) (lane_ne_hist b u)
  fields w f _ hf := by
    by_cases h : w = u
    · rw [h, s.fd_setBit_ne _ _ (by decide) hf]
    · rw [State.fd, s.rd_setBit_ne _ _ (lane_ne_lane h), State.fd]
  locked w _ := s.bit_setBit_other _ _ _ (lane_ne_status b u).symm

theorem flag {i : Nat} (hb : b < 16) (hi : i < 32) : s.alignWork b (s.flag (NEC_BUNDLEb_HIST b) i) where
  work := .flag hb hi (hist_mem_laneRegs b) (pciErr_mem_laneRegs b)
  fields v _ _ _ := s.fd_flag_ne _ _ (lane_ne_hist b v) (lane_ne_pciErr b v)
  locked _ _ := s.bit_flag_ne _ _ (status_ne_hist b) (status_ne_pciErr hb)

end State.alignWork

section
variable {b u : Nat} (s : State)

theorem State.alignWork_tryAlign : s.alignWork b (s.tryAlign b) := by
  unfold State.tryAlign
  extract_lets used parEn locked enough lanes
  clear_value lanes
  cases lanes with
  | nil => exact .refl
  | cons u0 us =>
    refine .ite .refl (.ite ?_ .refl)
    exact ((State.alignWork.setAligned true).trans (.nec _)).trans (.each (fun _ _ hv => .setExcluded (List.mem_range.mp hv) false) _)

theorem State.alignWork_tryUnalign : s.alignWork b (s.tryUnalign b) :=
  .ite ((State.alignWork.setAligned false).trans (.nec _)) .refl

theorem State.alignWork_setNecLane (l : NecLane) : s.alignWork b (s.setNecLane b u l) := .nec _

theorem State.alignWork_judge (hb : b < 16) (hu : u < 17) : s.alignWork b (s.judge b u) :=
  .ite .refl ((s.alignWork_setNecLane _).trans (.ite (.setExcluded hu false) (.flag hb (by decide))))

theorem State.alignWork_alignOn : s.alignWork b (s.alignOn b u) := .ite .refl (.nec _)

theorem State.lt_of_mem_heldLanes {s : State} {v : Nat} (h : v ∈ s.heldLanes b) : v < 17 := by
  unfold State.heldLanes State.usedLanes at h
  rcases List.mem_append.mp h with data | parity
  · have := List.mem_range.mp (List.mem_filter.mp data).1
    omega
  · split at parity
    · rw [List.mem_singleton.mp parity]
      decide
    · exact absurd parity List.not_mem_nil

theorem State.alignWork_rejoin (hb : b < 16) : s.alignWork b (s.rejoin b u) :=
  .ite .refl (s.alignWork_alignOn.trans (.ite (.each (fun _ _ hv => State.alignWork_judge _ hb (State.lt_of_mem_heldLanes hv)) _) .refl))

end

/-! ### A lane that moves to a state (Table 5-2) -/

/-- `t` is `s` after work on the lanes of bundle b that leaves lane u in state v with m misses; where the state is new, its LOCKED bit
follows. -/
structure State.laneMoved (s : State) (b u v m : Nat) (t : State) : Prop extends work : s.laneWork b (laneRegs b) t where
  state : t.laneState b u = v
  misses : t.fd (NEC_LANE_STATUS b u) NEC_LANE_STATUS_MISSES = m
  locked : s.laneState b u ≠ v → t.bit (NEC_BUNDLEb_STATUS b) u = if v = 2 then 1 else 0

/-- Misses of lane u of bundle b in a row. -/
def State.laneMisses (s : State) (b u : Nat) : Nat := s.fd (NEC_LANE_STATUS b u) NEC_LANE_STATUS_MISSES

section
variable {s t w : State} {b u v m : Nat} (hu : u < 17)
include hu

theorem State.alignWork.laneMoved (h : s.alignWork b t) : s.laneMoved b u (s.laneState b u) (s.laneMisses b u) t :=
  ⟨h.work, h.state hu, h.fields u _ hu (.inr (by decide)), fun moved => absurd rfl moved⟩

theorem State.laneMoved.align (h : s.laneMoved b u v m t) (g : t.alignWork b w) : s.laneMoved b u v m w :=
  ⟨h.work.trans g.work, (g.state hu).trans h.state, (g.fields u _ hu (.inr (by decide))).trans h.misses,
    fun moved => (g.locked u hu).trans (h.locked moved)⟩

theorem State.laneMoved.setMisses (h : s.laneMoved b u v m t) {m' : Nat} (hm : m' < 4) :
    s.laneMoved b u v m' (t.setFd (NEC_LANE_STATUS b u) NEC_LANE_STATUS_MISSES m') where
  work := h.work.trans (.wr _ (lane_mem_laneRegs b hu) (lane_ne_hist b u))
  state := by
    refine Eq.trans ?_ h.state
    rw [State.laneState, State.fd, t.rd_setFd_same _ _ _ (by decide), bitsOf_setBits_ne _ _ _ _ _ _ (by decide)]
    rfl
  misses := (t.fd_setFd_same _ _ _ (by decide)).trans (Nat.mod_eq_of_lt hm)
  locked moved := (t.bit_setFd_other _ _ _ (lane_ne_status b u).symm).trans (h.locked moved)

theorem State.laneMoved_setLaneState (hv : v < 8) : s.laneMoved b u v (s.laneMisses b u) (s.setLaneState b u v) where
  work := State.laneWork.trans (.wr _ (lane_mem_laneRegs b hu) (lane_ne_hist b u)) (.wr _ (status_mem_laneRegs b) (status_ne_hist b))
  state := by
    rw [State.laneState, State.setLaneState, State.fd, State.rd_setBit_ne _ _ _ (lane_ne_status b u), ← State.fd,
      s.fd_setFd_same _ _ _ (by decide)]
    exact Nat.mod_eq_of_lt hv
  misses := by
    rw [State.setLaneState, State.fd, State.rd_setBit_ne _ _ _ (lane_ne_status b u), s.rd_setFd_same _ _ _ (by decide),
      bitsOf_setBits_ne _ _ _ _ _ _ (by decide)]
    rfl
  locked _ := by
    rw [State.setLaneState, State.bit_setBit_same _ _ _ _ (by omega)]
    simp

end

/-- Work that leaves lane u in its state, and then a move. -/
theorem State.laneMoved.trans {s t w : State} {b u v m m' : Nat} (h : s.laneMoved b u (s.laneState b u) m t) (g : t.laneMoved b u v m' w) :
    s.laneMoved b u v m' w :=
  ⟨h.work.trans g.work, g.state, g.misses, fun moved => g.locked (by rwa [h.state])⟩

end Sys2Proof.Machine
end

section
/-!
PROOFS. A marker position of a nectar lane (R127, R128, Table 5-2): what a good marker and a miss leave.
-/
namespace Sys2Proof.Machine

/-! ### A good marker -/

/-- Lane u once its good marker is noted, before its state moves. -/
def State.markerNoted (s : State) (b u seq : Nat) (arrival : Int) : State :=
  let l := s.necLane b u
  (s.setNecLane b u { l with verified := if s.laneState b u = 1 then l.verified + 1 else 0, seq := seq, arrival := arrival, judged := false }).setFd
    (NEC_LANE_STATUS b u) NEC_LANE_STATUS_MISSES 0

section
variable {b u : Nat} {s : State} (seq : Nat) (arrival : Int)

theorem State.goodMarker_of_hunt (h : s.laneState b u = 0) :
    s.goodMarker b u seq arrival = (s.markerNoted b u seq arrival).setLaneState b u 1 := by
  simp only [State.goodMarker, State.markerNoted, h]

theorem State.goodMarker_of_verify (h : s.laneState b u = 1) (more : (s.necLane b u).verified + 1 < 3) :
    s.goodMarker b u seq arrival = s.markerNoted b u seq arrival := by
  simp only [State.goodMarker, State.markerNoted, h, ge_iff_le, more.not_ge, if_false]

/-- The third good marker in VERIFY: the lane has to rejoin an ALIGNED bundle (R130), else the bundle may become ALIGNED (R129). -/
theorem State.goodMarker_of_verified (h : s.laneState b u = 1) (third : 3 ≤ (s.necLane b u).verified + 1) :
    let t := (s.markerNoted b u seq arrival).setLaneState b u 2
    s.goodMarker b u seq arrival = if t.bundleAligned b then
      (t.setBit (NEC_LANE_STATUS b u) 3 true).setNecLane b u { t.necLane b u with judged := true } else t.tryAlign b := by
  simp only [State.goodMarker, State.markerNoted, h, ge_iff_le, third, if_true]

theorem State.goodMarker_of_held (h : 2 ≤ s.laneState b u) : s.goodMarker b u seq arrival
    = (((s.markerNoted b u seq arrival).setLaneState b u 2).rejoin b u).tryAlign b := by
  obtain ⟨n, st⟩ := Nat.exists_eq_add_of_le' h
  simp only [State.goodMarker, State.markerNoted, st]

end

/-- The state a good marker takes lane u to. -/
def State.goodState (s : State) (b u : Nat) : Nat :=
  if s.laneState b u = 0 ∨ (s.laneState b u = 1 ∧ (s.necLane b u).verified + 1 < 3) then 1 else 2

section
variable (b : Nat) {u : Nat} (hu : u < 17) (s : State) (seq : Nat) (arrival : Int)
include hu

theorem State.laneMoved_markerNoted : s.laneMoved b u (s.laneState b u) 0 (s.markerNoted b u seq arrival) :=
  ((s.alignWork_setNecLane _).laneMoved hu).setMisses hu (by decide)

/-- From a marker noted, a move to state v. -/
theorem State.laneMoved_noted_setLaneState {v : Nat} (hv : v < 8) :
    s.laneMoved b u v 0 ((s.markerNoted b u seq arrival).setLaneState b u v) := by
  have noted := s.laneMoved_markerNoted b hu seq arrival
  have moved := State.laneMoved_setLaneState (s := s.markerNoted b u seq arrival) (b := b) hu hv
  rw [State.laneMisses, noted.misses] at moved
  exact noted.trans moved

theorem State.laneMoved_goodMarker {b : Nat} (hb : b < 16) : s.laneMoved b u (s.goodState b u) 0 (s.goodMarker b u seq arrival) := by
  unfold State.goodState
  by_cases hunts : s.laneState b u = 0
  · rw [if_pos (.inl hunts), State.goodMarker_of_hunt _ _ hunts]
    exact s.laneMoved_noted_setLaneState b hu seq arrival (by decide)
  · have locks := s.laneMoved_noted_setLaneState b hu seq arrival (v := 2) (by decide)
    by_cases verifies : s.laneState b u = 1
    · by_cases more : (s.necLane b u).verified + 1 < 3
      · rw [if_pos (.inr ⟨verifies, more⟩), State.goodMarker_of_verify _ _ verifies more, ← verifies]
        exact s.laneMoved_markerNoted b hu seq arrival
      · rw [if_neg (by omega), State.goodMarker_of_verified _ _ verifies (by omega)]
        exact locks.align hu (.ite ((State.alignWork.setExcluded hu true).trans (State.alignWork_setNecLane _ _)) (State.alignWork_tryAlign _))
    · rw [if_neg (by omega), State.goodMarker_of_held _ _ (by omega)]
      exact (locks.align hu (State.alignWork_rejoin _ hb)).align hu (State.alignWork_tryAlign _)

end

/-! ### A miss -/

/-- Lane u once its miss is noted, before its state moves. -/
def State.missNoted (s : State) (b u : Nat) (idErr : Bool) : State :=
  let t := ((s.count (NEC_LANE_MISS_CNT b u) 1).flag (NEC_BUNDLEb_HIST b) 2).when idErr (·.flag (NEC_BUNDLEb_HIST b) 3)
  let l := t.necLane b u
  let t := t.setNecLane b u { l with seq := (l.seq + 1) % 65536 }
  t.when (u = 16 && s.laneState b u = 2 && t.bit (NEC_BUNDLEb_CFG b) 1 = 1) (·.flag (NEC_BUNDLEb_HIST b) 7)

section
variable {b u : Nat} {s : State} (idErr : Bool)

theorem State.missMarker_of_hunt (h : s.laneState b u = 0) : s.missMarker b u idErr = s := by
  simp only [State.missMarker, h, if_true]

theorem State.missMarker_of_verify (h : s.laneState b u = 1) :
    s.missMarker b u idErr = (s.missNoted b u idErr).setLaneState b u 0 := by
  simp only [State.missMarker, State.missNoted, h, Nat.one_ne_zero, if_false]

theorem State.missMarker_of_locked (h : s.laneState b u = 2) : s.missMarker b u idErr
    = ((s.missNoted b u idErr).setLaneState b u 3).setFd (NEC_LANE_STATUS b u) NEC_LANE_STATUS_MISSES 1 := by
  simp only [State.missMarker, State.missNoted, h, OfNat.ofNat_ne_zero, if_false]

/-- The third miss in a row in SLIPPING. -/
theorem State.missMarker_of_lost (h : s.laneState b u = 3) (third : 2 ≤ (s.missNoted b u idErr).laneMisses b u) : s.missMarker b u idErr
    = ((((s.missNoted b u idErr).setLaneState b u 0).setFd (NEC_LANE_STATUS b u) NEC_LANE_STATUS_MISSES 0).flag
        (NEC_BUNDLEb_HIST b) 0).tryUnalign b := by
  simp only [State.laneMisses, State.missNoted, h] at third
  simp only [State.missMarker, State.missNoted, h, OfNat.ofNat_ne_zero, if_false]
  exact if_pos third

theorem State.missMarker_of_slipping (h : s.laneState b u = 3) (early : (s.missNoted b u idErr).laneMisses b u < 2) : s.missMarker b u idErr
    = (s.missNoted b u idErr).setFd (NEC_LANE_STATUS b u) NEC_LANE_STATUS_MISSES ((s.missNoted b u idErr).laneMisses b u + 1) := by
  simp only [State.laneMisses, State.missNoted, h] at early
  simp only [State.missMarker, State.laneMisses, State.missNoted, h, OfNat.ofNat_ne_zero, if_false]
  exact if_neg early.not_ge

end

/-- The state a miss takes lane u to. -/
def State.missState (s : State) (b u : Nat) : Nat :=
  if s.laneState b u = 0 ∨ s.laneState b u = 1 ∨ (s.laneState b u = 3 ∧ 2 ≤ s.laneMisses b u) then 0 else 3

/-- A miss of lane u, counted. -/
def State.missCounted (s : State) (b u : Nat) : State := s.count (NEC_LANE_MISS_CNT b u) 1

theorem lane_ne_missCnt (b u v : Nat) : NEC_LANE_STATUS b v ≠ NEC_LANE_MISS_CNT b u := by unfold NEC_LANE_STATUS NEC_LANE_MISS_CNT; omega

theorem State.laneState_missCounted (s : State) (b u : Nat) : (s.missCounted b u).laneState b u = s.laneState b u := by
  rw [State.laneState, State.fd, State.missCounted, s.rd_count_ne _ (lane_ne_missCnt b u u), State.laneState, State.fd]

theorem State.laneMisses_missCounted (s : State) (b u : Nat) : (s.missCounted b u).laneMisses b u = s.laneMisses b u := by
  rw [State.laneMisses, State.fd, State.missCounted, s.rd_count_ne _ (lane_ne_missCnt b u u), State.laneMisses, State.fd]

section
variable {b u : Nat} (hb : b < 16) (hu : u < 17) (s : State) (idErr : Bool)
include hb

/-- Noting a miss sets MARKER_MISS, and does no more to the lanes than work on their alignment does. -/
theorem State.alignWork_missNoted :
    (s.missCounted b u).alignWork b (s.missNoted b u idErr) ∧ (s.missNoted b u idErr).bit (NEC_BUNDLEb_HIST b) 2 = 1 := by
  have flagged (t : State) {i : Nat} (hi : i < 32) : t.alignWork b (t.flag (NEC_BUNDLEb_HIST b) i) := .flag hb hi
  have rest : ((s.missCounted b u).flag (NEC_BUNDLEb_HIST b) 2).alignWork b (s.missNoted b u idErr) := by
    unfold State.missNoted
    exact ((State.alignWork.when idErr (flagged _ (by decide))).trans (State.alignWork_setNecLane _ _)).trans (.when _ (flagged _ (by decide)))
  exact ⟨(flagged _ (by decide)).trans rest, rest.flags 2 (State.bit_flag_same _ _ (by decide) (hist_ne_pciErr hb))⟩

include hu

/-- A miss that is counted moves the lane and sets MARKER_MISS; the third in SLIPPING sets LOCK_LOSS. -/
theorem State.laneMoved_missMarker (held : s.laneState b u ≠ 0) (hs : s.laneState b u < 4) :
    (∃ m, (s.missCounted b u).laneMoved b u (s.missState b u) m (s.missMarker b u idErr))
    ∧ (s.missMarker b u idErr).bit (NEC_BUNDLEb_HIST b) 2 = 1
    ∧ (s.laneState b u = 3 → 2 ≤ s.laneMisses b u → (s.missMarker b u idErr).bit (NEC_BUNDLEb_HIST b) 0 = 1) := by
  obtain ⟨work, flagged⟩ := s.alignWork_missNoted (u := u) hb idErr
  have noted := work.laneMoved hu
  have misses : (s.missNoted b u idErr).laneMisses b u = s.laneMisses b u := noted.misses.trans (s.laneMisses_missCounted b u)
  have moved {v : Nat} (hv : v < 8) := State.laneMoved_setLaneState (s := s.missNoted b u idErr) (b := b) hu hv
  unfold State.missState
  obtain st | st | st : s.laneState b u = 1 ∨ s.laneState b u = 2 ∨ s.laneState b u = 3 := by omega
  · rw [State.missMarker_of_verify _ st, if_pos (by omega)]
    have done := moved (v := 0) (by decide)
    exact ⟨⟨_, noted.trans done⟩, done.flags 2 flagged, by omega⟩
  · rw [State.missMarker_of_locked _ st, if_neg (by omega)]
    have done := (moved (v := 3) (by decide)).setMisses hu (m' := 1) (by decide)
    exact ⟨⟨_, noted.trans done⟩, done.flags 2 flagged, by omega⟩
  · by_cases third : 2 ≤ s.laneMisses b u
    · rw [State.missMarker_of_lost _ st (by omega), if_pos (by omega)]
      have down := (moved (v := 0) (by decide)).setMisses hu (m' := 0) (by decide)
      have lost := State.bit_flag_same
        (((s.missNoted b u idErr).setLaneState b u 0).setFd (NEC_LANE_STATUS b u) NEC_LANE_STATUS_MISSES 0) 0 (by decide) (hist_ne_pciErr hb)
      have last := State.alignWork_tryUnalign (b := b)
        ((((s.missNoted b u idErr).setLaneState b u 0).setFd (NEC_LANE_STATUS b u) NEC_LANE_STATUS_MISSES 0).flag (NEC_BUNDLEb_HIST b) 0)
      have done := (down.align hu (.flag hb (by decide))).align hu last
      exact ⟨⟨_, noted.trans done⟩, done.flags 2 flagged, fun _ _ => last.flags 0 lost⟩
    · rw [State.missMarker_of_slipping _ st (by omega), if_neg (by omega)]
      have done := noted.setMisses hu (m' := (s.missNoted b u idErr).laneMisses b u + 1) (by omega)
      rw [State.laneState_missCounted, st] at done
      exact ⟨⟨_, done⟩, (State.bit_setFd_other _ _ _ _ (lane_ne_hist b u).symm).trans flagged, fun _ more => absurd more third⟩

end

end Sys2Proof.Machine
end

section
/-!
PROOFS. The line bits at a marker position (R126): the violations met in them, the row that checks a marker, and the statement on the lanes.
-/
namespace Sys2Proof.Machine

/-! ### Violations (R126) -/

theorem lane_ne_stuffCnt (b u v : Nat) : NEC_LANE_STATUS b v ≠ NEC_LANE_STUFF_CNT b u := by unfold NEC_LANE_STATUS NEC_LANE_STUFF_CNT; omega
theorem stuffCnt_ne_hist (b u : Nat) : NEC_LANE_STUFF_CNT b u ≠ NEC_BUNDLEb_HIST b := by unfold NEC_LANE_STUFF_CNT NEC_BUNDLEb_HIST; omega
theorem stuffCnt_ne_pciErr (b u : Nat) : NEC_LANE_STUFF_CNT b u ≠ PCI_ERR := by unfold NEC_LANE_STUFF_CNT PCI_ERR; omega

section
variable (s : State) (b u n : Nat)

theorem State.stuffed_sameRegs : s.sameRegs (s.stuffed b u n) [NEC_LANE_STUFF_CNT b u, NEC_BUNDLEb_HIST b, PCI_ERR] := by
  unfold State.stuffed
  split
  · exact State.sameRegs_of_regs_eq rfl
  · exact State.sameRegs.flag (State.sameRegs.wr (State.sameRegs_of_regs_eq rfl) _ (by simp)) _ (by simp) (by simp)

theorem State.stuffed_frame : ∃ r p o, s.stuffed b u n = { s with regs := r, pci := p, out := o } := by
  unfold State.stuffed
  split
  · exact ⟨_, _, _, rfl⟩
  · exact ⟨_, _, _, (s.count _ _).flag_eq _ _⟩

theorem State.rd_stuffed : (s.stuffed b u n).rd (NEC_LANE_STUFF_CNT b u) = (s.rd (NEC_LANE_STUFF_CNT b u) + n) % 2 ^ 32 := by
  unfold State.stuffed
  split
  · next none => rw [none, Nat.add_zero, Nat.mod_eq_of_lt (s.rd_lt _)]
  · rw [State.rd_flag_ne _ _ (stuffCnt_ne_hist b u) (stuffCnt_ne_pciErr b u), State.rd_count_same]

theorem State.fd_lane_stuffed (v : Nat) (f : Fld) : (s.stuffed b u n).fd (NEC_LANE_STATUS b v) f = s.fd (NEC_LANE_STATUS b v) f :=
  (s.stuffed_sameRegs b u n).fd (by simp [lane_ne_stuffCnt, lane_ne_hist, lane_ne_pciErr]) f

theorem State.laneState_stuffed : (s.stuffed b u n).laneState b u = s.laneState b u := s.fd_lane_stuffed b u n u _

theorem State.rd_missCnt_stuffed : (s.stuffed b u n).rd (NEC_LANE_MISS_CNT b u) = s.rd (NEC_LANE_MISS_CNT b u) := by
  refine s.stuffed_sameRegs b u n _ ?_
  simp only [List.mem_cons, List.not_mem_nil, or_false]
  unfold NEC_LANE_MISS_CNT NEC_LANE_STUFF_CNT NEC_BUNDLEb_HIST PCI_ERR
  omega

theorem State.necLane_stuffed (c v : Nat) : (s.stuffed b u n).necLane c v = s.necLane c v := by
  obtain ⟨_, _, _, eq⟩ := s.stuffed_frame b u n
  rw [eq]
  rfl

end

/-- A violation sets STUFF_ERR. -/
theorem State.stuffErr_stuffed {s : State} {b n : Nat} (u : Nat) (hb : b < 16) (h : n ≠ 0) :
    (s.stuffed b u n).bit (NEC_BUNDLEb_HIST b) 1 = 1 := by
  rw [State.stuffed, if_neg h]
  exact State.bit_flag_same _ _ (by decide) (hist_ne_pciErr hb)

/-! ### The row -/

/-- Lane u once its violations are counted and the CTLE setting of the search is shown (R131), before the marker is judged. -/
def State.markerMet (s : State) (b u : Nat) (line : LaneBits) (ctle : Nat) : State :=
  let t := s.stuffed b u line.viol
  if t.bit (NEC_BUNDLEb_CFG b) 12 = 1 then
    t.setFd (NEC_LANE_STATUS b u) NEC_LANE_STATUS_CTLE_DB (t.fd (NEC_BUNDLEb_CFG b) NEC_BUNDLEb_CFG_CTLE_DB)
  else if s.laneState b u = 0 then t.setFd (NEC_LANE_STATUS b u) NEC_LANE_STATUS_CTLE_DB ctle else t

/-- The word is a good marker of lane u (R128). -/
def State.markerGood (s : State) (b u word : Nat) : Prop :=
  markerSound word = true ∧ markerPosOk b u word = true ∧ (s.laneState b u = 0 ∨ bitsOf word 55 40 = ((s.necLane b u).seq + 1) % 65536)

theorem State.laneMoved.setCtle {s : State} {b u : Nat} (hu : u < 17) (v : Nat) :
    s.laneMoved b u (s.laneState b u) (s.laneMisses b u) (s.setFd (NEC_LANE_STATUS b u) NEC_LANE_STATUS_CTLE_DB v) where
  work := .wr _ (lane_mem_laneRegs b hu) (lane_ne_hist b u)
  state := by
    rw [State.laneState, State.fd, s.rd_setFd_same _ _ _ (by decide), bitsOf_setBits_ne _ _ _ _ _ _ (by decide)]
    rfl
  misses := by
    rw [State.fd, s.rd_setFd_same _ _ _ (by decide), bitsOf_setBits_ne _ _ _ _ _ _ (by decide)]
    rfl
  locked moved := absurd rfl moved

section
variable {b u : Nat} (s : State) (line : LaneBits) (ctle : Nat)

theorem State.laneMoved_markerMet (hu : u < 17) : (s.stuffed b u line.viol).laneMoved b u ((s.stuffed b u line.viol).laneState b u)
    ((s.stuffed b u line.viol).laneMisses b u) (s.markerMet b u line ctle) := by
  unfold State.markerMet
  dsimp only
  split
  · exact .setCtle hu _
  · split
    · exact .setCtle hu _
    · exact State.alignWork.refl.laneMoved hu

theorem State.laneState_markerMet (hu : u < 17) : (s.markerMet b u line ctle).laneState b u = s.laneState b u :=
  (s.laneMoved_markerMet line ctle hu).state.trans (s.laneState_stuffed b u _)

theorem State.laneMisses_markerMet (hu : u < 17) : (s.markerMet b u line ctle).laneMisses b u = s.laneMisses b u :=
  (s.laneMoved_markerMet line ctle hu).misses.trans (s.fd_lane_stuffed b u _ u _)

theorem State.necLane_markerMet : (s.markerMet b u line ctle).necLane b u = s.necLane b u := by
  rw [← s.necLane_stuffed b u line.viol]
  unfold State.markerMet
  dsimp only
  split
  · rfl
  · split <;> rfl

end

/-- The test the row makes of the word. -/
def State.markerTest (s : State) (b u : Nat) (line : LaneBits) (ctle : Nat) : Bool :=
  markerSound line.word && markerPosOk b u line.word
    && (s.laneState b u = 0 || bitsOf line.word 55 40 = (((s.markerMet b u line ctle).necLane b u).seq + 1) % 65536)

theorem State.markerTest_iff (s : State) (b u : Nat) (line : LaneBits) (ctle : Nat) :
    s.markerTest b u line ctle = true ↔ s.markerGood b u line.word := by
  simp only [State.markerTest, State.necLane_markerMet, Bool.and_eq_true, Bool.or_eq_true, decide_eq_true_iff, and_assoc, State.markerGood]

section
variable {b u : Nat} {line : LaneBits} (arrival : Int) (ctle : Nat) {s : State} (on : s.blockOn 5 = true) (hb : b < 16) (hu : u < 17)
  (lane : s.laneOn b u = true)
include on hb hu lane

theorem marker_received : ¬ (!s.blockOn 5 || decide (b ≥ 16) || decide (u ≥ 17) || !s.laneOn b u) = true := by
  simp only [on, hb.not_ge, hu.not_ge, lane, decide_false, Bool.not_true, Bool.or_self, Bool.false_eq_true, not_false_eq_true]

theorem laneMarkerCheck_good (good : s.markerGood b u line.word) : exec (.laneMarkerCheck b u line arrival ctle) s
    = .next ((s.markerMet b u line ctle).goodMarker b u (bitsOf line.word 55 40) arrival).monLatch :=
  (if_neg (marker_received on hb hu lane)).trans (if_pos ((s.markerTest_iff b u line ctle).mpr good))

theorem laneMarkerCheck_miss (bad : ¬ s.markerGood b u line.word) : ∃ idErr, exec (.laneMarkerCheck b u line arrival ctle) s
    = .next ((s.markerMet b u line ctle).missMarker b u idErr) :=
  ⟨_, (if_neg (marker_received on hb hu lane)).trans (if_neg (mt (s.markerTest_iff b u line ctle).mp bad))⟩

end

/-! ### What the row leaves -/

/-- The registers beside the count of violations that the row may change. -/
def markerRegs (b u : Nat) : List Nat := [NEC_LANE_MISS_CNT b u, MON_STATE] ++ laneRegs b

theorem laneRegs_subset_markerRegs (b u : Nat) : laneRegs b ⊆ markerRegs b u := List.subset_append_right _ _

theorem lane_ne_monState (b u : Nat) : NEC_LANE_STATUS b u ≠ MON_STATE := by unfold NEC_LANE_STATUS MON_STATE; omega
theorem status_ne_monState {b : Nat} (hb : b < 16) : NEC_BUNDLEb_STATUS b ≠ MON_STATE := by unfold NEC_BUNDLEb_STATUS MON_STATE; omega
theorem hist_ne_monState (b : Nat) : NEC_BUNDLEb_HIST b ≠ MON_STATE := by unfold NEC_BUNDLEb_HIST MON_STATE; omega
theorem missCnt_ne_monState {b u : Nat} (hb : b < 16) (hu : u < 17) : NEC_LANE_MISS_CNT b u ≠ MON_STATE := by
  unfold NEC_LANE_MISS_CNT MON_STATE; omega

theorem missCnt_not_mem_laneRegs (b u : Nat) : NEC_LANE_MISS_CNT b u ∉ laneRegs b := by
  rw [mem_laneRegs]
  unfold NEC_LANE_MISS_CNT NEC_BUNDLEb_STATUS NEC_BUNDLEb_HIST PCI_ERR NEC_LANE_STATUS
  omega

theorem stuffCnt_not_mem_markerRegs (b u : Nat) : NEC_LANE_STUFF_CNT b u ∉ markerRegs b u := by
  simp only [markerRegs, List.mem_append, List.mem_cons, List.not_mem_nil, or_false, mem_laneRegs]
  unfold NEC_LANE_STUFF_CNT NEC_LANE_MISS_CNT MON_STATE NEC_BUNDLEb_STATUS NEC_BUNDLEb_HIST PCI_ERR NEC_LANE_STATUS
  omega

section
variable {s t : State} {b u : Nat}

theorem State.laneWork_missCounted : s.laneWork b (markerRegs b u) (s.missCounted b u) :=
  .wr _ (by simp [markerRegs]) (by unfold NEC_BUNDLEb_HIST NEC_LANE_MISS_CNT; omega)

theorem State.laneWork_monLatch : s.laneWork b (markerRegs b u) s.monLatch where
  regs := s.monLatch_sameRegs.mono (by simp [markerRegs])
  flags i h := (s.monLatch_sameRegs.bit (by simp [hist_ne_monState]) i).trans h
  frame := ⟨_, _, _, _, rfl⟩

/-- What the row leaves whether the marker is good or missed: it works on the lanes once the violations are counted. -/
theorem State.laneWork.of_stuffed {n : Nat} (hb : b < 16) (h : (s.stuffed b u n).laneWork b (markerRegs b u) t) :
    t.rd (NEC_LANE_STUFF_CNT b u) = (s.rd (NEC_LANE_STUFF_CNT b u) + n) % 2 ^ 32
    ∧ (n ≠ 0 → t.bit (NEC_BUNDLEb_HIST b) 1 = 1)
    ∧ s.sameRegs t ([NEC_BUNDLEb_STATUS b, NEC_BUNDLEb_HIST b, NEC_LANE_MISS_CNT b u, NEC_LANE_STUFF_CNT b u, MON_STATE, PCI_ERR]
        ++ (List.range 17).map (NEC_LANE_STATUS b))
    ∧ t = { s with regs := t.regs, nec := t.nec, pci := t.pci, out := t.out } := by
  have regs : markerRegs b u ⊆ [NEC_BUNDLEb_STATUS b, NEC_BUNDLEb_HIST b, NEC_LANE_MISS_CNT b u, NEC_LANE_STUFF_CNT b u, MON_STATE, PCI_ERR]
      ++ (List.range 17).map (NEC_LANE_STATUS b) := by
    intro a
    simp only [markerRegs, laneRegs, List.mem_append, List.mem_cons]
    tauto
  refine ⟨?_, fun met => h.flags 1 (State.stuffErr_stuffed u hb met), ?_, ?_⟩
  · rw [h.regs _ (stuffCnt_not_mem_markerRegs b u), s.rd_stuffed]
  · exact ((s.stuffed_sameRegs b u n).mono (by simp)).trans (h.regs.mono regs)
  · obtain ⟨_, _, _, stuffed⟩ := s.stuffed_frame b u n
    rw [stuffed] at h
    exact h.eq

end

section
variable {b u : Nat} (hu : u < 17) (s : State) (line : LaneBits) (ctle : Nat)
include hu

theorem State.laneWork_markerMet : (s.stuffed b u line.viol).laneWork b (markerRegs b u) (s.markerMet b u line ctle) :=
  (s.laneMoved_markerMet line ctle hu).work.mono (laneRegs_subset_markerRegs b u)

theorem State.rd_missCnt_markerMet : (s.markerMet b u line ctle).rd (NEC_LANE_MISS_CNT b u) = s.rd (NEC_LANE_MISS_CNT b u) :=
  ((s.laneMoved_markerMet line ctle hu).work.regs _ (missCnt_not_mem_laneRegs b u)).trans (s.rd_missCnt_stuffed b u line.viol)

variable (hb : b < 16)
include hb

/-- A good marker moves the lane from the state it had before the row. -/
theorem State.laneMoved_good (seq : Nat) (arrival : Int) : (s.stuffed b u line.viol).laneMoved b u (s.goodState b u) 0
    ((s.markerMet b u line ctle).goodMarker b u seq arrival) := by
  have moved := State.laneMoved_goodMarker hu (s.markerMet b u line ctle) seq arrival hb
  rw [State.goodState, s.laneState_markerMet line ctle hu, s.necLane_markerMet line ctle, ← State.goodState] at moved
  exact (s.laneMoved_markerMet line ctle hu).trans moved

/-- So does a miss, which is counted and flagged unless the lane hunts. -/
theorem State.missed_leaves (hs : s.laneState b u < 4) (idErr : Bool) : let t := (s.markerMet b u line ctle).missMarker b u idErr
    (s.stuffed b u line.viol).laneWork b (markerRegs b u) t
    ∧ t.laneState b u = s.missState b u
    ∧ (s.laneState b u ≠ s.missState b u → t.bit (NEC_BUNDLEb_STATUS b) u = if s.missState b u = 2 then 1 else 0)
    ∧ t.rd (NEC_LANE_MISS_CNT b u) = (s.rd (NEC_LANE_MISS_CNT b u) + if s.laneState b u = 0 then 0 else 1) % 2 ^ 32
    ∧ (s.laneState b u ≠ 0 → t.bit (NEC_BUNDLEb_HIST b) 2 = 1)
    ∧ (s.laneState b u = 3 → 2 ≤ s.laneMisses b u → t.bit (NEC_BUNDLEb_HIST b) 0 = 1) := by
  intro t
  have before := s.laneState_markerMet (b := b) line ctle hu
  have count := s.rd_missCnt_markerMet (b := b) hu line ctle
  have met := s.laneWork_markerMet (b := b) hu line ctle
  by_cases hunts : s.laneState b u = 0
  · have still : t = s.markerMet b u line ctle := State.missMarker_of_hunt idErr (before.trans hunts)
    have hunting : s.missState b u = 0 := if_pos (.inl hunts)
    rw [still, hunting, before, hunts, count]
    simpa [met] using (Nat.mod_eq_of_lt (s.rd_lt (NEC_LANE_MISS_CNT b u))).symm
  · have misses := s.laneMisses_markerMet (b := b) line ctle hu
    obtain ⟨⟨m, moved⟩, flagged, lost⟩ := State.laneMoved_missMarker hb hu (s.markerMet b u line ctle) idErr
      (by rwa [before]) (by rwa [before])
    rw [State.missState, before, misses, ← State.missState] at moved
    rw [before, misses] at lost
    refine ⟨met.trans (State.laneWork_missCounted.trans (moved.work.mono (laneRegs_subset_markerRegs b u))), moved.state, fun ne => ?_, ?_,
      fun _ => flagged, lost⟩
    · exact moved.locked (by rwa [State.laneState_missCounted, before])
    · rw [moved.work.regs _ (missCnt_not_mem_laneRegs b u), State.missCounted, State.rd_count_same, count, if_neg hunts]

end

/-! ### The statement -/

/-- Settles O8: the verdict on a marker moves the lane as Table 5-2 says, and every tap of the equaliser is stepped and clamped. -/
theorem lanesFollowTheirMarkers : Obligations.LanesFollowTheirMarkers := by
  unfold Obligations.LanesFollowTheirMarkers
  refine ⟨?marker, ?dfe⟩
  case marker =>
    intro b u ctle line arrival s on hb hu lane hs word st l misses good
    by_cases isGood : s.markerGood b u word
    · have moved := s.laneMoved_good hu line ctle hb (bitsOf word 55 40) arrival
      have latched := State.monLatch_sameRegs ((s.markerMet b u line ctle).goodMarker b u (bitsOf word 55 40) arrival)
      have work := (moved.work.mono (laneRegs_subset_markerRegs b u)).trans State.laneWork_monLatch
      have state := (latched.fd (by simp [lane_ne_monState]) _).trans moved.state
      have misses := (latched.fd (by simp [lane_ne_monState]) _).trans moved.misses
      have count := (moved.work.regs _ (missCnt_not_mem_laneRegs b u)).trans (s.rd_missCnt_stuffed b u line.viol)
      refine ⟨_, laneMarkerCheck_good arrival ctle on hb hu lane isGood, fun _ => ⟨state, misses, ?_⟩, fun bad => absurd isGood bad,
        fun ne => ?_, work.of_stuffed hb⟩
      · exact (latched _ (by simpa using missCnt_ne_monState hb hu)).trans count
      · have state' : State.laneState _ b u = s.goodState b u := state
        rw [state'] at ne ⊢
        refine (latched.bit (by simpa using status_ne_monState hb) u).trans (moved.locked ?_)
        rwa [State.laneState_stuffed]
    · obtain ⟨idErr, ran⟩ := laneMarkerCheck_miss arrival ctle on hb hu lane isGood
      obtain ⟨work, state, locked, count, missed, lost⟩ := s.missed_leaves hu line ctle hb hs idErr
      refine ⟨_, ran, fun isGood' => absurd isGood' isGood, fun _ => ⟨state, count, missed, lost⟩, fun moved => ?_, work.of_stuffed hb⟩
      have state' : State.laneState _ b u = s.missState b u := state
      rw [state'] at moved ⊢
      exact locked moved
  case dfe =>
    intro b u sgns s on hb hu lane
    refine ⟨_, dfeAdapt_adapts sgns on hb hu lane, fun k hk => ?_, (State.sameRegs_of_regs_eq rfl).wr _ (by simp), rfl⟩
    rw [State.rd_wr_same, Nat.mod_eq_of_lt (dfeAdapted_lt sgns (s.rd_lt _) le_rfl)]
    exact (tapOf_dfeAdapted sgns _ 5 k).trans (if_pos hk)

end Sys2Proof.Machine
end

section
/-!
PROOFS. A nectar port (R136, R143, R144): its entry in the list of them, what reaches its inputs, and the words received whole.
-/
namespace Sys2Proof.Machine

/-! ### The port's entry and its inputs -/

theorem nth_modNth_same {α : Type} (d : α) (f : α → α) {l : List α} {i : Nat} (h : i < l.length) : nth (modNth l i f) i d = f (nth l i d) := by
  induction l generalizing i with
  | nil => exact absurd h (Nat.not_lt_zero i)
  | cons x t ih =>
    cases i with
    | zero => rfl
    | succ i => exact ih (Nat.lt_of_succ_lt_succ h)

theorem length_modNth {α : Type} (f : α → α) (l : List α) (i : Nat) : (modNth l i f).length = l.length := by
  induction l generalizing i with
  | nil => rfl
  | cons x t ih =>
    cases i with
    | zero => rfl
    | succ i => exact congrArg (· + 1) (ih i)

/-- A part of the entries of a list that a change of one entry leaves alone. -/
theorem nth_modNth_part {α β : Type} (part : α → β) {f : α → α} (keeps : ∀ x, part (f x) = part x) (l : List α) (i : Nat) (d : α) :
    part (nth (modNth l i f) i d) = part (nth l i d) := by
  by_cases h : i < l.length
  · rw [nth_modNth_same d f h, keeps]
  · rw [nth, nth, List.getD_eq_default _ _ (by rw [length_modNth]; omega), List.getD_eq_default _ _ (by omega)]

/-- Port n. -/
def State.necPort (s : State) (n : Nat) : NecPort := nth s.nec.ports n NecPort.reset

theorem State.necPort_modNecPort {s : State} {n : Nat} (h : n < s.nec.ports.length) (f : NecPort → NecPort) :
    (s.modNecPort n f).necPort n = f (s.necPort n) := nth_modNth_same _ f h

/-- `s` with the ports `p`, the inbox of the filter slots `i` and the NATIVE tap `a`. -/
def State.portsLeft (s : State) (p : List NecPort) (i a : List NativeTick) : State :=
  { s with nec := { s.nec with ports := p }, ing := { s.ing with inbox := i }, acq := { s.acq with native := a } }

/-- Ticks delivered enter the inbox in their order. -/
theorem State.each_deliverNative (l : List NativeTick) (s : State) :
    ∃ a, s.each l State.deliverNative = s.portsLeft s.nec.ports (s.ing.inbox ++ l) a := by
  induction l generalizing s with
  | nil => exact ⟨s.acq.native, by rw [List.append_nil]; rfl⟩
  | cons x t ih =>
    obtain ⟨a, eq⟩ := ih (s.deliverNative x)
    refine ⟨a, eq.trans ?_⟩
    show s.portsLeft s.nec.ports (s.ing.inbox ++ [x] ++ t) a = _
    rw [List.append_assoc, List.singleton_append]

/-! ### Delivery in tick order (R144) -/

/-- The waiting block w of port n goes to its inputs, and its tick is settled. -/
def State.handOn (s : State) (n : Nat) (w : Nat × List NativeTick) : State :=
  (s.modNecPort n (fun p => { p.pop with wait := p.wait.erase w })).each w.2 State.deliverNative

section
variable {s : State} {n : Nat} {r : Nat × Nat} {rest : List (Nat × Nat)} (head : (s.necPort n).todo = r :: rest) (fuel : Nat)
include head

theorem State.necFlush_of_found {w : Nat × List NativeTick} (found : (s.necPort n).wait.find? (fun w => w.1 == r.1) = some w) :
    State.necFlush (fuel + 1) n s = State.necFlush fuel n (s.handOn n w) := by
  unfold State.necPort at head found
  simp only [State.necFlush, head, found]
  rfl

theorem State.necFlush_of_none (none : (s.necPort n).wait.find? (fun w => w.1 == r.1) = none) : State.necFlush (fuel + 1) n s = s := by
  unfold State.necPort at head none
  simp only [State.necFlush, head, none]

end

/-- Tick k of port n is unsettled. -/
def State.unsettled (s : State) (n k : Nat) : Prop := ∃ r ∈ (s.necPort n).todo, r.1 ≤ k ∧ k ≤ r.2

theorem State.any_unsettled_iff (s : State) (n k : Nat) :
    (nth s.nec.ports n NecPort.reset).todo.any (fun r => r.1 ≤ k && k ≤ r.2) = true ↔ s.unsettled n k := by
  simp [State.unsettled, State.necPort]

theorem State.necDeliver_of_settled {s : State} {n k : Nat} {l : List NativeTick} (h : ¬ s.unsettled n k) :
    s.necDeliver n k l = s.each l State.deliverNative := if_neg (mt (s.any_unsettled_iff n k).mp h)

section
variable {s : State} {n k : Nat} {l : List NativeTick} (idle : (s.necPort n).wait = [])
include idle

theorem State.necDeliver_of_unsettled (h : s.unsettled n k) :
    s.necDeliver n k l = State.necFlush 1 n (s.modNecPort n (fun p => { p with wait := p.wait ++ [(k, l)] })) := by
  have fuel : (nth s.nec.ports n NecPort.reset).wait.length + 1 = 1 := congrArg (·.length + 1) idle
  rw [← fuel]
  exact if_pos ((s.any_unsettled_iff n k).mpr h)

variable (listed : n < s.nec.ports.length)
include listed

/-- The port with the block of tick k put to those that wait. -/
theorem State.necPort_waiting : (s.modNecPort n (fun p => { p with wait := p.wait ++ [(k, l)] })).necPort n
    = { s.necPort n with wait := [(k, l)] } := by
  rw [State.necPort_modNecPort listed, idle]
  rfl

/-- A block whose tick is the lowest unsettled one, or needs no settling, is delivered at once. -/
theorem State.necDeliver_now (turn : ¬ s.unsettled n k ∨ ∃ b rest, (s.necPort n).todo = (k, b) :: rest) :
    ∃ p a, s.necDeliver n k l = s.portsLeft p (s.ing.inbox ++ l) a := by
  by_cases settled : s.unsettled n k
  · obtain ⟨b, rest, head⟩ := turn.resolve_left (not_not_intro settled)
    have waiting := State.necPort_waiting idle listed (k := k) (l := l)
    obtain ⟨a, eq⟩ := State.each_deliverNative l ((s.modNecPort n (fun p => { p with wait := p.wait ++ [(k, l)] })).modNecPort n
      (fun p => { p.pop with wait := p.wait.erase (k, l) }))
    rw [State.necDeliver_of_unsettled idle settled,
      State.necFlush_of_found (r := (k, b)) (rest := rest) (w := (k, l)) (by rw [waiting, ← head]) 0 (by rw [waiting]; simp)]
    exact ⟨_, a, eq⟩
  · obtain ⟨a, eq⟩ := State.each_deliverNative l s
    exact ⟨_, a, (State.necDeliver_of_settled settled).trans eq⟩

/-- A block whose tick is unsettled but not the lowest such waits. -/
theorem State.necDeliver_later {a b : Nat} {rest : List (Nat × Nat)} (head : (s.necPort n).todo = (a, b) :: rest) (later : a ≠ k)
    (unsettled : s.unsettled n k) : s.necDeliver n k l = s.modNecPort n (fun p => { p with wait := p.wait ++ [(k, l)] }) := by
  have waiting := State.necPort_waiting idle listed (k := k) (l := l)
  rw [State.necDeliver_of_unsettled idle unsettled,
    State.necFlush_of_none (r := (a, b)) (rest := rest) (by rw [waiting, ← head]) 0 (by rw [waiting]; simp [later.symm])]

end

/-! ### Words received whole (R126, R132, R133) -/

/-- The lanes of port n are LOCKED and not excluded, none is forced, and no rebuild episode is in progress. -/
structure State.portWhole (s : State) (n : Nat) : Prop where
  lanes : ∀ q, q < 4 → s.laneState (n / 4) (4 * (n % 4) + q) = 2 ∧ s.laneExcluded (n / 4) (4 * (n % 4) + q) = false
  unforced : s.fd (NEC_BUNDLEb_CFG (n / 4)) NEC_BUNDLEb_CFG_FORCE_EN = 0
  noEpisode : s.bit (NEC_BUNDLEb_STATUS (n / 4)) 30 = 0

/-- No line bits of the word hold a violation. -/
def NecWord.clean (x : NecWord) : Prop := ∀ l ∈ x.lanes, l.viol = 0

theorem NecWord.clean.viol_lane {x : NecWord} (h : x.clean) (u : Nat) : (x.lane u).viol = 0 := by
  unfold NecWord.lane nth
  by_cases hu : u < x.lanes.length
  · rw [List.getD_eq_getElem _ _ hu]
    exact h _ (List.getElem_mem hu)
  · rw [List.getD_eq_default _ _ (Nat.le_of_not_lt hu)]
    rfl

theorem State.stuffed_zero (s : State) (b u : Nat) : s.stuffed b u 0 = s := if_pos rfl

/-- `s` with other records of the lanes. -/
def State.withLanes (s : State) (lanes : List NecLane) : State := { s with nec := { s.nec with lanes := lanes } }

/-- A word without violations changes the lanes' forced marks alone. -/
theorem State.wordMet_of_clean {x : NecWord} (h : x.clean) (s : State) (n w : Nat) :
    ∃ lanes, s.wordMet n w x = s.withLanes lanes := by
  unfold State.wordMet
  simp only [h.viol_lane, State.stuffed_zero, State.when, ite_self]
  split <;> exact ⟨_, rfl⟩

/-- The word at position q of the words that begin at position w0 of the marker period of port n, descrambled. -/
def necDataAt (n w0 : Nat) (q : NecWord × Nat) : Nat := q.1.data (n / 4) (wordLane n (w0 + q.2)) ((w0 + q.2) / 4 % 512)

/-- The word needs a rebuild (R133). -/
def State.needsRebuild (s : State) (n w : Nat) (x : NecWord) : Bool :=
  let t := s.wordMet n w x
  let u := wordLane n w
  t.laneState (n / 4) u ≠ 2 || t.laneExcluded (n / 4) u || (x.lane u).viol ≠ 0 || ((t.necLane (n / 4) u).forced && t.forceNames (n / 4) u)

/-- A word that needs no rebuild, while no episode is in progress. -/
theorem State.necWord_of_sound {s : State} {n w : Nat} {x : NecWord} (sound : s.needsRebuild n w x = false)
    (noEpisode : (s.wordMet n w x).bit (NEC_BUNDLEb_STATUS (n / 4)) 30 = 0) :
    s.necWord n w x = ((x.data (n / 4) (wordLane n w) (w / 4 % 512), false), s.wordMet n w x) := by
  have kept : (!s.needsRebuild n w x) = true := by rw [sound]; rfl
  refine (if_pos kept).trans (Prod.ext rfl (if_neg ?_))
  simp [noEpisode]

/-- A word of a whole port keeps its data. -/
theorem State.necWord_of_whole {s : State} {n : Nat} (whole : s.portWhole n) {x : NecWord} (h : x.clean) (w0 i : Nat) :
    ∃ lanes, s.necWord n (w0 + i) x = ((necDataAt n w0 (x, i), false), s.withLanes lanes) := by
  obtain ⟨lanes, met⟩ := s.wordMet_of_clean h n (w0 + i)
  obtain ⟨locked, included⟩ := whole.lanes ((w0 + i) % 4) (Nat.mod_lt _ (by decide))
  have same : s.sameRegs (s.wordMet n (w0 + i) x) [] := State.sameRegs_of_regs_eq (met ▸ rfl)
  have state : (s.wordMet n (w0 + i) x).laneState (n / 4) (wordLane n (w0 + i)) = 2 := (same.fd List.not_mem_nil _).trans locked
  have excluded : (s.wordMet n (w0 + i) x).laneExcluded (n / 4) (wordLane n (w0 + i)) = false :=
    (congrArg (· == 1) (same.bit List.not_mem_nil 3)).trans included
  have unforced : (s.wordMet n (w0 + i) x).forceNames (n / 4) (wordLane n (w0 + i)) = false := by
    simp [State.forceNames, same.fd List.not_mem_nil, whole.unforced]
  have sound : s.needsRebuild n (w0 + i) x = false := by simp [State.needsRebuild, state, excluded, unforced, h.viol_lane]
  exact ⟨lanes, (State.necWord_of_sound sound ((same.bit List.not_mem_nil 30).trans whole.noEpisode)).trans (Prod.ext rfl met)⟩

/-! ### The words of a block -/

/-- One word more of port n: the state, the words assembled with their lost marks, and the position of the next. -/
def State.takeWord (n : Nat) (acc : State × List (Nat × Bool) × Nat) (x : NecWord) : State × List (Nat × Bool) × Nat :=
  let o := acc.1.necWord n acc.2.2 x
  (o.2, acc.2.1 ++ [o.1], acc.2.2 + 1)

/-- The words of a whole port are assembled as they are, none of them lost. -/
theorem State.takeWords_of_whole {n : Nat} (w0 : Nat) (words : List NecWord) (clean : ∀ x ∈ words, x.clean) (i : Nat) {s : State}
    (whole : s.portWhole n) (buf : List (Nat × Bool)) :
    ∃ lanes w, words.foldl (State.takeWord n) (s, buf, w0 + i)
      = (s.withLanes lanes, buf ++ ((words.zipIdx i).map (necDataAt n w0)).map (·, false), w) := by
  induction words generalizing i s buf with
  | nil => exact ⟨s.nec.lanes, w0 + i, Prod.ext rfl (by simp)⟩
  | cons x t ih =>
    obtain ⟨lanes, word⟩ := State.necWord_of_whole whole (clean x List.mem_cons_self) w0 i
    have wholeStill : (s.withLanes lanes).portWhole n := ⟨whole.lanes, whole.unforced, whole.noEpisode⟩
    obtain ⟨lanes', w, rest⟩ := ih (fun y hy => clean y (List.mem_cons_of_mem x hy)) (i + 1) wholeStill (buf ++ [(necDataAt n w0 (x, i), false)])
    refine ⟨lanes', w, ?_⟩
    have taken : State.takeWord n (s, buf, w0 + i) x = (s.withLanes lanes, buf ++ [(necDataAt n w0 (x, i), false)], w0 + (i + 1)) := by
      simp only [State.takeWord, word]
      rfl
    rw [List.foldl_cons, taken, rest, List.append_assoc, List.zipIdx_cons, List.map_cons, List.map_cons, List.singleton_append]
    rfl

end Sys2Proof.Machine
end

section
/-!
PROOFS. A nectar block (R136 to R144) that fills the words received: found by its header, accepted and delivered to the port's inputs, or
discarded under its first cause.
-/
namespace Sys2Proof.Machine

/-! ### The words of a block -/

/-- Words with room for a header, m payload words and a CRC. -/
theorem exists_block_words {l : List Nat} {m : Nat} (h : l.length = m + 3) :
    ∃ w0 w1 pay crc, l = w0 :: w1 :: (pay ++ [crc]) ∧ pay.length = m := by
  match l with
  | w0 :: w1 :: body =>
    have nonempty : body ≠ [] := by
      rintro rfl
      simp at h
    refine ⟨w0, w1, body.dropLast, body.getLast nonempty, by rw [List.dropLast_append_getLast], ?_⟩
    simp only [List.length_cons, List.length_dropLast] at h ⊢
    omega

/-- The words of a block under its CRC, and the CRC word. -/
theorem take_nth_block_words (w0 w1 crc : Nat) (pay : List Nat) : (w0 :: w1 :: (pay ++ [crc])).take (pay.length + 2) = w0 :: w1 :: pay
    ∧ nth (w0 :: w1 :: (pay ++ [crc])) (pay.length + 2) 0 = crc := by
  simp [nth]

theorem NecHeader.ok.start {w0 w1 : Nat} (h : (necHeader w0 w1).ok = true) : w0 % 2 ^ 16 = 0xB7E5 := by
  simp only [NecHeader.ok, Bool.and_eq_true, beq_iff_eq] at h
  obtain ⟨⟨⟨⟨start, -⟩, -⟩, -⟩, -⟩ := h
  simpa [necHeader, bitsOf] using start

theorem State.necScan_nil (fuel n : Nat) (s : State) : State.necScan fuel n s [] = s.modNecPort n (fun p => { p with buf := [] }) := by
  cases fuel <;> rfl

/-- A block that fills the words received, none of them lost, is taken, and no words are left. -/
theorem State.necScan_block {n w0 w1 crc : Nat} {pay : List Nat} (ok : (necHeader w0 w1).ok = true)
    (len : pay.length = (necHeader w0 w1).length) (fuel : Nat) (s : State) :
    State.necScan (fuel + 1) n s ((w0 :: w1 :: (pay ++ [crc])).map (·, false))
      = (s.necBlock n s.tick (necHeader w0 w1) false (w0 :: w1 :: pay) crc).modNecPort n (fun p => { p with buf := [] }) := by
  have start := NecHeader.ok.start ok
  have drop : ((pay ++ [crc]).map (·, false)).drop (necHeader w0 w1).length = [(crc, false)] := by simp [← len]
  have take : ((pay ++ [crc]).map (·, false)).take (necHeader w0 w1).length = pay.map (·, false) := by simp [← len]
  have none_lost : (pay.map (·, false)).any (·.2) = false := by simp
  have words : (pay.map (·, false)).map (·.1) = pay := by simp [Function.comp_def]
  simp only [List.map_cons, State.necScan, start, ok, drop, take, none_lost, words, State.necScan_nil]
  simp

/-! ### The verdict on a block (R143, R144) -/

theorem counter_ne_cfg (n : Nat) (c : NecCause) : NEC_PORTn_CFG n ≠ necCounter n c := by
  cases c <;> simp [necCounter]

/-- What a block brings the inputs of port n. -/
def State.blockTicks (s : State) (n k : Nat) (h : NecHeader) (words : List Nat) : List NativeTick :=
  (List.range h.count).map (fun j => ⟨s.fd (NEC_PORTn_CFG n) NEC_PORTn_CFG_INPUT_BASE + j, k, h.phase, necBits h.format,
    necSamples (words.drop 2) (necBits h.format) h.spi j, .none⟩)

section
variable {s : State} {n a : Nat} {h : NecHeader} {lost : Bool} {words : List Nat} {crc : Nat}

theorem State.necBlock_of_discard (discard : s.necCause n a h lost words crc ≠ .none) : s.necBlock n a h lost words crc
    = (s.count (necCounter n (s.necCause n a h lost words crc)) 1).modNecPort n
        (fun p => { p with causes := (extendTick48 h.tick a, s.necCause n a h lost words crc) :: p.causes }) :=
  if_neg discard

/-- The port with the tick and the samples of an accepted block noted. -/
def State.blockNoted (s : State) (n k spi : Nat) : State :=
  (s.count (NEC_PORTn_ACCEPTED n) 1).modNecPort n (fun p => { p with accepted := k :: p.accepted.take 3, sps := p.sps + spi })

theorem State.necBlock_of_accept (accept : s.necCause n a h lost words crc = .none) : s.necBlock n a h lost words crc
    = (s.blockNoted n (extendTick48 h.tick a) h.spi).necDeliver n (extendTick48 h.tick a) (s.blockTicks n (extendTick48 h.tick a) h words) := by
  have base : (s.blockNoted n (extendTick48 h.tick a) h.spi).fd (NEC_PORTn_CFG n) NEC_PORTn_CFG_INPUT_BASE
      = s.fd (NEC_PORTn_CFG n) NEC_PORTn_CFG_INPUT_BASE :=
    congrArg (bitsOf · _ _) (s.rd_count_ne 1 (counter_ne_cfg n .none))
  refine (if_pos accept).trans ?_
  rw [State.blockTicks, ← base, accept]
  rfl

/-- Noting an accepted block leaves the port's ticks to settle and its waiting blocks alone. -/
theorem State.blockNoted_keeps {k spi : Nat} (listed : n < s.nec.ports.length) (idle : (s.necPort n).wait = []) :
    n < (s.blockNoted n k spi).nec.ports.length ∧ ((s.blockNoted n k spi).necPort n).wait = []
    ∧ ((s.blockNoted n k spi).necPort n).todo = (s.necPort n).todo := by
  have noted : (s.blockNoted n k spi).necPort n
      = { s.necPort n with accepted := k :: (s.necPort n).accepted.take 3, sps := (s.necPort n).sps + spi } := State.necPort_modNecPort listed _
  rw [noted]
  exact ⟨listed.trans_eq (length_modNth _ _ _).symm, idle, rfl⟩

/-- What a block leaves: its counter goes up, and its ticks are delivered, wait or are dropped. -/
theorem State.necBlock_leaves (listed : n < s.nec.ports.length) (idle : (s.necPort n).wait = []) :
    let k := extendTick48 h.tick a
    let cause := s.necCause n a h lost words crc
    let native := s.blockTicks n k h words
    ∃ p i t, s.necBlock n a h lost words crc = (s.count (necCounter n cause) 1).portsLeft p i t
      ∧ (cause ≠ .none → i = s.ing.inbox)
      ∧ (cause = .none → (¬ s.unsettled n k ∨ ∃ b rest, (s.necPort n).todo = (k, b) :: rest) → i = s.ing.inbox ++ native)
      ∧ (cause = .none → (∃ a b rest, (s.necPort n).todo = (a, b) :: rest ∧ a ≠ k) → s.unsettled n k →
          i = s.ing.inbox ∧ (nth p n NecPort.reset).wait = [(k, native)]) := by
  intro k cause native
  by_cases accept : cause = .none
  · obtain ⟨listed', idle', todo⟩ := State.blockNoted_keeps (k := k) (spi := h.spi) listed idle
    have unsettled : (s.blockNoted n k h.spi).unsettled n k ↔ s.unsettled n k := by rw [State.unsettled, todo, State.unsettled]
    have counted : s.count (necCounter n cause) 1 = s.count (NEC_PORTn_ACCEPTED n) 1 := by rw [accept, necCounter]
    rw [counted, State.necBlock_of_accept accept]
    by_cases turn : ¬ s.unsettled n k ∨ ∃ b rest, (s.necPort n).todo = (k, b) :: rest
    · obtain ⟨p, t, delivered⟩ := State.necDeliver_now idle' listed' (l := native) (by rwa [unsettled, todo])
      refine ⟨p, _, t, delivered, fun no => absurd accept no, fun _ _ => rfl, ?_⟩
      rintro - ⟨a, b, rest, head, later⟩ waits
      obtain ⟨b', rest', head'⟩ := turn.resolve_left (not_not_intro waits)
      rw [head] at head'
      exact absurd (congrArg Prod.fst (List.cons.inj head').1) later
    · rw [not_or, not_not] at turn
      obtain ⟨waits, noHead⟩ := turn
      obtain ⟨⟨a, b⟩, rest, head⟩ : ∃ r rest, (s.necPort n).todo = r :: rest := by
        obtain ⟨r, hr, -⟩ := waits
        exact List.exists_cons_of_ne_nil (List.ne_nil_of_mem hr)
      have later : a ≠ k := by
        rintro rfl
        exact noHead ⟨b, rest, head⟩
      have waited := State.necDeliver_later idle' listed' (l := native) (by rw [todo, head]) later (unsettled.mpr waits)
      refine ⟨_, s.ing.inbox, s.acq.native, waited, fun _ => rfl, fun _ now => ?_, fun _ _ _ => ⟨rfl, ?_⟩⟩
      · exact absurd now (not_or.mpr ⟨not_not_intro waits, noHead⟩)
      · exact congrArg NecPort.wait (State.necPort_waiting idle' listed')
  · exact ⟨_, s.ing.inbox, s.acq.native, State.necBlock_of_discard accept, fun _ => rfl, fun no => absurd no accept, fun no => absurd no accept⟩

end
/-! ### The row -/

/-- With the bundle ALIGNED, the words are taken one by one, and blocks are sought among those not assembled yet. -/
theorem nectarBlockReceive_scans {n : Nat} (w0 : Nat) (words : List NecWord) {s : State} (hn : n < 64) (on : s.blockOn 5 = true)
    (en : s.portEn n = true) (bundle : s.bit (NEC_BUNDLEb_CFG (n / 4)) 0 = 1) (aligned : s.bundleAligned (n / 4) = true) :
    exec (.nectarBlockReceive n w0 words) s
      = let r := words.foldl (State.takeWord n) (s, (s.necPort n).buf, w0)
        .next (State.necScan r.2.1.length n r.1 r.2.1) := by
  have received : ¬ (decide (n ≥ 64) || !s.blockOn 5 || !s.portEn n || decide (s.bit (NEC_BUNDLEb_CFG (n / 4)) 0 = 0)) = true := by
    simp [hn, on, en, bundle]
  exact (if_neg received).trans (if_neg (by simp [aligned]))

/-- The words received on a whole port that a block fills are taken as that block. -/
theorem nectarBlockReceive_block {n w0 : Nat} {words : List NecWord} {s : State} (hn : n < 64) (on : s.blockOn 5 = true)
    (en : s.portEn n = true) (bundle : s.bit (NEC_BUNDLEb_CFG (n / 4)) 0 = 1) (aligned : s.bundleAligned (n / 4) = true)
    (empty : (s.necPort n).buf = []) (clean : ∀ x ∈ words, x.clean) (whole : s.portWhole n) :
    let ws := words.zipIdx.map (necDataAt n w0)
    let h := necHeader (nth ws 0 0) (nth ws 1 0)
    h.ok = true → ws.length = h.length + 3 → ∃ lanes, exec (.nectarBlockReceive n w0 words) s
      = .next (((s.withLanes lanes).necBlock n s.tick h false (ws.take (h.length + 2)) (nth ws (h.length + 2) 0)).modNecPort n
          (fun p => { p with buf := [] })) := by
  intro ws h ok len
  obtain ⟨lanes, w, taken⟩ := State.takeWords_of_whole w0 words clean 0 whole []
  obtain ⟨v0, v1, pay, crc, eq, payLen⟩ := exists_block_words len
  obtain ⟨block, crcWord⟩ := take_nth_block_words v0 v1 crc pay
  have header : h = necHeader v0 v1 := by simp [h, eq, nth]
  have scanned : State.necScan (ws.map (·, false)).length n (s.withLanes lanes) (ws.map (·, false))
      = ((s.withLanes lanes).necBlock n s.tick h false (ws.take (h.length + 2)) (nth ws (h.length + 2) 0)).modNecPort n
          (fun p => { p with buf := [] }) := by
    rw [List.length_map, len, ← payLen, eq, block, crcWord, header]
    exact State.necScan_block (header ▸ ok) (payLen.trans (congrArg _ header)) _ _
  refine ⟨lanes, (nectarBlockReceive_scans w0 words hn on en bundle aligned).trans ?_⟩
  rw [empty, show words.foldl (State.takeWord n) (s, [], w0) = (s.withLanes lanes, ws.map (·, false), w) from taken]
  exact congrArg _ scanned

end Sys2Proof.Machine
end

section
/-!
PROOFS. The parity rebuild of a word (R132, R133): PAR and the other data lanes in use give the word of the lane that lacks one.
-/
namespace Sys2Proof.Machine

/-! ### XOR over lanes -/

/-- The XOR of the words `f` of the lanes in `l`. -/
def xorOf (f : Nat → Nat) (l : List Nat) : Nat := l.foldl (fun acc v => Nat.xor acc (f v)) 0

theorem foldl_xor_eq (f : Nat → Nat) (l : List Nat) (a : Nat) : l.foldl (fun acc v => Nat.xor acc (f v)) a = a ^^^ xorOf f l := by
  induction l generalizing a with
  | nil => exact (Nat.xor_zero a).symm
  | cons y t ih =>
    have first : xorOf f (y :: t) = f y ^^^ xorOf f t := by
      rw [← ih (f y)]
      exact congrArg (t.foldl _) (Nat.zero_xor (f y))
    rw [first, ← Nat.xor_assoc]
    exact ih _

theorem xorOf_cons (f : Nat → Nat) (y : Nat) (t : List Nat) : xorOf f (y :: t) = f y ^^^ xorOf f t :=
  (foldl_xor_eq f t _).trans (congrArg (· ^^^ _) (Nat.zero_xor (f y)))

/-- The words of all lanes XORed with those of all but one leave the word of that one. -/
theorem xorOf_xor_others (f : Nat → Nat) {l : List Nat} (nodup : l.Nodup) {u : Nat} (hu : u ∈ l) :
    xorOf f l ^^^ xorOf f (l.filter (· != u)) = f u := by
  induction l with
  | nil => exact absurd hu List.not_mem_nil
  | cons y t ih =>
    obtain ⟨notIn, nodupTail⟩ := List.nodup_cons.mp nodup
    by_cases h : y = u
    · have all : t.filter (· != u) = t := List.filter_eq_self.mpr fun v hv => by
        simpa using ne_of_mem_of_not_mem hv (h ▸ notIn)
      rw [List.filter_cons_of_neg (by simp [h]), all, xorOf_cons, Nat.xor_assoc, Nat.xor_self, Nat.xor_zero, h]
    · have rest := ih nodupTail ((List.mem_cons.mp hu).resolve_left (Ne.symm h))
      rw [List.filter_cons_of_pos (by simp [h]), xorOf_cons, xorOf_cons, Nat.xor_comm (f y) (xorOf f (t.filter (· != u))), ← Nat.xor_assoc,
        Nat.xor_assoc (f y), rest, Nat.xor_comm (f y), Nat.xor_assoc, Nat.xor_self, Nat.xor_zero]

/-! ### What a word that needs a rebuild leaves -/

/-- With no violation in PAR's bits, what is noted of a word are the violations of its own lane. -/
theorem State.wordMet_sameRegs {x : NecWord} (parity : (x.lane 16).viol = 0) (s : State) (n w : Nat) : s.sameRegs (s.wordMet n w x)
    [NEC_LANE_STUFF_CNT (n / 4) (wordLane n w), NEC_BUNDLEb_HIST (n / 4), PCI_ERR] := by
  have stuffed := s.stuffed_sameRegs (n / 4) (wordLane n w) (x.lane (wordLane n w)).viol
  unfold State.wordMet
  simp only [parity, State.stuffed_zero, State.when, ite_self]
  split <;> exact stuffed

/-- PAR and the other lanes in use have their words. -/
def State.canRebuild (s : State) (n w : Nat) (x : NecWord) : Bool :=
  let t := s.wordMet n w x
  (t.bit (NEC_BUNDLEb_CFG (n / 4)) 1 = 1 && t.laneState (n / 4) 16 = 2 && (x.lane 16).viol = 0)
    && ((t.usedLanes (n / 4)).filter (· != wordLane n w)).all
      (fun v => t.laneState (n / 4) v == 2 && !t.laneExcluded (n / 4) v && (x.lane v).viol == 0)

/-- Bundle b with a rebuild episode of lane u in progress. -/
def State.rebuilding (s : State) (b u : Nat) : State :=
  let t := if s.bit (NEC_BUNDLEb_STATUS b) 30 = 1 && s.fd (NEC_BUNDLEb_STATUS b) NEC_BUNDLEb_STATUS_REBUILD_LANE = u then s
    else ((s.setBit (NEC_BUNDLEb_STATUS b) 30 true).setFd (NEC_BUNDLEb_STATUS b) NEC_BUNDLEb_STATUS_REBUILD_LANE u).flag (NEC_BUNDLEb_HIST b) 5
  { t with kpr := { t.kpr with rebuildSec := Nat.lor t.kpr.rebuildSec (2 ^ b) } }

theorem State.necWord_of_rebuild {s : State} {n w : Nat} {x : NecWord} (need : s.needsRebuild n w x = true) (can : s.canRebuild n w x = true) :
    s.necWord n w x = ((((s.wordMet n w x).usedLanes (n / 4)).filter (· != wordLane n w) |>.foldl
        (fun acc v => Nat.xor acc (x.data (n / 4) v (w / 4 % 512))) (x.data (n / 4) 16 (w / 4 % 512)), false),
      (s.wordMet n w x).rebuilding (n / 4) (wordLane n w)) := by
  have lacking : ¬ (!s.needsRebuild n w x) = true := by simp [need]
  exact (if_neg lacking).trans (if_pos can)

/-- While it is, REBUILD_LANE names the lane. -/
theorem State.fd_rebuilding {b u : Nat} (hb : b < 16) (hu : u < 32) (s : State) :
    (s.rebuilding b u).fd (NEC_BUNDLEb_STATUS b) NEC_BUNDLEb_STATUS_REBUILD_LANE = u := by
  unfold State.rebuilding
  extract_lets t
  show t.fd (NEC_BUNDLEb_STATUS b) NEC_BUNDLEb_STATUS_REBUILD_LANE = u
  by_cases named : (s.bit (NEC_BUNDLEb_STATUS b) 30 = 1 && s.fd (NEC_BUNDLEb_STATUS b) NEC_BUNDLEb_STATUS_REBUILD_LANE = u) = true
  · rw [show t = s from if_pos named]
    simp only [Bool.and_eq_true, decide_eq_true_iff] at named
    exact named.2
  · rw [show t = _ from if_neg named, State.fd_flag_ne _ _ _ (status_ne_hist b) (status_ne_pciErr hb), State.fd_setFd_same _ _ _ _ (by decide)]
    exact Nat.mod_eq_of_lt hu
/-! ### The word that is rebuilt (R133) -/

/-- Noting a word leaves the lanes' states, the ports and the configuration of the bundle alone. -/
theorem State.wordMet_keeps {x : NecWord} (parity : (x.lane 16).viol = 0) (s : State) (n w : Nat) :
    (∀ v, (s.wordMet n w x).laneState (n / 4) v = s.laneState (n / 4) v)
    ∧ (∀ v, (s.wordMet n w x).laneExcluded (n / 4) v = s.laneExcluded (n / 4) v)
    ∧ (s.wordMet n w x).usedLanes (n / 4) = s.usedLanes (n / 4)
    ∧ (s.wordMet n w x).bit (NEC_BUNDLEb_CFG (n / 4)) 1 = s.bit (NEC_BUNDLEb_CFG (n / 4)) 1 := by
  have same := s.wordMet_sameRegs parity n w
  have lane (v : Nat) : NEC_LANE_STATUS (n / 4) v ∉ [NEC_LANE_STUFF_CNT (n / 4) (wordLane n w), NEC_BUNDLEb_HIST (n / 4), PCI_ERR] := by
    simp [lane_ne_stuffCnt, lane_ne_hist, lane_ne_pciErr]
  have port (m : Nat) : NEC_PORTn_CFG m ∉ [NEC_LANE_STUFF_CNT (n / 4) (wordLane n w), NEC_BUNDLEb_HIST (n / 4), PCI_ERR] := by
    simp only [List.mem_cons, List.not_mem_nil, or_false]
    unfold NEC_PORTn_CFG NEC_LANE_STUFF_CNT NEC_BUNDLEb_HIST PCI_ERR
    omega
  have bundle : NEC_BUNDLEb_CFG (n / 4) ∉ [NEC_LANE_STUFF_CNT (n / 4) (wordLane n w), NEC_BUNDLEb_HIST (n / 4), PCI_ERR] := by
    simp only [List.mem_cons, List.not_mem_nil, or_false]
    unfold NEC_BUNDLEb_CFG NEC_LANE_STUFF_CNT NEC_BUNDLEb_HIST PCI_ERR
    omega
  exact ⟨fun v => same.fd (lane v) _, fun v => congrArg (· == 1) (same.bit (lane v) 3),
    List.filter_congr fun _ _ => congrArg (· == 1) (same.bit (port _) 0), same.bit bundle 1⟩

theorem wordLane_lt (n w : Nat) : wordLane n w < 16 := by unfold wordLane; omega

/-- The lane of a word of an enabled port is in use. -/
theorem State.wordLane_mem_usedLanes {s : State} {n : Nat} (en : s.portEn n = true) (w : Nat) : wordLane n w ∈ s.usedLanes (n / 4) := by
  have port : 4 * (n / 4) + wordLane n w / 4 = n := by unfold wordLane; omega
  exact List.mem_filter.mpr ⟨List.mem_range.mpr (wordLane_lt n w), by rwa [port]⟩

theorem State.usedLanes_nodup (s : State) (b : Nat) : (s.usedLanes b).Nodup := List.nodup_range.filter _

/-- A word whose lane lacks it is the one that was sent, where PAR and the other lanes in use brought theirs. -/
theorem State.necWord_rebuilds {n w : Nat} {x : NecWord} {sent : Nat → Nat} {s : State} (en : s.portEn n = true)
    (parEn : s.bit (NEC_BUNDLEb_CFG (n / 4)) 1 = 1) (parLocked : s.laneState (n / 4) 16 = 2) (parity : (x.lane 16).viol = 0)
    (others : ∀ v ∈ s.usedLanes (n / 4), v ≠ wordLane n w → s.laneState (n / 4) v = 2 ∧ s.laneExcluded (n / 4) v = false
      ∧ (x.lane v).viol = 0 ∧ x.data (n / 4) v (w / 4 % 512) = sent v)
    (par : x.data (n / 4) 16 (w / 4 % 512) = xorOf sent (s.usedLanes (n / 4)))
    (lacks : s.laneState (n / 4) (wordLane n w) ≠ 2 ∨ s.laneExcluded (n / 4) (wordLane n w) = true ∨ (x.lane (wordLane n w)).viol ≠ 0) :
    s.necWord n w x = ((sent (wordLane n w), false), (s.wordMet n w x).rebuilding (n / 4) (wordLane n w)) := by
  obtain ⟨state, excluded, used, cfg⟩ := s.wordMet_keeps parity n w
  have other {v : Nat} (hv : v ∈ (s.usedLanes (n / 4)).filter (· != wordLane n w)) := others v (List.mem_filter.mp hv).1
    (by simpa using (List.mem_filter.mp hv).2)
  have need : s.needsRebuild n w x = true := by
    simp only [State.needsRebuild, state, excluded]
    rcases lacks with h | h | h <;> simp [h]
  have can : s.canRebuild n w x = true := by
    simp only [State.canRebuild, state, excluded, used, cfg, parEn, parLocked, parity, decide_true, Bool.and_true, Bool.true_and]
    refine List.all_eq_true.mpr fun v hv => ?_
    obtain ⟨locked, included, clean, -⟩ := other hv
    simp [locked, included, clean]
  have words : ((s.usedLanes (n / 4)).filter (· != wordLane n w)).foldl (fun acc v => Nat.xor acc (x.data (n / 4) v (w / 4 % 512)))
      (x.data (n / 4) 16 (w / 4 % 512)) = sent (wordLane n w) := by
    have asSent := List.foldl_ext (fun acc v => Nat.xor acc (x.data (n / 4) v (w / 4 % 512))) (fun acc v => Nat.xor acc (sent v))
      (x.data (n / 4) 16 (w / 4 % 512)) fun acc v hv => by
        obtain ⟨-, -, -, data⟩ := other hv
        rw [data]
    rw [asSent, foldl_xor_eq, par]
    exact xorOf_xor_others sent (s.usedLanes_nodup _) (State.wordLane_mem_usedLanes en w)
  rw [State.necWord_of_rebuild need can, used, words]

end Sys2Proof.Machine
end

section
/-!
PROOFS. The absence of a port's inputs (R143) and the measurements of the second that ended (R147).
-/
namespace Sys2Proof.Machine

/-! ### Absence (R143) -/

/-- Of the ticks to settle only the lowest has closed. -/
theorem lowest_tick {k b : Nat} {rest : List (Nat × Nat)} (later : ∀ r ∈ rest, k < r.1) (hk : k ≤ b) :
    (((k, b) :: rest).flatMap (fun r => (List.range (r.2 + 1 - r.1)).map (r.1 + ·))).filter (· ≤ k) = [k] := by
  have head : ((List.range (b + 1 - k)).map (k + ·)).filter (· ≤ k) = [k] := by
    obtain ⟨m, hm⟩ : ∃ m, b + 1 - k = m + 1 := ⟨b - k, by omega⟩
    rw [hm, List.range_succ_eq_map]
    simp
  have tail : (rest.flatMap (fun r => (List.range (r.2 + 1 - r.1)).map (r.1 + ·))).filter (· ≤ k) = [] := by
    refine List.filter_eq_nil_iff.mpr fun j hj => ?_
    obtain ⟨r, hr, hj⟩ := List.mem_flatMap.mp hj
    obtain ⟨i, -, rfl⟩ := List.mem_map.mp hj
    have := later r hr
    simp
    omega
  rw [List.flatMap_cons, List.filter_append, head, tail, List.append_nil]

/-- Port n once the absence of its inputs in tick k is noted. -/
def State.absenceNoted (s : State) (n k : Nat) : State :=
  (s.when (s.absenceCause n k == .noneReceived) (·.count (NEC_PORTn_NONE n) 1)).modNecPort n
    (fun p => { p.pop with causes := p.causes.filter (fun c => k < c.1) })

/-- An input of tick k without samples. -/
def absentTick (k : Nat) (cause : NecCause) (i : Nat) : NativeTick := ⟨i, k, 0, 8, [], cause⟩

section
variable {s : State} {n k : Nat} (idle : (s.necPort n).wait = [])
include idle

theorem nectarPortAbsent_settles {b : Nat} {rest : List (Nat × Nat)} (hn : n < 64) (clocked : s.bit GLB_DOMAINS 4 = 1) (en : s.portEn n = true)
    (closed : s.tickClosed k = true) (head : (s.necPort n).todo = (k, b) :: rest) (later : ∀ r ∈ rest, k < r.1) (hk : k ≤ b) :
    exec (.nectarPortAbsent n k) s = .next (s.necSettle n k) := by
  have due : ¬ (decide (n ≥ 64) || decide (s.bit GLB_DOMAINS 4 = 0) || !s.portEn n || !s.tickClosed k
      || !(s.necPort n).todo.any (fun r => decide (r.1 ≤ k) && decide (k ≤ r.2))) = true := by
    simp [hn, clocked, en, closed, head, hk]
  have settled : State.necFlush (s.necPort n).wait.length n (s.each [k] (fun s j => s.necSettle n j)) = s.necSettle n k := by
    rw [idle]
    rfl
  refine (if_neg due).trans (congrArg _ ?_)
  rw [← settled, ← lowest_tick later hk, ← head]
  rfl

theorem State.necSettle_of_idle : s.necSettle n k
    = (s.absenceNoted n k).each ((s.absenceNoted n k).portTicks n (absentTick k (s.absenceCause n k))) State.deliverNative := by
  unfold State.necPort at idle
  simp only [State.necSettle, idle, List.find?_nil]
  rfl

end
theorem State.absenceCause_of_skipped {s : State} {k : Nat} (n : Nat) (h : s.tickSkipped k = true) : s.absenceCause n k = .stepped := if_pos h

section
variable {s : State} {n k : Nat} (issued : s.tickSkipped k = false)
include issued

/-- No block for the tick was discarded. -/
theorem State.absenceCause_of_none (none : ∀ c ∈ (s.necPort n).causes, c.1 ≠ k) : s.absenceCause n k = .noneReceived := by
  have found : (nth s.nec.ports n NecPort.reset).causes.find? (fun c => c.1 == k) = Option.none :=
    List.find?_eq_none.mpr fun c hc => by simpa using none c hc
  simp only [State.absenceCause, issued, found, Bool.false_eq_true, if_false]

theorem State.absenceCause_of_discard {c : NecCause} {rest : List (Nat × NecCause)} (last : (s.necPort n).causes = (k, c) :: rest) :
    s.absenceCause n k = c := by
  have found : (nth s.nec.ports n NecPort.reset).causes.find? (fun c => c.1 == k) = some (k, c) := by
    rw [show (nth s.nec.ports n NecPort.reset).causes = (k, c) :: rest from last]
    simp
  simp only [State.absenceCause, issued, found, Bool.false_eq_true, if_false]

end

section
variable (s : State) (n k : Nat)

theorem State.absenceNoted_sameRegs : s.sameRegs (s.absenceNoted n k) [NEC_PORTn_NONE n] := by
  unfold State.absenceNoted State.when
  split
  · exact (State.sameRegs_of_regs_eq rfl).wr _ (by simp)
  · exact State.sameRegs_of_regs_eq rfl

theorem State.rd_absenceNoted : (s.absenceNoted n k).rd (NEC_PORTn_NONE n)
    = (s.rd (NEC_PORTn_NONE n) + if s.absenceCause n k = .noneReceived then 1 else 0) % 2 ^ 32 := by
  unfold State.absenceNoted State.when
  by_cases none : s.absenceCause n k = .noneReceived
  · rw [if_pos none, if_pos (beq_iff_eq.mpr none)]
    exact s.rd_count_same _ _
  · rw [if_neg none, if_neg (mt beq_iff_eq.mp none), Nat.add_zero, Nat.mod_eq_of_lt (s.rd_lt _)]
    rfl

theorem State.absenceNoted_eq : s.absenceNoted n k
    = { s with regs := (s.absenceNoted n k).regs, nec := { s.nec with ports := (s.absenceNoted n k).nec.ports } } := by
  unfold State.absenceNoted State.when
  split <;> rfl

/-- The inputs of the port are those its configuration claims. -/
theorem State.portTicks_absenceNoted (f : Nat → NativeTick) : (s.absenceNoted n k).portTicks n f = s.portTicks n f := by
  have cfg : NEC_PORTn_CFG n ∉ [NEC_PORTn_NONE n] := by simp
  rw [State.portTicks, (s.absenceNoted_sameRegs n k).fd cfg, (s.absenceNoted_sameRegs n k).fd cfg, State.portTicks]

end

/-- A tick settled while no block waits leaves the inputs absent. -/
theorem State.necSettle_absent {s : State} {n : Nat} (idle : (s.necPort n).wait = []) (k : Nat) : ∃ a, s.necSettle n k
    = (s.absenceNoted n k).portsLeft (s.absenceNoted n k).nec.ports (s.ing.inbox ++ s.portTicks n (absentTick k (s.absenceCause n k))) a := by
  obtain ⟨a, delivered⟩ := State.each_deliverNative (s.portTicks n (absentTick k (s.absenceCause n k))) (s.absenceNoted n k)
  have inbox : (s.absenceNoted n k).ing.inbox = s.ing.inbox := by rw [State.absenceNoted_eq]
  rw [State.necSettle_of_idle idle, State.portTicks_absenceNoted, delivered, inbox]
  exact ⟨a, rfl⟩

/-! ### The measurements of a second (R147) -/

/-- The measurements of bundle b latched. -/
def State.latchBundle (ckofs : List Int) (s : State) (b : Nat) : State :=
  let e := nth s.nec.ended b (false, 0)
  (s.wr (NEC_BUNDLEb_CKOFS b) (if e.1 then unsigned 32 (nth ckofs b 0) else 0x80000000)).wr (NEC_BUNDLEb_SKEW b) (min e.2 0xFFF)

/-- Those of port n. -/
def State.latchPort (s : State) (n : Nat) : State :=
  let p := s.necPort n
  ((s.wr (NEC_PORTn_SPS_LO n) (p.spsEnd % 2 ^ 32)).wr (NEC_PORTn_SPS_HI n) (p.spsEnd / 2 ^ 32 % 2)).wr (NEC_PORTn_MISSING n) p.missEnd

/-- Those of all bundles and ports. -/
def State.latchAll (ckofs : List Int) (s : State) : State :=
  (s.each (List.range 16) (State.latchBundle ckofs)).each (List.range 64) State.latchPort

/-- `s` with no second's measurements due any more. -/
def State.noneDue (s : State) : State := { s with nec := { s.nec with due := false } }

theorem State.rd_noneDue (s : State) (a : Nat) : s.noneDue.rd a = s.rd a := rfl

theorem rateMeasurementLatch_latches (ckofs : List Int) {s : State} (due : s.nec.due = true) (clocked : s.bit GLB_DOMAINS 4 = 1) :
    exec (.rateMeasurementLatch ckofs) s = .next (s.latchAll ckofs).noneDue :=
  if_neg (by simp [due, clocked])

/-- A fold whose steps write registers alone. -/
theorem State.each_regs {α : Type} {f : State → α → State} (step : ∀ t x, f t x = { t with regs := (f t x).regs }) (l : List α) (s : State) :
    s.each l f = { s with regs := (s.each l f).regs } := by
  induction l generalizing s with
  | nil => rfl
  | cons x t ih => rw [State.each_cons, ih (f s x), step s x]

/-- A register that one step of such a fold writes, and the others leave alone, holds what that step writes. -/
theorem State.rd_each_of_mem {α : Type} {f : State → α → State} {l : List α} {x : α} {a v : Nat} (hx : x ∈ l) (s : State)
    (step : ∀ t y, f t y = { t with regs := (f t y).regs }) (writes : ∀ t : State, t.nec = s.nec → (f t x).rd a = v)
    (keeps : ∀ t y, y ≠ x → (f t y).rd a = t.rd a) : (s.each l f).rd a = v := by
  induction l generalizing s with
  | nil => exact absurd hx List.not_mem_nil
  | cons y t ih =>
    rw [State.each_cons]
    by_cases later : x ∈ t
    · have nec : (f s y).nec = s.nec := by rw [step s y]
      exact ih later (f s y) fun t h => writes t (h.trans nec)
    · obtain rfl := (List.mem_cons.mp hx).resolve_right later
      exact State.each_keeps (·.rd a = v) f t (fun t z hz h => (keeps t z (ne_of_mem_of_not_mem hz later)).trans h) _ (writes s rfl)

theorem State.rd_each_ne {α : Type} {f : State → α → State} {l : List α} {a : Nat} (s : State)
    (keeps : ∀ t y, y ∈ l → (f t y).rd a = t.rd a) : (s.each l f).rd a = s.rd a :=
  State.each_keeps (·.rd a = s.rd a) f l (fun t y hy h => (keeps t y hy).trans h) s rfl

/-! #### Bundles -/

section
variable (ckofs : List Int) (s : State) {b : Nat}

theorem State.latchBundle_eq (b : Nat) : s.latchBundle ckofs b = { s with regs := (s.latchBundle ckofs b).regs } := rfl

theorem State.rd_latchBundle_ne {a : Nat} (hc : a ≠ NEC_BUNDLEb_CKOFS b) (hs : a ≠ NEC_BUNDLEb_SKEW b) :
    (s.latchBundle ckofs b).rd a = s.rd a := by
  rw [State.latchBundle, State.rd_wr_ne _ _ hs, State.rd_wr_ne _ _ hc]

theorem State.rd_latchBundle_ckofs : (s.latchBundle ckofs b).rd (NEC_BUNDLEb_CKOFS b)
    = if (nth s.nec.ended b (false, 0)).1 = true then unsigned 32 (nth ckofs b 0) else 0x80000000 := by
  rw [State.latchBundle, State.rd_wr_ne _ _ (by simp), State.rd_wr_same]
  split
  · exact Nat.mod_eq_of_lt (unsigned_lt 32 _)
  · rfl

theorem State.rd_latchBundle_skew : (s.latchBundle ckofs b).rd (NEC_BUNDLEb_SKEW b) = min (nth s.nec.ended b (false, 0)).2 0xFFF := by
  rw [State.latchBundle, State.rd_wr_same]
  omega

end

/-! #### Ports -/

section
variable (s : State) {n : Nat}

theorem State.latchPort_eq (n : Nat) : s.latchPort n = { s with regs := (s.latchPort n).regs } := rfl

theorem State.rd_latchPort_ne {a : Nat} (hl : a ≠ NEC_PORTn_SPS_LO n) (hh : a ≠ NEC_PORTn_SPS_HI n) (hm : a ≠ NEC_PORTn_MISSING n) :
    (s.latchPort n).rd a = s.rd a := by
  rw [State.latchPort, State.rd_wr_ne _ _ hm, State.rd_wr_ne _ _ hh, State.rd_wr_ne _ _ hl]

theorem State.rd_latchPort_lo : (s.latchPort n).rd (NEC_PORTn_SPS_LO n) = (s.necPort n).spsEnd % 2 ^ 32 := by
  rw [State.latchPort, State.rd_wr_ne _ _ (by simp), State.rd_wr_ne _ _ (by simp), State.rd_wr_same, Nat.mod_mod]

theorem State.rd_latchPort_hi : (s.latchPort n).rd (NEC_PORTn_SPS_HI n) = (s.necPort n).spsEnd / 2 ^ 32 % 2 := by
  rw [State.latchPort, State.rd_wr_ne _ _ (by simp), State.rd_wr_same]
  omega

theorem State.rd_latchPort_missing : (s.latchPort n).rd (NEC_PORTn_MISSING n) = (s.necPort n).missEnd % 2 ^ 32 := State.rd_wr_same _ _ _

end
/-! #### All of them -/

/-- The registers the measurements stand in. -/
def rateRegs : List Nat := (List.range 16).map (fun b => NEC_BUNDLEb_CKOFS b) ++ (List.range 16).map (fun b => NEC_BUNDLEb_SKEW b)
  ++ (List.range 64).flatMap (fun n => [NEC_PORTn_SPS_LO n, NEC_PORTn_SPS_HI n, NEC_PORTn_MISSING n])

theorem bundle_mem_rateRegs {b : Nat} (hb : b < 16) : NEC_BUNDLEb_CKOFS b ∈ rateRegs ∧ NEC_BUNDLEb_SKEW b ∈ rateRegs := by
  simp [rateRegs, hb]

theorem port_mem_rateRegs {n : Nat} (hn : n < 64) :
    NEC_PORTn_SPS_LO n ∈ rateRegs ∧ NEC_PORTn_SPS_HI n ∈ rateRegs ∧ NEC_PORTn_MISSING n ∈ rateRegs := by
  have listed {a : Nat} (h : a ∈ [NEC_PORTn_SPS_LO n, NEC_PORTn_SPS_HI n, NEC_PORTn_MISSING n]) : a ∈ rateRegs :=
    List.mem_append_right _ (List.mem_flatMap.mpr ⟨n, List.mem_range.mpr hn, h⟩)
  exact ⟨listed (by simp), listed (by simp), listed (by simp)⟩

section
variable (ckofs : List Int) (s : State)

theorem State.latchAll_sameRegs : s.sameRegs (s.latchAll ckofs) rateRegs := by
  refine State.each_keeps (s.sameRegs · rateRegs) _ _ (fun t n hn h => ?_) _
    (State.each_keeps (s.sameRegs · rateRegs) _ _ (fun t b hb h => ?_) s fun _ _ => rfl)
  · obtain ⟨lo, hi, missing⟩ := port_mem_rateRegs (List.mem_range.mp hn)
    exact ((h.wr _ lo).wr _ hi).wr _ missing
  · obtain ⟨offset, skew⟩ := bundle_mem_rateRegs (List.mem_range.mp hb)
    exact (h.wr _ offset).wr _ skew

theorem State.latchBundles_eq : s.each (List.range 16) (State.latchBundle ckofs)
    = { s with regs := (s.each (List.range 16) (State.latchBundle ckofs)).regs } := State.each_regs (State.latchBundle_eq ckofs) _ s

theorem State.latchAll_eq : s.latchAll ckofs = { s with regs := (s.latchAll ckofs).regs } := by
  rw [State.latchAll, State.each_regs State.latchPort_eq, s.latchBundles_eq ckofs]

/-- A register of bundle b holds what the bundle's step writes. -/
theorem State.rd_latchAll_bundle {a b v : Nat} (hb : b < 16) (own : a = NEC_BUNDLEb_CKOFS b ∨ a = NEC_BUNDLEb_SKEW b)
    (writes : ∀ t : State, t.nec = s.nec → (t.latchBundle ckofs b).rd a = v) : (s.latchAll ckofs).rd a = v := by
  refine (State.rd_each_ne _ fun t n _ => ?_).trans
    (State.rd_each_of_mem (List.mem_range.mpr hb) s (State.latchBundle_eq ckofs) writes fun t c hc => ?_)
  · have outside : a < 0x503000 := by
      unfold NEC_BUNDLEb_CKOFS NEC_BUNDLEb_SKEW at own
      omega
    apply State.rd_latchPort_ne
    · unfold NEC_PORTn_SPS_LO; omega
    · unfold NEC_PORTn_SPS_HI; omega
    · unfold NEC_PORTn_MISSING; omega
  · unfold NEC_BUNDLEb_CKOFS NEC_BUNDLEb_SKEW at own
    apply State.rd_latchBundle_ne
    · unfold NEC_BUNDLEb_CKOFS; omega
    · unfold NEC_BUNDLEb_SKEW; omega

/-- A register of port n holds what the port's step writes. -/
theorem State.rd_latchAll_port {a n v : Nat} (hn : n < 64) (own : a = NEC_PORTn_SPS_LO n ∨ a = NEC_PORTn_SPS_HI n ∨ a = NEC_PORTn_MISSING n)
    (writes : ∀ t : State, t.nec = s.nec → (t.latchPort n).rd a = v) : (s.latchAll ckofs).rd a = v := by
  refine State.rd_each_of_mem (List.mem_range.mpr hn) _ State.latchPort_eq (fun t h => writes t ?_) fun t m hm => ?_
  · rw [h, s.latchBundles_eq ckofs]
  · unfold NEC_PORTn_SPS_LO NEC_PORTn_SPS_HI NEC_PORTn_MISSING at own
    apply State.rd_latchPort_ne
    · unfold NEC_PORTn_SPS_LO; omega
    · unfold NEC_PORTn_SPS_HI; omega
    · unfold NEC_PORTn_MISSING; omega

theorem State.latched_bundle {b : Nat} (hb : b < 16) :
    (s.latchAll ckofs).noneDue.rd (NEC_BUNDLEb_CKOFS b)
      = (if (nth s.nec.ended b (false, 0)).1 = true then unsigned 32 (nth ckofs b 0) else 0x80000000)
    ∧ (s.latchAll ckofs).noneDue.rd (NEC_BUNDLEb_SKEW b) = min (nth s.nec.ended b (false, 0)).2 0xFFF :=
  ⟨(State.rd_noneDue _ _).trans (s.rd_latchAll_bundle ckofs hb (.inl rfl) fun t h => by rw [State.rd_latchBundle_ckofs, h]),
    (State.rd_noneDue _ _).trans (s.rd_latchAll_bundle ckofs hb (.inr rfl) fun t h => by rw [State.rd_latchBundle_skew, h])⟩

theorem State.latched_port {n : Nat} (hn : n < 64) :
    (s.latchAll ckofs).noneDue.rd64 (NEC_PORTn_SPS_LO n) (NEC_PORTn_SPS_HI n) = (s.necPort n).spsEnd % 2 ^ 33
    ∧ (s.latchAll ckofs).noneDue.rd (NEC_PORTn_MISSING n) = (s.necPort n).missEnd % 2 ^ 32 := by
  have same {t : State} (h : t.nec = s.nec) : t.necPort n = s.necPort n := by rw [State.necPort, h, State.necPort]
  have lo := s.rd_latchAll_port ckofs hn (.inl rfl) fun t h => by rw [State.rd_latchPort_lo, same h]
  have hi := s.rd_latchAll_port ckofs hn (.inr (.inl rfl)) fun t h => by rw [State.rd_latchPort_hi, same h]
  have missing := s.rd_latchAll_port ckofs hn (.inr (.inr rfl)) fun t h => by rw [State.rd_latchPort_missing, same h]
  rw [State.rd64, State.rd_noneDue, State.rd_noneDue, State.rd_noneDue, lo, hi]
  exact ⟨by omega, missing⟩

theorem State.latched_sameRegs : s.sameRegs (s.latchAll ckofs).noneDue rateRegs :=
  (s.latchAll_sameRegs ckofs).trans fun _ _ => State.rd_noneDue _ _

theorem State.latched_eq :
    (s.latchAll ckofs).noneDue = { s with regs := (s.latchAll ckofs).noneDue.regs, nec := { s.nec with due := false } } := by
  rw [s.latchAll_eq ckofs]
  rfl

end

end Sys2Proof.Machine
end

section
/-!
PROOFS. The statement on nectar blocks.
-/
namespace Sys2Proof.Machine

/-- Settles O9: a block that fills the words received is found whole and judged; a word that can be rebuilt is the XOR of the others; a
tick settled without a block leaves its inputs absent; and each measurement of the second stands in its register. -/
theorem nectarBlocksReachTheirInputs : Obligations.NectarBlocksReachTheirInputs := by
  unfold Obligations.NectarBlocksReachTheirInputs
  refine ⟨?block, ?rebuild, ?absent, ?rates⟩
  case block =>
    intro n w0 words s hn on en bundle aligned empty clean lanes unforced noEpisode ws h k cause todo native ok len listed idle
    obtain ⟨lanes', ran⟩ := nectarBlockReceive_block hn on en bundle aligned empty clean ⟨lanes, unforced, noEpisode⟩ ok len
    obtain ⟨p, i, a, left, discarded, delivered, waits⟩ := State.necBlock_leaves (s := s.withLanes lanes')
      (a := s.tick) (h := h) (lost := false) (words := ws.take (h.length + 2)) (crc := nth ws (h.length + 2) 0) listed idle
    refine ⟨_, ran.trans (congrArg (fun u : State => Host.Outcome.next (u.modNecPort n (fun p => { p with buf := [] }))) left),
      (s.withLanes lanes').rd_count_same _ _, discarded, fun accept turn => ?_, fun accept later unsettled => ?_, ?_, rfl⟩
    · refine delivered accept (turn.imp_left ?_)
      rintro settled ⟨r, hr, covers⟩
      exact settled r hr covers
    · obtain ⟨inbox, wait⟩ := waits accept later unsettled
      exact ⟨inbox, (nth_modNth_part NecPort.wait (f := fun p => { p with buf := [] }) (fun _ => rfl) p n _).trans wait⟩
    · exact (State.sameRegs_of_regs_eq rfl).wr _ (List.mem_singleton_self (necCounter n cause))
  case rebuild =>
    intro n w x sent s hn en b u q parEn parLocked parity others par lacks
    rw [State.necWord_rebuilds en parEn parLocked parity others par lacks]
    exact ⟨rfl, State.fd_rebuilding (by omega) ((wordLane_lt n w).trans (by decide)) _⟩
  case absent =>
    intro n k b rest s hn clocked en closed head later hk idle
    obtain ⟨a, settled⟩ := State.necSettle_absent idle k
    refine ⟨_, nectarPortAbsent_settles idle hn clocked en closed head later hk, s.absenceCause n k, State.absenceCause_of_skipped n,
      State.absenceCause_of_none, fun issued _ _ => State.absenceCause_of_discard issued, ?_⟩
    rw [settled]
    refine ⟨s.rd_absenceNoted n k, ?_, s.absenceNoted_sameRegs n k, ?_⟩
    · simp [State.portsLeft, State.portTicks, absentTick]
    · rw [State.absenceNoted_eq]
      rfl
  case rates =>
    intro ckofs s due clocked
    exact ⟨_, rateMeasurementLatch_latches ckofs due clocked, fun b hb => s.latched_bundle ckofs hb, fun n hn => s.latched_port ckofs hn,
      s.latched_sameRegs ckofs, s.latched_eq ckofs⟩

end Sys2Proof.Machine
end

section
/-!
PROOFS. A filter slot (R151 to R171): its entry in the list of slots, its status, and what work on one slot leaves alone.
-/
namespace Sys2Proof.Machine

/-! ### The entry of a slot -/

theorem State.slot_setSlot_same {s : State} {i : Nat} (h : i < s.ing.slots.length) (x : Slot) : (s.setSlot i x).slot i = x :=
  nth_setNth_same _ _ h

theorem State.slot_setSlot_ne (s : State) {i j : Nat} (x : Slot) (h : j ≠ i) : (s.setSlot i x).slot j = s.slot j :=
  nth_setNth_ne _ _ _ h

@[simp] theorem State.slot_wr (s : State) (a v i : Nat) : (s.wr a v).slot i = s.slot i := rfl
@[simp] theorem State.slot_setBit (s : State) (a b : Nat) (v : Bool) (i : Nat) : (s.setBit a b v).slot i = s.slot i := rfl
@[simp] theorem State.slot_setFd (s : State) (a : Nat) (f : Fld) (v i : Nat) : (s.setFd a f v).slot i = s.slot i := rfl
@[simp] theorem State.slot_satCount (s : State) (j : Nat) (f : Fld) (n i : Nat) : (s.satCount j f n).slot i = s.slot i := rfl
@[simp] theorem State.rd_setSlot (s : State) (i : Nat) (x : Slot) (a : Nat) : (s.setSlot i x).rd a = s.rd a := rfl

theorem State.slot_flag (s : State) (a b i : Nat) : (s.flag a b).slot i = s.slot i := by
  rw [State.slot, State.flag_ing, State.slot]

/-! ### The status of a slot -/

theorem State.slotStatus_setBit_same (s : State) (i : Nat) {b : Nat} (v : Bool) (h : b < 32) :
    (s.setBit (ING_Ii_STATUS i) b v).slotStatus i b = v := by
  rw [State.slotStatus, State.bit_setBit_same _ _ _ _ h]
  cases v <;> rfl

theorem State.slotStatus_setBit_ne (s : State) (i : Nat) {b c : Nat} (v : Bool) (h : b < 32) (n : c ≠ b) :
    (s.setBit (ING_Ii_STATUS i) b v).slotStatus i c = s.slotStatus i c := by
  rw [State.slotStatus, State.bit_setBit_ne _ _ _ h n, State.slotStatus]

theorem status_ne_ingErr (i : Nat) : ING_Ii_STATUS i ≠ ING_ERR := by unfold ING_Ii_STATUS ING_ERR; omega
theorem slotStatus_ne_pciErr {i : Nat} (hi : i < 256) : ING_Ii_STATUS i ≠ PCI_ERR := by unfold ING_Ii_STATUS PCI_ERR; omega

theorem State.slotStatus_flag (s : State) {i : Nat} (hi : i < 256) (b c : Nat) : (s.flag ING_ERR b).slotStatus i c = s.slotStatus i c := by
  rw [State.slotStatus, State.bit_flag_ne _ _ _ (status_ne_ingErr i) (slotStatus_ne_pciErr hi), State.slotStatus]

/-! ### Work on one slot -/

/-- `t` is `s` after work on slot i that changes no register outside `l`. -/
structure State.slotWork (s : State) (i : Nat) (l : List Nat) (t : State) : Prop where
  regs : s.sameRegs t l
  others : ∀ j, j ≠ i → t.slot j = s.slot j
  length : t.ing.slots.length = s.ing.slots.length
  frame : ∃ r x, t = { s with regs := r, ing := { s.ing with slots := x } }

namespace State.slotWork
variable {s t u : State} {i a : Nat} {l m : List Nat}

theorem refl : s.slotWork i l s := ⟨fun _ _ => rfl, fun _ _ => rfl, rfl, _, _, rfl⟩

theorem trans (h : s.slotWork i l t) (g : t.slotWork i l u) : s.slotWork i l u := by
  refine ⟨h.regs.trans g.regs, fun j hj => (g.others j hj).trans (h.others j hj), g.length.trans h.length, ?_⟩
  obtain ⟨_, _, rfl⟩ := h.frame
  obtain ⟨_, _, rfl⟩ := g.frame
  exact ⟨_, _, rfl⟩

theorem mono (h : s.slotWork i l t) (sub : l ⊆ m) : s.slotWork i m t := ⟨h.regs.mono sub, h.others, h.length, h.frame⟩

theorem eq (h : s.slotWork i l t) : t = { s with regs := t.regs, ing := { s.ing with slots := t.ing.slots } } := by
  obtain ⟨_, _, rfl⟩ := h.frame
  rfl

theorem setSlot (h : s.slotWork i l t) (x : Slot) : s.slotWork i l (t.setSlot i x) :=
  h.trans ⟨State.sameRegs_of_regs_eq rfl, fun _ hj => t.slot_setSlot_ne x hj, length_setNth _ _ _, _, _, rfl⟩

theorem wr (h : s.slotWork i l t) (v : Nat) (ha : a ∈ l) : s.slotWork i l (t.wr a v) :=
  h.trans ⟨(State.sameRegs_of_regs_eq rfl).wr v ha, fun _ _ => rfl, rfl, _, _, rfl⟩

theorem setBit (h : s.slotWork i l t) (b : Nat) (v : Bool) (ha : a ∈ l) : s.slotWork i l (t.setBit a b v) := h.wr _ ha

theorem setFd (h : s.slotWork i l t) (f : Fld) (v : Nat) (ha : a ∈ l) : s.slotWork i l (t.setFd a f v) := h.wr _ ha

theorem each {α : Type} {f : State → α → State} (step : ∀ (v : State) x, v.slotWork i l (f v x)) (xs : List α) (s : State) :
    s.slotWork i l (s.each xs f) :=
  State.each_keeps (s.slotWork i l) f xs (fun v x _ hv => hv.trans (step v x)) s refl

/-- A replay's canonical ticks and spectra are dropped before the work or after it. -/
theorem dropReplay (h : s.slotWork i l t) (k : Nat) : (s.dropReplay k).slotWork i l (t.dropReplay k) := by
  refine ⟨h.regs, h.others, h.length, ?_⟩
  obtain ⟨r, x, rfl⟩ := h.frame
  exact ⟨r, x, rfl⟩

end State.slotWork

/-! ### The pending model (R161) -/

theorem State.applyModel_of_due {s : State} {i : Nat} {m : DlyModel} (pend : (s.slot i).pend = some m) (due : s.slotBegun i m.kr = true) :
    s.applyModel i = (s.setSlot i { s.slot i with pend := none, models := m :: (s.slot i).models.take 7 }).setBit (ING_Ii_STATUS i) 26 false := by
  simp [State.applyModel, pend, due]

theorem State.applyModel_work (s : State) (i : Nat) : s.slotWork i [ING_Ii_STATUS i] (s.applyModel i) := by
  unfold State.applyModel
  dsimp only
  split
  · split
    · exact (State.slotWork.refl.setSlot _).setBit _ _ (by simp)
    · exact .refl
  · exact .refl

/-- A model whose tick begins with the slot's start is the one in force then. -/
theorem State.modelAt_applyModel {s : State} {i : Nat} {m : DlyModel} (hi : i < s.ing.slots.length) (pend : (s.slot i).pend = some m)
    (due : s.slotBegun i m.kr = true) :
    ((s.applyModel i).slot i).modelAt m.kr = some m := by
  rw [State.applyModel_of_due pend due, State.slot_setBit, State.slot_setSlot_same hi]
  simp [Slot.modelAt]

end Sys2Proof.Machine
end

section
/-!
PROOFS. Native samples entering the filter chain of a slot (R151 to R153, R157): each advances the ordinal, and what a slot without FIR stages and
DC blocker keeps of them is the samples themselves.
-/
namespace Sys2Proof.Machine

/-! ### Samples through the chain -/

/-- `n` samples have entered the chain of slot i. -/
structure State.fed (s : State) (i n : Nat) (t : State) : Prop where
  work : s.slotWork i [ING_Ii_SAT_CNT i] t
  entry : t.slot i = { s.slot i with dc := (t.slot i).dc, hist := (t.slot i).hist, dec := (t.slot i).dec, decTop := (t.slot i).decTop,
                                     nextOrd := (s.slot i).nextOrd + n }

namespace State.fed
variable {s t u : State} {i n m : Nat}

theorem refl : s.fed i 0 s := ⟨.refl, rfl⟩

theorem trans (h : s.fed i n t) (g : t.fed i m u) : s.fed i (n + m) u := by
  refine ⟨h.work.trans g.work, ?_⟩
  rw [g.entry, h.entry, Nat.add_assoc]

theorem slotCfgAt (h : s.fed i n t) (k : Nat) : t.slotCfgAt i k = s.slotCfgAt i k := by
  have log : (t.slot i).cfgLog = (s.slot i).cfgLog := by rw [h.entry]
  have kept (a : Nat) (ha : a ≠ ING_Ii_SAT_CNT i) : t.rd a = s.rd a := h.work.regs a (by simpa using ha)
  rw [State.slotCfgAt, log, kept _ (by simp), kept _ (by simp), State.slotCfgAt]

end State.fed

section
variable {s : State} {i : Nat} (hi : i < s.ing.slots.length)
include hi

theorem State.slotSample_fed (x : Smp) : s.fed i 1 (s.slotSample i x) := by
  refine ⟨(State.slotWork.refl.setSlot _).setFd _ _ (by simp), ?_⟩
  rw [State.slotSample, State.slot_satCount, State.slot_setSlot_same hi]
  split <;> rfl

theorem State.setDc_fed (y : Int) : s.fed i 0 (s.setSlot i { s.slot i with dc := y }) := by
  refine ⟨State.slotWork.refl.setSlot _, ?_⟩
  rw [State.slot_setSlot_same hi]
  rfl

theorem State.slotNative_fed (k bw : Nat) (x : Int) : s.fed i 1 (s.slotNative i k bw x) := by
  unfold State.slotNative
  dsimp only
  split
  · exact State.slotSample_fed hi _
  · have dc := State.setDc_fed hi
    rw [← Nat.zero_add 1]
    exact (dc _).trans (State.slotSample_fed ((dc _).work.length.symm ▸ hi) _)

end

/-- The samples of a native tick enter the chain in order. -/
theorem State.each_slotNative_fed {i : Nat} (k bw : Nat) (xs : List Int) (s : State) (hi : i < s.ing.slots.length) :
    s.fed i xs.length (s.each xs (fun s x => s.slotNative i k bw x)) := by
  induction xs generalizing s with
  | nil => exact .refl
  | cons x xs ih =>
    have first := State.slotNative_fed hi k bw x
    have fed := first.trans (ih _ (first.work.length ▸ hi))
    rwa [Nat.add_comm] at fed

/-! ### A slot without FIR stages and DC blocker -/

/-- A native sample of `bw` bits, sign-extended to 16 (R151). -/
def nativeSmp (bw : Nat) (x : Int) : Smp := ⟨x * (2 ^ (16 - bw) : Nat), .none, false⟩

theorem State.slotSample_dec {s : State} {i : Nat} (hi : i < s.ing.slots.length) (plain : firStages (s.rd (ING_Ii_FIR i)) = 0) (x : Smp) :
    ((s.slotSample i x).slot i).dec = (x :: (s.slot i).dec).take decKeep := by
  rw [State.slotSample, State.slot_satCount, State.slot_setSlot_same hi, plain]
  rfl

theorem State.slotNative_dec {s : State} {i k : Nat} (hi : i < s.ing.slots.length) (plain : firStages (s.rd (ING_Ii_FIR i)) = 0)
    (noDc : bitOf (s.slotCfgAt i k).1 2 = 0) (bw : Nat) (x : Int) :
    ((s.slotNative i k bw x).slot i).dec = (nativeSmp bw x :: (s.slot i).dec).take decKeep := by
  rw [State.slotNative, if_pos noDc, State.slotSample_dec hi plain, nativeSmp]

theorem take_append_take {α : Type} (l r : List α) (n : Nat) : (l ++ r.take n).take n = (l ++ r).take n := by
  rw [List.take_append, List.take_append, List.take_take, Nat.min_eq_left (Nat.sub_le _ _)]

theorem State.each_slotNative_dec {i k : Nat} (bw : Nat) (xs : List Int) (s : State) (hi : i < s.ing.slots.length)
    (plain : firStages (s.rd (ING_Ii_FIR i)) = 0) (noDc : bitOf (s.slotCfgAt i k).1 2 = 0) (room : (s.slot i).dec.length ≤ decKeep) :
    ((s.each xs (fun s x => s.slotNative i k bw x)).slot i).dec = ((xs.map (nativeSmp bw)).reverse ++ (s.slot i).dec).take decKeep := by
  induction xs generalizing s with
  | nil => exact (List.take_of_length_le room).symm
  | cons x xs ih =>
    have fed := State.slotNative_fed hi k bw x
    have dec := State.slotNative_dec hi plain noDc bw x
    have fir : (s.slotNative i k bw x).rd (ING_Ii_FIR i) = s.rd (ING_Ii_FIR i) := fed.work.regs _ (by simp)
    rw [State.each_cons, ih _ (fed.work.length ▸ hi) (fir ▸ plain) (fed.slotCfgAt k ▸ noDc) (by rw [dec]; exact List.length_take_le _ _), dec,
      take_append_take]
    simp

end Sys2Proof.Machine
end

section
/-!
PROOFS. A native tick that slot i takes (R157, R159, R167, R168): accepted with the ordinal that follows those before it, or noted as absent.
-/
namespace Sys2Proof.Machine

/-! ### A present tick -/

/-- Slot i has taken the present tick `b` with first ordinal `o`. -/
structure State.tookTick (s : State) (i o : Nat) (b : NativeTick) (t : State) : Prop where
  work : s.slotWork i [ING_Ii_SAT_CNT i] t
  ticks : (t.slot i).ticks = ⟨b.tick, o, b.phase, b.samples.length, .none⟩ :: (s.slot i).ticks.take slotKeep
  nextOrd : (t.slot i).nextOrd = (s.slot i).nextOrd + b.samples.length
  dec : firStages (s.rd (ING_Ii_FIR i)) = 0 → bitOf (s.slotCfgAt i b.tick).1 2 = 0 →
    (t.slot i).dec = ((b.samples.map (nativeSmp b.bits)).reverse ++ (s.slot i).dec).take decKeep ∨ decKeep < (s.slot i).dec.length

/-- Slot i notes the tick with first ordinal `o`, then takes its samples. -/
def State.takeTick (s : State) (i : Nat) (b : NativeTick) (o : Nat) : State :=
  (s.setSlot i { s.slot i with ticks := ⟨b.tick, o, b.phase, b.samples.length, .none⟩ :: (s.slot i).ticks.take slotKeep }).each b.samples
    (fun s x => s.slotNative i b.tick b.bits x)

section
variable {s : State} {i : Nat} (hi : i < s.ing.slots.length)
include hi

theorem State.takeTick_took (b : NativeTick) (o : Nat) : s.tookTick i o b (s.takeTick i b o) := by
  unfold State.takeTick
  generalize noted : { s.slot i with ticks := ⟨b.tick, o, b.phase, b.samples.length, NecCause.none⟩ :: (s.slot i).ticks.take slotKeep } = x
  have entry : (s.setSlot i x).slot i = x := State.slot_setSlot_same hi x
  have length : (s.setSlot i x).ing.slots.length = s.ing.slots.length := length_setNth _ _ _
  have fed := State.each_slotNative_fed b.tick b.bits b.samples (s.setSlot i x) (length ▸ hi)
  refine ⟨(State.slotWork.refl.setSlot x).trans fed.work, ?_, ?_, fun plain noDc => ?_⟩
  · rw [fed.entry, entry, ← noted]
  · rw [fed.entry, entry, ← noted]
  · rcases Nat.lt_or_ge decKeep (s.slot i).dec.length with beyond | room
    · exact .inr beyond
    · have same : (s.setSlot i x).slotCfgAt i b.tick = s.slotCfgAt i b.tick := by
        rw [State.slotCfgAt, entry, ← noted]
        rfl
      have dec : x.dec = (s.slot i).dec := by rw [← noted]
      left
      rw [State.each_slotNative_dec b.bits b.samples (s.setSlot i x) (length ▸ hi) plain (same ▸ noDc) (by rwa [entry, dec]), entry, dec]

/-- A tick is accepted with ordinal 0 where it is the first, at the slot's start, and with the next ordinal where it follows the tick before. -/
theorem State.slotAccept_took {b : NativeTick} {o : Nat}
    (follows : match (s.slot i).ticks.find? (fun e => e.cause == .none) with
      | none => o = 0 ∧ b.tick = (s.slot i).kStart
      | some j => o = j.o + j.spi ∧ b.tick = j.tick + 1) :
    s.tookTick i o b (s.slotAccept i b) := by
  cases before : (s.slot i).ticks.find? (fun e => e.cause == .none) with
  | none =>
    rw [before] at follows
    obtain ⟨rfl, start⟩ := follows
    have accepted : s.slotAccept i b = s.takeTick i b 0 := by
      unfold State.slotAccept
      dsimp only
      rw [before]
      exact if_pos start
    exact accepted ▸ State.takeTick_took hi b 0
  | some j =>
    rw [before] at follows
    obtain ⟨rfl, next⟩ := follows
    have accepted : s.slotAccept i b = (s.setSlot i { s.slot i with cStar := some ((j.spi : Int) * 2 ^ 32 + j.phase - b.phase) }).takeTick i b
        (j.o + j.spi) := by
      unfold State.slotAccept
      dsimp only
      rw [before]
      exact if_pos next
    have length : (s.setSlot i { s.slot i with cStar := some ((j.spi : Int) * 2 ^ 32 + j.phase - b.phase) }).ing.slots.length
        = s.ing.slots.length := length_setNth _ _ _
    obtain ⟨work, ticks, nextOrd, dec⟩ := State.takeTick_took (length ▸ hi) b (j.o + j.spi)
    rw [State.slotCfgAt, State.slot_setSlot_same hi] at dec
    rw [State.slot_setSlot_same hi] at ticks nextOrd
    exact accepted ▸ ⟨(State.slotWork.refl.setSlot _).trans work, ticks, nextOrd, dec⟩

end

end Sys2Proof.Machine
end

section
/-!
PROOFS. The intake of a slot (R157, R167, R168, R170): the tick that leaves its queue, and what an absent one leaves of the slot.
-/
namespace Sys2Proof.Machine

/-! ### An absent tick -/

/-- Slot i notes the absent tick `b`. -/
def State.noteMiss (s : State) (i : Nat) (b : NativeTick) : State :=
  s.setSlot i { s.slot i with ticks := ⟨b.tick, 0, 0, 0, b.cause⟩ :: (s.slot i).ticks.take slotKeep, lastCause := b.cause }

/-- The estimate of slot i's DC blocker is tainted (R168). -/
def State.taintSlot (s : State) (i : Nat) (c : NecCause) : State :=
  ((s.setSlot i { s.slot i with taintFrom := some ((s.slot i).nextOrd, c) }).setBit (ING_Ii_STATUS i) 29 true).flag ING_ERR 4

/-- The absent tick `b` noted, with the taint it brings where the DC blocker runs unfrozen. -/
def State.missTaint (s : State) (i : Nat) (b : NativeTick) : State :=
  if bitOf (s.slotCfgAt i b.tick).1 2 = 1 && bitOf (s.slotCfgAt i b.tick).1 3 = 0 && !(s.noteMiss i b).slotTainted i then
    (s.noteMiss i b).taintSlot i b.cause
  else s.noteMiss i b

theorem State.slotMiss_eq (s : State) (i : Nat) (b : NativeTick) :
    s.slotMiss i b = if b.tick = (s.slot i).kStart then (s.missTaint i b).haltSlot i else s.missTaint i b := rfl

/-- `t` is `s` after slot i has noted the absence of tick `b`, but for its halt. -/
structure State.missed (s : State) (i : Nat) (b : NativeTick) (t : State) : Prop where
  regs : s.sameRegs t [ING_Ii_STATUS i, ING_ERR, PCI_ERR]
  others : ∀ j, j ≠ i → t.slot j = s.slot j
  ticks : (t.slot i).ticks = ⟨b.tick, 0, 0, 0, b.cause⟩ :: (s.slot i).ticks.take slotKeep
  cause : (t.slot i).lastCause = b.cause
  tainted : bitOf (s.slotCfgAt i b.tick).1 2 = 1 → bitOf (s.slotCfgAt i b.tick).1 3 = 0 → t.slotTainted i = true
  queues : t.ing.inbox = s.ing.inbox ∧ t.ing.replayIn = s.ing.replayIn

section
variable {s : State} {i : Nat} (hi : i < 256) (hs : i < s.ing.slots.length) (b : NativeTick)
include hi hs

theorem State.taintSlot_missed : s.missed i b ((s.noteMiss i b).taintSlot i b.cause) where
  regs := by
    refine ((?_ : s.sameRegs _ _).setBit 29 true (.head _)).flag 4 (.tail _ (.head _)) (.tail _ (.tail _ (.head _)))
    exact State.sameRegs_of_regs_eq rfl
  others j hj := by
    rw [State.taintSlot, State.slot_flag, State.slot_setBit, State.slot_setSlot_ne _ _ hj, State.noteMiss, State.slot_setSlot_ne _ _ hj]
  ticks := by
    rw [State.taintSlot, State.slot_flag, State.slot_setBit, State.slot_setSlot_same (by simpa [State.noteMiss, State.setSlot] using hs), State.noteMiss,
      State.slot_setSlot_same hs]
  cause := by
    rw [State.taintSlot, State.slot_flag, State.slot_setBit, State.slot_setSlot_same (by simpa [State.noteMiss, State.setSlot] using hs), State.noteMiss,
      State.slot_setSlot_same hs]
  tainted _ _ := by rw [State.taintSlot, State.slotTainted, State.slotStatus_flag _ hi, State.slotStatus_setBit_same _ _ _ (by decide)]
  queues := by rw [State.taintSlot, State.flag_ing, State.setBit_ing]; exact ⟨rfl, rfl⟩

theorem State.missTaint_missed : s.missed i b (s.missTaint i b) := by
  unfold State.missTaint
  split
  · exact State.taintSlot_missed hi hs b
  · next keeps =>
    have entry : (s.noteMiss i b).slot i = _ := State.slot_setSlot_same hs _
    refine ⟨State.sameRegs_of_regs_eq rfl, fun j hj => s.slot_setSlot_ne _ hj, ?_, ?_, fun run unfrozen => ?_, rfl, rfl⟩
    · rw [entry]
    · rw [entry]
    · simpa [run, unfrozen] using keeps

omit hs in
theorem State.slotHalted_missTaint : (s.missTaint i b).slotHalted i = s.slotHalted i := by
  unfold State.missTaint
  split
  · exact (State.slotStatus_flag _ hi _ _).trans (State.slotStatus_setBit_ne _ _ _ (by decide) (by decide))
  · rfl

omit hs in
/-- A slot that halts keeps what it has noted (R159). -/
theorem State.missed.halt {t : State} (h : s.missed i b t) : s.missed i b (t.haltSlot i) where
  regs := (h.regs.setBit 30 true (.head _)).flag 3 (.tail _ (.head _)) (.tail _ (.tail _ (.head _)))
  others j hj := by rw [State.haltSlot, State.slot_flag, State.slot_setBit, h.others j hj]
  ticks := by rw [State.haltSlot, State.slot_flag, State.slot_setBit, h.ticks]
  cause := by rw [State.haltSlot, State.slot_flag, State.slot_setBit, h.cause]
  tainted run unfrozen := by
    rw [State.haltSlot, State.slotTainted, State.slotStatus_flag _ hi, State.slotStatus_setBit_ne _ _ _ (by decide) (by decide)]
    exact h.tainted run unfrozen
  queues := by rw [State.haltSlot, State.flag_ing, State.setBit_ing]; exact h.queues

theorem State.slotMiss_missed : s.missed i b (s.slotMiss i b) := by
  rw [State.slotMiss_eq]
  split
  · exact (State.missTaint_missed hi hs b).halt hi b
  · exact State.missTaint_missed hi hs b

omit hs in
/-- The start tick's absence halts the slot (R159). -/
theorem State.slotHalted_slotMiss (running : s.slotHalted i = false) : (s.slotMiss i b).slotHalted i = (b.tick == (s.slot i).kStart) := by
  rw [State.slotMiss_eq]
  split
  · next start => rw [State.haltSlot, State.slotHalted, State.slotStatus_flag _ hi, State.slotStatus_setBit_same _ _ _ (by decide), start, beq_self_eq_true]
  · next later => rw [State.slotHalted_missTaint hi, running, beq_false_of_ne later]

end

/-! ### The settings in force (R170, R171) -/

/-- The timeline of a slot's settings once tick k has come: that of a replay slot takes the present ones. -/
def State.settingsAt (s : State) (i k : Nat) : List (Nat × Nat × Nat) :=
  let now := (s.rd (ING_Ii_CFG i), s.rd (ING_Ii_HIT i))
  if s.slotReplay i && tlAt (0, 0) (s.slot i).cfgLog k != now then (tlPut (s.slot i).cfgLog k now).take 64 else (s.slot i).cfgLog

theorem setNth_nth {α : Type} (l : List α) (i : Nat) (d : α) : setNth l i (nth l i d) = l := by
  induction l generalizing i with
  | nil => rfl
  | cons x t ih =>
    cases i with
    | zero => rfl
    | succ i => exact congrArg (x :: ·) (ih i)

theorem State.setSlot_slot (s : State) (i : Nat) : s.setSlot i (s.slot i) = s := by
  rw [State.setSlot, State.slot, setNth_nth]

theorem State.replayCfg_eq (s : State) (i k : Nat) : s.replayCfg i k = s.setSlot i { s.slot i with cfgLog := s.settingsAt i k } := by
  unfold State.replayCfg State.settingsAt
  dsimp only
  split
  · rfl
  · exact (s.setSlot_slot i).symm

/-! ### The queue of a slot -/

/-- The native ticks that wait for slot i: those of its port, or of the recording. -/
def State.slotQueue (s : State) (i : Nat) : List NativeTick := if s.slotReplay i then s.ing.replayIn else s.ing.inbox

/-- Tick `b` has left the queue of slot i. -/
def State.tookBlock (s : State) (i : Nat) (b : NativeTick) (t : State) : Prop :=
  (if s.slotReplay i then t.ing.replayIn else t.ing.inbox) = (s.slotQueue i).erase b
  ∧ if s.slotReplay i then t.ing.inbox = s.ing.inbox else t.ing.replayIn = s.ing.replayIn

/-- The state with `b` out of the queue of slot i. -/
def State.blockTaken (s : State) (i : Nat) (b : NativeTick) : State :=
  { s with ing := if s.slotReplay i then { s.ing with replayIn := (s.slotQueue i).erase b, debt := modNth s.ing.debt (i / 32) (· + b.samples.length) }
                  else { s.ing with inbox := (s.slotQueue i).erase b } }

theorem State.blockTaken_eq (s : State) (i : Nat) (b : NativeTick) :
    ∃ q r d, s.blockTaken i b = { s with ing := { s.ing with inbox := q, replayIn := r, debt := d } } := by
  unfold State.blockTaken
  split <;> exact ⟨_, _, _, rfl⟩

theorem State.blockTaken_slots (s : State) (i : Nat) (b : NativeTick) : (s.blockTaken i b).ing.slots = s.ing.slots := by
  obtain ⟨_, _, _, h⟩ := s.blockTaken_eq i b
  rw [h]

theorem State.slot_blockTaken (s : State) (i j : Nat) (b : NativeTick) : (s.blockTaken i b).slot j = s.slot j := by
  rw [State.slot, s.blockTaken_slots, State.slot]

theorem State.slotRunning_blockTaken (s : State) (i : Nat) (b : NativeTick) : (s.blockTaken i b).slotRunning i = s.slotRunning i := rfl
theorem State.slotHalted_blockTaken (s : State) (i : Nat) (b : NativeTick) : (s.blockTaken i b).slotHalted i = s.slotHalted i := rfl

/-- What leaves the queues as they are then has taken `b`. -/
theorem State.tookBlock_of_queues {s t : State} {i : Nat} {b : NativeTick}
    (h : t.ing.inbox = (s.blockTaken i b).ing.inbox ∧ t.ing.replayIn = (s.blockTaken i b).ing.replayIn) : s.tookBlock i b t := by
  obtain ⟨live, replay⟩ := h
  rw [State.tookBlock, live, replay, State.blockTaken]
  split <;> exact ⟨rfl, rfl⟩

/-- The state in which slot i takes the tick `b`: out of the queue, with the settings in force. -/
def State.blockReady (s : State) (i : Nat) (b : NativeTick) : State := (s.blockTaken i b).replayCfg i b.tick

theorem State.blockReady_eq (s : State) (i : Nat) (b : NativeTick) :
    s.blockReady i b = (s.blockTaken i b).setSlot i { s.slot i with cfgLog := s.settingsAt i b.tick } := by
  rw [State.blockReady, State.replayCfg_eq, State.settingsAt, s.slot_blockTaken]
  rfl

theorem State.blockOn_blockReady (s : State) (i n : Nat) (b : NativeTick) : (s.blockReady i b).blockOn n = s.blockOn n := by
  rw [State.blockReady_eq]
  rfl

theorem State.slotHalted_blockReady (s : State) (i : Nat) (b : NativeTick) : (s.blockReady i b).slotHalted i = s.slotHalted i := by
  rw [State.blockReady_eq]
  rfl

theorem State.rd_blockReady (s : State) (i a : Nat) (b : NativeTick) : (s.blockReady i b).rd a = s.rd a := by
  rw [State.blockReady_eq]
  rfl

theorem State.blockReady_work (s : State) (i : Nat) (b : NativeTick) (l : List Nat) : (s.blockTaken i b).slotWork i l (s.blockReady i b) := by
  rw [State.blockReady_eq]
  exact State.slotWork.refl.setSlot _

section
variable {s : State} {i : Nat} (hs : i < s.ing.slots.length) (b : NativeTick)
include hs

theorem State.blockReady_entry : (s.blockReady i b).slot i = { s.slot i with cfgLog := s.settingsAt i b.tick } := by
  rw [State.blockReady_eq, State.slot_setSlot_same (s.blockTaken_slots i b ▸ hs)]

theorem State.blockReady_slotCfgAt (k : Nat) : (s.blockReady i b).slotCfgAt i k = (s.replayCfg i b.tick).slotCfgAt i k := by
  rw [State.slotCfgAt, State.blockReady_entry hs, State.slotCfgAt, State.replayCfg_eq, State.slot_setSlot_same hs, State.blockReady_eq]
  rfl

end

/-! ### The row -/

theorem taken_runs {s : State} {i : Nat} {b : NativeTick} (hi : i < 256) (running : s.slotRunning i = true) (unhalted : s.slotHalted i = false)
    (started : (s.slot i).kStart ≤ b.tick) : ¬ (decide (i ≥ 256) || !(s.blockTaken i b).slotRunning i || (s.blockTaken i b).slotHalted i
      || decide (b.tick < ((s.blockTaken i b).slot i).kStart)) = true := by
  simp [State.slot_blockTaken, State.slotRunning_blockTaken, State.slotHalted_blockTaken, running, unhalted, started, hi]

section
variable {s : State} {i : Nat} {b : NativeTick} (hi : i < 256) (next : nextBlock (s.slotQueue i) i = some b) (clocked : s.bit GLB_DOMAINS 4 = 1)
  (turn : s.slotReplay i = true → s.replayTurn i = true)
include next clocked turn

theorem slotBlockIntake_takes : exec (.slotBlockIntake i) s =
    if i ≥ 256 || !(s.blockTaken i b).slotRunning i || (s.blockTaken i b).slotHalted i || b.tick < ((s.blockTaken i b).slot i).kStart then
      .next (s.blockTaken i b)
    else if !(s.blockReady i b).blockOn 6 then .next ((s.blockReady i b).slotMiss i { b with cause := .noneReceived, samples := [] })
    else if b.cause = .none then .next ((s.blockReady i b).slotAccept i b)
    else .next ((s.blockReady i b).slotMiss i b) := by
  have now : ¬ ((decide (s.bit GLB_DOMAINS 4 = 0) || s.slotReplay i && !s.replayTurn i) = true) := by
    cases replay : s.slotReplay i
    · simp [clocked]
    · simp [clocked, turn replay]
  have row : exec (.slotBlockIntake i) s = execSlotBlockIntake i s := rfl
  rw [row, execSlotBlockIntake]
  dsimp only
  rw [State.slotQueue] at next
  rw [next]
  exact if_neg now

theorem slotBlockIntake_ignores (idle : s.slotRunning i = false ∨ s.slotHalted i = true ∨ b.tick < (s.slot i).kStart) :
    exec (.slotBlockIntake i) s = .next (s.blockTaken i b) := by
  rw [slotBlockIntake_takes next clocked turn, State.slot_blockTaken, State.slotRunning_blockTaken, State.slotHalted_blockTaken, if_pos]
  rcases idle with h | h | h <;> simp [h]

variable (running : s.slotRunning i = true) (unhalted : s.slotHalted i = false) (started : (s.slot i).kStart ≤ b.tick) (on : s.blockOn 6 = true)
include hi running unhalted started on

theorem slotBlockIntake_misses (absent : b.cause ≠ .none) : exec (.slotBlockIntake i) s = .next ((s.blockReady i b).slotMiss i b) := by
  rw [slotBlockIntake_takes next clocked turn, if_neg (taken_runs hi running unhalted started), if_neg (by simp [State.blockOn_blockReady, on]),
    if_neg absent]

theorem slotBlockIntake_accepts (present : b.cause = .none) : exec (.slotBlockIntake i) s = .next ((s.blockReady i b).slotAccept i b) := by
  rw [slotBlockIntake_takes next clocked turn, if_neg (taken_runs hi running unhalted started), if_neg (by simp [State.blockOn_blockReady, on]),
    if_pos present]

end

end Sys2Proof.Machine
end

section
/-!
PROOFS. The grid ticks of a slot (R162, R166, R167, R169): the canonical samples, their hit bits, and their delivery.
-/
namespace Sys2Proof.Machine

/-! ### Canonical samples -/

/-- A canonical sample: 16 bits, and 0 where it is absent. -/
def Smp.canonical (x : Smp) : Prop := -32768 ≤ x.v ∧ x.v ≤ 32767 ∧ (x.gap = true → x.v = 0)

theorem satS_sixteen (v : Int) : -32768 ≤ satS 16 v ∧ satS 16 v ≤ 32767 := by
  unfold satS
  dsimp only
  split
  · omega
  · split <;> omega

theorem canonical_absent (c : NecCause) : (⟨0, c, true⟩ : Smp).canonical := ⟨neg_nonpos.mpr (by decide), Int.natCast_nonneg 32767, fun _ => rfl⟩

theorem canonical_present (v : Int) (c : NecCause) : (⟨satS 16 v, c, false⟩ : Smp).canonical :=
  ⟨(satS_sixteen v).1, (satS_sixteen v).2, fun no => absurd no Bool.false_ne_true⟩

theorem State.rsSample_canonical (s : State) (i : Nat) (t : Slot) (a : Int) : (s.rsSample i t a).1.canonical := by
  unfold State.rsSample
  extract_lets
  split
  · exact canonical_absent _
  · split
    · exact canonical_absent _
    · exact canonical_present _ _

/-! ### Hit bits (R169) -/

theorem length_hitBits (en : Bool) (on off : Nat) (h : Bool) (xs : List Smp) : (hitBits en on off h xs).length = xs.length := by
  induction xs generalizing h with
  | nil => rfl
  | cons x xs ih => exact congrArg (· + 1) (ih _)

/-- The hit bit of an absent sample is 0. -/
theorem hitBits_absent (en : Bool) (on off : Nat) (h : Bool) (xs : List Smp) :
    ∀ q ∈ List.zip xs (hitBits en on off h xs), q.1.gap = true → q.2 = false := by
  induction xs generalizing h with
  | nil => exact fun _ hq => absurd hq List.not_mem_nil
  | cons x xs ih =>
    intro q hq absent
    rcases List.mem_cons.mp hq with rfl | later
    · simp [show x.gap = true from absent]
    · exact ih _ q later absent

/-! ### The samples of a grid tick -/

/-- `t` is `s` but for registers of `l`. -/
structure State.regWork (s : State) (l : List Nat) (t : State) : Prop where
  regs : s.sameRegs t l
  frame : ∃ r, t = { s with regs := r }

namespace State.regWork
variable {s t : State} {a : Nat} {l : List Nat}

theorem refl : s.regWork l s := ⟨fun _ _ => rfl, _, rfl⟩

theorem wr (h : s.regWork l t) (v : Nat) (ha : a ∈ l) : s.regWork l (t.wr a v) := by
  refine ⟨h.regs.wr v ha, ?_⟩
  obtain ⟨_, rfl⟩ := h.frame
  exact ⟨_, rfl⟩

theorem setBit (h : s.regWork l t) (b : Nat) (v : Bool) (ha : a ∈ l) : s.regWork l (t.setBit a b v) := h.wr _ ha

theorem setFd (h : s.regWork l t) (f : Fld) (v : Nat) (ha : a ∈ l) : s.regWork l (t.setFd a f v) := h.wr _ ha

theorem ing (h : s.regWork l t) : t.ing = s.ing := by
  obtain ⟨_, rfl⟩ := h.frame
  rfl

theorem slotWork (h : s.regWork l t) (i : Nat) : s.slotWork i l t := by
  refine ⟨h.regs, fun j _ => by rw [State.slot, h.ing, State.slot], by rw [h.ing], ?_⟩
  obtain ⟨_, rfl⟩ := h.frame
  exact ⟨_, _, rfl⟩

end State.regWork

/-- The counters and reports of slot i's resampler. -/
def resampleRegs (i : Nat) : List Nat := [ING_Ii_SAT_CNT i, ING_Ii_STATUS i, ING_Ii_RATIO i]

theorem satCnt_mem (i : Nat) : ING_Ii_SAT_CNT i ∈ resampleRegs i := .head _
theorem status_mem (i : Nat) : ING_Ii_STATUS i ∈ resampleRegs i := .tail _ (.head _)
theorem ratio_mem (i : Nat) : ING_Ii_RATIO i ∈ resampleRegs i := .tail _ (.tail _ (.head _))

/-- `r` is what slot i makes of a grid tick: samples of its canonical rate, and the state with its counters and reports. -/
structure State.resampled (s : State) (i : Nat) (r : State × List Smp) : Prop where
  work : s.regWork (resampleRegs i) r.1
  length : r.2.length = canonNs (bitsOf (s.rd (ING_Ii_CFG i)) 26 24)
  canonical : ∀ x ∈ r.2, x.canonical
  halted : s.slotHalted i = true → ∀ x ∈ r.2, x.gap = true

/-- A grid tick without samples. -/
theorem State.resampled_absent {s u : State} {i : Nat} (work : s.regWork (resampleRegs i) u) (c : NecCause) :
    s.resampled i (u, List.replicate (canonNs (bitsOf (s.rd (ING_Ii_CFG i)) 26 24)) ⟨0, c, true⟩) where
  work := work
  length := List.length_replicate
  canonical x hx := (List.eq_of_mem_replicate hx) ▸ canonical_absent c
  halted _ x hx := by rw [List.eq_of_mem_replicate hx]

theorem State.resample_resampled (s : State) (i k : Nat) : s.resampled i (s.resample i k) := by
  unfold State.resample
  extract_lets t cfg fir ns absent d0 d1 clamped shown p0 p1 m a0 a1 rr ratio ys
  split
  · exact State.resampled_absent .refl _
  · next running =>
    have clamps : s.regWork (resampleRegs i) clamped := by
      unfold clamped State.when
      split
      · exact State.regWork.refl.setFd _ _ (satCnt_mem i)
      · exact .refl
    have shows : s.regWork (resampleRegs i) shown := (clamps.setBit 27 _ (status_mem i)).setBit 28 _ (status_mem i)
    split
    · exact State.resampled_absent shows _
    · split
      · exact State.resampled_absent shows _
      · have ratioShows : s.regWork (resampleRegs i) ratio := (shows.wr _ (ratio_mem i)).setFd _ _ (status_mem i)
        split
        · exact State.resampled_absent ratioShows _
        · refine ⟨ratioShows.setFd _ _ (satCnt_mem i), by simp [ys, ns, cfg], fun x hx => ?_, fun halted => absurd halted running⟩
          obtain ⟨y, hy, rfl⟩ := List.mem_map.mp hx
          obtain ⟨n, -, rfl⟩ := List.mem_map.mp hy
          exact State.rsSample_canonical _ _ _ _

/-! ### Delivery (R166) -/

theorem State.deliverCanon_frame (s : State) (c : CanonTick) :
    ∃ r, s.deliverCanon c = { s with regs := r, ing := { s.ing with canon := (c :: s.ing.canon).take canonKeep } } := by
  unfold State.deliverCanon State.when
  split <;> exact ⟨_, rfl⟩

theorem State.deliverCanon_sameRegs (s : State) (c : CanonTick) : s.sameRegs (s.deliverCanon c) [ING_Ii_ABSENT_CNT c.input] := by
  unfold State.deliverCanon State.when
  split
  · exact (State.sameRegs_of_regs_eq rfl).wr _ (.head _)
  · exact State.sameRegs_of_regs_eq rfl

/-- A tick with an absent sample is counted. -/
theorem State.rd_deliverCanon (s : State) (c : CanonTick) :
    (s.deliverCanon c).rd (ING_Ii_ABSENT_CNT c.input) = (s.rd (ING_Ii_ABSENT_CNT c.input) + if c.samples.any (·.gap) then 1 else 0) % 2 ^ 32 := by
  unfold State.deliverCanon State.when
  split
  · exact s.rd_count_same _ _
  · exact (Nat.mod_eq_of_lt (s.rd_lt _)).symm

/-! ### The row -/

/-- The hit bits of grid tick k. -/
def State.gridHits (s : State) (i k : Nat) : List Bool :=
  let u := (s.resample i k).1
  hitBits (bitOf (u.slotCfgAt i k).1 4 == 1 && !u.slotReplay i) (bitsOf (u.slotCfgAt i k).2 15 0) (bitsOf (u.slotCfgAt i k).2 31 16) (s.slot i).hit
    (s.resample i k).2

/-- The state that has computed grid tick k, its last hit bit noted. -/
def State.gridNoted (s : State) (i k : Nat) : State :=
  (s.resample i k).1.setSlot i { (s.resample i k).1.slot i with hit := (s.gridHits i k).getLastD (s.slot i).hit }

/-- Slot i has computed grid tick k and delivers it. -/
def State.gridTick (s : State) (i k : Nat) : State :=
  (s.gridNoted i k).deliverCanon ⟨i, k, (s.gridNoted i k).slotReplay i, (s.resample i k).2, s.gridHits i k⟩

theorem resampleGridTick_runs {s : State} {i k : Nat} (hi : i < 256) (on : s.blockOn 6 = true) (running : s.slotRunning i = true)
    (started : (s.slot i).kStart ≤ k) (ready : s.slotHalted i = true ∨ ∃ b rest, (s.slot i).ticks = b :: rest ∧ k + 1 ≤ b.tick)
    (fresh : ∀ c ∈ s.ing.canon, ¬ (c.input = i ∧ c.tick = k ∧ c.replay = s.slotReplay i))
    (inTime : s.slotReplay i = false → s.begun (k + 5) = false) : exec (.resampleGridTick i k) s = .next (s.gridTick i k) := by
  have late : (!s.slotReplay i && s.begun (k + 5)) = false := by
    cases replay : s.slotReplay i
    · simp [inTime replay]
    · rfl
  have first : (s.ing.canon.any (fun c => c.input == i && c.tick == k && c.replay == s.slotReplay i)) = false := by
    rw [List.any_eq_false]
    intro c hc
    have := fresh c hc
    simp only [Bool.and_eq_true, beq_iff_eq]
    tauto
  have row : exec (.resampleGridTick i k) s = execResampleGridTick i k s := rfl
  rw [row, execResampleGridTick]
  dsimp only
  rw [late, first]
  refine if_neg ?_
  rcases ready with halted | ⟨b, rest, ticks, h⟩
  · simp [hi, on, running, started, halted]
  · simp [hi, on, running, started, ticks, h]

section
variable (s : State) (i k : Nat)

theorem State.gridNoted_work : s.slotWork i (resampleRegs i) (s.gridNoted i k) := ((s.resample_resampled i k).work.slotWork i).setSlot _

theorem State.gridNoted_canon : (s.gridNoted i k).ing.canon = s.ing.canon :=
  (rfl : _ = (s.resample i k).1.ing.canon).trans (congrArg Ing.canon (s.resample_resampled i k).work.ing)

theorem State.gridNoted_replay : (s.gridNoted i k).slotReplay i = s.slotReplay i := by
  rw [State.slotReplay, State.slotReplay, (s.gridNoted_work i k).regs.bit (by simp [resampleRegs])]

theorem State.gridTick_frame : ∃ r, s.gridTick i k = { s.gridNoted i k with
    regs := r, ing := { (s.gridNoted i k).ing with
      canon := (⟨i, k, s.slotReplay i, (s.resample i k).2, s.gridHits i k⟩ :: s.ing.canon).take canonKeep } } := by
  rw [State.gridTick, ← s.gridNoted_canon i k, ← s.gridNoted_replay i k]
  exact State.deliverCanon_frame _ _

theorem State.gridTick_canon :
    (s.gridTick i k).ing.canon = (⟨i, k, s.slotReplay i, (s.resample i k).2, s.gridHits i k⟩ :: s.ing.canon).take canonKeep := by
  obtain ⟨_, frame⟩ := s.gridTick_frame i k
  rw [frame]

theorem State.gridTick_sameRegs : s.sameRegs (s.gridTick i k) (ING_Ii_ABSENT_CNT i :: resampleRegs i) :=
  ((s.gridNoted_work i k).regs.mono (List.subset_cons_self _ _)).trans ((State.deliverCanon_sameRegs _ _).mono (by simp))

theorem State.rd_gridTick_absentCnt : (s.gridTick i k).rd (ING_Ii_ABSENT_CNT i)
    = (s.rd (ING_Ii_ABSENT_CNT i) + if (s.resample i k).2.any (·.gap) then 1 else 0) % 2 ^ 32 := by
  rw [← (s.gridNoted_work i k).regs (ING_Ii_ABSENT_CNT i) (by simp [resampleRegs])]
  exact State.rd_deliverCanon _ _

theorem State.slot_gridTick (j : Nat) : (s.gridTick i k).slot j = (s.gridNoted i k).slot j := by
  obtain ⟨_, frame⟩ := s.gridTick_frame i k
  rw [frame]
  rfl

theorem State.slot_gridTick_same (hs : i < s.ing.slots.length) :
    (s.gridTick i k).slot i = { s.slot i with hit := (s.gridHits i k).getLastD (s.slot i).hit } := by
  have ing := (s.resample_resampled i k).work.ing
  rw [State.slot_gridTick, State.gridNoted, State.slot_setSlot_same (by rwa [ing]), State.slot, ing, State.slot]

theorem State.slot_gridTick_ne {j : Nat} (hj : j ≠ i) : (s.gridTick i k).slot j = s.slot j :=
  (s.slot_gridTick i k j).trans ((s.gridNoted_work i k).others j hj)

theorem State.gridTick_eq : s.gridTick i k = { s with
    regs := (s.gridTick i k).regs, ing := { s.ing with slots := (s.gridTick i k).ing.slots, canon := (s.gridTick i k).ing.canon } } := by
  obtain ⟨_, delivered⟩ := s.gridTick_frame i k
  obtain ⟨_, _, noted⟩ := (s.gridNoted_work i k).frame
  rw [delivered, noted]

end

end Sys2Proof.Machine
end

section
/-!
PROOFS. Starting and stopping a slot (R157, R171), and the statement of filter slots and their grid ticks.
-/
namespace Sys2Proof.Machine

/-! ### Starting and stopping -/

theorem dlyModelApply_applies {s : State} {i : Nat} (hi : i < 256) : exec (.dlyModelApply i) s = .next (s.applyModel i) :=
  (if_pos hi : execDlyModelApply i s = _)

/-- The entry of slot i as it starts at tick kr. -/
def State.startEntry (s : State) (i kr : Nat) : Slot :=
  { Slot.reset with kStart := kr, pend := (s.slot i).pend, models := (s.slot i).models, cfgLog := [(kr, s.rd (ING_Ii_CFG i), s.rd (ING_Ii_HIT i))] }

/-- A slot that starts, its entry new and what an earlier replay left dropped, shows RUNNING, neither HALTED nor TAINTED. -/
def State.slotStarted (s : State) (i kr : Nat) : State :=
  ((((s.setSlot i (s.startEntry i kr)).when (s.slotReplay i) (·.dropReplay i)).setBit (ING_Ii_STATUS i) 31 true).setBit (ING_Ii_STATUS i) 30
    false).setBit (ING_Ii_STATUS i) 29 false

theorem slotStop_stops {s : State} {i b : Nat} (hi : i < 256) (stop : (s.slot i).stopAt = some b) (begun : s.begun b = true) :
    exec (.slotStop i) s = .next ((s.setSlot i { s.slot i with stopAt := none }).setBit (ING_Ii_STATUS i) 31 false) := by
  have row : exec (.slotStop i) s = execSlotStop i s := rfl
  rw [row, execSlotStop]
  dsimp only
  rw [stop]
  exact if_pos (by simp [hi, begun])

section
variable (s : State) (i kr : Nat)

theorem State.slotStarted_work : (s.when (s.slotReplay i) (·.dropReplay i)).slotWork i [ING_Ii_STATUS i] (s.slotStarted i kr) := by
  refine State.slotWork.setBit (State.slotWork.setBit (State.slotWork.setBit ?_ 31 true (.head _)) 30 false (.head _)) 29 false (.head _)
  unfold State.when
  split
  · exact (State.slotWork.refl.setSlot _).dropReplay i
  · exact State.slotWork.refl.setSlot _

theorem State.slotStarted_status : (s.slotStarted i kr).slotRunning i = true ∧ (s.slotStarted i kr).slotHalted i = false
    ∧ (s.slotStarted i kr).slotTainted i = false := by
  refine ⟨?_, ?_, State.slotStatus_setBit_same _ _ _ (by decide)⟩
  · exact ((State.slotStatus_setBit_ne _ _ _ (by decide) (by decide)).trans (State.slotStatus_setBit_ne _ _ _ (by decide) (by decide))).trans
      (State.slotStatus_setBit_same _ _ _ (by decide))
  · exact (State.slotStatus_setBit_ne _ _ _ (by decide) (by decide)).trans (State.slotStatus_setBit_same _ _ _ (by decide))

theorem State.slotStarted_slot (hs : i < s.ing.slots.length) : (s.slotStarted i kr).slot i = s.startEntry i kr := by
  rw [State.slotStarted, State.slot_setBit, State.slot_setBit, State.slot_setBit]
  unfold State.when
  split <;> exact State.slot_setSlot_same hs _

end

/-! ### What a row of slot i leaves alone -/

/-- Beside registers, the entry of slot i and the queues of the slots are all that `t` has of its own. -/
def State.onlySlot (s : State) (i : Nat) (t : State) : Prop :=
  (∀ j, j ≠ i → t.slot j = s.slot j)
  ∧ t = { s with regs := t.regs, ing := { s.ing with inbox := t.ing.inbox, replayIn := t.ing.replayIn, slots := t.ing.slots, debt := t.ing.debt } }

theorem State.slotWork.onlySlot {s t : State} {i : Nat} {l : List Nat} (h : s.slotWork i l t) : s.onlySlot i t := by
  refine ⟨h.others, ?_⟩
  obtain ⟨_, _, rfl⟩ := h.frame
  rfl

theorem State.slotWork.queues {s t : State} {i : Nat} {l : List Nat} (h : s.slotWork i l t) :
    t.ing.inbox = s.ing.inbox ∧ t.ing.replayIn = s.ing.replayIn := by
  obtain ⟨_, _, rfl⟩ := h.frame
  exact ⟨rfl, rfl⟩

theorem State.rd_when_dropReplay (s : State) (c : Bool) (i a : Nat) : (s.when c (·.dropReplay i)).rd a = s.rd a := by
  cases c <;> rfl

section
variable {s t : State} {i : Nat} {b : NativeTick} {l : List Nat} (h : (s.blockTaken i b).slotWork i l t)
include h

theorem State.slotWork.onlySlot_of_blockTaken : s.onlySlot i t := by
  refine ⟨fun j hj => (h.others j hj).trans (s.slot_blockTaken i j b), ?_⟩
  obtain ⟨_, _, rfl⟩ := h.frame
  obtain ⟨_, _, _, taken⟩ := s.blockTaken_eq i b
  rw [taken]

theorem State.slotWork.tookBlock : s.tookBlock i b t := State.tookBlock_of_queues h.queues

end

/-! ### A started slot -/

section
variable (s : State) (i kr : Nat)

/-- Slot i started at tick kr, the pending model in force where it is due. -/
def State.startedAt : State := (s.applyModel i).slotStarted i kr

theorem State.startedAt_work : (s.applyModel i |>.when (s.slotReplay i) (·.dropReplay i)).slotWork i [ING_Ii_STATUS i] (s.startedAt i kr) := by
  have replay : (s.applyModel i).slotReplay i = s.slotReplay i := by
    rw [State.slotReplay, (s.applyModel_work i).regs.bit (by simp), State.slotReplay]
  exact replay ▸ (s.applyModel i).slotStarted_work i kr

theorem State.startedAt_sameRegs : s.sameRegs (s.startedAt i kr) [ING_Ii_STATUS i] :=
  (s.applyModel_work i).regs.trans fun a ha => ((s.startedAt_work i kr).regs a ha).trans (State.rd_when_dropReplay _ _ _ _)

theorem State.startedAt_slot (hs : i < s.ing.slots.length) : (s.startedAt i kr).slot i
    = { Slot.reset with kStart := kr, pend := ((s.startedAt i kr).slot i).pend, models := ((s.startedAt i kr).slot i).models,
                        cfgLog := [(kr, s.rd (ING_Ii_CFG i), s.rd (ING_Ii_HIT i))] } := by
  have kept (a : Nat) (ha : a ≠ ING_Ii_STATUS i) : (s.applyModel i).rd a = s.rd a := (s.applyModel_work i).regs a (by simpa using ha)
  rw [State.startedAt, State.slotStarted_slot _ _ _ ((s.applyModel_work i).length ▸ hs), State.startEntry, kept _ (by simp), kept _ (by simp)]

theorem State.startedAt_modelAt (hs : i < s.ing.slots.length) {m : DlyModel} (pend : (s.slot i).pend = some m) (begun : s.slotBegun i m.kr = true) :
    ((s.startedAt i m.kr).slot i).modelAt m.kr = some m := by
  rw [State.startedAt, State.slotStarted_slot _ _ _ ((s.applyModel_work i).length ▸ hs), ← State.modelAt_applyModel hs pend begun]
  rfl

theorem State.startedAt_onlySlot (live : s.slotReplay i = false) : s.onlySlot i (s.startedAt i kr) := by
  have started := s.startedAt_work i kr
  rw [live] at started
  exact ((s.applyModel_work i).trans started).onlySlot

theorem State.startedAt_onlySlot_of_replay (recorded : s.slotReplay i = true) : (s.dropReplay i).onlySlot i (s.startedAt i kr) := by
  have started := s.startedAt_work i kr
  rw [recorded] at started
  exact (((s.applyModel_work i).dropReplay i).trans started).onlySlot

end

theorem slotStart_starts {s : State} {i kr : Nat} (hi : i < 256) (start : (s.slot i).startAt = some kr) (on : s.blockOn 6 = true)
    (en : s.bit (ING_Ii_CFG i) 0 = 1) (stopped : s.slotRunning i = false) (begun : s.slotBegun i kr = true) :
    exec (.slotStart i) s = .next (s.startedAt i kr) := by
  have row : exec (.slotStart i) s = execSlotStart i s := rfl
  rw [row, execSlotStart]
  dsimp only
  rw [start]
  exact if_pos (by simp [hi, on, en, stopped, begun])

/-! ### The statement -/

/-- Settles O10: each row's equation, with what the slot's entry holds then, and the frame of work on one slot. -/
theorem slotsTakeTheirTicksAndMakeGridTicks : Obligations.SlotsTakeTheirTicksAndMakeGridTicks := by
  unfold Obligations.SlotsTakeTheirTicksAndMakeGridTicks
  refine ⟨?native, ?resample⟩
  case native =>
    intro others
    refine ⟨?apply, ?start, ?stop, ?intake⟩
    case apply =>
      intro i m s hi hs pend begun
      refine ⟨_, dlyModelApply_applies hi, ?_⟩
      have work := s.applyModel_work i
      refine ⟨?_, ?_, work.regs, work.onlySlot⟩
      · rw [State.applyModel_of_due pend begun, State.slot_setBit, State.slot_setSlot_same hs]
      · rw [State.applyModel_of_due pend begun, State.bit_setBit_same _ _ _ _ (by decide)]
        rfl
    case start =>
      intro i kr s hi hs start on en stopped begun
      refine ⟨_, slotStart_starts hi start on en stopped begun, ?_⟩
      obtain ⟨run, halt, taint⟩ := (s.applyModel i).slotStarted_status i kr
      refine ⟨run, halt, taint, s.startedAt_slot i kr hs, ?_, s.startedAt_sameRegs i kr, s.startedAt_onlySlot i kr, s.startedAt_onlySlot_of_replay i kr⟩
      rintro m pend rfl
      exact s.startedAt_modelAt i hs pend begun
    case stop =>
      intro i s hi hs b stop begun
      refine ⟨_, slotStop_stops hi stop begun, ?_⟩
      have work : s.slotWork i [ING_Ii_STATUS i] _ := (State.slotWork.refl.setSlot { s.slot i with stopAt := none }).setBit 31 false (.head _)
      refine ⟨State.slotStatus_setBit_same _ _ _ (by decide), ?_, work.regs, work.onlySlot⟩
      rw [State.slot_setBit, State.slot_setSlot_same hs]
    case intake =>
      intro i b s hi hs queue taken cfg next clocked turn
      refine ⟨fun idle => ?ignored, fun running unhalted started on => ⟨fun absent => ?missed, fun o present follows => ?accepted⟩⟩
      case ignored =>
        refine ⟨_, slotBlockIntake_ignores next clocked turn idle, State.tookBlock_of_queues ⟨rfl, rfl⟩, ?_⟩
        obtain ⟨_, _, _, popped⟩ := s.blockTaken_eq i b
        rw [popped]
      case missed =>
        refine ⟨_, slotBlockIntake_misses hi next clocked turn running unhalted started on absent, ?_⟩
        have ready := s.blockReady_work i b []
        have entry := State.blockReady_entry hs b
        obtain ⟨regs, alone, ticks, cause, tainted, inbox, replayIn⟩ := State.slotMiss_missed hi (ready.length ▸ s.blockTaken_slots i b ▸ hs) b
        have halts := State.slotHalted_slotMiss hi b (s.slotHalted_blockReady i b ▸ unhalted)
        rw [State.blockReady_slotCfgAt hs] at tainted
        refine ⟨State.tookBlock_of_queues ⟨inbox.trans ready.queues.1, replayIn.trans ready.queues.2⟩, ?_, cause, ?_, tainted, ?_, ?_⟩
        · rw [ticks, entry]
        · rw [halts, entry]
        · exact fun a ha => (regs a ha).trans (s.rd_blockReady i a b)
        · exact fun j hj => ((alone j hj).trans (ready.others j hj)).trans (s.slot_blockTaken i j b)
      case accepted =>
        refine ⟨_, slotBlockIntake_accepts hi next clocked turn running unhalted started on present, ?_⟩
        have ready := s.blockReady_work i b [ING_Ii_SAT_CNT i]
        have entry := State.blockReady_entry hs b
        obtain ⟨work, ticks, nextOrd, dec⟩ := State.slotAccept_took (ready.length ▸ s.blockTaken_slots i b ▸ hs) (by rw [entry]; exact follows)
        have all := ready.trans work
        rw [s.rd_blockReady, State.blockReady_slotCfgAt hs, entry] at dec
        refine ⟨all.tookBlock, ?_, ?_, dec, ?_, all.onlySlot_of_blockTaken⟩
        · rw [ticks, entry]
        · rw [nextOrd, entry]
        · exact fun a ha => (work.regs a ha).trans (s.rd_blockReady i a b)
  case resample =>
    intro i k s hi hs on running started ready fresh inTime
    refine ⟨_, resampleGridTick_runs hi on running started ready fresh inTime, (s.resample i k).2, s.gridHits i k, ?_⟩
    obtain ⟨-, length, canonical, halted⟩ := s.resample_resampled i k
    exact ⟨s.gridTick_canon i k, length, length_hitBits _ _ _ _ _, canonical, halted, hitBits_absent _ _ _ _ _, s.rd_gridTick_absentCnt i k,
      s.gridTick_sameRegs i k, s.slot_gridTick_same i k hs, fun j hj => s.slot_gridTick_ne i k hj, s.gridTick_eq i k⟩

end Sys2Proof.Machine
end

section
/-!
PROOFS. A gain commit while a bank switch whose tick has begun is in progress (R188): it is refused as busy, whether or not the bank has been
switched by then.
-/
namespace Sys2Proof.Machine

/-- A commit ahead of its tick, while the tick of the switch before it has begun. -/
theorem State.gainCommit_of_busy {s : State} {k before : Nat} (ahead : s.begun k = false) (pending : s.chn.gainEff = some before)
    (begun : s.begun before = true) : s.gainCommit k = (0x0404, s.flag CHN_ERR 2) := by
  simp [State.gainCommit, ahead, pending, begun]

/-! ### By a write of the host -/

/-- Tick 5 has just begun and GAIN_BANK_SWITCH is still to make the switch that was committed for it; the host names tick 10 for the next. -/
def gainBusyState : State :=
  { [(GLB_DOMAINS, 2 ^ 4), (GLB_BAR0_WE_LO, 2 ^ 7), (CHN_GAIN_EFF_LO, 10), (CHN_GAIN_STATUS, 2)].foldl (fun s e => s.wr e.1 e.2) State.reset with
    tim := { Tim.reset with lastTick := some 5 }, chn := { State.reset.chn with gainEff := some 5 }, pci := { State.reset.pci with held := false } }

theorem rowOf_CHN_GAIN_EFF_HI : rowOf CHN_GAIN_EFF_HI
    = some ⟨"CHN_GAIN_EFF_HI", CHN_GAIN_EFF_HI, 1, 4, 1, 4, .rw, 0, 0xFFFFFFFF, true⟩ := by decide +kernel

theorem gainBusyState_reaches : gainBusyState.hostReaches .rw CHN_GAIN_EFF_HI 0 0 :=
  ⟨⟨rfl, by decide, by decide, by decide, by decide +kernel, by decide +kernel, _, rowOf_CHN_GAIN_EFF_HI, rfl, by decide +kernel,
    by decide +kernel⟩, by decide +kernel⟩

/-- The write leaves the switch that is in progress. -/
theorem gainBusyState_kept : (gainBusyState.hostWrite CHN_GAIN_EFF_HI 0).chn.gainEff = some 5 := by decide +kernel

/-- Refutes O39: its clause for the gain switch asks only that no bank has been switched yet, but where the tick of the switch before has
begun the commit is ignored (R188). -/
theorem not_commitsWaitForTheirTick : ¬ Obligations.CommitsWaitForTheirTick := by
  unfold Obligations.CommitsWaitForTheirTick
  rintro ⟨-, gain, -⟩
  obtain ⟨t, taken, waits, -⟩ := gain 0 0 gainBusyState gainBusyState_reaches (by decide +kernel) rfl
  have written : exec (.gainEffCommit 0) gainBusyState = .next (gainBusyState.hostWrite CHN_GAIN_EFF_HI 0) := rfl
  rw [written, Host.Outcome.next.injEq] at taken
  have named : gainBusyState.rd CHN_GAIN_EFF_LO + 0 % 2 ^ 32 * 2 ^ 32 = 10 := by decide +kernel
  rw [← taken, gainBusyState_kept, named] at waits
  exact absurd waits (by decide)

/-! ### By a command -/

/-- GAIN_COMMIT while the switch before is in progress is refused with BUSY. -/
theorem gainCommit_refuses_busy {s u : State} {p : Pkt} {k : Nat} {key : List Byte} {before : Nat} (h : s.accepts p k key u)
    (op : pkOp p.bytes = 0x0701) (len : (pkParams p.bytes).length = 12) (zero : beAt (pkParams p.bytes) 8 4 = 0)
    (valid : u.timeValid = true) (named : beAt (pkParams p.bytes) 0 8 ≠ 0) (ahead : u.begun (beAt (pkParams p.bytes) 0 8) = false)
    (pending : u.chn.gainEff = some before) (begun : u.begun before = true) :
    exec .gainCommit s = .next (u.endCmd 1 true p k key 0x0404 []) := by
  refine opRow_refuses h op ?_ (by decide)
  have busy (v : Nat) : (u.wr64 CHN_GAIN_EFF_LO CHN_GAIN_EFF_HI v).gainCommit (beAt (pkParams p.bytes) 0 8) = (0x0404, _) :=
    State.gainCommit_of_busy ahead pending begun
  simp [Ctx.b, len, zero, State.effTick_of_not_begun valid named ahead, busy]

/-- Tick 10, and the parameter word that is 0. -/
def gainParams : List Byte := toBE 8 10 ++ toBE 4 0

/-- GAIN_COMMIT from installer slot 0 to every hive, SEQ 9. -/
def gainHeader : List Byte :=
  toBE 2 0x504C ++ [1, 0] ++ toBE 2 0 ++ toBE 2 (2 ^ 14) ++ toBE 2 0xFFFF ++ toBE 2 0x0701 ++ toBE 4 9 ++ toBE 4 12 ++ List.replicate 12 0

def gainPkt : Pkt := ⟨.ring 0 0, signPkt windowKey gainHeader gainParams⟩

/-- Tick 9 has just begun, time is valid, the slot's key is ACTIVE, the packet is the only command, and GAIN_BANK_SWITCH is still to make the
switch that was committed for tick 9. -/
def gainState : State :=
  { windowState with cmd := { windowState.cmd with ordQ := [gainPkt] }, chn := { windowState.chn with gainEff := some 9 } }

/-- The state its body runs in (R481). -/
def gainTurn : State := (gainState.popCmd.turn gainPkt 64).2

theorem gainPkt_params : pkParams gainPkt.bytes = gainParams := by
  have : 48 = (gainHeader ++ tagOf windowKey (gainHeader ++ List.replicate 16 0 ++ gainParams)).length := by
    simp [gainHeader]
  rw [pkParams, gainPkt, signPkt, this, List.drop_left]

theorem gainState_nextCmd : gainState.nextCmd = some gainPkt := by
  have control : gainState.inControl = true := by decide +kernel
  rw [State.nextCmd, control]
  rfl

theorem gainState_gate : gainState.popCmd.gate gainPkt.bytes = .pass 64 windowKey :=
  gate_signPkt _ _ _ _ _ (by decide +kernel) (by decide +kernel) (by decide +kernel) (by decide +kernel) (by decide +kernel)

theorem gainState_accepts : gainState.accepts gainPkt 64 windowKey gainTurn :=
  ⟨gainState_nextCmd, gainState_gate, Prod.ext (by decide +kernel) rfl, by decide +kernel⟩

theorem gainParams_tick : beAt gainParams 0 8 = 10 := by decide +kernel

/-- Refutes O47: its clause for GAIN_COMMIT asks only that no bank has been switched yet, but where the tick of the switch before has begun
the command is refused with BUSY (R188). -/
theorem not_commitCommands : ¬ Obligations.CommitCommands := by
  unfold Obligations.CommitCommands
  rintro ⟨-, gain, -⟩
  have op : pkOp gainPkt.bytes = 0x0701 := by decide +kernel
  have busy : exec .gainCommit gainState = .next (gainTurn.endCmd 1 true gainPkt 64 windowKey 0x0404 []) :=
    gainCommit_refuses_busy gainState_accepts op (by rw [gainPkt_params]; rfl) (by rw [gainPkt_params]; decide +kernel) (by decide +kernel)
      (by rw [gainPkt_params]; decide +kernel) (by rw [gainPkt_params]; decide +kernel) (by decide +kernel) (by decide +kernel : gainTurn.begun 9 = true)
  have clause := gain gainPkt 64 windowKey gainTurn gainState op gainState_accepts
  simp only [gainPkt_params, gainParams_tick] at clause
  have executed := (clause (by decide +kernel) (by decide +kernel) (by decide +kernel) (by decide +kernel) (by decide +kernel)
    (by decide +kernel)).status_eq rfl (by decide) busy
  rw [gainTurn.endCmd_auditedStatus 1 true rfl 64 windowKey [] (by decide)] at executed
  exact absurd executed (by decide)

end Sys2Proof.Machine
end

section
/-!
PROOFS. A write of the weight store while the commit of another session is in force and its bank not yet switched (R325, R326): the write makes
the switch first, in whichever session it is due.
-/
namespace Sys2Proof.Machine

/-- The entry of session 0 with explicit weights: the commit of epoch 0 waits to show. -/
def switchDue : WagSes := ⟨some 0, [(0, 1)], some 0, [], [], [], none⟩

/-- Tick 201 is in progress and the host may write the weight store. The bank switch of waggle session 0, due at tick 200, has not been made; the session
owns no channel, so no word of the store is in its region. -/
def switchDueState : State :=
  { [(GLB_DOMAINS, 2 ^ 8), (GLB_BAR0_WE_LO, 2 ^ 12), (WAG_SESx_CFG 0, 5), (WAG_SESx_STATUS 0, 2 ^ 31 + 2 ^ 30)].foldl (fun s e => s.wr e.1 e.2)
      State.reset with
    tim := { Tim.reset with lastTick := some 201 }, wag := { State.reset.wag with ses := [(0, switchDue)] }
    pci := { State.reset.pci with held := false } }

theorem rowOf_WAG_WT_DATA : rowOf WAG_WT_DATA = some ⟨"WAG_WT_DATA", WAG_WT_DATA, 1, 4, 1, 4, .rw, 0, 0xFFFF, true⟩ := by decide +kernel

theorem switchDueState_reaches : switchDueState.hostReaches .rw WAG_WT_DATA 7 7 :=
  ⟨⟨rfl, by decide, by decide, by decide, by decide +kernel, by decide +kernel, _, rowOf_WAG_WT_DATA, by decide, by decide +kernel,
    by decide +kernel⟩, by decide +kernel⟩

/-- The write leaves the session switched. -/
theorem switchDueState_switched : (switchDueState.hostWrite WAG_WT_DATA 7).wagOf 0 = some { switchDue with pend := none } := by decide +kernel

/-- Refutes O37: its clause for the weight store has a write leave the sessions as they are, but one whose commit is in force by then is
switched to its new bank by the write. -/
theorem not_storesAreWrittenThroughTheirWindows : ¬ Obligations.StoresAreWrittenThroughTheirWindows := by
  unfold Obligations.StoresAreWrittenThroughTheirWindows
  rintro ⟨-, -, -, -, weights, -⟩
  obtain ⟨t, taken, -, -, -, -, frame⟩ := weights 7 7 switchDueState switchDueState_reaches (by decide +kernel)
  have written : exec (.weightDataWrite 7) switchDueState = .next (switchDueState.hostWrite WAG_WT_DATA 7) := rfl
  rw [written, Host.Outcome.next.injEq] at taken
  have kept : t.wagOf 0 = switchDueState.wagOf 0 := congrArg (·.wagOf 0) frame
  rw [← taken, switchDueState_switched] at kept
  exact absurd kept (by decide)

end Sys2Proof.Machine
end

section
/-!
PROOFS. A waggle session that is enabled again in the tick in which it stopped (R312, R327): the blocks of the earlier enable are still to be formed.
-/
namespace Sys2Proof.Machine

/-- The earlier enable of the session, stopped in tick 5. -/
def stoppedWag : WagSes := ⟨some 0, [(0, 1)], none, [], [], [], some 5⟩

/-- Brood session 0: dwells of 1,024 spectra, an input map of one entry, no channels of its own. -/
def reenabledCtn : CtnSes :=
  { cfg := 1024 * 2 ^ 8 + 5, cfg2 := 0, sibase := 0, brood := 0, udp := 0, epoch := 0, grid := 0, maps := [(0, ⟨0, 2 ^ 16, 0⟩)], pend := none
    first := 0, last := none, win := [none, none] }

/-- Tick 5 is in progress; waggle session 0, with explicit weights, was disabled in it, and the host may enable it again. -/
def reenabledState : State :=
  { [(GLB_DOMAINS, 2 ^ 8), (GLB_BAR0_WE_LO, 2 ^ 12), (CTN_SESx_CFG 0, 1024 * 2 ^ 8 + 5), (WAG_SESx_CFG 0, 4)].foldl (fun s e => s.wr e.1 e.2)
      State.reset with
    tim := { Tim.reset with lastTick := some 5 }, ctn := { State.reset.ctn with ses := [(0, reenabledCtn)] }
    wag := { State.reset.wag with ses := [(0, stoppedWag)] }, pci := { State.reset.pci with held := false } }

theorem rowOf_WAG_SESx_CFG_zero :
    rowOf (WAG_SESx_CFG 0) = some ⟨"WAG_SESx_CFG", WAG_SESx_CFG 0, 1024, 0x80, 1, 4, .rw, 0, 0xFFFF000D, false⟩ := by decide +kernel

theorem reenabledState_reaches : reenabledState.hostReaches .rw (WAG_SESx_CFG 0) (enOf 4) 5 :=
  ⟨⟨rfl, by decide, by decide, by decide, by decide +kernel, by decide +kernel, _, rowOf_WAG_SESx_CFG_zero, by decide, by decide +kernel,
    by decide +kernel⟩, by decide +kernel⟩

/-- The earlier enable is kept beside the new one. -/
theorem reenabledState_ending : (reenabledState.hostWrite (WAG_SESx_CFG 0) (enOf 4)).wag.ending = [(0, stoppedWag)] := by decide +kernel

/-- Refutes O38: its clause for waggle sessions has an enable start the session alone, but where an earlier enable of it still has blocks to form
the write also puts that one among the enables that end (R327). -/
theorem not_enablesStartTheWorkOfABlock : ¬ Obligations.EnablesStartTheWorkOfABlock := by
  unfold Obligations.EnablesStartTheWorkOfABlock
  rintro ⟨-, -, -, -, -, waggle, -⟩
  obtain ⟨t, taken, -, -, -, -, frame⟩ := waggle 0 4 5 reenabledState (by decide) reenabledState_reaches (by decide +kernel) (by decide)
  have written : exec (.wagSessionEnable 0 4) reenabledState = .next (reenabledState.hostWrite (WAG_SESx_CFG 0) (enOf 4)) := rfl
  rw [written, Host.Outcome.next.injEq] at taken
  have kept : t.wag.ending = [] := congrArg (·.wag.ending) frame
  rw [← taken, reenabledState_ending] at kept
  exact absurd kept (by decide)

end Sys2Proof.Machine
end

section
/-!
PROOFS. Spectra (R179, R181 to R191): the values and registers of a spectrum as it is formed, its hand-off, the stop of an input, and the
switch of the gain bank.
-/
namespace Sys2Proof.Machine

/-! ### Requantisation (R189) -/

/-- Both components of a requantised channel lie within the limit. -/
theorem requant_natAbs_le (qsh lim : Nat) (x g : Cx) :
    (requant qsh lim x g).1.1.natAbs ≤ lim ∧ (requant qsh lim x g).1.2.natAbs ≤ lim := by
  have clamp (v : Int) : (if (lim : Int) < v then ((lim : Int), 1) else if v < -(lim : Int) then (-(lim : Int), 1) else (v, 0)).1.natAbs ≤ lim := by
    split
    · simp
    · split
      · simp
      · dsimp only
        omega
  exact ⟨clamp _, clamp _⟩

/-- The channels `xs` of an input with home tick h, requantised: those of the profile's range, each with its clamps (R186 to R189). -/
def State.requantised (s : State) (i p h cfg : Nat) (xs : List Cx) : List ((Int × Int) × Nat) :=
  (List.range (s.cpCount p)).map (fun l => requant (bitsOf cfg 31 26) (if bitOf cfg 7 = 1 then 127 else 7) (nth xs (s.cpFirst p + l) ⟨0, 0⟩)
    (s.gainAt (s.gainBank h) (s.fd (CHN_Ii_CFG i) CHN_Ii_CFG_GBASE + l)))

/-! ### Work that counts and flags -/

/-- `t` is `s` but for registers of `l`, and the message that a flag among them may have sent. -/
structure State.flagWork (s : State) (l : List Nat) (t : State) : Prop where
  regs : s.sameRegs t l
  frame : ∃ r p o, t = { s with regs := r, pci := p, out := o }

namespace State.flagWork
variable {s t u : State} {a : Nat} {l : List Nat}

theorem refl : s.flagWork l s := ⟨fun _ _ => rfl, _, _, _, rfl⟩

theorem trans (h : s.flagWork l t) (g : t.flagWork l u) : s.flagWork l u := by
  refine ⟨h.regs.trans g.regs, ?_⟩
  obtain ⟨_, _, _, rfl⟩ := h.frame
  obtain ⟨_, _, _, rfl⟩ := g.frame
  exact ⟨_, _, _, rfl⟩

theorem wr (h : s.flagWork l t) (v : Nat) (ha : a ∈ l) : s.flagWork l (t.wr a v) := by
  refine ⟨h.regs.wr v ha, ?_⟩
  obtain ⟨_, _, _, rfl⟩ := h.frame
  exact ⟨_, _, _, rfl⟩

theorem count (h : s.flagWork l t) (v : Nat) (ha : a ∈ l) : s.flagWork l (t.count a v) := h.wr _ ha

theorem flag (h : s.flagWork l t) (i : Nat) (ha : a ∈ l) (he : PCI_ERR ∈ l) : s.flagWork l (t.flag a i) :=
  h.trans ⟨(State.sameRegs_of_regs_eq rfl).flag i ha he, _, _, _, t.flag_eq a i⟩

end State.flagWork

/-! ### The registers of a spectrum (R185, R189, R191) -/

/-- The registers that forming a spectrum of input i changes: its profile's clamp counters, the flag, and its clip counter. -/
def formRegs (i p : Nat) : List Nat := [CHN_CPp_PFB_SAT p, CHN_CPp_OVF_CNT p, CHN_CPp_OVF_STG p, CHN_ERR, PCI_ERR, CHN_Ii_CLIP i]

/-- The registers that report the highest spectrum number handed on. -/
def lastRegs (p : Nat) : List Nat := [CHN_CPp_LAST_LO p, CHN_CPp_LAST_HI p]

theorem State.inputProfile_lt (s : State) (i : Nat) : s.inputProfile i < 4 := bitsOf_lt _ _ _

theorem mem_formRegs {i p a : Nat} : a ∈ formRegs i p ↔ a = 0x700118 + p * 0x40 ∨ a = 0x70011C + p * 0x40 ∨ a = 0x700120 + p * 0x40
    ∨ a = 0x700004 ∨ a = 0x1400004 ∨ a = 0x70100C + i * 0x10 := by
  simp [formRegs, CHN_CPp_PFB_SAT, CHN_CPp_OVF_CNT, CHN_CPp_OVF_STG, CHN_ERR, PCI_ERR, CHN_Ii_CLIP]

theorem range_not_mem_formRegs {i p : Nat} (hp : p < 4) : CHN_CPp_RANGE p ∉ formRegs i p := by
  rw [mem_formRegs, CHN_CPp_RANGE]
  omega

theorem chnCfg_not_mem_formRegs {i p : Nat} (hi : i < 256) (hp : p < 4) : CHN_Ii_CFG i ∉ formRegs i p := by
  rw [mem_formRegs, CHN_Ii_CFG]
  omega

theorem ingCfg_not_mem_formRegs {i p : Nat} (hi : i < 256) : ING_Ii_CFG i ∉ formRegs i p := by
  rw [mem_formRegs, ING_Ii_CFG]
  omega

section
variable {s t : State} {i p : Nat} (h : s.flagWork (formRegs i p) t) (hi : i < 256) (hp : p < 4)
include h hp

theorem State.flagWork.cpFirst : t.cpFirst p = s.cpFirst p := by
  rw [State.cpFirst, h.regs _ (range_not_mem_formRegs hp), State.cpFirst]

theorem State.flagWork.cpCount : t.cpCount p = s.cpCount p := by
  rw [State.cpCount, h.regs _ (range_not_mem_formRegs hp), State.cpCount]

include hi

theorem State.flagWork.inputReplay : t.inputReplay i = s.inputReplay i := by
  rw [State.inputReplay, State.slotReplay, h.regs.bit (chnCfg_not_mem_formRegs hi hp), h.regs.bit (ingCfg_not_mem_formRegs hi), State.inputReplay,
    State.slotReplay]

end

/-- Fold, FFT and split count their clamps and flag them (R185). -/
theorem State.transform_work (s : State) (i p n : Nat) (x : List Int) : s.flagWork (formRegs i p) (s.transform p n x).2 := by
  unfold State.transform
  extract_lets cfg v pfb pts f sp spc stg counted latched
  have counts : s.flagWork (formRegs i p) latched := by
    refine ((State.flagWork.refl.count pfb ?_).count _ ?_).wr _ ?_ <;> simp [formRegs]
  unfold State.when
  split
  · exact counts.flag 4 (by simp [formRegs]) (by simp [formRegs])
  · exact counts

/-! ### Replay work (R194) -/

/-- The state as a spectrum of input i is taken up: the work on that of a replay input is owed to the idle capacity of the ticks. -/
def State.specTaken (s : State) (i : Nat) : State :=
  { s with chn := { s.chn with debt := if s.inputReplay i then s.chn.debt + cpL (s.cpCfg (s.inputProfile i)) else s.chn.debt } }

theorem State.when_replay_specTaken (s : State) (i : Nat) :
    s.when (s.inputReplay i) (fun t => { t with chn := { t.chn with debt := t.chn.debt + cpL (s.cpCfg (s.inputProfile i)) } })
      = s.specTaken i := by
  unfold State.when State.specTaken
  split <;> rfl

theorem State.specTaken_debt {s : State} {i : Nat} (live : s.inputReplay i = false) : (s.specTaken i).chn.debt = s.chn.debt :=
  if_neg (by simp [live])

/-! ### The values of a spectrum (R190) -/

/-- The samples of the window of spectrum n of input i. -/
def State.specWindow (s : State) (i n : Nat) : List Smp :=
  let p := s.inputProfile i
  s.windowOf i p (specStart (s.cpCfg p) n) (cpP (s.cpCfg p) * cpL (s.cpCfg p))

/-- The home tick of spectrum n of input i. -/
def State.specHome (s : State) (i n : Nat) : Nat := homeTick (s.cpEpoch (s.inputProfile i)) (s.cpCfg (s.inputProfile i)) n

/-- The grid tick in which the window of spectrum n of input i begins (R176). -/
def State.windowTick (s : State) (i n : Nat) : Int :=
  (s.cpEpoch (s.inputProfile i) : Int) + (specStart (s.cpCfg (s.inputProfile i)) n).fdiv (cpNs (s.cpCfg (s.inputProfile i)))

/-- The mark spectrum n of input i is handed on with. -/
def State.specMark (s : State) (i n : Nat) : NecCause :=
  markCause (if (s.specWindow i n).any (·.gap) then (s.specWindow i n).filter (·.gap) else s.specWindow i n)

/-- Spectrum n of input i computed from its samples: the state with its clamps counted, and its values. -/
def State.specComputed (s : State) (i n : Nat) : State × List (Int × Int) :=
  let p := s.inputProfile i
  let r := (s.specTaken i).transform p n ((s.specWindow i n).map (·.v))
  let qs := r.2.requantised i p (s.specHome i n) (s.cpCfg p) r.1
  (r.2.count (CHN_Ii_CLIP i) (sumL (qs.map (·.2))), qs.map (·.1))

/-- Spectrum n of input i formed: zeros where a sample of its window is absent. -/
def State.specFormed (s : State) (i n : Nat) : State × List (Int × Int) :=
  if (s.specWindow i n).any (·.gap) then (s.specTaken i, List.replicate (s.cpCount (s.inputProfile i)) (0, 0)) else s.specComputed i n

theorem State.specFormed_absent {s : State} {i n : Nat} (gap : (s.specWindow i n).any (·.gap) = true) :
    s.specFormed i n = (s.specTaken i, List.replicate (s.cpCount (s.inputProfile i)) (0, 0)) := if_pos gap

theorem State.specFormed_present {s : State} {i n : Nat} (whole : ¬ (s.specWindow i n).any (·.gap) = true) :
    s.specFormed i n = s.specComputed i n := if_neg whole

theorem markCause_of_unmarked {w : List Smp} (h : ∀ x ∈ w, x.c = .none) : markCause w = .none := by
  have noLoss : w.any (·.c == .laneLost) = false := List.any_eq_false.mpr fun x hx => by simp [h x hx]
  have noCause : w.find? (·.c != .none) = none := List.find?_eq_none.mpr fun x hx => by simp [h x hx]
  simp [markCause, noLoss, noCause]

theorem State.specMark_of_unmarked {s : State} {i n : Nat} (h : ∀ x ∈ s.specWindow i n, x.c = .none) : s.specMark i n = .none := by
  refine markCause_of_unmarked fun x hx => h x ?_
  split at hx
  · exact List.mem_of_mem_filter hx
  · exact hx

/-- `r` is what the channeliser makes of spectrum n of input i: its values, and the state with the clamps counted. -/
structure State.formedAs (s : State) (i n : Nat) (r : State × List (Int × Int)) : Prop where
  work : (s.specTaken i).flagWork (formRegs i (s.inputProfile i)) r.1
  length : r.2.length = s.cpCount (s.inputProfile i)
  clamped : ∀ v ∈ r.2, v.1.natAbs ≤ (if bitOf (s.cpCfg (s.inputProfile i)) 7 = 1 then 127 else 7)
    ∧ v.2.natAbs ≤ (if bitOf (s.cpCfg (s.inputProfile i)) 7 = 1 then 127 else 7)
  zeros : (s.specWindow i n).any (·.gap) = true → ∀ v ∈ r.2, v = (0, 0)

theorem State.specComputed_formedAs {s : State} {i n : Nat} (whole : ¬ (s.specWindow i n).any (·.gap) = true) :
    s.formedAs i n (s.specComputed i n) where
  work := ((s.specTaken i).transform_work i _ n _).count _ (by simp [formRegs])
  length := by
    have work := (s.specTaken i).transform_work i (s.inputProfile i) n ((s.specWindow i n).map (·.v))
    simp only [State.specComputed, State.requantised, List.length_map, List.length_range]
    exact work.cpCount (s.inputProfile_lt i)
  clamped v hv := by
    obtain ⟨q, hq, rfl⟩ := List.mem_map.mp hv
    obtain ⟨l, -, rfl⟩ := List.mem_map.mp hq
    exact requant_natAbs_le _ _ _ _
  zeros gap := absurd gap whole

theorem State.specFormed_formedAs (s : State) (i n : Nat) : s.formedAs i n (s.specFormed i n) := by
  unfold State.specFormed
  split
  · have zero (v : Int × Int) (hv : v ∈ List.replicate (s.cpCount (s.inputProfile i)) (0, 0)) : v = (0, 0) := List.eq_of_mem_replicate hv
    exact ⟨.refl, List.length_replicate, fun v hv => by simp [zero v hv], fun _ => zero⟩
  · next whole => exact State.specComputed_formedAs whole

/-! ### The hand-off (R191) -/

/-- The spectra once `x` is handed on. -/
def State.handedOn (s : State) (x : Spectrum) : List Spectrum :=
  (putSpectrum x (s.chn.spectra.filter
    (fun y => !(y.input == x.input && y.n == x.n && y.profile == x.profile && y.replay == x.replay)))).take specKeep

theorem State.handOff_work (s : State) (x : Spectrum) :
    { s with chn := { s.chn with spectra := s.handedOn x } }.flagWork (lastRegs x.profile) (s.handOff x) := by
  unfold State.handOff
  dsimp only
  split
  · exact (State.flagWork.refl.wr _ (.head _)).wr _ (.tail _ (.head _))
  · exact .refl

/-- Handing on after work that only counts. -/
theorem State.flagWork.handOff {s t : State} {l : List Nat} (h : s.flagWork l t) (x : Spectrum) :
    ∃ r p o, t.handOff x = { s with regs := r, chn := { s.chn with spectra := s.handedOn x }, pci := p, out := o } := by
  obtain ⟨_, _, _, rfl⟩ := h.frame
  exact (State.handOff_work _ x).frame

/-! ### SPECTRUM_COMPUTE -/

/-- Spectrum n of input i as it is handed on from state `u`, with values `vals`. -/
def State.specOf (s : State) (i n : Nat) (u : State) (vals : List (Int × Int)) : Spectrum :=
  ⟨i, n, s.specHome i n, s.inputProfile i, u.inputReplay i, (s.specWindow i n).any (·.gap), s.specMark i n, u.cpFirst (s.inputProfile i), vals⟩

/-- Spectrum n of input i formed and handed on. -/
def State.specHanded (s : State) (i n : Nat) : State :=
  (s.specFormed i n).1.handOff (s.specOf i n (s.specFormed i n).1 (s.specFormed i n).2)

section
variable {s : State} {i n : Nat} (hi : i < 256) (on : s.blockOn 7 = true) (en : bitOf (s.cpCfg (s.inputProfile i)) 0 = 1)
  (input : s.inputOn i (s.specHome i n) = true) (started : s.specExists i n = true)
  (come : ∀ q : Nat, q < s.specHome i n + 1 - (s.windowTick i n).toNat → s.canonDue i (s.windowTick i n + q) = true)
  (fresh : s.specDone i n = false)
  (inTime : if s.inputReplay i = true then s.chn.debt < s.chnIdle else s.begun (s.specHome i n + 3) = false)
include hi on en input started come fresh inTime

theorem spectrumCompute_hands_on : exec (.spectrumCompute i n) s = .next (s.specHanded i n) := by
  have row : exec (.spectrumCompute i n) s = execSpectrumCompute i n s := rfl
  have window := List.all_eq_true.mpr fun q hq => come q (List.mem_range.mp hq)
  have late : (if s.inputReplay i then decide (s.chnIdle ≤ s.chn.debt) else s.begun (s.specHome i n + 3)) = false := by
    split at inTime
    · next replay => simpa [replay] using inTime
    · next live => simpa [live] using inTime
  rw [row, execSpectrumCompute]
  extract_lets taken w gone mark zeros out r counted lim bank base qs
  have owed : taken = s.specTaken i := s.when_replay_specTaken i
  clear_value taken
  subst owed
  have samples : w = s.specWindow i n := rfl
  clear_value w
  subst samples
  refine (if_neg ?_).trans ?_
  · rw [State.specHome] at input late window
    rw [State.windowTick] at window
    simp only [ge_iff_le, Nat.not_le.mpr hi, on, en, input, started, window, fresh, late]
    decide
  · by_cases gap : (s.specWindow i n).any (·.gap) = true
    · rw [State.specHanded, State.specFormed_absent gap]
      exact if_pos gap
    · rw [State.specHanded, State.specFormed_present gap]
      exact if_neg gap

end

section
variable (s : State) {i : Nat} (n : Nat)

theorem State.specFormed_work : (s.specTaken i).flagWork (formRegs i (s.inputProfile i)) (s.specFormed i n).1 :=
  (s.specFormed_formedAs i n).work

/-- The label does not depend on what forming the spectrum counted. -/
theorem State.specOf_specFormed (hi : i < 256) (vals : List (Int × Int)) : s.specOf i n (s.specFormed i n).1 vals
    = ⟨i, n, s.specHome i n, s.inputProfile i, s.inputReplay i, (s.specWindow i n).any (·.gap), s.specMark i n, s.cpFirst (s.inputProfile i),
        vals⟩ := by
  have work := s.specFormed_work (i := i) n
  rw [State.specOf, work.inputReplay hi (s.inputProfile_lt i), work.cpFirst (s.inputProfile_lt i)]
  rfl

theorem State.specHanded_sameRegs : s.sameRegs (s.specHanded i n) (formRegs i (s.inputProfile i) ++ lastRegs (s.inputProfile i)) := by
  have taken : s.sameRegs (s.specTaken i) (formRegs i (s.inputProfile i)) := State.sameRegs_of_regs_eq rfl
  have formed := taken.trans (s.specFormed_work n).regs
  have handed := (State.handOff_work (s.specFormed i n).1 (s.specOf i n (s.specFormed i n).1 (s.specFormed i n).2)).regs
  exact (formed.mono (List.subset_append_left _ _)).trans (handed.mono (List.subset_append_right _ _))

theorem State.specHanded_frame (hi : i < 256) : ∃ r p o, s.specHanded i n = { s with
    regs := r, pci := p, out := o
    chn := { (s.specTaken i).chn with spectra := s.handedOn ⟨i, n, s.specHome i n, s.inputProfile i, s.inputReplay i,
      (s.specWindow i n).any (·.gap), s.specMark i n, s.cpFirst (s.inputProfile i), (s.specFormed i n).2⟩ } } := by
  rw [← s.specOf_specFormed n hi]
  exact (s.specFormed_work n).handOff _

end

/-! ### The stop of an input (R179) -/

theorem chnInputStop_stops (i : Nat) (s : State) : exec (.chnInputStop i) s = .next { s with chn := { s.chn with
    stopAt := s.chn.stopAt.filter (fun e => !(e.1 == i && s.begun (e.2 + 2))) } } := rfl

/-! ### The switch of the gain bank (R188) -/

/-- An entry put into a timeline is in force from its tick, and the timeline is as it was before. -/
theorem tlAt_tlPut {α : Type} (d : α) (l : List (Nat × α)) (k : Nat) (v : α) (h : Nat) :
    tlAt d (tlPut l k v) h = if k ≤ h then v else tlAt d l h := by
  rw [tlPut, tlAt]
  split
  · rfl
  · next before =>
    induction l with
    | nil => rfl
    | cons e r ih =>
      by_cases kept : e.1 < k
      · simp [tlAt, kept, ih]
      · simp [tlAt, kept, ih, show ¬ e.1 ≤ h by omega]

/-- The state after the switch to the other bank at tick k. -/
def State.bankSwitched (s : State) (k : Nat) : State :=
  ({ s with chn := { s.chn with switched := true, banks := tlPut s.chn.banks k (1 - s.bit CHN_GAIN_STATUS 0) } }).setBit CHN_GAIN_STATUS 0
    (s.bit CHN_GAIN_STATUS 0 == 0)

/-- The state once the switch is no longer pending. -/
def State.switchEnded (s : State) : State :=
  ({ s with chn := { s.chn with gainEff := none, switched := false } }).setBit CHN_GAIN_STATUS 1 false

section
variable {s : State} {k : Nat} (commit : s.chn.gainEff = some k)
include commit

theorem gainBankSwitch_switches (begun : s.begun k = true) (waits : s.chn.switched = false) :
    exec .gainBankSwitch s = .next (s.bankSwitched k) := by
  have row : exec .gainBankSwitch s = execGainBankSwitch s := rfl
  rw [row, execGainBankSwitch, commit]
  exact if_pos (by rw [begun, waits]; rfl)

theorem gainSwitchDone_ends (ended : s.begun (k + 2) = true) (switched : s.chn.switched = true) :
    exec .gainSwitchDone s = .next s.switchEnded := by
  have row : exec .gainSwitchDone s = execGainSwitchDone s := rfl
  rw [row, execGainSwitchDone, commit]
  exact if_pos (by rw [ended, switched]; rfl)

/-- Before the switch is carried out the commit decides from its tick on; after it, the timeline. -/
theorem State.gainBank_of_waiting (waits : s.chn.switched = false) (h : Nat) :
    s.gainBank h = if k ≤ h then 1 - s.bit CHN_GAIN_STATUS 0 else tlAt 0 s.chn.banks h := by
  simp [State.gainBank, commit, waits]

theorem State.gainBank_of_switched (switched : s.chn.switched = true) (h : Nat) : s.gainBank h = tlAt 0 s.chn.banks h := by
  simp [State.gainBank, commit, switched]

theorem State.gainBank_bankSwitched (waits : s.chn.switched = false) (h : Nat) : (s.bankSwitched k).gainBank h = s.gainBank h := by
  have later : (s.bankSwitched k).gainBank h = tlAt 0 (tlPut s.chn.banks k (1 - s.bit CHN_GAIN_STATUS 0)) h :=
    State.gainBank_of_switched (s := s.bankSwitched k) commit rfl h
  rw [later, tlAt_tlPut, State.gainBank_of_waiting commit waits]

theorem State.gainBank_switchEnded (switched : s.chn.switched = true) (h : Nat) : s.switchEnded.gainBank h = s.gainBank h :=
  (State.gainBank_of_switched commit switched h).symm

end

theorem State.bit_bankSwitched (s : State) (k : Nat) : (s.bankSwitched k).bit CHN_GAIN_STATUS 0 = 1 - s.bit CHN_GAIN_STATUS 0 := by
  rw [State.bankSwitched, State.bit_setBit_same _ _ _ _ (by decide)]
  obtain bank | bank : s.bit CHN_GAIN_STATUS 0 = 0 ∨ s.bit CHN_GAIN_STATUS 0 = 1 := bitOf_cases _ _ <;> simp [bank]

/-! ### The statement -/

/-- Settles O11: a spectrum has one clamped value for each channel of the range, zero where its window has a gap, and what forming it counts
changes neither its labels nor its range; a bank switch enters in the timeline what its commit already says of every home tick. -/
theorem spectraAreCompleteAndGainsSwitchByTick : Obligations.SpectraAreCompleteAndGainsSwitchByTick := by
  unfold Obligations.SpectraAreCompleteAndGainsSwitchByTick
  refine ⟨?compute, ?stop, ?switch, ?done⟩
  case compute =>
    intro i n s p cfg h k0 w hi on en input started come fresh inTime
    refine ⟨_, spectrumCompute_hands_on hi on en input started come fresh inTime, s.specMark i n, (s.specFormed i n).2, ?_⟩
    obtain ⟨-, length, clamped, zeros⟩ := s.specFormed_formedAs i n
    have regs := s.specHanded_sameRegs (i := i) n
    obtain ⟨r, pci, out, frame⟩ := s.specHanded_frame n hi
    rw [frame] at regs ⊢
    exact ⟨rfl, State.specTaken_debt, length, clamped, zeros, State.specMark_of_unmarked, regs, rfl⟩
  case stop =>
    intro i s
    refine ⟨_, chnInputStop_stops i s, fun e => ?_, rfl⟩
    simp [imp_iff_not_or]
  case switch =>
    intro k s commit begun waits
    exact ⟨_, gainBankSwitch_switches commit begun waits, s.bit_bankSwitched k, State.gainBank_bankSwitched commit waits,
      (State.sameRegs_of_regs_eq rfl).setBit 0 _ (.head _), rfl⟩
  case done =>
    intro k s commit ended switched
    exact ⟨_, gainSwitchDone_ends commit ended switched, State.bit_setBit_same _ _ _ _ (by decide), State.gainBank_switchEnded commit switched,
      (State.sameRegs_of_regs_eq rfl).setBit 1 false (.head _), rfl⟩

end Sys2Proof.Machine
end

section
/-!
PROOFS. An Ethernet port: its entry in the list of ports, and the counters and flags of the receive checks (R201).
-/
namespace Sys2Proof.Machine

/-! ### Register addresses -/

theorem State.ethOn_lt {s : State} {n : Nat} (on : s.ethOn n = true) : n < 32 := by
  simp only [State.ethOn, Bool.and_eq_true, decide_eq_true_eq] at on
  exact on.1.1

theorem ETHn_HIST_ne_PCI_ERR {n : Nat} (hn : n < 32) : ETHn_HIST n ≠ PCI_ERR := by
  unfold ETHn_HIST PCI_ERR
  omega

/-! ### The port's entry -/

theorem nth_modNth_ne {α : Type} (d : α) (f : α → α) (l : List α) {i j : Nat} (h : j ≠ i) : nth (modNth l i f) j d = nth l j d := by
  induction l generalizing i j with
  | nil => rfl
  | cons x t ih =>
    cases i with
    | zero =>
      cases j with
      | zero => exact absurd rfl h
      | succ j => rfl
    | succ i =>
      cases j with
      | zero => rfl
      | succ j => exact ih (mt (congrArg (· + 1)) h)

theorem State.port_modPort_same {s : State} {n : Nat} (h : n < s.eth.ports.length) (f : EthPort → EthPort) :
    (s.modPort n f).port n = f (s.port n) := nth_modNth_same _ f h

theorem State.port_modPort_ne (s : State) {n m : Nat} (f : EthPort → EthPort) (h : m ≠ n) : (s.modPort n f).port m = s.port m :=
  nth_modNth_ne _ f _ h

@[simp] theorem State.port_flag (s : State) (a i n : Nat) : (s.flag a i).port n = s.port n := by
  rw [State.port, State.flag_eth, State.port]

theorem mem_addNew {α : Type} [BEq α] [LawfulBEq α] (l : List α) (x : α) : x ∈ addNew l x := by
  unfold addNew
  split
  · next known => exact List.contains_iff_mem.mp known
  · exact List.mem_append_right l (List.mem_singleton.mpr rfl)

/-! ### A flag set on a condition -/

@[simp] theorem State.port_when_flag (s : State) (c : Bool) (a i n : Nat) : (s.when c (·.flag a i)).port n = s.port n := by
  cases c with
  | false => rfl
  | true => exact s.port_flag a i n

theorem State.when_flag_eq (s : State) (c : Bool) (a i : Nat) : s.when c (·.flag a i) = { s with
    regs := (s.when c (·.flag a i)).regs, pci := (s.when c (·.flag a i)).pci, out := (s.when c (·.flag a i)).out } := by
  cases c with
  | false => rfl
  | true => exact s.flag_eq a i

theorem State.when_flag_sameRegs (s : State) (c : Bool) (a i : Nat) : s.sameRegs (s.when c (·.flag a i)) [a, PCI_ERR] := by
  cases c with
  | false => exact State.sameRegs_of_regs_eq rfl
  | true => exact State.sameRegs.flag (State.sameRegs_of_regs_eq rfl) i (by simp) (by simp)

/-! ### Counters and flags of the receive checks -/

/-- A failed check is counted and sets RX_DROP, and a message of the interrupt may follow. -/
theorem State.rxFail_counts (s : State) {n a : Nat} (hn : n < 32) (hist : a ≠ ETHn_HIST n) (pci : a ≠ PCI_ERR) :
    (s.rxFail n a).rd a = (s.rd a + 1) % 2 ^ 32 ∧ (s.rxFail n a).bit (ETHn_HIST n) 4 = 1
    ∧ s.sameRegs (s.rxFail n a) [a, ETHn_HIST n, PCI_ERR]
    ∧ s.rxFail n a = { s with regs := (s.rxFail n a).regs, pci := (s.rxFail n a).pci, out := (s.rxFail n a).out } := by
  have counted : s.sameRegs (s.count a 1) [a, ETHn_HIST n, PCI_ERR] := State.sameRegs.wr (State.sameRegs_of_regs_eq rfl) _ (.head _)
  refine ⟨?_, State.bit_flag_same _ 4 (by decide) (ETHn_HIST_ne_PCI_ERR hn), counted.flag 4 (by simp) (by simp), ?_⟩
  · rw [State.rxFail, State.rd_flag_ne _ _ hist pci, State.rd_count_same]
  · rw [State.rxFail, State.flag_eq]
    rfl

end Sys2Proof.Machine
end

section
/-!
PROOFS. Frames received (R201, R202, R210): mPackets of the verification, the checks on the FCS and the length, and ARP as a handled frame.
-/
namespace Sys2Proof.Machine

theorem State.setMm_eq (s : State) (n v : Nat) : s.setMm n v = { s with regs := (s.setMm n v).regs } := rfl

/-- The verification of port n has succeeded: pre-emption is active. -/
def State.verified (s : State) (n : Nat) : State := (s.setMm n 3).setBit (ETHn_STATUS n) 7 true

theorem State.mmState_verified (s : State) (n : Nat) : (s.verified n).mmState n = 3 := by
  rw [State.mmState, State.verified, State.fd_setBit_ne _ _ _ (by decide) (by decide), State.setMm, State.fd_setFd_same _ _ _ _ (by decide)]
  rfl

theorem State.preemptActive_verified (s : State) (n : Nat) : (s.verified n).preemptActive n = true := by
  rw [State.preemptActive, State.verified, State.bit_setBit_same _ _ _ _ (by decide)]
  rfl

theorem State.verified_sameRegs (s : State) (n : Nat) : s.sameRegs (s.verified n) [ETHn_STATUS n] :=
  State.sameRegs.setBit (State.sameRegs.setFd (State.sameRegs_of_regs_eq rfl) _ 3 (.head _)) 7 true (.head _)

theorem State.verified_eq (s : State) (n : Nat) : s.verified n = { s with regs := (s.verified n).regs } := by
  rw [State.verified, State.setBit_eq, State.setMm_eq]

section
variable {n : Nat} {f : RxFrame} {s : State} (on : s.ethOn n = true) (up : s.linkUp n = true)
include on up

theorem frameReceive_verify (kind : f.mpkt = .verify) (good : f.checkOk = true) (corrected : f.fecBad = false) :
    exec (.frameReceive n f) s = .next (s.txPut n (mmFrame .respond n)) := by
  show execFrameReceive n f s = _
  simp [execFrameReceive, on, up, kind, good, corrected]

theorem frameReceive_respond (kind : f.mpkt = .respond) (good : f.checkOk = true) (corrected : f.fecBad = false) (sent : s.mmState n = 2) :
    exec (.frameReceive n f) s = .next (s.verified n) := by
  show execFrameReceive n f s = _
  simp [execFrameReceive, on, up, kind, good, corrected, sent, State.verified]

theorem frameReceive_badFcs (kind : f.mpkt = .express) (corrected : f.fecBad = false) (bad : f.checkOk = false) :
    exec (.frameReceive n f) s = .next (s.rxFail n (ETHn_RX_FCS_ERR n)) := by
  show execFrameReceive n f s = _
  simp [execFrameReceive, on, up, kind, corrected, bad]

theorem frameReceive_express (kind : f.mpkt = .express) (corrected : f.fecBad = false) (good : f.checkOk = true) :
    exec (.frameReceive n f) s = .next (s.rxFrame n f.bytes (s.capture f.stamp)) := by
  show execFrameReceive n f s = _
  simp [execFrameReceive, on, up, kind, corrected, good]

end

theorem State.rxFrame_badLength (s : State) (n : Nat) {b : List Byte} (stamp : Int) (bad : b.length < 64 ∨ 9022 < b.length) :
    s.rxFrame n b stamp = s.rxFail n (ETHn_RX_OVERSIZE n) := by
  simp [State.rxFrame, bad]

/-- An ARP packet that passes the checks goes to its fixed handler. -/
theorem State.rxFrame_arp {s : State} {n : Nat} {b : List Byte} (stamp : Int) (short : 64 ≤ b.length) (long : b.length ≤ 9022)
    (arp : beAt b 12 2 = 0x0806) (addressed : s.macOk n (beAt b 0 6) = true) :
    s.rxFrame n b stamp = (s.count (ETHn_RX_FRAMES n) 1).deliver ⟨.arp, n, beAt b 6 6, b, stamp, 0, beAt b 6 6⟩ := by
  simp [State.rxFrame, short.not_gt, long.not_gt, arp, addressed]

end Sys2Proof.Machine
end

section
/-!
PROOFS. Addresses in use (R216 to R218): ARP packets, neighbour solicitations, the end of duplicate address detection, and the
neighbour cache.
-/
namespace Sys2Proof.Machine

/-! ### ARP (R216) -/

theorem arpRequest_answers {n ip : Nat} {s : State} (mac : Nat) (on : s.ethOn n = true) (v4 : s.v4On n = true) (foreign : ip ≠ s.rd (ETHn_IP4 n)) :
    ∃ inbox, exec (.arpRequest n true ip mac (s.rd (ETHn_IP4 n))) s
      = .next (({ s with eth := { s.eth with inbox := inbox } } : State).txPut n (s.arpFrame n 2 mac mac ip)) := by
  obtain ⟨inbox, taken⟩ := s.takeRx_snd (fun x => x.kind == .arp && x.port == n)
  let u : State := { s with eth := { s.eth with inbox := inbox } }
  have claim : (ip == u.rd (ETHn_IP4 n) && mac != u.portMac n) = false := by
    rw [beq_false_of_ne (show ip ≠ u.rd (ETHn_IP4 n) from foreign), Bool.false_and]
  refine ⟨inbox, ?_⟩
  show execArpRequest n true ip mac _ s = _
  simp only [execArpRequest, on, v4, taken, Bool.not_true, Bool.or_self, Bool.false_eq_true, if_false]
  rw [claim, State.when_false]
  exact if_pos (by simp; rfl)

/-- A claim of the port's address by another MAC address sets ADDR_CONFLICT, answered or not. -/
theorem arpRequest_conflict {n mac : Nat} {s : State} (request : Bool) (target : Nat) (on : s.ethOn n = true) (v4 : s.v4On n = true)
    (other : mac ≠ s.portMac n) :
    ∃ t, exec (.arpRequest n request (s.rd (ETHn_IP4 n)) mac target) s = .next t ∧ t.bit (ETHn_HIST n) 6 = 1 := by
  obtain ⟨inbox, taken⟩ := s.takeRx_snd (fun x => x.kind == .arp && x.port == n)
  let u : State := { s with eth := { s.eth with inbox := inbox } }
  have claim : (s.rd (ETHn_IP4 n) == u.rd (ETHn_IP4 n) && mac != u.portMac n) = true := by
    rw [bne_iff_ne.mpr (show mac ≠ u.portMac n from other), Bool.and_true]
    exact beq_self_eq_true _
  have flagged : (u.flag (ETHn_HIST n) 6).bit (ETHn_HIST n) 6 = 1 :=
    u.bit_flag_same 6 (by decide) (ETHn_HIST_ne_PCI_ERR (State.ethOn_lt on))
  show ∃ t, execArpRequest n request _ mac target s = .next t ∧ _
  simp only [execArpRequest, on, v4, taken, Bool.not_true, Bool.or_self, Bool.false_eq_true, if_false]
  rw [claim, State.when_true]
  split
  · exact ⟨_, rfl, flagged⟩
  · exact ⟨_, rfl, flagged⟩

/-! ### Neighbour solicitations (R217) -/

/-- The solicitation that waits on port n. -/
def State.solicitation (s : State) (n : Nat) : Option RxItem := s.eth.inbox.find? (fun x => x.kind == .neighbour && x.port == n)

/-- The advertisement that answers it, to all nodes where it is a probe. -/
def State.solicitedAdvert (s : State) (n target : Nat) (probe : Bool) : TxFrame :=
  s.advertise n (match s.solicitation n with | some x => x.smac | none => 0)
    (match s.solicitation n with | some x => if probe then 0 else x.src | none => 0) target

/-- An address in use is not under detection. -/
theorem State.not_dad_of_ip6Used {s : State} {n a : Nat} (used : a ∈ s.ip6Used n) : (s.port n).dad.any (·.1 == a) = false := by
  unfold State.ip6Used at used
  split at used
  · exact absurd used List.not_mem_nil
  · have kept := (List.mem_filter.mp used).2
    simp only [Bool.and_eq_true, Bool.not_eq_true'] at kept
    exact kept.2

theorem neighbourSolicitation_answers {n target : Nat} {s : State} (probe : Bool) (on : s.ethOn n = true) (v6 : s.v6On n = true)
    (used : target ∈ s.ip6Used n) :
    ∃ inbox, exec (.neighbourSolicitation n target probe) s
      = .next (({ s with eth := { s.eth with inbox := inbox } } : State).txPut n (s.solicitedAdvert n target probe)) := by
  obtain ⟨inbox, taken⟩ := s.takeRx_snd (fun x => x.kind == .neighbour && x.port == n)
  let u : State := { s with eth := { s.eth with inbox := inbox } }
  have settled : (probe && (u.port n).dad.any (·.1 == target)) = false := by
    rw [show (u.port n).dad.any (·.1 == target) = false from State.not_dad_of_ip6Used used, Bool.and_false]
  have used' : (u.ip6Used n).contains target = true := List.contains_iff_mem.mpr used
  refine ⟨inbox, ?_⟩
  show execNeighbourSolicitation n target probe s = _
  simp only [execNeighbourSolicitation, on, v6, taken, State.takeRx_fst, Bool.not_true, Bool.or_self, Bool.false_eq_true, if_false]
  rw [settled, if_neg Bool.false_ne_true, used', if_pos rfl]
  rfl

/-- Another host's probe for an address under detection fails it. -/
theorem neighbourSolicitation_conflict {n target : Nat} {s : State} (on : s.ethOn n = true) (v6 : s.v6On n = true)
    (tested : ∃ p ∈ (s.port n).dad, p.1 = target) :
    ∃ inbox, exec (.neighbourSolicitation n target true) s
      = .next ((({ s with eth := { s.eth with inbox := inbox } } : State).modPort n
          (fun p => { p with v6Bad := addNew p.v6Bad target })).flag (ETHn_HIST n) 6) := by
  obtain ⟨inbox, taken⟩ := s.takeRx_snd (fun x => x.kind == .neighbour && x.port == n)
  let u : State := { s with eth := { s.eth with inbox := inbox } }
  have listed : (true && (u.port n).dad.any (·.1 == target)) = true := by
    obtain ⟨p, mem, eq⟩ := tested
    exact List.any_eq_true.mpr ⟨p, mem, beq_iff_eq.mpr eq⟩
  refine ⟨inbox, ?_⟩
  show execNeighbourSolicitation n target true s = _
  simp only [execNeighbourSolicitation, on, v6, taken, Bool.not_true, Bool.or_self, Bool.false_eq_true, if_false]
  exact if_pos listed

/-! ### The end of duplicate address detection (R217) -/

/-- The first address under detection leaves it, failed where another host answered. -/
def State.dadEnded (s : State) (n a : Nat) (rest : List (Nat × Nat)) (conflict : Bool) : State :=
  s.modPort n (fun p => { p with dad := rest, v6Bad := if conflict then addNew p.v6Bad a else p.v6Bad })

theorem dadComplete_ends {n a at_ : Nat} {rest : List (Nat × Nat)} {conflict : Bool} {s : State} (on : s.ethOn n = true)
    (first : (s.port n).dad = (a, at_) :: rest) (due : at_ + 1000000 ≤ s.us ∨ conflict = true) :
    exec (.dadComplete n conflict) s = .next ((s.dadEnded n a rest conflict).when conflict (·.flag (ETHn_HIST n) 6)) := by
  have waited : (decide (s.us < at_ + 1000000) && !conflict) = false := by
    rcases due with late | answered
    · rw [decide_eq_false late.not_gt, Bool.false_and]
    · rw [answered, Bool.not_true, Bool.and_false]
  show execDadComplete n conflict s = _
  simp only [execDadComplete, first, on, waited, Bool.not_true, Bool.or_self, Bool.false_eq_true, if_false]
  rfl

/-! ### The neighbour cache (R218) -/

/-- The request that resolves an entry of the neighbour cache. -/
def State.resolving (s : State) (x : Neigh) : TxFrame :=
  if x.v6 then s.solicit x.port (s.ip6 x.port) x.ip else s.arpFrame x.port 1 (2 ^ 48 - 1) 0 x.ip

theorem neighbourRefresh_resolves {e : Nat} {x : Neigh} {s : State} (mac : Option Nat) (entry : s.eth.neigh[e]? = some x)
    (due : x.mac = none ∨ x.at_ + bitsOf (s.rd ETH_NEIGH_CFG) 11 0 * 1000000 ≤ s.us) :
    exec (.neighbourRefresh e mac) s
      = .next (({ s with eth := { s.eth with neigh := setNth s.eth.neigh e { x with mac := mac, at_ := s.us } } } : State).txPut x.port
          (s.resolving x)) := by
  have waited : (x.mac.isSome && decide (s.us < x.at_ + s.fd ETH_NEIGH_CFG ⟨11, 0⟩ * 1000000)) = false := by
    rcases due with unresolved | old
    · rw [unresolved, Option.isSome_none, Bool.false_and]
    · rw [State.fd, decide_eq_false old.not_gt, Bool.and_false]
  show execNeighbourRefresh e mac s = _
  simp only [execNeighbourRefresh, entry, waited, Bool.false_eq_true, if_false]
  rfl

end Sys2Proof.Machine
end

section
/-!
PROOFS. Echo requests (R219), and membership queries and reports (R220).
-/
namespace Sys2Proof.Machine

/-! ### Echo requests (R219) -/

/-- The reply to the echo request `x`, with what follows its type, code and checksum unchanged. -/
def State.echoReply (s : State) (n dst : Nat) (v6 : Bool) (payload : List Byte) (x : RxItem) : TxFrame :=
  svcFrame .icmp n (if v6 then s.icmp6 n x.smac dst x.src (Config.ipTtl % 256) [] ([129, 0, 0, 0] ++ payload)
    else s.ip4Msg n x.smac x.src (Config.ipTtl % 256) 1 [] ([0, 0, 0, 0] ++ payload))

section
variable {n dst : Nat} {v6 : Bool} {x : RxItem} {s : State} (payload : List Byte) (on : s.ethOn n = true) (own : dst ∈ s.unicast n v6)
  (waiting : s.eth.inbox.find? (fun x => x.kind == .icmp && x.port == n) = some x)
include on own waiting

theorem icmpEchoRequest_answers (within : (s.port n).echoes < bitsOf (s.rd ETH_ICMP_RATE) 15 0) :
    ∃ inbox, exec (.icmpEchoRequest n v6 dst payload) s
      = .next ((({ s with eth := { s.eth with inbox := inbox } } : State).modPort n (fun p => { p with echoes := p.echoes + 1 })).txPut n
          (s.echoReply n dst v6 payload x)) := by
  obtain ⟨inbox, taken⟩ := s.takeRx_snd (fun x => x.kind == .icmp && x.port == n)
  refine ⟨inbox, ?_⟩
  show execIcmpEchoRequest n v6 dst payload s = _
  simp only [execIcmpEchoRequest, on, List.contains_iff_mem.mpr own, State.takeRx_fst, waiting, taken, Bool.not_true, Bool.or_self,
    Bool.false_eq_true, if_false]
  exact if_pos within

theorem icmpEchoRequest_limited (excess : bitsOf (s.rd ETH_ICMP_RATE) 15 0 ≤ (s.port n).echoes) :
    ∃ inbox, exec (.icmpEchoRequest n v6 dst payload) s
      = .next (({ s with eth := { s.eth with inbox := inbox } } : State).count (ETHn_ICMP_LIMITED n) 1) := by
  obtain ⟨inbox, taken⟩ := s.takeRx_snd (fun x => x.kind == .icmp && x.port == n)
  refine ⟨inbox, ?_⟩
  show execIcmpEchoRequest n v6 dst payload s = _
  simp only [execIcmpEchoRequest, on, List.contains_iff_mem.mpr own, State.takeRx_fst, waiting, taken, Bool.not_true, Bool.or_self,
    Bool.false_eq_true, if_false]
  exact if_neg excess.not_gt

end

/-! ### Membership queries (R220) -/

/-- The groups joined on port n that a query asks about. -/
def State.queried (s : State) (n : Nat) (kind : QueryKind) (groups : List Nat) : List Nat :=
  (List.range 64).filter (fun g => s.joined g n && s.grpV6 g == kind.v6 && (groups.isEmpty || groups.contains (s.grpAddr g)))

theorem State.mem_queried {s : State} {n g : Nat} {kind : QueryKind} {groups : List Nat} : g ∈ s.queried n kind groups
    ↔ g < 64 ∧ s.joined g n = true ∧ s.grpV6 g = kind.v6 ∧ (groups = [] ∨ s.grpAddr g ∈ groups) := by
  simp [State.queried, and_assoc]

/-- The group table lies above the registers of the ports. -/
theorem State.sameRegs.queried {s t : State} {l : List Nat} (h : s.sameRegs t l) (ports : ∀ a ∈ l, a < 0x906000) (n : Nat) (kind : QueryKind)
    (groups : List Nat) : t.queried n kind groups = s.queried n kind groups := by
  have same {a : Nat} (ha : 0x906000 ≤ a) : t.rd a = s.rd a := h a fun mem => (ports a mem).not_ge ha
  have cfg (g i : Nat) : t.bit (ETH_GRPg_CFG g) i = s.bit (ETH_GRPg_CFG g) i := congrArg (bitOf · i) (same (Nat.le_add_right _ _))
  have bound (g i : Nat) : t.bit (ETH_GRPg_PORTS g) i = s.bit (ETH_GRPg_PORTS g) i :=
    congrArg (bitOf · i) (same (by unfold ETH_GRPg_PORTS; omega))
  have joined (g : Nat) : t.joined g n = s.joined g n := by rw [State.joined, cfg, bound, State.joined]
  have version (g : Nat) : t.grpV6 g = s.grpV6 g := by rw [State.grpV6, cfg, State.grpV6]
  have addr (g : Nat) : t.grpAddr g = s.grpAddr g := by
    have word (a : Nat) (ha : 0x906000 ≤ a) : t.rd128 a = s.rd128 a := by
      simp only [State.rd128, same ha, same (show 0x906000 ≤ a + 4 by omega), same (show 0x906000 ≤ a + 8 by omega),
        same (show 0x906000 ≤ a + 12 by omega)]
    rw [State.grpAddr, version, word _ (by unfold ETH_GRPg_ADDR; omega), same (by unfold ETH_GRPg_ADDR; omega), State.grpAddr]
  simp only [State.queried, joined, version, addr]

/-- A query of an older version is counted. -/
def State.queryCounted (s : State) (n : Nat) (kind : QueryKind) : State := s.when kind.old (·.count (ETHn_RX_OLD_QUERY n) 1)

theorem State.queryCounted_eq (s : State) (n : Nat) (kind : QueryKind) : s.queryCounted n kind = { s with regs := (s.queryCounted n kind).regs } := by
  unfold State.queryCounted
  cases kind.old <;> rfl

theorem State.rd_queryCounted (s : State) (n : Nat) (kind : QueryKind) :
    (s.queryCounted n kind).rd (ETHn_RX_OLD_QUERY n) = (s.rd (ETHn_RX_OLD_QUERY n) + if kind.old then 1 else 0) % 2 ^ 32 := by
  unfold State.queryCounted
  cases kind.old with
  | false => exact (Nat.mod_eq_of_lt (s.rd_lt _)).symm
  | true => exact s.rd_count_same _ 1

theorem State.queryCounted_sameRegs (s : State) (n : Nat) (kind : QueryKind) : s.sameRegs (s.queryCounted n kind) [ETHn_RX_OLD_QUERY n] := by
  unfold State.queryCounted
  cases kind.old with
  | false => exact State.sameRegs_of_regs_eq rfl
  | true => exact State.sameRegs.wr (State.sameRegs_of_regs_eq rfl) _ (.head _)

/-- The report on a query is scheduled (log entry 50 gives the time it is due). -/
theorem multicastQuery_schedules {n : Nat} {s : State} (kind : QueryKind) (groups : List Nat) (maxMs : Nat) (on : s.ethOn n = true) :
    ∃ inbox, exec (.multicastQuery n kind groups maxMs) s
      = .next ((({ s with eth := { s.eth with inbox := inbox } } : State).queryCounted n kind).modPort n
          (fun p => { p with queries := p.queries ++ [(s.us + n * maxMs * 1000 / 32, s.queried n kind groups)] })) := by
  obtain ⟨inbox, taken⟩ := s.takeRx_snd (fun x => x.kind == .membership && x.port == n)
  let u : State := { s with eth := { s.eth with inbox := inbox } }
  have hn := State.ethOn_lt on
  have time : (u.queryCounted n kind).us = s.us := by rw [State.queryCounted_eq]; rfl
  have named : (u.queryCounted n kind).queried n kind groups = s.queried n kind groups :=
    (u.queryCounted_sameRegs n kind).queried (by simp only [List.mem_singleton, forall_eq]; unfold ETHn_RX_OLD_QUERY; omega) n kind groups
  refine ⟨inbox, ?_⟩
  rw [← time, ← named]
  show execMulticastQuery n kind groups maxMs s = _
  simp only [execMulticastQuery, on, taken, Bool.not_true, Bool.false_eq_true, if_false]
  rfl

/-! ### Membership reports (R220) -/

/-- A report is one frame of the network services, and changes nothing else. -/
theorem State.report_sends (s : State) (n : Nat) (v6 : Bool) (recs : List (List Byte)) :
    ∃ f : TxFrame, f.kind = .membership ∧ f.queue = 6 ∧ (s.report n v6 recs) = s.txPut n f := ⟨svcFrame .membership n _, rfl, rfl, rfl⟩

theorem State.stateReport_sends (s : State) (n : Nat) (gs : List Nat) :
    ∃ f : TxFrame, f.kind = .membership ∧ f.queue = 6 ∧ s.stateReport n gs = if gs = [] then s else s.txPut n f := by
  cases gs with
  | nil => exact ⟨svcFrame .membership n [], rfl, rfl, rfl⟩
  | cons g rest => exact s.report_sends n _ _

theorem State.changeReport_sends (s : State) (g n : Nat) (join : Bool) :
    ∃ f : TxFrame, f.kind = .membership ∧ f.queue = 6 ∧ s.changeReport g n join = s.txPut n f := s.report_sends n _ _

theorem multicastReportSend_reports {n due : Nat} {gs : List Nat} {rest : List (Nat × List Nat)} {s : State}
    (first : (s.port n).queries = (due, gs) :: rest) (late : due ≤ s.us) :
    exec (.multicastReportSend n) s = .next ((s.modPort n (fun p => { p with queries := rest })).stateReport n gs) := by
  show execMulticastReportSend n s = _
  simp only [execMulticastReportSend, first, late.not_gt, if_false]

theorem groupStateChange_reports {g n : Nat} {j : Bool} {rest : List (Nat × Nat × Bool)} {s : State} (first : s.eth.grpPend = (g, n, j) :: rest) :
    exec .groupStateChange s
      = .next (({ s with eth := { s.eth with grpPend := rest, grpRep := s.eth.grpRep ++ [(g, n, j, s.us)] } } : State).changeReport g n j) := by
  show execGroupStateChange s = _
  simp only [execGroupStateChange, first]

theorem stateChangeReportRepeat_reports {g n at_ : Nat} {j : Bool} {rest : List (Nat × Nat × Bool × Nat)} {s : State}
    (first : s.eth.grpRep = (g, n, j, at_) :: rest) (late : at_ + 1000000 ≤ s.us) :
    exec .stateChangeReportRepeat s = .next (({ s with eth := { s.eth with grpRep := rest } } : State).changeReport g n j) := by
  show execStateChangeReportRepeat s = _
  simp only [execStateChangeReportRepeat, first, late.not_gt, if_false]

end Sys2Proof.Machine
end

section
/-!
PROOFS. A change of a port's address (R216, R217): the write of its register, and what it announces.
-/
namespace Sys2Proof.Machine

/-! ### The write -/

/-- A write of RW bits that leaves the 32 bits of the register as they were has written what it held. -/
theorem RegRow.merge_eq_of_mod {r : RegRow} {old v : Nat} (acc : r.acc = .rw) (ho : old < 2 ^ 32) (hv : v < 2 ^ 32)
    (same : r.merge old v % 2 ^ 32 = old) : r.merge old v = old := by
  have kept : Nat.land old r.mask ≤ old := Nat.and_le_left
  have given : Nat.land v r.mask ≤ v := Nat.and_le_left
  simp only [RegRow.merge, acc, dropBits] at same ⊢
  omega

/-- A write that changes what the register should hold changes what it reads as. -/
theorem State.hostArrives.changes {s : State} {a v new : Nat} (h : s.hostArrives .rw a v new) (changed : s.rd a ≠ new) :
    (s.wr a new).rd a ≠ s.rd a := by
  obtain ⟨-, -, -, -, -, -, r, -, acc, merged, -⟩ := h
  rw [State.rd_wr_same, merged]
  exact fun same => changed (merged.trans (RegRow.merge_eq_of_mod acc (s.rd_lt a) (Nat.mod_lt v (by decide)) same)).symm

/-- A write that reaches a register of the ports other than their flags leaves what ethPost makes of it, but for the mark of a seal pass. -/
theorem State.hostWrite_ethPort {s : State} {a v new : Nat} (h : s.hostReaches .rw a v new) (lo : 0x901000 ≤ a) (hi : a < 0x903000)
    (hist : a % 0x100 ≠ 8) : ∃ p, s.hostWrite a v = { ethPost a (s.rd a) (s.wr a new) with pass := p } := by
  obtain ⟨p, written⟩ := State.hostWrite_of_reaches h
  have block : a / 0x100000 = 9 := by omega
  have notEn : a % 0x100000 ≠ 0 := by omega
  have notFault : a ≠ GLB_FAULT := by unfold GLB_FAULT; omega
  have notIntEn : intEnOf 9 ≠ some a := by simp only [intEnOf, ne_eq, Option.some.injEq]; unfold ETH_INT_EN; omega
  have notFlags : flagReg 9 a = false := by
    simp only [flagReg, Bool.or_eq_false_iff, List.any_eq_false, beq_iff_eq, beq_eq_false_iff_ne]
    refine ⟨fun n _ => ?_, ?_⟩
    · unfold ETHn_HIST; omega
    · unfold ETH_ERR; omega
  have silent (u : State) : u.messages a = u := by simp [State.messages, block, notFault, notIntEn, notFlags]
  have post (old w : Nat) (u : State) : blockPost a old w u = ethPost a old u := by simp [blockPost, State.noteEn, block, notEn]
  exact ⟨p, by rw [written, silent, post]⟩

/-! ### The announcements -/

theorem State.gratuitous_of_up {s : State} {n : Nat} (v4 : s.v4On n = true) (up : s.linkUp n = true) :
    s.gratuitous n = s.txPut n (s.arpFrame n 1 (2 ^ 48 - 1) 0 (s.rd (ETHn_IP4 n))) := by
  simp [State.gratuitous, v4, up]

theorem State.gratuitous_eq (s : State) (n : Nat) : s.gratuitous n = { s with eth := { s.eth with outbox := (s.gratuitous n).eth.outbox } } := by
  unfold State.gratuitous
  split <;> rfl

/-- The addresses whose detection starts on port n. -/
def State.dadAddrs (s : State) (n : Nat) : List Nat := [linkLocal (s.portMac n), s.ip6 n].filter (· != 0)

theorem State.each_solicit (n : Nat) (l : List Nat) (s : State) : s.each l (fun s a => s.txPut n (s.solicit n 0 a))
    = { s with eth := { s.eth with outbox := s.eth.outbox ++ (l.map (s.solicit n 0)).map (fun f => (n, { f with age := s.tick })) } } := by
  induction l generalizing s with
  | nil => simp
  | cons a rest ih =>
    rw [State.each_cons, ih]
    simp only [State.txPut, State.txWait, List.append_assoc]
    rfl

theorem State.startDad_of_up {s : State} {n : Nat} (v6 : s.v6On n = true) (up : s.linkUp n = true) :
    s.startDad n = (s.modPort n (fun p => { p with dad := (s.dadAddrs n).map (fun a => (a, s.us)), v6Bad := [] })).each (s.dadAddrs n)
      (fun s a => s.txPut n (s.solicit n 0 a)) := by
  simp only [State.startDad, v6, up, Bool.and_self, if_true]
  rfl

/-- The detection starts anew for each address, with one solicitation each. -/
theorem State.startDad_starts {s : State} {n : Nat} (listed : n < s.eth.ports.length) (v6 : s.v6On n = true) (up : s.linkUp n = true) :
    let t := s.startDad n
    (t.port n).dad = (t.dadAddrs n).map (fun a => (a, s.us)) ∧ (t.port n).v6Bad = []
    ∧ t.eth.outbox = s.eth.outbox ++ ((t.dadAddrs n).map (t.solicit n 0)).map (fun f => (n, { f with age := s.tick })) := by
  have port := State.port_modPort_same listed (fun p => { p with dad := (s.dadAddrs n).map (fun a => (a, s.us)), v6Bad := [] })
  rw [State.startDad_of_up v6 up, State.each_solicit]
  exact ⟨congrArg EthPort.dad port, congrArg EthPort.v6Bad port, rfl⟩

theorem State.startDad_eq (s : State) (n : Nat) :
    s.startDad n = { s with eth := { s.eth with ports := (s.startDad n).eth.ports, outbox := (s.startDad n).eth.outbox } } := by
  unfold State.startDad
  split
  · rw [State.each_solicit]; rfl
  · rfl

/-! ### The registers of a port's addresses -/

/-- Register r of the addresses of port n: 0 the IPv4 address, 1 IP4_CFG, 2 to 5 the IPv6 address words, 6 IP6_CFG. -/
def addressReg (n r : Nat) : Nat := ETHn_CFG n + nth [0x14, 0x18, 0x20, 0x24, 0x28, 0x2C, 0x30] r 0

/-- What a write of `new` leaves: a change of IPv4 settings sends a gratuitous ARP, one of IPv6 settings starts the detection. -/
def State.addressWritten (s : State) (n r new : Nat) : State :=
  let w := s.wr (addressReg n r) new
  if s.rd (addressReg n r) = new then w else if r < 2 then w.gratuitous n else w.startDad n

theorem addressReg_bounds {n r : Nat} (hn : n < 32) (hr : r < 7) :
    0x901014 ≤ addressReg n r ∧ addressReg n r < 0x903000 ∧ addressReg n r % 0x100 ≠ 8 ∧ (addressReg n r - 0x901000) / 0x100 = n
      ∧ addressReg n r ≠ ETHn_STATUS n := by
  unfold addressReg ETHn_CFG ETHn_STATUS
  interval_cases r <;> (simp only [nth, List.getD_cons_zero, List.getD_cons_succ]; omega)

theorem addressReg_v4 (n : Nat) {r : Nat} (hr : r < 2) : addressReg n r % 0x100 = 0x14 ∨ addressReg n r % 0x100 = 0x18 := by
  unfold addressReg ETHn_CFG
  interval_cases r <;> (simp only [nth, List.getD_cons_zero, List.getD_cons_succ]; omega)

theorem addressReg_v6 (n : Nat) {r : Nat} (lo : 2 ≤ r) (hr : r < 7) : addressReg n r % 0x100 = 0x20 ∨ addressReg n r % 0x100 = 0x24
    ∨ addressReg n r % 0x100 = 0x28 ∨ addressReg n r % 0x100 = 0x2C ∨ addressReg n r % 0x100 = 0x30 := by
  unfold addressReg ETHn_CFG
  interval_cases r <;> (simp only [nth, List.getD_cons_zero, List.getD_cons_succ]; omega)

theorem ethPost_address {n r : Nat} (hn : n < 32) (hr : r < 7) (old : Nat) (w : State) : ethPost (addressReg n r) old w
    = if w.rd (addressReg n r) = old then w else if r < 2 then w.gratuitous n else w.startDad n := by
  obtain ⟨lo, hi, -, port, -⟩ := addressReg_bounds hn hr
  have notCtrl : addressReg n r ≠ ETH_CTRL := by unfold ETH_CTRL; omega
  have lo' : 0x901000 ≤ addressReg n r := by omega
  by_cases v4 : r < 2
  · obtain e | e := addressReg_v4 n v4 <;> simp [ethPost, notCtrl, lo', hi, port, e, v4]
  · obtain e | e | e | e | e := addressReg_v6 n (not_lt.mp v4) hr <;> simp [ethPost, notCtrl, lo', hi, port, e, v4]

theorem ethAddressWrite_writes {n r v new : Nat} {s : State} (hn : n < 32) (hr : r < 7) (reaches : s.hostReaches .rw (addressReg n r) v new) :
    ∃ p, exec (.ethAddressWrite n r v) s = .next { s.addressWritten n r new with pass := p } := by
  obtain ⟨lo, hi, hist, -, -⟩ := addressReg_bounds hn hr
  obtain ⟨p, written⟩ := State.hostWrite_ethPort reaches (by omega) hi hist
  have row : exec (.ethAddressWrite n r v) s = .next (s.hostWrite (addressReg n r) v) := by
    show execEthAddressWrite n r v s = _
    simp [execEthAddressWrite, hostTo, hn, hr, addressReg]
  have unchanged : (s.wr (addressReg n r) new).rd (addressReg n r) = s.rd (addressReg n r) ↔ s.rd (addressReg n r) = new := by
    refine ⟨fun same => by_contra fun changed => reaches.1.changes changed same, fun same => ?_⟩
    rw [State.rd_wr_same, ← same, Nat.mod_eq_of_lt (s.rd_lt _)]
  refine ⟨p, ?_⟩
  rw [row, written, ethPost_address hn hr]
  simp only [unchanged, State.addressWritten]

theorem State.addressWritten_eq (s : State) (n r new : Nat) : s.addressWritten n r new
    = { s.wr (addressReg n r) new with
        eth := { s.eth with ports := (s.addressWritten n r new).eth.ports, outbox := (s.addressWritten n r new).eth.outbox } } := by
  dsimp only [State.addressWritten]
  split
  · rfl
  · split
    · rw [State.gratuitous_eq]; rfl
    · rw [State.startDad_eq]; rfl

theorem State.addressWritten_of_same {s : State} {n r new : Nat} (same : s.rd (addressReg n r) = new) :
    s.addressWritten n r new = s.wr (addressReg n r) new := if_pos same

theorem State.addressWritten_v4 {s : State} {n r new : Nat} (changed : s.rd (addressReg n r) ≠ new) (v4 : r < 2) :
    s.addressWritten n r new = (s.wr (addressReg n r) new).gratuitous n := (if_neg changed).trans (if_pos v4)

theorem State.addressWritten_v6 {s : State} {n r new : Nat} (changed : s.rd (addressReg n r) ≠ new) (v6 : 2 ≤ r) :
    s.addressWritten n r new = (s.wr (addressReg n r) new).startDad n := (if_neg changed).trans (if_neg v6.not_gt)

theorem State.linkUp_wr_address {s : State} {n r : Nat} (new : Nat) (hn : n < 32) (hr : r < 7) :
    (s.wr (addressReg n r) new).linkUp n = s.linkUp n := by
  obtain ⟨-, -, -, -, status⟩ := addressReg_bounds hn hr
  rw [State.linkUp, State.bit, State.rd_wr_ne _ _ status.symm, State.linkUp, State.bit]

end Sys2Proof.Machine
end

section
/-!
PROOFS. The statement on frames and services (R201, R202, R210, R216 to R220).
-/
namespace Sys2Proof.Machine

/-- Settles O13: each row's equation, and what the operations of a port, of its inbox and of its registers leave. -/
theorem framesAndServicesAreHandled : Obligations.FramesAndServicesAreHandled := by
  unfold Obligations.FramesAndServicesAreHandled
  intro sends
  refine ⟨?receive, ?arp, ?claim, ?solicited, ?detected, ?refreshed, ?echo, ?query, ?report, ?changed, ?repeated, ?address⟩
  case receive =>
    intro n f s on up
    have hn := State.ethOn_lt on
    refine ⟨fun kind good corrected => ?verify, fun kind good corrected sent => ?respond, fun kind corrected bad => ?badFcs,
      fun kind corrected good length => ?badLength, fun kind corrected good short long arp addressed => ?handled⟩
    case verify => exact ⟨_, frameReceive_verify on up kind good corrected, rfl, rfl⟩
    case respond =>
      exact ⟨_, frameReceive_respond on up kind good corrected sent, s.mmState_verified n, s.preemptActive_verified n, s.verified_sameRegs n,
        s.verified_eq n⟩
    case badFcs =>
      refine ⟨_, frameReceive_badFcs on up kind corrected bad, s.rxFail_counts hn ?_ ?_⟩
      · unfold ETHn_RX_FCS_ERR ETHn_HIST; omega
      · unfold ETHn_RX_FCS_ERR PCI_ERR; omega
    case badLength =>
      have row := (frameReceive_express on up kind corrected good).trans (congrArg Host.Outcome.next (s.rxFrame_badLength n _ length))
      refine ⟨_, row, s.rxFail_counts hn ?_ ?_⟩
      · unfold ETHn_RX_OVERSIZE ETHn_HIST; omega
      · unfold ETHn_RX_OVERSIZE PCI_ERR; omega
    case handled =>
      have row := (frameReceive_express on up kind corrected good).trans
        (congrArg Host.Outcome.next (State.rxFrame_arp (s.capture f.stamp) short long arp addressed))
      have regs : s.sameRegs (s.count (ETHn_RX_FRAMES n) 1) [ETHn_RX_FRAMES n] := State.sameRegs.wr (State.sameRegs_of_regs_eq rfl) _ (.head _)
      exact ⟨_, row, rfl, s.rd_count_same _ 1, regs, rfl⟩
  case arp =>
    intro n ip mac s on v4 foreign
    obtain ⟨inbox, row⟩ := arpRequest_answers mac on v4 foreign
    exact ⟨_, row, rfl, rfl⟩
  case claim => exact fun n mac target request s on v4 other => arpRequest_conflict request target on v4 other
  case solicited =>
    intro n target probe s listed on v6
    refine ⟨fun used => ?_, fun tested => ?_⟩
    · obtain ⟨inbox, row⟩ := neighbourSolicitation_answers probe on v6 used
      exact ⟨_, row, rfl, rfl⟩
    · obtain ⟨inbox, row⟩ := neighbourSolicitation_conflict on v6 tested
      refine ⟨_, row, ?_, State.bit_flag_same _ 6 (by decide) (ETHn_HIST_ne_PCI_ERR (State.ethOn_lt on)),
        (State.sameRegs_of_regs_eq rfl).flag 6 (by simp) (by simp), by rw [State.flag_eth]; rfl⟩
      rw [State.port_flag, State.port_modPort_same (by exact listed)]
      exact mem_addNew _ _
  case detected =>
    intro n a at_ rest conflict s listed on first due
    refine ⟨_, dadComplete_ends on first due, ?_, fun answered => ?_, fun m ne => ?_,
      State.sameRegs.trans (State.sameRegs_of_regs_eq rfl) (State.when_flag_sameRegs _ conflict _ 6), ?_⟩
    · rw [State.port_when_flag]
      exact State.port_modPort_same listed _
    · rw [answered]
      exact State.bit_flag_same _ 6 (by decide) (ETHn_HIST_ne_PCI_ERR (State.ethOn_lt on))
    · rw [State.port_when_flag]
      exact s.port_modPort_ne _ ne
    · rw [State.when_flag_eq]
      rfl
  case refreshed => exact fun e x mac s entry due => ⟨_, neighbourRefresh_resolves mac entry due, rfl, rfl, rfl⟩
  case echo =>
    intro n dst v6 payload x s listed on own waiting
    refine ⟨fun within => ?_, fun excess => ?_⟩
    · obtain ⟨inbox, row⟩ := icmpEchoRequest_answers payload on own waiting within
      exact ⟨_, row, rfl, State.port_modPort_same listed _, rfl⟩
    · obtain ⟨inbox, row⟩ := icmpEchoRequest_limited payload on own waiting excess
      exact ⟨_, row, State.rd_count_same _ _ 1, State.sameRegs.wr (State.sameRegs_of_regs_eq rfl) _ (.head _), rfl⟩
  case query =>
    intro n maxMs kind groups s listed on
    obtain ⟨inbox, row⟩ := multicastQuery_schedules kind groups maxMs on
    let u : State := { s with eth := { s.eth with inbox := inbox } }
    have frame := u.queryCounted_eq n kind
    have eth : (u.queryCounted n kind).eth = u.eth := by rw [frame]
    refine ⟨_, row, ⟨s.queried n kind groups, ?_, fun g => State.mem_queried⟩, u.rd_queryCounted n kind, u.queryCounted_sameRegs n kind, ?_⟩
    · rw [State.port_modPort_same (by rw [eth]; exact listed), State.port, eth]
      rfl
    · rw [frame]
      rfl
  case report =>
    intro n due gs rest s listed first late
    let u : State := s.modPort n (fun p => { p with queries := rest })
    obtain ⟨f, kind, queue, sent⟩ := u.stateReport_sends n gs
    obtain ⟨frame, outbox⟩ : u.stateReport n gs = { u with eth := { u.eth with outbox := (u.stateReport n gs).eth.outbox } }
        ∧ sends s (u.stateReport n gs) n (if gs = [] then [] else [f]) := by
      rw [sent]
      split
      · exact ⟨rfl, (List.append_nil _).symm⟩
      · exact ⟨rfl, rfl⟩
    refine ⟨_, multicastReportSend_reports first late, ?_, ⟨f, kind, queue, outbox⟩, ?_, ?_⟩
    · rw [frame]
      exact congrArg EthPort.queries (State.port_modPort_same listed _)
    · cases gs <;> rfl
    · rw [frame]
      rfl
  case changed =>
    intro g n j rest s first
    let u : State := { s with eth := { s.eth with grpPend := rest, grpRep := s.eth.grpRep ++ [(g, n, j, s.us)] } }
    obtain ⟨f, kind, queue, sent⟩ := u.changeReport_sends g n j
    exact ⟨_, groupStateChange_reports first, rfl, rfl, rfl, ⟨f, kind, queue, congrArg (·.eth.outbox) sent⟩, rfl⟩
  case repeated => exact fun g n at_ j rest s first late => ⟨_, stateChangeReportRepeat_reports first late, rfl, rfl, rfl⟩
  case address =>
    intro n r v new s hn listed hr a reaches
    obtain ⟨p, row⟩ := ethAddressWrite_writes hn hr reaches
    have frame := s.addressWritten_eq n r new
    have up := State.linkUp_wr_address (s := s) new hn hr
    refine ⟨_, row, ?contents, ?registers, ?unchanged, ?v4, ?v6, ?frame⟩
    case contents => rw [frame]; exact s.rd_wr_same _ _
    case registers => rw [frame]; exact State.sameRegs.wr (State.sameRegs_of_regs_eq rfl) new (.head _)
    case unchanged => intro same; rw [State.addressWritten_of_same same]; rfl
    case v4 =>
      intro changed v4 linked on
      rw [State.addressWritten_v4 changed v4] at on ⊢
      have on' : (s.wr (addressReg n r) new).v4On n = true := by rw [State.gratuitous_eq] at on; exact on
      rw [State.gratuitous_of_up on' (up.trans linked)]
      rfl
    case v6 =>
      intro changed v6 linked on
      rw [State.addressWritten_v6 changed v6] at on ⊢
      have on' : (s.wr (addressReg n r) new).v6On n = true := by rw [State.startDad_eq] at on; exact on
      exact State.startDad_starts (s := s.wr (addressReg n r) new) listed on' (up.trans linked)
    case frame => rw [frame]; rfl

end Sys2Proof.Machine
end

section
/-!
PROOFS. The bytes of a brood packet (R234 to R236): numbers read back from byte strings, the header of Table 9-1, and the records of a send.
-/
namespace Sys2Proof.Machine

/-! ### Numbers in byte strings -/

theorem foldl_bytes (l : List Byte) (a : Nat) : l.foldl (fun a b => a * 256 + b.toNat) a = a * 256 ^ l.length + ofBE l := by
  induction l generalizing a with
  | nil => simp [ofBE]
  | cons b t ih =>
    have first : ofBE (b :: t) = b.toNat * 256 ^ t.length + ofBE t := (ih _).trans (by simp)
    rw [List.foldl_cons, ih, first, List.length_cons, Nat.pow_succ]
    ring

/-- A number is read back from its bytes, as far as they hold it. -/
theorem ofBE_toBE (k n : Nat) : ofBE (toBE k n) = n % 256 ^ k := by
  induction k with
  | zero => simp [toBE, ofBE, Nat.mod_one]
  | succ k ih =>
    have first : toBE (k + 1) n = BitVec.ofNat 8 (n / 256 ^ k) :: toBE k n := by simp [toBE, List.range_succ]
    rw [first, ofBE, List.foldl_cons, foldl_bytes, toBE_length, ih, Nat.pow_succ, Nat.mod_mul, BitVec.toNat_ofNat]
    ring

theorem beAt_toBE_head (k n : Nat) (r : List Byte) : beAt (toBE k n ++ r) 0 k = n % 256 ^ k := by
  rw [beAt, slice_append _ _ _ _ (by simp), ← ofBE_toBE]
  simp [slice, List.take_of_length_le]

theorem beAt_toBE_skip {k i : Nat} (n j : Nat) (r : List Byte) (h : k ≤ i) : beAt (toBE k n ++ r) i j = beAt r (i - k) j := by
  simp [beAt, slice, List.drop_append, List.drop_eq_nil_of_le, h]

/-! ### The header (Table 9-1) -/

@[simp] theorem broodHeader_length (flags x src dst chCount chFirst inCount inFirst specCount specFirst tick off bytes swarm version : Nat) :
    (broodHeader flags x src dst chCount chFirst inCount inFirst specCount specFirst tick off bytes swarm version).length = 64 := by
  simp [broodHeader]

/-- What the header of Table 9-1 at the start of `b` reads as. -/
structure HeaderReads (b : List Byte)
    (flags x src chCount chFirst inCount inFirst specCount specFirst tick off bytes swarm version : Nat) : Prop where
  magic : beAt b 0 2 = 0xB70D
  edition : beAt b 2 1 = 1
  flags : beAt b 3 1 = flags % 2 ^ 8
  session : beAt b 4 2 = x % 2 ^ 16
  src : beAt b 6 2 = src % 2 ^ 16
  chCount : beAt b 10 2 = chCount % 2 ^ 16
  chFirst : beAt b 12 2 = chFirst % 2 ^ 16
  inCount : beAt b 14 2 = inCount % 2 ^ 16
  inFirst : beAt b 16 4 = inFirst % 2 ^ 32
  specCount : beAt b 20 2 = specCount % 2 ^ 16
  spare : beAt b 22 2 = 0
  specFirst : beAt b 24 8 = specFirst % 2 ^ 64
  tick : beAt b 32 8 = tick % 2 ^ 64
  off : beAt b 40 4 = off % 2 ^ 32
  bytes : beAt b 44 4 = bytes % 2 ^ 32
  swarm : beAt b 48 4 = swarm % 2 ^ 32
  version : beAt b 52 4 = version % 2 ^ 32
  tail : beAt b 56 8 = 0

theorem broodHeader_reads (flags x src dst chCount chFirst inCount inFirst specCount specFirst tick off bytes swarm version : Nat)
    (r : List Byte) :
    HeaderReads (broodHeader flags x src dst chCount chFirst inCount inFirst specCount specFirst tick off bytes swarm version ++ r)
      flags x src chCount chFirst inCount inFirst specCount specFirst tick off bytes swarm version := by
  constructor <;> simp [broodHeader, List.append_assoc, beAt_toBE_skip, beAt_toBE_head]

/-! ### The records of a send (R235, R236) -/

theorem length_flatMap_of_length_eq {α β : Type} {f : α → List β} {l : List α} {n : Nat} (h : ∀ x ∈ l, (f x).length = n) :
    (l.flatMap f).length = l.length * n := by
  rw [List.length_flatMap, List.map_congr_left h, List.map_const', List.sum_replicate, smul_eq_mul]

theorem packSample_length (c : CtnSes) (v : Int × Int) : (packSample c.wide v).length = c.bytes := by
  unfold packSample CtnSes.bytes
  split <;> rfl

@[simp] theorem localInputs_length (c : CtnSes) : (localInputs c.cfg2).length = c.inCount := by
  simp [localInputs, CtnSes.inCount]

/-- The mark bytes of the inputs of a send. -/
def State.sendMarks (s : State) (c : CtnSes) (k : Nat) (ns : List Nat) : List Nat := markBytes c.inCount (s.sendSpectra c k ns)

/-- Does the send start with a mark record? -/
def State.sendMarked (s : State) (c : CtnSes) (k : Nat) (ns : List Nat) : Bool := (s.sendMarks c k ns).any (· != 0)

/-- The mark record of a send, empty where it has none. -/
def State.markRecord (s : State) (c : CtnSes) (k : Nat) (ns : List Nat) : List Byte :=
  if s.sendMarked c k ns then (s.sendMarks c k ns).flatMap (fun m => BitVec.ofNat 8 m :: (if c.wide then [0] else [])) else []

/-- The sample records of channels ch to ch + cnt − 1 of a send. -/
def State.sampleRecords (s : State) (c : CtnSes) (k : Nat) (ns : List Nat) (ch cnt : Nat) : List Byte :=
  (List.range cnt).flatMap (fun a => (s.sendSpectra c k ns).flatMap (fun r => r.flatMap (fun q => packSample c.wide (specVal q (ch + a)))))

theorem State.markRecord_length (s : State) (c : CtnSes) (k : Nat) (ns : List Nat) :
    (s.markRecord c k ns).length = c.inCount * c.bytes * (if s.sendMarked c k ns then 1 else 0) := by
  unfold State.markRecord
  split
  · have one (m : Nat) : (BitVec.ofNat 8 m :: (if c.wide then [(0 : Byte)] else [])).length = c.bytes := by
      unfold CtnSes.bytes
      split <;> rfl
    rw [length_flatMap_of_length_eq fun m _ => one m]
    simp [State.sendMarks, markBytes]
  · simp

theorem State.sampleRecords_length (s : State) (c : CtnSes) (k : Nat) (ns : List Nat) (ch cnt : Nat) :
    (s.sampleRecords c k ns ch cnt).length = c.inCount * c.bytes * (cnt * ns.length) := by
  have spectrum (ch n : Nat) : (((localInputs c.cfg2).map (fun i => s.spectrumOf i n k)).flatMap
      (fun q => packSample c.wide (specVal q ch))).length = c.inCount * c.bytes := by
    rw [length_flatMap_of_length_eq fun q _ => packSample_length c _, List.length_map, localInputs_length]
  have channel (ch : Nat) : ((s.sendSpectra c k ns).flatMap (fun r => r.flatMap (fun q => packSample c.wide (specVal q ch)))).length
      = ns.length * (c.inCount * c.bytes) := by
    rw [length_flatMap_of_length_eq (n := c.inCount * c.bytes), State.sendSpectra, List.length_map]
    rintro r hr
    obtain ⟨n, -, rfl⟩ := List.mem_map.mp hr
    exact spectrum ch n
  rw [State.sampleRecords, length_flatMap_of_length_eq fun a _ => channel (ch + a), List.length_range]
  ring

end Sys2Proof.Machine
end

section
/-!
PROOFS. Brood sends (R230, R231): the send of an owned entry goes to the hive's own brood writer as one message.
-/
namespace Sys2Proof.Machine

/-! ### One send -/

/-- The header of a send of spectra ns of channels ch to ch + cnt − 1 of entry e. -/
def State.sendHeader (s : State) (c : CtnSes) (x k : Nat) (e : SliceEnt) (ns : List Nat) (ch cnt version : Nat) : List Byte :=
  broodHeader ((if s.sendMarked c k ns then 64 else 0) + (if c.wide then 32 else 0) + 1 * 128) x s.hiveId e.owner cnt ch c.inCount c.sibase
    ns.length (ns.headD 0) k 0 (c.inCount * c.bytes * ((if s.sendMarked c k ns then 1 else 0) + cnt * ns.length)) (s.rd CTN_SWARM_ID) version

/-- The bytes of a send on the internal path: header, mark record and sample records. -/
def State.sendBytes (s : State) (c : CtnSes) (x k : Nat) (e : SliceEnt) (ns : List Nat) (ch cnt version : Nat) : List Byte :=
  s.sendHeader c x k e ns ch cnt version ++ s.markRecord c k ns ++ s.sampleRecords c k ns ch cnt

/-- The state after a send has gone to the hive's own brood writer. -/
def State.sentInside (s : State) (x : Nat) (b : List Byte) : State := (s.deliver ⟨.brood x, 32, 0, b, s.time16, 0, 0⟩).count CTN_TX_LOCAL 1

theorem State.ownsEnt_count (s : State) (i : RxItem) (e : SliceEnt) : ((s.deliver i).count CTN_TX_LOCAL 1).ownsEnt e = s.ownsEnt e := by
  rw [State.ownsEnt, State.hiveId, State.rd_count_ne _ _ (by decide)]
  rfl

/-- A send of an owned entry without STANDBY never crosses a port (R231). -/
theorem State.broodOne_owned {s : State} {e : SliceEnt} (owned : s.ownsEnt e = true) (noStandby : e.sbEn = false) (c : CtnSes) (x k : Nat)
    (ns : List Nat) (ch cnt version : Nat) :
    s.broodOne c x k e ns ch cnt version = s.sentInside x (s.sendBytes c x k e ns ch cnt version) := by
  simp only [State.broodOne, State.ownsEnt_count, owned, noStandby, localInputs_length, Bool.not_false, Bool.and_self, if_true]
  rfl

theorem State.sendBytes_length (s : State) (c : CtnSes) (x k : Nat) (e : SliceEnt) (ns : List Nat) (ch cnt version : Nat) :
    (s.sendBytes c x k e ns ch cnt version).length
      = 64 + c.inCount * c.bytes * ((if s.sendMarked c k ns then 1 else 0) + cnt * ns.length) := by
  rw [State.sendBytes, List.length_append, List.length_append, State.sendHeader, broodHeader_length, State.markRecord_length,
    State.sampleRecords_length]
  ring

theorem State.sendBytes_reads (s : State) (c : CtnSes) (x k : Nat) (e : SliceEnt) (ns : List Nat) (ch cnt version : Nat) :
    let b := s.sendBytes c x k e ns ch cnt version
    beAt b 4 2 = x % 2 ^ 16 ∧ beAt b 10 2 = cnt % 2 ^ 16 ∧ beAt b 12 2 = ch % 2 ^ 16 ∧ beAt b 32 8 = k % 2 ^ 64 := by
  intro b
  have header : b = s.sendHeader c x k e ns ch cnt version ++ (s.markRecord c k ns ++ s.sampleRecords c k ns ch cnt) := List.append_assoc _ _ _
  have reads := broodHeader_reads ((if s.sendMarked c k ns then 64 else 0) + (if c.wide then 32 else 0) + 1 * 128) x s.hiveId e.owner cnt ch
    c.inCount c.sibase ns.length (ns.headD 0) k 0 (c.inCount * c.bytes * ((if s.sendMarked c k ns then 1 else 0) + cnt * ns.length))
    (s.rd CTN_SWARM_ID) version (s.markRecord c k ns ++ s.sampleRecords c k ns ch cnt)
  rw [header]
  exact ⟨reads.session, reads.chCount, reads.chFirst, reads.tick⟩

/-! ### The sends of a tick (R230) -/

theorem le_chansPerSend {g marks n cnt : Nat} (hg : 0 < g) (hn : 0 < n) (hm : marks ≤ 1) (fits : g * (1 + cnt * n) ≤ 4194304) :
    cnt ≤ chansPerSend g marks n := by
  have whole : 1 + cnt * n ≤ 4194304 / g := (Nat.le_div_iff_mul_le hg).mpr (by rwa [Nat.mul_comm])
  have room : cnt ≤ (4194304 / g - marks) / n := (Nat.le_div_iff_mul_le hn).mpr (by omega)
  rw [chansPerSend, Nat.max_eq_right hg, Nat.max_eq_right hn]
  exact room.trans (Nat.le_max_right _ _)

theorem ceilDiv_eq_one {a b : Nat} (ha : 0 < a) (h : a ≤ b) : ceilDiv a b = 1 := by
  rw [ceilDiv, if_neg (by omega)]
  exact Nat.div_eq_of_lt_le (by omega) (by omega)

/-- Spectra of one dwell form one group. -/
theorem dwells_of_same {D d : Nat} {ns : List Nat} (nonempty : ns ≠ []) (same : ∀ n ∈ ns, n / D = d) :
    ns.foldl (fun l n => addNew l (n / D)) [] = [d] := by
  have rest (l : List Nat) (h : ∀ n ∈ l, n / D = d) : l.foldl (fun l n => addNew l (n / D)) [d] = [d] := by
    induction l with
    | nil => rfl
    | cons n t ih =>
      have old : addNew [d] (n / D) = [d] := by simp [addNew, h n List.mem_cons_self]
      rw [List.foldl_cons, old, ih fun m hm => h m (List.mem_cons_of_mem _ hm)]
  cases ns with
  | nil => exact absurd rfl nonempty
  | cons n t =>
    have first : addNew [] (n / D) = [d] := by simp [addNew, same n List.mem_cons_self]
    rw [List.foldl_cons, first, rest t fun m hm => same m (List.mem_cons_of_mem _ hm)]

theorem CtnSes.bytes_pos (c : CtnSes) : 0 < c.bytes := by
  unfold CtnSes.bytes
  split <;> decide

/-- A send that fits in 4,194,304 bytes is not split by channel. -/
theorem State.broodDwell_whole {s : State} {c : CtnSes} {e d : Nat} {ns : List Nat} {en : SliceEnt} (nonempty : ns ≠ [])
    (entry : (s.slices (c.mapsAt d).map)[e]? = some en) (channels : 0 < en.count)
    (fits : c.inCount * c.bytes * (1 + en.count * ns.length) ≤ 4194304) (x k : Nat) :
    s.broodDwell c x k e d ns = s.broodOne c x k en ns en.first en.count (c.mapsAt d).version := by
  have record : 0 < c.inCount * c.bytes := Nat.mul_pos (Nat.succ_pos _) c.bytes_pos
  have per (m : Nat) (hm : m ≤ 1) : en.count ≤ chansPerSend (c.inCount * c.bytes) m ns.length :=
    le_chansPerSend record (List.length_pos_of_ne_nil nonempty) hm fits
  simp only [State.broodDwell, entry]
  generalize marked : (if (markBytes c.inCount (s.sendSpectra c k ns)).any (· != 0) then 1 else 0) = m
  have room := per m (by rw [← marked]; split <;> decide)
  rw [ceilDiv_eq_one channels room]
  simp [State.each, List.range_succ, Nat.min_eq_right room]

/-- The sends formed, with the one of session x and entry e for tick k. -/
def State.formed (s : State) (x e k : Nat) : State := { s with ctn := { s.ctn with sent := ((x, e, k) :: s.ctn.sent).take 65536 } }

theorem State.spectra_of_ctnAt {s : State} {x k : Nat} {c : CtnSes} {ns : List Nat} (h : s.ctnAt x k = some (c, ns)) : ns ≠ [] := by
  have kept := List.find?_some h
  rintro rfl
  simp at kept

/-- BROOD_SEND of an owned entry whose spectra lie in one dwell. -/
theorem broodSend_sends {x e k d : Nat} {c : CtnSes} {ns : List Nat} {en : SliceEnt} {s : State} (session : s.ctnAt x k = some (c, ns))
    (works : s.worksOn 8 k = true) (produces : c.produce = true) (begun : s.begun k = true) (ready : s.specsReady c x k ns = true)
    (unsent : s.ctn.sent.contains (x, e, k) = false) (early : s.sesReplay x = false → s.begun (k + 4) = false)
    (window : s.sesReplay x = true → ∀ n ∈ ns, c.waits (n / c.d) = false) (dwell : ∀ n ∈ ns, n / c.d = d)
    (entry : (s.slices (c.mapsAt d).map)[e]? = some en) (owned : s.ownsEnt en = true) (noStandby : en.sbEn = false)
    (channels : 0 < en.count) (fits : c.inCount * c.bytes * (1 + en.count * ns.length) ≤ 4194304) :
    exec (.broodSend x e k) s
      = .next ((s.formed x e k).sentInside x ((s.formed x e k).sendBytes c x k en ns en.first en.count (c.mapsAt d).version)) := by
  have nonempty := State.spectra_of_ctnAt session
  have open_ : (if s.sesReplay x = true then ns.any (fun n => c.waits (n / c.d)) else s.begun (k + 4)) = false := by
    split
    case isTrue replay => exact List.any_eq_false.mpr fun n hn => by simp [window replay n hn]
    case isFalse live => exact early (Bool.eq_false_iff.mpr live)
  have group : ns.filter (fun n => n / c.d == d) = ns := List.filter_eq_self.mpr fun n hn => by simp [dwell n hn]
  have sent := State.broodDwell_whole (s := s.formed x e k) nonempty entry channels fits x k
  show execBroodSend x e k s = _
  simp only [execBroodSend, session, works, produces, begun, ready, unsent, open_, Bool.not_true, Bool.or_self, Bool.false_eq_true, if_false,
    dwells_of_same nonempty dwell, State.each_cons, State.each_nil, group]
  exact congrArg _ (sent.trans (State.broodOne_owned (s := s.formed x e k) owned noStandby c x k ns _ _ _))

end Sys2Proof.Machine
end

section
/-!
PROOFS. Brood receipt (R237, R240): a frame of one record passes the checks of Table 9-3, and its record is stored or late.
-/
namespace Sys2Proof.Machine

/-! ### Delivery to the brood writer -/

/-- A message for the brood writer. -/
def isBroodItem (y : RxItem) : Bool := match y.kind with | .brood _ => true | _ => false

/-- The inbox without an item that has gone to its handler. -/
def State.taken (s : State) (i : RxItem) : State := { s with eth := { s.eth with inbox := s.eth.inbox.erase i } }

theorem State.takeRx_of_found {s : State} {p : RxItem → Bool} {i : RxItem} (waiting : s.eth.inbox.find? p = some i) :
    s.takeRx p = (some i, s.taken i) := by
  rw [State.takeRx, waiting]
  rfl

theorem broodFrameReceive_delivers {x port ip sp sm : Nat} {b : List Byte} {stamp : Int} {s : State}
    (waiting : s.eth.inbox.find? isBroodItem = some ⟨.brood x, port, ip, b, stamp, sp, sm⟩) (on : s.blockOn 8 = true) :
    exec .broodFrameReceive s = .next ((s.taken ⟨.brood x, port, ip, b, stamp, sp, sm⟩).broodFrame x b stamp) := by
  have row : execBroodFrameReceive s = match (s.takeRx isBroodItem).1 with
    | some ⟨.brood x, _, _, b, stamp, _, _⟩ =>
      if !s.blockOn 8 then .next ((s.takeRx isBroodItem).2.count CTN_RX_OFF 1) else .next ((s.takeRx isBroodItem).2.broodFrame x b stamp)
    | _ => .next s := rfl
  show execBroodFrameReceive s = _
  simp only [row, State.takeRx_of_found waiting, on, Bool.not_true, Bool.false_eq_true, if_false]

/-! ### A frame of one record -/

/-- One record, of channel ch and spectrum n from the cnt inputs from si on of hive src, that session x's enable c takes. -/
structure State.recordFits (s : State) (c : CtnSes) (x n src si cnt ch : Nat) (data : List Byte) : Prop where
  session : s.ctnForSpec x n = some c
  own : c.own = true
  dwell : 0 < c.d
  inputs : 0 < cnt
  channel : ch ∈ s.owned (c.mapsAt (n / c.d)).map
  producer : (src, si, cnt) ∈ s.inputs (c.mapsAt (n / c.d)).inmap
  size : data.length = cnt * c.bytes
  session_lt : x < 2 ^ 16
  src_lt : src < 2 ^ 16
  inputs_lt : cnt < 2 ^ 16
  channel_lt : ch < 2 ^ 16
  first_lt : si < 2 ^ 32
  spectrum_lt : n < 2 ^ 64
  size_lt : data.length < 2 ^ 32
  version_lt : (c.mapsAt (n / c.d)).version < 2 ^ 32

/-- The frame that carries it. -/
def State.recordFrame (s : State) (c : CtnSes) (x n tick src dst si cnt ch : Nat) (data : List Byte) : List Byte :=
  broodHeader (if c.wide then 32 else 0) x src dst 1 ch cnt si 1 n tick 0 data.length (s.rd CTN_SWARM_ID) (c.mapsAt (n / c.d)).version ++ data

theorem chunks_one {α : Type} {g : Nat} {l : List α} (hg : 0 < g) (h : l.length = g) : chunks 1 g l = [l] := by
  cases l with
  | nil => exact absurd h hg.ne
  | cons a t => simp [chunks, ← h]

theorem bits_of_width (wide : Bool) :
    bitsOf (if wide then 32 else 0) 4 0 = 0 ∧ bitOf (if wide then 32 else 0) 6 = 0 ∧ (bitOf (if wide then 32 else 0) 5 == 1) = wide := by
  cases wide <;> decide

theorem State.ownsAt_of_owned {s : State} {c : CtnSes} {d ch : Nat} (own : c.own = true) (h : ch ∈ s.owned (c.mapsAt d).map) :
    s.ownsAt c d = true := by
  have some : s.numOwned (c.mapsAt d).map ≠ 0 := (List.length_pos_of_mem h).ne'
  simp [State.ownsAt, own, some]

/-- A frame of one record passes checks 1 to 6 of Table 9-3. -/
theorem State.broodFrame_record {s : State} {c : CtnSes} {x n src si cnt ch : Nat} {data : List Byte}
    (fits : s.recordFits c x n src si cnt ch data) (window : s.replayWindow c x (n / c.d) = (c, s)) (tick dst : Nat) (stamp : Int) :
    s.broodFrame x (s.recordFrame c x n tick src dst si cnt ch data) stamp
      = s.broodRecord c x (s.numInputs (c.mapsAt (n / c.d)).inmap) (s.owned (c.mapsAt (n / c.d)).map)
          ⟨x, n / c.d, tick % 2 ^ 64, ch, n, si, cnt⟩ false ch n (tickOfStamp stamp) data := by
  have reads := broodHeader_reads (if c.wide then 32 else 0) x src dst 1 ch cnt si 1 n tick 0 data.length (s.rd CTN_SWARM_ID)
    (c.mapsAt (n / c.d)).version data
  rw [← State.recordFrame] at reads
  have long : (s.recordFrame c x n tick src dst si cnt ch data).length = 64 + data.length := by simp [State.recordFrame]
  have payload : (s.recordFrame c x n tick src dst si cnt ch data).drop 64 = data := List.drop_left' (broodHeader_length ..)
  generalize s.recordFrame c x n tick src dst si cnt ch data = b at reads long payload ⊢
  have record : 0 < cnt * c.bytes := Nat.mul_pos fits.inputs c.bytes_pos
  have size_lt : cnt * c.bytes < 2 ^ 32 := fits.size ▸ fits.size_lt
  have flags : beAt b 3 1 = if c.wide then 32 else 0 := reads.flags.trans (by split <;> rfl)
  obtain ⟨reserved, noMarks, width⟩ := bits_of_width c.wide
  simp only [State.broodFrame, reads.magic, reads.edition, flags, reads.session, reads.src, reads.chCount, reads.chFirst, reads.inCount,
    reads.inFirst, reads.specCount, reads.spare, reads.specFirst, reads.tick, reads.off, reads.bytes, reads.swarm, reads.version, reads.tail,
    long, payload, reserved, noMarks, width, Nat.mod_eq_of_lt, fits.session_lt, fits.src_lt, fits.inputs_lt, fits.channel_lt, fits.first_lt,
    fits.spectrum_lt, fits.version_lt, size_lt, s.rd_lt CTN_SWARM_ID, fits.session, Nat.max_eq_right fits.dwell,
    State.ownsAt_of_owned fits.own fits.channel, window, fits.size]
  simp [fits.dwell.ne', fits.inputs.ne', fits.channel, fits.producer, Nat.div_self record, chunks_one record fits.size,
    State.each]

/-! ### The record (checks 7 to 9) -/

theorem State.replayWindow_of_live {s : State} {x : Nat} (live : s.sesReplay x = false) (c : CtnSes) (d : Nat) :
    s.replayWindow c x d = (c, s) := by
  simp [State.replayWindow, live]

/-- A dwell that has its window needs none. -/
theorem State.replayWindow_of_assigned {c : CtnSes} {d : Nat} (assigned : c.assigned d = true) (s : State) (x : Nat) :
    s.replayWindow c x d = (c, s) := by
  have held : nth c.win (d % 2) none = some d := by simpa [CtnSes.assigned] using assigned
  simp [State.replayWindow, held]

theorem State.isLate_iff (s : State) (c : CtnSes) (x h rt : Nat) : s.isLate c x h rt = true ↔ s.sesReplay x = false ∧ h + c.w < rt := by
  simp [State.isLate]

section
variable {s : State} {c : CtnSes} {x n rt ch : Nat} {own : List Nat} {id : SendId} (nx : Nat) (data : List Byte)

/-- A record that is on time, in its window and new is stored. -/
theorem State.broodRecord_stores (onTime : s.isLate c x (c.home n) rt = false) (assigned : c.assigned (n / c.d) = true)
    (new : s.ctn.arrived.contains ⟨x, n / c.d, (idxOf own ch).getD 0, n, id.si⟩ = false) :
    s.broodRecord c x nx own id false ch n rt data =
      let place := c.place nx ((idxOf own ch).getD 0) n id.si
      { s with ctn := { s.ctn with
        arrived := ⟨x, n / c.d, (idxOf own ch).getD 0, n, id.si⟩ :: s.ctn.arrived
        bad := s.ctn.bad.filter (fun a => !(place ≤ a && a < place + data.length))
        brood := spSetAll zeroByte s.ctn.brood place data } } := by
  simp only [State.broodRecord, onTime, assigned, new, Bool.not_true, Bool.false_eq_true, if_false]

theorem mem_filter_outside {a lo len : Nat} {l : List Nat} :
    a ∈ l.filter (fun a => !(lo ≤ a && a < lo + len)) ↔ a ∈ l ∧ ¬ (lo ≤ a ∧ a < lo + len) := by
  simp [imp_iff_not_or]

/-- The counts of a late record. -/
def State.lateCounted (s : State) (x : Nat) : State := (s.count CTN_RX_LATE 1).count (CTN_SESx_LATE x) 1

theorem State.broodRecord_late (marks : Bool) (late : s.isLate c x (c.home n) rt = true) :
    s.broodRecord c x nx own id marks ch n rt data = s.lateCounted x := by
  rw [State.broodRecord, if_pos late, State.lateCounted]

theorem CTN_SESx_LATE_ne (x : Nat) : CTN_SESx_LATE x ≠ CTN_RX_LATE := by unfold CTN_SESx_LATE CTN_RX_LATE; omega

theorem State.lateCounted_counts (s : State) (x : Nat) :
    (s.lateCounted x).rd CTN_RX_LATE = (s.rd CTN_RX_LATE + 1) % 2 ^ 32
    ∧ (s.lateCounted x).rd (CTN_SESx_LATE x) = (s.rd (CTN_SESx_LATE x) + 1) % 2 ^ 32
    ∧ s.sameRegs (s.lateCounted x) [CTN_RX_LATE, CTN_SESx_LATE x] := by
  refine ⟨?_, ?_, ((State.sameRegs_of_regs_eq rfl).wr _ (.head _)).wr _ (.tail _ (.head _))⟩
  · rw [State.lateCounted, State.rd_count_ne _ _ (CTN_SESx_LATE_ne x).symm, State.rd_count_same]
  · rw [State.lateCounted, State.rd_count_same, State.rd_count_ne _ _ (CTN_SESx_LATE_ne x)]

end

end Sys2Proof.Machine
end

section
/-!
PROOFS. Presence becomes final, and the window of a dwell passes on (R237, R238, R242).
-/
namespace Sys2Proof.Machine

/-! ### Sessions by number -/

theorem find?_spPut_same {α : Type} (l : List (Nat × α)) (k : Nat) (v : α) : (spPut l k v).find? (·.1 == k) = some (k, v) := by
  induction l with
  | nil => simp [spPut]
  | cons e t ih =>
    obtain ⟨a, w⟩ := e
    rw [spPut]
    split
    · simp
    · split
      · simp
      · rename_i other
        rw [List.find?_cons_of_neg (by simpa using Ne.symm other), ih]

theorem find?_spPut_ne {α : Type} (l : List (Nat × α)) {k j : Nat} (v : α) (h : j ≠ k) :
    (spPut l k v).find? (·.1 == j) = l.find? (·.1 == j) := by
  have new : (k == j) = false := beq_false_of_ne h.symm
  induction l with
  | nil => simp only [spPut, List.find?_cons, new]
  | cons e t ih =>
    obtain ⟨a, w⟩ := e
    rw [spPut]
    split
    · simp only [List.find?_cons, new]
    · split
      · rename_i same
        simp only [List.find?_cons, ← same, new]
      · simp only [List.find?_cons, ih]

theorem State.ctnOf_setCtn_same (s : State) (x : Nat) (c : CtnSes) : (s.setCtn x c).ctnOf x = some c := by
  rw [State.ctnOf, State.setCtn, find?_spPut_same]
  rfl

theorem State.ctnOf_setCtn_ne (s : State) {x y : Nat} (c : CtnSes) (h : y ≠ x) : (s.setCtn x c).ctnOf y = s.ctnOf y := by
  rw [State.ctnOf, State.setCtn, find?_spPut_ne _ _ h, State.ctnOf]

/-! ### Presence (R242) -/

/-- The codes of dwell d as the records and marks accepted give them. -/
def State.codesOf (s : State) (c : CtnSes) (x d : Nat) : List Nat :=
  (List.range (s.numInputs (c.mapsAt d).inmap)).map (s.presenceCode c x d)

/-- The codes of dwell d are final; the inputs that are not present are counted. -/
def State.madeFinal (s : State) (c : CtnSes) (x d : Nat) : State :=
  ({ s with ctn := { s.ctn with final := (x, d, s.codesOf c x d) :: s.ctn.final } } : State).count (CTN_SESx_ABSENT x)
    ((s.codesOf c x d).filter (fun v => v % 2 == 0)).length

theorem presenceFinalise_finalises {x d : Nat} {c : CtnSes} {s : State} (session : s.ctnFor x d = some c) (due : s.presenceDue c x d = true)
    (open_ : s.presenceFinal x d = false) : exec (.presenceFinalise x d) s = .next (s.madeFinal c x d) := by
  show Host.Outcome.next (s.finalise x d) = _
  simp only [State.finalise, session, due, open_, Bool.not_true, Bool.or_self, Bool.false_eq_true, if_false]
  rfl

theorem State.presence_madeFinal {s : State} {c : CtnSes} {x d i : Nat} (h : i < s.numInputs (c.mapsAt d).inmap) :
    (s.madeFinal c x d).presence x d i = s.presenceCode c x d i := by
  simp [State.presence, State.madeFinal, State.codesOf, nth, h]

theorem State.rd_madeFinal (s : State) (c : CtnSes) (x d : Nat) : (s.madeFinal c x d).rd (CTN_SESx_ABSENT x) = (s.rd (CTN_SESx_ABSENT x)
    + ((List.range (s.numInputs (c.mapsAt d).inmap)).filter (fun i => s.presenceCode c x d i % 2 == 0)).length) % 2 ^ 32 := by
  rw [State.madeFinal, State.rd_count_same, State.codesOf, List.filter_map, List.length_map]
  rfl

/-! ### The release of a window (R237, R238) -/

theorem nth_eq_some_lt {α : Type} {l : List (Option α)} {i : Nat} {v : α} (h : nth l i none = some v) : i < l.length := by
  by_contra out
  simp [nth, List.getD_eq_getElem?_getD, List.getElem?_eq_none (Nat.le_of_not_lt out)] at h

/-- The session's windows after that of dwell d has gone to dwell d + 2. -/
def CtnSes.windowPassed (c : CtnSes) (d : Nat) : CtnSes := { c with win := setNth c.win (d % 2) (some (d + 2)) }

theorem CtnSes.windowPassed_assigned {c : CtnSes} {d : Nat} (h : c.assigned d = true) :
    (c.windowPassed d).assigned (d + 2) = true ∧ (c.windowPassed d).assigned d = false := by
  have held : nth c.win (d % 2) none = some d := by simpa [CtnSes.assigned] using h
  have passed : nth (c.windowPassed d).win (d % 2) none = some (d + 2) := nth_setNth_same _ _ (nth_eq_some_lt held)
  simp [CtnSes.assigned, passed]

theorem State.ctnFor_of_not_ending {s : State} {x : Nat} (h : ∀ e ∈ s.ctn.ending, e.1 ≠ x) (d : Nat) : s.ctnFor x d = s.ctnOf x := by
  have none : s.ctn.ending.find? (fun e => e.1 == x && e.2.assigned d) = none := List.find?_eq_none.mpr fun e he => by simp [h e he]
  rw [State.ctnFor, none]

theorem State.finalise_of_final {s : State} {x d : Nat} (final : s.presenceFinal x d = true) : s.finalise x d = s := by
  unfold State.finalise
  split
  · rfl
  · simp [final]

theorem broodWindowRelease_passes {x d : Nat} {c : CtnSes} {s : State} (session : s.ctnOf x = some c) (alone : ∀ e ∈ s.ctn.ending, e.1 ≠ x)
    (assigned : c.assigned d = true) (live : s.sesReplay x = false) (due : s.begun (c.endTick d + c.w + 5) = true)
    (final : s.presenceFinal x d = true) (goesOn : c.last = none) :
    exec (.broodWindowRelease x d) s = .next ((s.clearArrivals x d).setCtn x (c.windowPassed d)) := by
  have cleared : (s.clearArrivals x d).sesReplay x = false := live
  have present : (s.clearArrivals x d).ctn.ending.any (fun e => e.1 == x && e.2 == c) = false :=
    List.any_eq_false.mpr fun e he => by simp [alone e he]
  have release : s.releaseDue c x d = true := by simp [State.releaseDue, assigned, live, due]
  show execBroodWindowRelease x d s = _
  simp only [execBroodWindowRelease, State.ctnFor_of_not_ending alone, session, release, State.finalise_of_final final, cleared, goesOn, present,
    Option.isSome_none, Bool.not_true, Bool.false_and, Bool.false_eq_true, if_false, CtnSes.windowPassed]

theorem State.mem_clearArrivals {s : State} {x d : Nat} {a : Arrival} :
    a ∈ (s.clearArrivals x d).ctn.arrived ↔ a ∈ s.ctn.arrived ∧ ¬ (a.x = x ∧ a.d = d) := by
  simp [State.clearArrivals, imp_iff_not_or]

end Sys2Proof.Machine
end

section
/-!
PROOFS. A map switch (R228, R229): the prepared maps are the session's from their dwell on, and the registers show them.
-/
namespace Sys2Proof.Machine

/-! ### What a map names -/

section
variable {s t : State} {l : List Nat} (h : s.sameRegs t l) (session : ∀ a ∈ l, 0x810000 ≤ a ∧ a < 0x820000)
include h session

/-- Registers outside the sessions' stay. -/
theorem State.sameRegs.rd_of_not_session {a : Nat} (ha : a < 0x810000 ∨ 0x820000 ≤ a) : t.rd a = s.rd a :=
  h a fun mem => by have := session a mem; omega

theorem State.sameRegs.numOwned (map : Nat) : t.numOwned map = s.numOwned map := by
  have hive : t.hiveId = s.hiveId := by rw [State.hiveId, h.rd_of_not_session session (.inl (by decide)), State.hiveId]
  have entry : t.sliceEnt = s.sliceEnt := funext fun e => by
    rw [State.sliceEnt, h.rd_of_not_session session (.inr (Nat.le_add_right _ _)),
      h.rd_of_not_session session (.inr (by unfold CTN_SLICEe_HI; omega)), State.sliceEnt]
  have owns : t.ownsEnt = s.ownsEnt := funext fun e => by rw [State.ownsEnt, hive, State.ownsEnt]
  rw [State.numOwned, State.owned, State.slices, entry, owns, State.numOwned, State.owned, State.slices]

theorem State.sameRegs.numInputs (inmap : Nat) : t.numInputs inmap = s.numInputs inmap := by
  have lo (e : Nat) : t.rd (CTN_INMAPe_LO e) = s.rd (CTN_INMAPe_LO e) :=
    h.rd_of_not_session session (.inr (by unfold CTN_INMAPe_LO; omega))
  have hi (e : Nat) : t.rd (CTN_INMAPe_HI e) = s.rd (CTN_INMAPe_HI e) :=
    h.rd_of_not_session session (.inr (by unfold CTN_INMAPe_HI; omega))
  simp only [State.numInputs, State.inputs, lo, hi]

theorem State.sameRegs.gx (m : CtnMaps) : t.gx m = s.gx m := by
  rw [State.gx, h.numOwned session, h.numInputs session, State.gx]

end

/-! ### The registers of the session's maps -/

/-- The registers that show a session's maps. -/
def mapRegs (x : Nat) : List Nat := [CTN_SESx_MAP x, CTN_SESx_INMAP x, CTN_SESx_VERSION x, CTN_SESx_CFG x]

theorem mapRegs_session {x : Nat} (hx : x < 1024) : ∀ a ∈ mapRegs x, 0x810000 ≤ a ∧ a < 0x820000 := by
  intro a ha
  simp only [mapRegs, CTN_SESx_MAP, CTN_SESx_INMAP, CTN_SESx_VERSION, CTN_SESx_CFG, List.mem_cons, List.not_mem_nil, or_false] at ha
  omega

theorem State.clearOwn_sameRegs (s : State) (x map : Nat) : s.sameRegs (s.clearOwn x map) [CTN_SESx_CFG x] := by
  unfold State.clearOwn State.when
  split
  · exact (State.sameRegs_of_regs_eq rfl).setBit 2 false (.head _)
  · exact State.sameRegs_of_regs_eq rfl

/-- A hive that holds no entry of the map loses OWN (R228). -/
theorem State.rd_clearOwn (s : State) (x map : Nat) : (s.clearOwn x map).rd (CTN_SESx_CFG x)
    = s.rd (CTN_SESx_CFG x) - (if s.numOwned map = 0 then 4 * s.bit (CTN_SESx_CFG x) 2 else 0) := by
  by_cases lost : s.bit (CTN_SESx_CFG x) 2 = 1 ∧ s.numOwned map = 0
  · obtain ⟨own, none⟩ := lost
    have field : bitsOf (s.rd (CTN_SESx_CFG x)) 2 2 = 1 := own
    simp [State.clearOwn, State.when, own, none, setBits, field]
  · have kept : s.clearOwn x map = s := by
      rw [State.clearOwn, State.when, if_neg (by simpa using lost)]
    rw [kept]
    rcases bitOf_cases (s.rd (CTN_SESx_CFG x)) 2 with clear | set
    · simp [State.bit, clear]
    · simp [show s.numOwned map ≠ 0 from fun none => lost ⟨set, none⟩]

/-- The registers show the maps. -/
def State.showMaps (s : State) (x : Nat) (m : CtnMaps) : State :=
  ((s.wr (CTN_SESx_MAP x) m.map).wr (CTN_SESx_INMAP x) m.inmap).wr (CTN_SESx_VERSION x) m.version

theorem State.showMaps_sameRegs (s : State) (x : Nat) (m : CtnMaps) :
    s.sameRegs (s.showMaps x m) [CTN_SESx_MAP x, CTN_SESx_INMAP x, CTN_SESx_VERSION x] :=
  (((State.sameRegs_of_regs_eq rfl).wr _ (by simp)).wr _ (by simp)).wr _ (by simp)

theorem State.withMaps_eq (s : State) (x : Nat) (m : CtnMaps) : s.withMaps x m = (s.showMaps x m).clearOwn x m.map := rfl

theorem State.withMaps_sameRegs (s : State) (x : Nat) (m : CtnMaps) : s.sameRegs (s.withMaps x m) (mapRegs x) :=
  ((s.showMaps_sameRegs x m).mono (by simp [mapRegs])).trans (((s.showMaps x m).clearOwn_sameRegs x m.map).mono (by simp [mapRegs]))

theorem State.rd_withMaps (s : State) {x : Nat} (hx : x < 1024) (m : CtnMaps) :
    (s.withMaps x m).rd (CTN_SESx_MAP x) = m.map % 2 ^ 32 ∧ (s.withMaps x m).rd (CTN_SESx_INMAP x) = m.inmap % 2 ^ 32
    ∧ (s.withMaps x m).rd (CTN_SESx_VERSION x) = m.version % 2 ^ 32
    ∧ (s.withMaps x m).rd (CTN_SESx_CFG x)
        = s.rd (CTN_SESx_CFG x) - (if s.numOwned m.map = 0 then 4 * s.bit (CTN_SESx_CFG x) 2 else 0) := by
  have shown := s.showMaps_sameRegs x m
  have own := (s.showMaps x m).clearOwn_sameRegs x m.map
  have cfg : CTN_SESx_CFG x ∉ [CTN_SESx_MAP x, CTN_SESx_INMAP x, CTN_SESx_VERSION x] := by simp
  have session : ∀ a ∈ [CTN_SESx_MAP x, CTN_SESx_INMAP x, CTN_SESx_VERSION x], 0x810000 ≤ a ∧ a < 0x820000 :=
    fun a ha => mapRegs_session hx a (List.mem_append_left [CTN_SESx_CFG x] ha)
  rw [State.withMaps_eq]
  refine ⟨?map, ?inmap, ?version, ?cfg⟩
  case map => rw [own _ (by simp), State.showMaps, State.rd_wr_ne _ _ (by simp), State.rd_wr_ne _ _ (by simp), State.rd_wr_same]
  case inmap => rw [own _ (by simp), State.showMaps, State.rd_wr_ne _ _ (by simp), State.rd_wr_same]
  case version => rw [own _ (by simp), State.showMaps, State.rd_wr_same]
  case cfg => rw [State.rd_clearOwn, shown.numOwned session, shown.bit cfg, shown _ cfg]

theorem State.withMaps_regs (s : State) (x : Nat) (m : CtnMaps) : s.withMaps x m = { s with regs := (s.withMaps x m).regs } := by
  rw [State.withMaps_eq]
  unfold State.clearOwn State.when
  split <;> rfl

/-! ### The comb slots and the loads they make -/

/-- The comb blocks of a session that still starts dwells are shown (R260). -/
def State.showBlocks (s : State) (x : Nat) (m : CtnMaps) : State :=
  match s.cmbOf x with
  | some w => if w.last.isNone then s.setFd (CMB_SESx_STATUS x) ⟨25, 16⟩ (ceilDiv (s.gx m) 16) else s
  | none => s

theorem State.showBlocks_sameRegs (s : State) (x : Nat) (m : CtnMaps) : s.sameRegs (s.showBlocks x m) [CMB_SESx_STATUS x] := by
  unfold State.showBlocks
  split
  · split
    · exact (State.sameRegs_of_regs_eq rfl).setFd _ _ (.head _)
    · exact State.sameRegs_of_regs_eq rfl
  · exact State.sameRegs_of_regs_eq rfl

theorem State.showBlocks_regs (s : State) (x : Nat) (m : CtnMaps) : s.showBlocks x m = { s with regs := (s.showBlocks x m).regs } := by
  unfold State.showBlocks
  split
  · split <;> rfl
  · rfl

theorem State.fd_showBlocks {s : State} {x : Nat} {w : CmbSes} (enabled : s.cmbOf x = some w) (goesOn : w.last = none) (m : CtnMaps) :
    (s.showBlocks x m).fd (CMB_SESx_STATUS x) ⟨25, 16⟩ = ceilDiv (s.gx m) 16 % 2 ^ 10 := by
  simp only [State.showBlocks, enabled, goesOn, Option.isNone_none, if_true]
  exact State.fd_setFd_same _ _ _ _ (by decide)

/-- The registers of the loads that the maps make. -/
def loadRegs : List Nat := [CMB_LOAD, CMB_PEAK, SUP_USE, WAG_LOAD, WAG_WUSE, WAG_GUSE]

theorem loadRegs_bounds : ∀ a ∈ loadRegs, 0xA00000 ≤ a ∧ (a < 0xA10000 ∨ 0xB00000 ≤ a) := by decide

/-- The loads are shown. -/
def State.showLoads (s : State) : State := s.showLoad.showSupUse.showWag

theorem State.showLoads_writes (s : State) : ∃ load peak sup wag weights geo, s.showLoads
    = (((((s.wr CMB_LOAD load).wr CMB_PEAK peak).wr SUP_USE sup).wr WAG_LOAD wag).wr WAG_WUSE weights).wr WAG_GUSE geo :=
  ⟨_, _, _, _, _, _, rfl⟩

theorem State.showLoads_sameRegs (s : State) : s.sameRegs s.showLoads loadRegs := by
  obtain ⟨load, peak, sup, wag, weights, geo, written⟩ := s.showLoads_writes
  rw [written]
  iterate 6 refine State.sameRegs.wr ?_ _ (by decide)
  exact State.sameRegs_of_regs_eq rfl

theorem State.showLoads_regs (s : State) : s.showLoads = { s with regs := s.showLoads.regs } := by
  obtain ⟨load, peak, sup, wag, weights, geo, written⟩ := s.showLoads_writes
  rw [written]
  rfl

/-! ### The switch -/

/-- The session with its prepared maps in force from dwell d on. -/
def CtnSes.switched (c : CtnSes) (d : Nat) (m : CtnMaps) : CtnSes := { c with pend := none, maps := (tlPut c.maps d m).take 64 }

theorem CtnSes.mapsAt_switched (c : CtnSes) {d e : Nat} (m : CtnMaps) (h : d ≤ e) : (c.switched d m).mapsAt e = m := by
  simp [CtnSes.mapsAt, CtnSes.switched, tlPut, tlAt, h]

/-- The hive after the switch. -/
def State.mapsSwitched (s : State) (x : Nat) (c : CtnSes) (d : Nat) (m : CtnMaps) : State :=
  (((s.setCtn x (c.switched d m)).withMaps x m).showBlocks x m).showLoads

theorem mapSwitch_switches {x tk d : Nat} {m : CtnMaps} {c : CtnSes} {s : State} (session : s.ctnOf x = some c)
    (prepared : c.pend = some (tk, d, m)) (begun : s.begun (c.home (d * c.d)) = true) :
    exec (.mapSwitch x) s = .next (s.mapsSwitched x c d m) := by
  show Host.Outcome.next (s.switchMaps x) = _
  simp only [State.switchMaps, session, prepared, begun, if_true]
  rfl

section
variable (s : State) (x : Nat) (c : CtnSes) (d : Nat) (m : CtnMaps)

theorem State.mapsSwitched_regs : s.mapsSwitched x c d m = { s.setCtn x (c.switched d m) with regs := (s.mapsSwitched x c d m).regs } := by
  rw [State.mapsSwitched, State.showLoads_regs, State.showBlocks_regs, State.withMaps_regs]

theorem State.mapsSwitched_ctn : (s.mapsSwitched x c d m).ctn = (s.setCtn x (c.switched d m)).ctn := by
  rw [State.mapsSwitched_regs]

/-- After the maps only the comb blocks and the loads are shown. -/
theorem State.mapsSwitched_shown :
    ((s.setCtn x (c.switched d m)).withMaps x m).sameRegs (s.mapsSwitched x c d m) (CMB_SESx_STATUS x :: loadRegs) :=
  ((State.showBlocks_sameRegs _ x m).mono (by simp)).trans ((State.showLoads_sameRegs _).mono (List.subset_cons_self _ _))

theorem State.mapsSwitched_sameRegs : s.sameRegs (s.mapsSwitched x c d m) (mapRegs x ++ CMB_SESx_STATUS x :: loadRegs) :=
  (((s.setCtn x (c.switched d m)).withMaps_sameRegs x m).mono (List.subset_append_left _ _)).trans
    ((s.mapsSwitched_shown x c d m).mono (List.subset_append_right _ _))

variable {x}

theorem not_mem_loads {a : Nat} (hx : x < 1024) (ha : a ∈ mapRegs x) : a ∉ CMB_SESx_STATUS x :: loadRegs := by
  have session := mapRegs_session hx a ha
  rintro (_ | ⟨_, load⟩)
  · unfold CMB_SESx_STATUS at session
    omega
  · have := loadRegs_bounds a load
    omega

theorem State.rd_mapsSwitched (hx : x < 1024) : let t := s.mapsSwitched x c d m
    t.rd (CTN_SESx_MAP x) = m.map % 2 ^ 32 ∧ t.rd (CTN_SESx_INMAP x) = m.inmap % 2 ^ 32 ∧ t.rd (CTN_SESx_VERSION x) = m.version % 2 ^ 32
    ∧ t.rd (CTN_SESx_CFG x) = s.rd (CTN_SESx_CFG x) - (if s.numOwned m.map = 0 then 4 * s.bit (CTN_SESx_CFG x) 2 else 0) := by
  have keeps {a : Nat} (ha : a ∈ mapRegs x) := s.mapsSwitched_shown x c d m a (not_mem_loads hx ha)
  obtain ⟨map, inmap, version, cfg⟩ := (s.setCtn x (c.switched d m)).rd_withMaps hx m
  exact ⟨(keeps (by simp [mapRegs])).trans map, (keeps (by simp [mapRegs])).trans inmap, (keeps (by simp [mapRegs])).trans version,
    (keeps (by simp [mapRegs])).trans cfg⟩

theorem State.fd_mapsSwitched (hx : x < 1024) {w : CmbSes} (enabled : s.cmbOf x = some w) (goesOn : w.last = none) :
    (s.mapsSwitched x c d m).fd (CMB_SESx_STATUS x) ⟨25, 16⟩ = ceilDiv (s.gx m) 16 % 2 ^ 10 := by
  let u := (s.setCtn x (c.switched d m)).withMaps x m
  have enabled' : u.cmbOf x = some w := by
    show ((s.setCtn x (c.switched d m)).withMaps x m).cmbOf x = _
    rw [State.withMaps_regs]
    exact enabled
  have blocks : u.gx m = s.gx m := ((s.setCtn x (c.switched d m)).withMaps_sameRegs x m).gx (mapRegs_session hx) m
  have status : CMB_SESx_STATUS x ∉ loadRegs := fun load => by
    have := loadRegs_bounds _ load
    unfold CMB_SESx_STATUS at this
    omega
  rw [← blocks, ← State.fd_showBlocks enabled' goesOn]
  exact (State.showLoads_sameRegs _).fd status _

end

end Sys2Proof.Machine
end

section
/-!
PROOFS. Announces and the peer table (R244, R245, R247).
-/
namespace Sys2Proof.Machine

/-! ### Announces sent (R244) -/

/-- The announce with number seq on port n. -/
def State.announceFrame (s : State) (n seq : Nat) : TxFrame :=
  let dst := s.grpAddr s.annGrp
  let b := frameBytes (s.ownTmpl n (s.grpV6 s.annGrp) (groupMac (s.grpV6 s.annGrp) dst) dst (s.rd ETH_UDP_FIX0 / 65536))
    (annBytes (s.rd CTN_SWARM_ID) s.hiveId n seq s.tick)
  { kind := .announce, src := n, sid := 0, queue := 6, len := b.length + 4, age := 0, dst := 0, bytes := b, ptp := none }

theorem State.announceFrame_len (s : State) (n seq : Nat) : (s.announceFrame n seq).len = (s.announceFrame n seq).bytes.length + 4 := by
  simp only [State.announceFrame]

/-- The announce of port n is numbered. -/
def State.numbered (s : State) (n seq : Nat) : State :=
  { s with ctn := { s.ctn with annSeq := setNth s.ctn.annSeq n ((seq + 1) % 2 ^ 32, some s.tick) } }

theorem hiveAnnounceSend_sends {n seq : Nat} {sent : Option Nat} {s : State} (on : s.blockOn 8 = true) (hn : n < 32)
    (port : s.bit CTN_ANN_PORTS n = 1) (up : s.linkUp n = true) (due : s.annPeriod * 1000 ∣ s.tick)
    (last : s.ctn.annSeq[n]? = some (seq, sent)) (unsent : sent ≠ some s.tick) :
    exec (.hiveAnnounceSend n) s = .next ((s.numbered n seq).txPut n (s.announceFrame n seq)) := by
  have entry : nth s.ctn.annSeq n (0, none) = (seq, sent) := by simp [nth, List.getD_eq_getElem?_getD, last]
  have period : s.tick % (s.annPeriod * 1000) = 0 := Nat.mod_eq_zero_of_dvd due
  have open_ : ¬ (!s.blockOn 8 || decide (n ≥ 32) || decide (s.bit CTN_ANN_PORTS n = 0) || !s.linkUp n
      || decide (s.tick % (s.annPeriod * 1000) ≠ 0) || decide (sent = some s.tick)) = true := by
    simp [on, hn, port, up, period, unsent]
  show execHiveAnnounceSend n s = _
  rw [execHiveAnnounceSend, entry]
  exact if_neg open_

/-- A frame handed on in the tick in progress keeps all but its age. -/
theorem State.txPut_announces (s : State) (n : Nat) {f : TxFrame} (kind : f.kind = .announce) (queue : f.queue = 6)
    (len : f.len = f.bytes.length + 4) : ∃ g : TxFrame, (s.txPut n f).eth.outbox = s.eth.outbox ++ [(n, g)] ∧ g.kind = .announce ∧ g.queue = 6
      ∧ g.age = s.tick ∧ g.len = g.bytes.length + 4 :=
  ⟨{ f with age := s.tick }, rfl, kind, queue, rfl, len⟩

theorem getElem?_setNth {α : Type} (l : List α) (i : Nat) (v : α) (h : i < l.length) : (setNth l i v)[i]? = some v := by
  induction l generalizing i with
  | nil => exact absurd h (Nat.not_lt_zero i)
  | cons a t ih =>
    cases i with
    | zero => rfl
    | succ i => exact ih i (Nat.lt_of_succ_lt_succ h)

/-! ### Announces received (R245) -/

/-- An announce that R245 keeps. -/
def State.announceGood (s : State) (a : RxItem) : Prop :=
  let h := beAt a.bytes 8 2
  beAt a.bytes 0 2 = 0xB7A0 ∧ beAt a.bytes 2 1 = 1 ∧ beAt a.bytes 4 4 = s.rd CTN_SWARM_ID ∧ h ≤ 1023 ∧ h ≠ s.hiveId
    ∧ s.bit (CTN_PEERh_MASK h) a.port ≠ 0

theorem State.announce_discarded_iff (s : State) (a : RxItem) :
    (decide (beAt a.bytes 0 2 ≠ 0xB7A0) || decide (beAt a.bytes 2 1 ≠ 1) || decide (beAt a.bytes 4 4 ≠ s.rd CTN_SWARM_ID)
      || decide (beAt a.bytes 8 2 > 1023) || decide (beAt a.bytes 8 2 = s.hiveId)
      || decide (s.bit (CTN_PEERh_MASK (beAt a.bytes 8 2)) a.port = 0)) = true ↔ ¬ s.announceGood a := by
  simp only [State.announceGood, Bool.or_eq_true, decide_eq_true_eq, not_and_or, not_not, Nat.not_le, or_assoc, gt_iff_lt]

/-- An announce kept for the tick boundary. -/
def State.announced (s : State) (a : RxItem) : State :=
  { s with ctn := { s.ctn with annIn := s.ctn.annIn ++ [(a.port, beAt a.bytes 8 2, a.src)] } }

section
variable {a : RxItem} {s : State} (waiting : s.eth.inbox.find? (·.kind == .announce) = some a) (on : s.blockOn 8 = true)
include waiting on

theorem hiveAnnounceReceive_keeps (good : s.announceGood a) : exec .hiveAnnounceReceive s = .next ((s.taken a).announced a) := by
  have on' : (s.taken a).blockOn 8 = true := on
  show execHiveAnnounceReceive s = _
  simp only [execHiveAnnounceReceive, State.takeRx_of_found waiting, on', Bool.not_true, Bool.false_eq_true, if_false]
  exact if_neg fun fails => ((s.taken a).announce_discarded_iff a).mp fails good

theorem hiveAnnounceReceive_drops (bad : ¬ s.announceGood a) : exec .hiveAnnounceReceive s = .next ((s.taken a).count CTN_ANN_DROP 1) := by
  have on' : (s.taken a).blockOn 8 = true := on
  show execHiveAnnounceReceive s = _
  simp only [execHiveAnnounceReceive, State.takeRx_of_found waiting, on', Bool.not_true, Bool.false_eq_true, if_false]
  exact if_pos (((s.taken a).announce_discarded_iff a).mpr bad)

end

/-! ### Members that fall silent (R247) -/

/-- The members that stay when peer h loses those that have gone. -/
def State.staying (s : State) (h : Nat) : List Member := s.ctn.members.filter (fun m => !(m.hive == h && s.memberGone m))

/-- Peer h without the members that have gone. -/
def State.aged (s : State) (h : Nat) : State := ((s.setMembers h (s.staying h)).flag (CTN_PEERh_HIST h) 2).flag CTN_ERR 2

theorem peerAge_ages {h : Nat} {s : State} (gone : ∃ m ∈ s.ctn.members, m.hive = h ∧ s.memberGone m = true) :
    exec (.peerAge h) s = .next (s.aged h) := by
  obtain ⟨m, hm, hive, left⟩ := gone
  have some : s.ctn.members.any (fun m => m.hive == h && s.memberGone m) = true := List.any_eq_true.mpr ⟨m, hm, by simp [hive, left]⟩
  exact if_pos some

theorem State.mem_staying {s : State} {h : Nat} {m : Member} :
    m ∈ s.staying h ↔ m ∈ s.ctn.members ∧ ¬ (m.hive = h ∧ s.memberGone m = true) := by
  simp [State.staying, imp_iff_not_or]

theorem CTN_PEERh_ne {h : Nat} (hh : h < 1024) : CTN_PEERh_STATUS h ≠ CTN_PEERh_HIST h ∧ CTN_PEERh_STATUS h ≠ CTN_ERR
    ∧ CTN_PEERh_STATUS h ≠ PCI_ERR ∧ CTN_PEERh_HIST h ≠ CTN_ERR ∧ CTN_PEERh_HIST h ≠ PCI_ERR := by
  unfold CTN_PEERh_STATUS CTN_PEERh_HIST CTN_ERR PCI_ERR
  omega

theorem State.aged_ctn (s : State) (h : Nat) : (s.aged h).ctn = { s.ctn with members := s.staying h } := by
  rw [State.aged, State.flag_ctn, State.flag_ctn]
  rfl

theorem State.rd_aged_status (s : State) {h : Nat} (hh : h < 1024) :
    (s.aged h).rd (CTN_PEERh_STATUS h) = peerStatus ((s.aged h).peerPorts h) % 2 ^ 32 := by
  obtain ⟨hist, err, pci, -, -⟩ := CTN_PEERh_ne hh
  have ports : (s.aged h).peerPorts h = ({ s with ctn := { s.ctn with members := s.staying h } } : State).peerPorts h := by
    rw [State.peerPorts, State.aged_ctn, State.peerPorts]
  rw [ports, State.aged, State.rd_flag_ne _ _ err pci, State.rd_flag_ne _ _ hist pci, State.setMembers, State.rd_wr_same]

theorem State.bit_aged (s : State) {h : Nat} (hh : h < 1024) : (s.aged h).bit (CTN_PEERh_HIST h) 2 = 1 ∧ (s.aged h).bit CTN_ERR 2 = 1 := by
  obtain ⟨-, -, -, err, pci⟩ := CTN_PEERh_ne hh
  exact ⟨(State.bit_flag_ne _ _ _ err pci).trans (State.bit_flag_same _ 2 (by decide) pci), State.bit_flag_same _ 2 (by decide) (by decide)⟩

theorem State.aged_sameRegs (s : State) (h : Nat) :
    s.sameRegs (s.aged h) [CTN_PEERh_STATUS h, CTN_PEERh_HIST h, CTN_ERR, PCI_ERR] := by
  have members : s.sameRegs (s.setMembers h (s.staying h)) [CTN_PEERh_STATUS h, CTN_PEERh_HIST h, CTN_ERR, PCI_ERR] :=
    (State.sameRegs_of_regs_eq rfl).wr _ (.head _)
  exact (members.flag 2 (by simp) (by simp)).flag 2 (by simp) (by simp)

theorem State.aged_eq (s : State) (h : Nat) : s.aged h = { s with
    regs := (s.aged h).regs, ctn := { s.ctn with members := (s.aged h).ctn.members }, pci := (s.aged h).pci, out := (s.aged h).out } := by
  obtain ⟨r, p, o, left⟩ : ∃ r p o, s.aged h = { s with regs := r, ctn := { s.ctn with members := s.staying h }, pci := p, out := o } := by
    rw [State.aged, State.flag_eq _ CTN_ERR, State.flag_eq _ (CTN_PEERh_HIST h)]
    exact ⟨_, _, _, rfl⟩
  rw [left]

end Sys2Proof.Machine
end

section
/-!
PROOFS. The statement on the corner turn and brood assembly (R230 to R247).
-/
namespace Sys2Proof.Machine

/-- Settles O14: each row's equation, and what the operations on sends, records, presence codes, windows, maps, announces and members
leave. -/
theorem broodMovesFromProducersToOwners : Obligations.BroodMovesFromProducersToOwners := by
  unfold Obligations.BroodMovesFromProducersToOwners
  refine ⟨?send, ?record, ?presence, ?release, ?switch, ?announce, ?heard, ?age⟩
  case send =>
    intro x e k d c ns en s g session works produces begun ready unsent early window dwell entry owned noStandby channels fits
    let b := (s.formed x e k).sendBytes c x k en ns en.first en.count (c.mapsAt d).version
    obtain ⟨number, count, first, tick⟩ := (s.formed x e k).sendBytes_reads c x k en ns en.first en.count (c.mapsAt d).version
    refine ⟨_, broodSend_sends session works produces begun ready unsent early window dwell entry owned noStandby channels fits,
      b, if (s.formed x e k).sendMarked c k ns then 1 else 0, by split <;> decide, rfl, ?_, number, count, first, tick,
      State.rd_count_same _ _ 1, (State.sameRegs_of_regs_eq rfl).wr _ (.head _), rfl⟩
    exact State.sendBytes_length _ c x k en ns en.first en.count _
  case record =>
    intro x n tick src dst si cnt ch port ip sp sm data stamp c s m b item key place late waiting on session own dwell inputs channel producer
      size hx hsrc hcnt hch hsi hn hdata hversion
    have fits : (s.taken item).recordFits c x n src si cnt ch data :=
      ⟨session, own, dwell, inputs, channel, producer, size, hx, hsrc, hcnt, hch, hsi, hn, hdata, hversion⟩
    have row := broodFrameReceive_delivers waiting on
    refine ⟨fun onTime assigned new => ?stored, fun isLate => ?late⟩
    case stored =>
      have punctual : (s.taken item).isLate c x (c.home n) (tickOfStamp stamp) = false :=
        Bool.eq_false_iff.mpr (mt ((s.taken item).isLate_iff c x _ _).mp onTime)
      have taken := (State.broodFrame_record fits (State.replayWindow_of_assigned assigned _ x) tick dst stamp).trans
        (State.broodRecord_stores _ data punctual assigned new)
      exact ⟨_, row.trans (congrArg _ taken), rfl, fun a => mem_filter_outside, rfl⟩
    case late =>
      have passed : (s.taken item).isLate c x (c.home n) (tickOfStamp stamp) = true := ((s.taken item).isLate_iff c x _ _).mpr isLate
      have taken := (State.broodFrame_record fits (State.replayWindow_of_live (s := s.taken item) isLate.1 c _) tick dst stamp).trans
        (State.broodRecord_late _ data false passed)
      obtain ⟨frames, records, registers⟩ := (s.taken item).lateCounted_counts x
      exact ⟨_, row.trans (congrArg _ taken), frames, fun _ => records, registers, rfl⟩
  case presence =>
    intro x d c s session owns assigned ended replayed open_ nx
    have due : s.presenceDue c x d = true := by
      cases replay : s.sesReplay x
      · simp [State.presenceDue, owns, assigned, replay, ended replay]
      · simp [State.presenceDue, owns, assigned, replay, replayed replay]
    have unsettled : s.presenceFinal x d = false := List.any_eq_false.mpr fun f hf => by simpa using open_ f hf
    exact ⟨_, presenceFinalise_finalises session due unsettled, fun i hi => State.presence_madeFinal hi, s.rd_madeFinal c x d,
      (State.sameRegs_of_regs_eq rfl).wr _ (.head _), rfl⟩
  case release =>
    rintro x d c s session alone assigned live due ⟨f, hf, number, dwell⟩ goesOn
    have final : s.presenceFinal x d = true := List.any_eq_true.mpr ⟨f, hf, by simp [number, dwell]⟩
    obtain ⟨next, left⟩ := CtnSes.windowPassed_assigned assigned
    exact ⟨_, broodWindowRelease_passes session alone assigned live due final goesOn,
      ⟨_, State.ctnOf_setCtn_same _ x _, next, left, rfl⟩, fun a => State.mem_clearArrivals, fun y hy => State.ctnOf_setCtn_ne _ _ hy, rfl⟩
  case switch =>
    intro x tk d m c s hx session prepared begun
    have same : (s.mapsSwitched x c d m).ctnOf x = some (c.switched d m) := by
      rw [State.ctnOf, State.mapsSwitched_ctn]
      exact s.ctnOf_setCtn_same x _
    have other (y : Nat) (hy : y ≠ x) : (s.mapsSwitched x c d m).ctnOf y = s.ctnOf y := by
      rw [State.ctnOf, State.mapsSwitched_ctn]
      exact s.ctnOf_setCtn_ne _ hy
    obtain ⟨map, inmap, version, cfg⟩ := s.rd_mapsSwitched c d m hx
    refine ⟨_, mapSwitch_switches session prepared begun, same, fun c' hc e he => ?maps, map, inmap, version, cfg,
      fun w enabled goesOn => s.fd_mapsSwitched c d m hx enabled goesOn, s.mapsSwitched_sameRegs x c d m, other, ?frame⟩
    case maps =>
      cases same.symm.trans hc
      exact c.mapsAt_switched m he
    case frame =>
      rw [State.mapsSwitched_regs]
      rfl
  case announce =>
    intro n seq sent s on hn port up due last unsent
    have listed : n < s.ctn.annSeq.length := (List.getElem?_eq_some_iff.mp last).1
    exact ⟨_, hiveAnnounceSend_sends on hn port up due last unsent, getElem?_setNth _ _ _ listed,
      (s.numbered n seq).txPut_announces n rfl rfl (s.announceFrame_len n seq), rfl⟩
  case heard =>
    intro a s waiting on h good
    by_cases kept : s.announceGood a
    · have kept' : good := kept
      refine ⟨_, hiveAnnounceReceive_keeps waiting on kept, (if_pos kept').symm, ?_, State.sameRegs_of_regs_eq rfl, rfl⟩
      rw [if_pos kept']
      exact (Nat.mod_eq_of_lt (s.rd_lt CTN_ANN_DROP)).symm
    · have dropped : ¬ good := kept
      refine ⟨_, hiveAnnounceReceive_drops waiting on kept, (if_neg dropped).symm, ?_, (State.sameRegs_of_regs_eq rfl).wr _ (.head _), rfl⟩
      rw [if_neg dropped]
      exact State.rd_count_same _ _ 1
  case age =>
    intro h s hh gone
    obtain ⟨hist, err⟩ := s.bit_aged hh
    refine ⟨_, peerAge_ages gone, fun m => ?members, s.rd_aged_status hh, hist, err, s.aged_sameRegs h, s.aged_eq h⟩
    rw [State.aged_ctn]
    exact State.mem_staying

end Sys2Proof.Machine
end


section
/-!
PROOFS. The states of the combs (Tables 10-4, 10-5): what each operation on them makes of every comb's state and of the set of states in force, and
which registers it leaves alone.
-/
namespace Sys2Proof.Machine

/-! ### The state of one comb -/

theorem CMB_Cc_STATE_ne {c e : Nat} (h : e ≠ c) : CMB_Cc_STATE e ≠ CMB_Cc_STATE c := by
  unfold CMB_Cc_STATE
  omega

theorem State.combState_setCombState_same (s : State) (c v : Nat) : (s.setCombState c v).combState c = v % 2 ^ 2 :=
  s.fd_setFd_same _ _ _ (by decide)

theorem State.combState_setCombState_ne (s : State) {c e : Nat} (v : Nat) (h : e ≠ c) : (s.setCombState c v).combState e = s.combState e := by
  rw [State.combState, State.fd, State.setCombState, State.rd_setFd_ne _ _ _ (CMB_Cc_STATE_ne h), State.combState, State.fd]

/-- A comb keeps its state where its register is left alone. -/
theorem State.sameRegs.combState {s t : State} {l : List Nat} (h : s.sameRegs t l) {c : Nat} (hc : CMB_Cc_STATE c ∉ l) :
    t.combState c = s.combState c := h.fd hc _

@[simp] theorem State.setCombState_cmb (s : State) (c v : Nat) : (s.setCombState c v).cmb = s.cmb := rfl

theorem State.combState_flag (s : State) (i c : Nat) : (s.flag CMB_ERR i).combState c = s.combState c :=
  s.fd_flag_ne _ _ (by unfold CMB_Cc_STATE CMB_ERR; omega) (by unfold CMB_Cc_STATE PCI_ERR; omega)

theorem State.cmbMode_congr {s t : State} (h : t.cmb.modes = s.cmb.modes) : t.cmbMode = s.cmbMode := by
  rw [State.cmbMode, h, State.cmbMode]

@[simp] theorem State.cmbMode_flag (s : State) (a i : Nat) : (s.flag a i).cmbMode = s.cmbMode :=
  State.cmbMode_congr (by rw [State.flag_cmb])

/-! ### Every PENDING comb returns to ACTIVE (R275) -/

/-- One comb returns to ACTIVE if it is PENDING. -/
def State.unpend1 (s : State) (c : Nat) : State := if s.combState c = 1 then s.setCombState c 0 else s

theorem State.unpend_eq_each (s : State) : s.unpend = s.each (List.range 16) State.unpend1 := rfl

theorem State.unpend1_eq (s : State) (c : Nat) : s.unpend1 c = { s with regs := (s.unpend1 c).regs } := by
  unfold State.unpend1
  split <;> rfl

theorem State.combState_unpend1_same (s : State) (c : Nat) : (s.unpend1 c).combState c = if s.combState c = 1 then 0 else s.combState c := by
  unfold State.unpend1
  split
  · exact State.combState_setCombState_same _ _ _
  · rfl

theorem State.combState_unpend1_ne (s : State) {c e : Nat} (h : e ≠ c) : (s.unpend1 c).combState e = s.combState e := by
  unfold State.unpend1
  split
  · exact State.combState_setCombState_ne _ _ h
  · rfl

theorem State.combState_each_unpend1 (l : List Nat) (s : State) (e : Nat) :
    (s.each l State.unpend1).combState e = if e ∈ l ∧ s.combState e = 1 then 0 else s.combState e := by
  induction l generalizing s with
  | nil => simp
  | cons c r ih =>
    rw [State.each_cons, ih]
    by_cases h : e = c
    · subst h
      rw [State.combState_unpend1_same]
      by_cases pending : s.combState e = 1 <;> simp [pending]
    · simp [State.combState_unpend1_ne _ h, h]

/-- The working combs that were PENDING are ACTIVE, every other comb is as it was. -/
theorem State.combState_unpend (s : State) (e : Nat) : s.unpend.combState e = if e < 16 ∧ s.combState e = 1 then 0 else s.combState e := by
  rw [State.unpend_eq_each, State.combState_each_unpend1]
  simp

theorem State.unpend_eq (s : State) : s.unpend = { s with regs := s.unpend.regs } := State.each_regs State.unpend1_eq _ s

theorem State.unpend_sameRegs (s : State) : s.sameRegs s.unpend ((List.range 17).map CMB_Cc_STATE) := fun a ha =>
  State.rd_each_ne s fun t c hc => by
    have other : a ≠ CMB_Cc_STATE c := fun same => ha (List.mem_map.mpr ⟨c, by simp at hc ⊢; omega, same.symm⟩)
    split
    · exact State.rd_setFd_ne _ _ _ other
    · rfl

/-! ### A new set of states -/

/-- The registers that show it. -/
def modeRegs : List Nat := [CMB_STATUS, CMB_Cc_STATE 16]

/-- The state with the timeline `l` of the states of the combs. -/
def State.withModes (s : State) (l : List (Nat × CmbMode)) : State := { s with cmb := { s.cmb with modes := l } }

/-- Fields set in four registers change registers alone. -/
theorem State.setFds_eq (s : State) (a b c d : Nat) (f g h i : Fld) (v w x y : Nat) : (((s.setFd a f v).setFd b g w).setFd c h x).setFd d i y
    = { s with regs := ((((s.setFd a f v).setFd b g w).setFd c h x).setFd d i y).regs } := rfl

theorem State.setMode_eq (s : State) (t : Nat) (m : CmbMode) :
    s.setMode t m = { s with regs := (s.setMode t m).regs, cmb := { s.cmb with modes := (tlPut s.cmb.modes t m).take 64 } } :=
  State.setFds_eq (s.withModes ((tlPut s.cmb.modes t m).take 64)) _ _ _ _ _ _ _ _ _ _ _ _

@[simp] theorem State.cmbMode_setMode (s : State) (t : Nat) (m : CmbMode) : (s.setMode t m).cmbMode = m := rfl

theorem State.setMode_sameRegs (s : State) (t : Nat) (m : CmbMode) : s.sameRegs (s.setMode t m) modeRegs :=
  ((((State.sameRegs_of_regs_eq rfl).setFd _ _ (.head _)).setFd _ _ (.head _)).setFd _ _ (.head _)).setFd _ _ (.tail _ (.head _))

theorem State.combState_setMode_witness (s : State) (t : Nat) (m : CmbMode) : (s.setMode t m).combState 16 = m.cw % 2 ^ 2 :=
  State.combState_setCombState_same _ _ _

theorem CMB_Cc_STATE_not_mem_modeRegs {c : Nat} (h : c < 16) : CMB_Cc_STATE c ∉ modeRegs := by
  simp only [modeRegs, List.mem_cons, List.not_mem_nil, or_false, not_or]
  constructor
  · unfold CMB_Cc_STATE CMB_STATUS; omega
  · exact CMB_Cc_STATE_ne (by omega)

theorem State.combState_setMode (s : State) (t : Nat) (m : CmbMode) {c : Nat} (h : c < 16) : (s.setMode t m).combState c = s.combState c :=
  (s.setMode_sameRegs t m).combState (CMB_Cc_STATE_not_mem_modeRegs h)

/-! ### RETIRED (R276, R280) -/

/-- The registers that a change of states may write. -/
def combRegs : List Nat := [CMB_ERR, CMB_STATUS, PCI_ERR] ++ (List.range 17).map CMB_Cc_STATE

theorem CMB_Cc_STATE_mem_combRegs {c : Nat} (h : c < 17) : CMB_Cc_STATE c ∈ combRegs :=
  List.mem_append_right _ (List.mem_map.mpr ⟨c, List.mem_range.mpr h, rfl⟩)

theorem modeRegs_subset_combRegs : modeRegs ⊆ combRegs := by decide

theorem CMB_ERR_not_mem_modeRegs : CMB_ERR ∉ modeRegs := by decide

theorem CMB_ERR_not_mem_states : CMB_ERR ∉ (List.range 17).map CMB_Cc_STATE := by decide

/-- CW, witnessing, takes the retired comb's place. -/
theorem State.retire_of_witness {s : State} (witness : s.cmbMode.cw = 0) (t c : Nat) :
    s.retire t c = ((s.setCombState c 2).flag CMB_ERR 4).unpend.setMode t ⟨addNew s.cmbMode.retired c, 1, some c⟩ := by
  simp only [State.retire, witness, if_true]

section
variable {s : State} (witness : s.cmbMode.cw = 0) (t : Nat)
include witness

theorem State.retire_eq (c : Nat) : s.retire t c = { s with
    regs := (s.retire t c).regs, pci := (s.retire t c).pci, out := (s.retire t c).out, cmb := { s.cmb with modes := (s.retire t c).cmb.modes } } := by
  rw [State.retire_of_witness witness, State.setMode_eq, State.unpend_eq, State.flag_eq]
  rfl

theorem State.cmbMode_retire (c : Nat) : (s.retire t c).cmbMode = ⟨addNew s.cmbMode.retired c, 1, some c⟩ := by
  rw [State.retire_of_witness witness, State.cmbMode_setMode]

theorem State.combState_retire_witness (c : Nat) : (s.retire t c).combState 16 = 1 := by
  exact (congrArg (·.combState 16) (State.retire_of_witness witness t c)).trans (State.combState_setMode_witness _ _ _)

theorem State.combState_retire {c : Nat} (hc : c < 16) : (s.retire t c).combState c = 2 := by
  rw [State.retire_of_witness witness, State.combState_setMode _ _ _ hc, State.combState_unpend, State.combState_flag,
    State.combState_setCombState_same]
  simp

theorem State.bit_retire (c : Nat) : (s.retire t c).bit CMB_ERR 4 = 1 := by
  rw [State.retire_of_witness witness, (State.setMode_sameRegs _ _ _).bit CMB_ERR_not_mem_modeRegs,
    (State.unpend_sameRegs _).bit CMB_ERR_not_mem_states]
  exact State.bit_flag_same _ _ (by decide) (by decide)

theorem State.retire_sameRegs {c : Nat} (hc : c < 16) : s.sameRegs (s.retire t c) combRegs := by
  rw [State.retire_of_witness witness]
  have state : s.sameRegs (s.setCombState c 2) combRegs := (State.sameRegs_of_regs_eq rfl).setFd _ _ (CMB_Cc_STATE_mem_combRegs (by omega))
  have flagged := state.flag (a := CMB_ERR) 4 (by decide) (by decide)
  exact (flagged.trans ((State.unpend_sameRegs _).mono (List.subset_append_right _ _))).trans
    ((State.setMode_sameRegs _ _ _).mono modeRegs_subset_combRegs)

end

theorem addNew_ne_nil {α : Type} [BEq α] (l : List α) (x : α) : addNew l x ≠ [] := by
  unfold addNew
  split
  · rintro rfl
    simp at *
  · simp

/-! ### The end of a tick (R273) -/

/-- The same, with no change that waits. -/
def State.nothingToDo (s : State) : State := { s with cmb := { s.cmb with todo := [] } }

/-- With one change that waits, the end of the tick makes that change, unless it leaves CW standing in for no comb. -/
theorem State.cmbTick_of_one {s : State} {e : CombEvent} (todo : s.cmb.todo = [e]) (k : Nat)
    (stays : (s.nothingToDo.combEvent k e).cmbMode.cw = 1 → (s.nothingToDo.combEvent k e).cmbMode.retired ≠ []) :
    s.cmbTick k = s.nothingToDo.combEvent k e := by
  rw [State.cmbTick, todo]
  exact if_neg fun h => by
    simp only [Bool.and_eq_true, decide_eq_true_eq, List.isEmpty_iff] at h
    exact stays h.1.1 h.1.2

end Sys2Proof.Machine
end


section
/-!
PROOFS. The witness comb (R272 to R276): what a comparison shows, and what it changes of the combs' states at the end of its tick.
-/
namespace Sys2Proof.Machine

/-! ### What a comparison makes of the states (Table 10-4, R275) -/

/-- `t` is `s` but for the states of the combs, the combs to witness again, and the message that a flag of the combs may have sent. -/
structure State.combWork (s t : State) : Prop where
  regs : s.sameRegs t combRegs
  frame : ∃ r p o l w, t = { s with regs := r, pci := p, out := o, cmb := { s.cmb with modes := l, rewit := w } }

/-- In terms of what the state was made of. -/
theorem State.combWork.eq {s t : State} {c : Cmb} (h : State.combWork { s with cmb := c } t) : t = { s with
    regs := t.regs, pci := t.pci, out := t.out, cmb := { c with modes := t.cmb.modes, rewit := t.cmb.rewit } } := by
  obtain ⟨_, _, _, _, _, rfl⟩ := h.frame
  rfl

/-- Another working comb is PENDING. -/
def State.otherPending (s : State) (c : Nat) : Prop := ∃ e, e < 16 ∧ e ≠ c ∧ s.combState e = 1

theorem State.any_pending_iff (s : State) (c : Nat) : (List.range 16).any (fun e => e != c && s.combState e == 1) = true ↔ s.otherPending c := by
  simp [State.otherPending]

/-- The register of a comb shows it PENDING for session x. -/
def State.pendingShown (s : State) (x c : Nat) : State := (s.setCombState c 1).setFd (CMB_Cc_STATE c) CMB_Cc_STATE_PENDING_SES x

theorem State.pendingShown_eq (s : State) (x c : Nat) : s.pendingShown x c = { s with regs := (s.pendingShown x c).regs } := rfl

/-- CW is to witness comb c again in dwell d of session x. -/
def State.rewitness (s : State) (x d c : Nat) : State := { s with cmb := { s.cmb with rewit := (x, d, c) :: s.cmb.rewit.take 1023 } }

/-- A comb becomes PENDING for session x, and CW is to witness it again two dwells after d. -/
def State.madePending (s : State) (x d c : Nat) : State := (s.pendingShown x c).rewitness x (d + 2) c

theorem State.madePending_eq (s : State) (x d c : Nat) : s.madePending x d c = { s with
    regs := (s.pendingShown x c).regs, cmb := { s.cmb with rewit := (x, d + 2, c) :: s.cmb.rewit.take 1023 } } := by
  rw [State.madePending, State.pendingShown_eq]
  rfl

theorem State.cmbMode_madePending (s : State) (x d c : Nat) : (s.madePending x d c).cmbMode = s.cmbMode :=
  State.cmbMode_congr (by rw [State.madePending_eq])

theorem State.rd_rewitness (s : State) (x d c a : Nat) : (s.rewitness x d c).rd a = s.rd a := rfl

theorem State.rd_madePending (s : State) (x d c a : Nat) : (s.madePending x d c).rd a = (s.pendingShown x c).rd a := State.rd_rewitness _ _ _ _ _

/-- CW becomes FAULT. -/
def State.witnessFault (s : State) (t : Nat) : State := (s.unpend.setMode t { s.cmbMode with cw := 2 }).flag CMB_ERR 5

section
variable {s : State} {t x d c : Nat}

theorem State.combState_madePending : (s.madePending x d c).combState c = 1 := by
  have shown : (s.pendingShown x c).rd (CMB_Cc_STATE c) = setBits ((s.setCombState c 1).rd (CMB_Cc_STATE c)) 25 16 x :=
    State.rd_setFd_same _ _ _ _ (by decide)
  rw [State.combState, State.fd, State.rd_madePending, shown, bitsOf_setBits_ne _ _ _ _ _ _ (.inl (by decide))]
  exact State.combState_setCombState_same s c 1

theorem State.fd_madePending (hx : x < 1024) : (s.madePending x d c).fd (CMB_Cc_STATE c) CMB_Cc_STATE_PENDING_SES = x := by
  have shown : (s.pendingShown x c).fd (CMB_Cc_STATE c) CMB_Cc_STATE_PENDING_SES = x % 2 ^ 10 := State.fd_setFd_same _ _ _ _ (by decide)
  rw [State.fd, State.rd_madePending]
  exact shown.trans (Nat.mod_eq_of_lt hx)

theorem State.witnessed_madePending : (s.madePending x d c).witnessed x (d + 2) = c := by
  simp [State.witnessed, State.madePending, State.rewitness]

theorem State.madePending_work (hc : c < 16) : s.combWork (s.madePending x d c) :=
  have state : CMB_Cc_STATE c ∈ combRegs := CMB_Cc_STATE_mem_combRegs (by omega)
  have shown : s.sameRegs (s.pendingShown x c) combRegs := ((State.sameRegs_of_regs_eq rfl).setFd _ _ state).setFd _ _ state
  ⟨fun a ha => (s.rd_madePending x d c a).trans (shown a ha), _, _, _, _, _, s.madePending_eq x d c⟩

theorem State.combState_witnessFault_witness : (s.witnessFault t).combState 16 = 2 := by
  rw [State.witnessFault, State.combState_flag, State.combState_setMode_witness]
  rfl

theorem State.combState_witnessFault {e : Nat} (he : e < 16) : (s.witnessFault t).combState e ≠ 1 := by
  rw [State.witnessFault, State.combState_flag, State.combState_setMode _ _ _ he, State.combState_unpend]
  split
  · decide
  · rename_i pending
    exact fun h => pending ⟨he, h⟩

theorem State.cmbMode_witnessFault : (s.witnessFault t).cmbMode = { s.cmbMode with cw := 2 } := by
  rw [State.witnessFault, State.cmbMode_flag, State.cmbMode_setMode]

theorem State.bit_witnessFault : (s.witnessFault t).bit CMB_ERR 5 = 1 := State.bit_flag_same _ _ (by decide) (by decide)

theorem State.witnessFault_work : s.combWork (s.witnessFault t) := by
  refine ⟨?_, ?_⟩
  · have modes := ((s.unpend_sameRegs).mono (List.subset_append_right _ _)).trans
      ((State.setMode_sameRegs s.unpend t { s.cmbMode with cw := 2 }).mono modeRegs_subset_combRegs)
    exact modes.flag _ (by decide) (by decide)
  · rw [State.witnessFault, State.flag_eq, State.setMode_eq, State.unpend_eq]
    exact ⟨_, _, _, _, _, rfl⟩

/-- A second disagreement, with another comb PENDING. -/
theorem State.disagreed_of_other (witness : s.cmbMode.cw = 0) (other : s.otherPending c) : s.disagreed t x d c = s.witnessFault t := by
  simp [State.disagreed, witness, (s.any_pending_iff c).mpr other, State.witnessFault]

/-- A disagreement on the PENDING comb. -/
theorem State.disagreed_of_pending (witness : s.cmbMode.cw = 0) (alone : ¬ s.otherPending c) (pending : s.combState c = 1) :
    s.disagreed t x d c = s.retire t c := by
  have none := Bool.eq_false_iff.mpr (mt (s.any_pending_iff c).mp alone)
  simp [State.disagreed, witness, none, pending]

/-- A first disagreement. -/
theorem State.disagreed_of_active (witness : s.cmbMode.cw = 0) (alone : ¬ s.otherPending c) (active : s.combState c = 0) :
    s.disagreed t x d c = s.madePending x d c := by
  have none := Bool.eq_false_iff.mpr (mt (s.any_pending_iff c).mp alone)
  simp only [State.disagreed, witness, none, active, ne_eq, not_true_eq_false, Bool.false_eq_true, if_true, if_false, Nat.zero_ne_one]
  rfl

/-- A disagreement on a comb in no state that it could change. -/
theorem State.disagreed_of_retired (witness : s.cmbMode.cw = 0) (alone : ¬ s.otherPending c) (pending : s.combState c ≠ 1) (active : s.combState c ≠ 0) :
    s.disagreed t x d c = s := by
  have none := Bool.eq_false_iff.mpr (mt (s.any_pending_iff c).mp alone)
  simp [State.disagreed, witness, none, pending, active]

/-- Whatever a disagreement changes, it leaves the rest alone, and CW standing in for no comb least of all. -/
theorem State.disagreed_work (witness : s.cmbMode.cw = 0) (hc : c < 16) : s.combWork (s.disagreed t x d c)
    ∧ ((s.disagreed t x d c).cmbMode.cw = 1 → (s.disagreed t x d c).cmbMode.retired ≠ []) := by
  by_cases other : s.otherPending c
  · rw [State.disagreed_of_other witness other, State.cmbMode_witnessFault]
    exact ⟨State.witnessFault_work, fun standsIn : 2 = 1 => absurd standsIn (by decide)⟩
  · by_cases pending : s.combState c = 1
    · rw [State.disagreed_of_pending witness other pending, State.cmbMode_retire witness]
      exact ⟨⟨State.retire_sameRegs witness t hc, _, _, _, _, _, State.retire_eq witness t c⟩, fun _ => addNew_ne_nil _ _⟩
    · by_cases active : s.combState c = 0
      · rw [State.disagreed_of_active witness other active]
        rw [State.cmbMode_madePending, witness]
        exact ⟨State.madePending_work hc, fun h => absurd h (by decide)⟩
      · rw [State.disagreed_of_retired witness other pending active]
        exact ⟨⟨State.sameRegs_of_regs_eq rfl, _, _, _, _, _, rfl⟩, fun h => absurd (witness.symm.trans h) (by decide)⟩

/-- An agreement on a comb that is PENDING, while CW witnesses. -/
theorem State.agreed_of_pending (witness : s.cmbMode.cw = 0) (pending : s.combState c = 1) :
    s.agreed c = (s.setCombState c 0).count (CMB_Cc_TRANSIENT c) 1 := by
  simp [State.agreed, witness, pending]

theorem State.agreed_of_idle (idle : ¬ (s.combState c = 1 ∧ s.cmbMode.cw = 0)) : s.agreed c = s := by
  have none : (s.combState c = 1 && decide (s.cmbMode.cw = 0)) = false := by simpa using idle
  simp [State.agreed, none]

/-- While CW does not witness, no comparison changes a state. -/
theorem State.disagreed_of_idle (idle : s.cmbMode.cw ≠ 0) : s.disagreed t x d c = s := by
  simp [State.disagreed, idle]

theorem State.agreed_cmb : (s.agreed c).cmb = s.cmb := by
  unfold State.agreed
  split <;> rfl

end

end Sys2Proof.Machine
end


section
/-!
PROOFS. The comparisons of the witness comb (R272): the one that comes next is counted by its result, and its mismatch shown.
-/
namespace Sys2Proof.Machine

/-- The comparison p no longer waits. -/
def State.witTaken (s : State) (p : WitPend) : State := { s with cmb := { s.cmb with wit := s.cmb.wit.erase p } }

theorem State.rd_witTaken (s : State) (p : WitPend) (a : Nat) : (s.witTaken p).rd a = s.rd a := rfl

/-! ### The rows -/

section
variable {s : State} {p : WitPend} (next : nextWit s.cmb.wit = some p)
include next

theorem witnessCompare_skips (skipped : p.skipped = true) : exec .witnessCompare s = .next ((s.witTaken p).count CMB_WIT_SKIPPED 1) := by
  show execWitnessCompare s = _
  simp only [execWitnessCompare, next, skipped, if_true]
  rfl

theorem witnessCompare_withholds (made : p.skipped = false) (inconc : p.inconc = true) :
    exec .witnessCompare s = .next ((s.witTaken p).count CMB_WIT_INCONC 1) := by
  show execWitnessCompare s = _
  simp only [execWitnessCompare, next, made, inconc, Bool.false_eq_true, if_true, if_false]
  rfl

/-- An agreement, counted. -/
def State.agreeCounted (s : State) (p : WitPend) : State := (s.count (CMB_Cc_WITNESSED p.comb) 1).count CMB_WIT_AGREE 1

theorem witnessCompare_agrees (made : p.skipped = false) (sound : p.inconc = false) (same : diffs p = []) :
    exec .witnessCompare s = .next (((s.witTaken p).agreeCounted p).combDefer (.agree p.comb)) := by
  show execWitnessCompare s = _
  simp only [execWitnessCompare, next, made, sound, same, Bool.false_eq_true, if_false, List.isEmpty_nil, if_true]
  rfl

theorem witnessCompare_disagrees (made : p.skipped = false) (sound : p.inconc = false) (differ : diffs p ≠ []) :
    exec .witnessCompare s = .next (((s.witTaken p).count (CMB_Cc_WITNESSED p.comb) 1).mismatch p (diffs p)) := by
  show execWitnessCompare s = _
  simp only [execWitnessCompare, next, made, sound, List.isEmpty_eq_false_iff.mpr differ, Bool.false_eq_true, if_false]
  rfl

end

/-! ### A mismatch shown (R272, R275) -/

theorem State.flagWork.cmb {s t : State} {l : List Nat} (h : s.flagWork l t) : t.cmb = s.cmb := by
  obtain ⟨_, _, _, e⟩ := h.frame
  rw [e]

/-- It is counted and flagged. -/
def State.mismatchFlagged (s : State) (p : WitPend) : State :=
  ((s.count (CMB_Cc_MISMATCH p.comb) 1).count CMB_WIT_MISMATCH 1).flag CMB_ERR 3

/-- The registers that show where it was: comb and session, dwell, entries that differ, the first of them. -/
def State.mismatchPlaced (s : State) (p : WitPend) : State :=
  let f := (diffs p).headD (0, 0)
  let s := (s.wr CMB_WIT_LAST0 (p.comb * 2 ^ 16 + p.x)).wr CMB_WIT_LAST1 (p.d % 2 ^ 32)
  (s.wr CMB_WIT_LAST2 (diffs p).length).wr CMB_WIT_LAST3 (f.1 * 2 ^ 16 + f.2)

/-- What the registers of the combs show of it. -/
def State.mismatchShown (s : State) (p : WitPend) : State := (s.mismatchFlagged p).mismatchPlaced p

theorem State.mismatch_eq_deferred (s : State) (p : WitPend) :
    s.mismatch p (diffs p) = ((s.mismatchShown p).suspectDump p.x p.d p.comb).combDefer (.mismatch p.x p.d p.comb) := rfl

/-- The mismatch is counted for its session too. -/
def State.mismatchCounted (s : State) (p : WitPend) : State := (s.mismatchShown p).count (CMB_SESx_SUSPECT p.x) 1

def flaggedRegs (p : WitPend) : List Nat := [CMB_Cc_MISMATCH p.comb, CMB_WIT_MISMATCH, CMB_ERR, PCI_ERR]
def placedRegs : List Nat := [CMB_WIT_LAST0, CMB_WIT_LAST1, CMB_WIT_LAST2, CMB_WIT_LAST3]

/-- The registers that a mismatch writes. -/
def mismatchRegs (p : WitPend) : List Nat :=
  [CMB_Cc_MISMATCH p.comb, CMB_WIT_MISMATCH, CMB_ERR, CMB_WIT_LAST0, CMB_WIT_LAST1, CMB_WIT_LAST2, CMB_WIT_LAST3, CMB_SESx_SUSPECT p.x, PCI_ERR]

theorem shown_subset_mismatchRegs (p : WitPend) : placedRegs ++ flaggedRegs p ⊆ mismatchRegs p := fun a ha => by
  simp only [placedRegs, flaggedRegs, mismatchRegs, List.cons_append, List.nil_append, List.mem_cons, List.not_mem_nil, or_false] at ha ⊢
  tauto

/-- The dumps with those of comb w for dwell d of session x marked SUSPECT. -/
def suspectDumps (l : List Dump) (x d w : Nat) : List Dump :=
  l.map (fun p => if p.x = x && p.d = d then
    { p with blocks := p.blocks.map (fun b : DumpBlock => if b.comb = w then { b with suspect := true } else b) } else p)

theorem State.combDefer_suspectDump (s : State) (x d w : Nat) (e : CombEvent) :
    (s.suspectDump x d w).combDefer e = { s.count (CMB_SESx_SUSPECT x) 1 with
      cmb := { s.cmb with dumps := suspectDumps s.cmb.dumps x d w, todo := s.cmb.todo ++ [e] } } := rfl

theorem suspect_of_mem_suspectDumps {l : List Dump} {x d w : Nat} {D : Dump} (h : D ∈ suspectDumps l x d w) (hx : D.x = x) (hd : D.d = d)
    {b : DumpBlock} (hb : b ∈ D.blocks) (comb : b.comb = w) : b.suspect = true := by
  obtain ⟨E, -, rfl⟩ := List.mem_map.mp h
  by_cases named : E.x = x ∧ E.d = d
  · simp only [named, decide_true, Bool.and_self, if_true, List.mem_map] at hb
    obtain ⟨e, -, rfl⟩ := hb
    by_cases marked : e.comb = w
    · simp [marked]
    · simp only [marked, if_false] at comb
  · have other : (decide (E.x = x) && decide (E.d = d)) = false := by simpa using named
    simp only [other, Bool.false_eq_true, if_false] at hx hd
    exact absurd ⟨hx, hd⟩ named

section
variable (s : State) (p : WitPend)

theorem State.mismatchFlagged_work : s.flagWork (flaggedRegs p) (s.mismatchFlagged p) :=
  ((State.flagWork.refl.count _ (.head _)).count _ (.tail _ (.head _))).flag _ (.tail _ (.tail _ (.head _))) (.tail _ (.tail _ (.tail _ (.head _))))

theorem State.mismatchPlaced_work : s.flagWork placedRegs (s.mismatchPlaced p) :=
  (((State.flagWork.refl.wr _ (by decide)).wr _ (by decide)).wr _ (by decide)).wr _ (by decide)

theorem State.flagWork.mono {s t : State} {l m : List Nat} (h : s.flagWork l t) (sub : l ⊆ m) : s.flagWork m t := ⟨h.regs.mono sub, h.frame⟩

theorem State.mismatchShown_work : s.flagWork (placedRegs ++ flaggedRegs p) (s.mismatchShown p) :=
  ((s.mismatchFlagged_work p).mono (List.subset_append_right _ _)).trans ((State.mismatchPlaced_work _ p).mono (List.subset_append_left _ _))

theorem State.mismatchCounted_work : s.flagWork (mismatchRegs p) (s.mismatchCounted p) :=
  ((s.mismatchShown_work p).mono (shown_subset_mismatchRegs p)).count _ (by simp [mismatchRegs])

/-- The other effects: the dump marked, the change of state deferred. -/
theorem State.mismatch_eq : s.mismatch p (diffs p) = { s.mismatchCounted p with
    cmb := { s.cmb with dumps := suspectDumps s.cmb.dumps p.x p.d p.comb, todo := s.cmb.todo ++ [.mismatch p.x p.d p.comb] } } := by
  rw [State.mismatch_eq_deferred, State.combDefer_suspectDump, (s.mismatchShown_work p).cmb, State.mismatchCounted]

/-- A register that no register of the place or the session's counter is reads as the flag left it. -/
theorem State.rd_mismatchCounted {a : Nat} (counter : a ≠ CMB_SESx_SUSPECT p.x) (place : a ∉ placedRegs) :
    (s.mismatchCounted p).rd a = (s.mismatchFlagged p).rd a := by
  rw [State.mismatchCounted, State.rd_count_ne _ _ counter, State.mismatchShown, (State.mismatchPlaced_work _ p).regs a place]

theorem CMB_ne_SUSPECT {a : Nat} (x : Nat) (h : a < 0xA10000) : a ≠ CMB_SESx_SUSPECT x := by
  unfold CMB_SESx_SUSPECT
  omega

end

/-! ### What the registers read as -/

section
variable (s : State) {p : WitPend}

theorem State.rd_mismatchCounted_comb (hc : p.comb < 16) :
    (s.mismatchCounted p).rd (CMB_Cc_MISMATCH p.comb) = (s.rd (CMB_Cc_MISMATCH p.comb) + 1) % 2 ^ 32 := by
  have lo : 0xA00104 ≤ CMB_Cc_MISMATCH p.comb := Nat.le_add_right _ _
  have hi : CMB_Cc_MISMATCH p.comb < 0xA10000 := by unfold CMB_Cc_MISMATCH; omega
  have place : CMB_Cc_MISMATCH p.comb ∉ placedRegs := fun h => by
    have below : ∀ a ∈ placedRegs, a < 0xA00104 := by decide
    exact absurd (below _ h) (by omega)
  rw [s.rd_mismatchCounted p (CMB_ne_SUSPECT _ hi) place, State.mismatchFlagged,
    State.rd_flag_ne _ _ (ne_of_gt (Nat.lt_of_lt_of_le (by decide) lo)) (ne_of_lt (hi.trans (by decide))),
    State.rd_count_ne _ _ (ne_of_gt (Nat.lt_of_lt_of_le (by decide) lo)), State.rd_count_same]

theorem State.rd_mismatchCounted_total : (s.mismatchCounted p).rd CMB_WIT_MISMATCH = (s.rd CMB_WIT_MISMATCH + 1) % 2 ^ 32 := by
  rw [s.rd_mismatchCounted p (CMB_ne_SUSPECT _ (by decide)) (by decide), State.mismatchFlagged, State.rd_flag_ne _ _ (by decide) (by decide),
    State.rd_count_same, State.rd_count_ne _ _ (by unfold CMB_WIT_MISMATCH CMB_Cc_MISMATCH; omega)]

theorem State.bit_mismatchCounted : (s.mismatchCounted p).bit CMB_ERR 3 = 1 := by
  rw [State.bit, s.rd_mismatchCounted p (CMB_ne_SUSPECT _ (by decide)) (by decide)]
  exact State.bit_flag_same _ _ (by decide) (by decide)

theorem State.rd_mismatchCounted_session : (s.mismatchCounted p).rd (CMB_SESx_SUSPECT p.x) = (s.rd (CMB_SESx_SUSPECT p.x) + 1) % 2 ^ 32 := by
  have other : CMB_SESx_SUSPECT p.x ∉ placedRegs ++ flaggedRegs p := by
    simp only [placedRegs, flaggedRegs, List.mem_append, List.mem_cons, List.not_mem_nil, or_false, not_or]
    unfold CMB_SESx_SUSPECT CMB_WIT_LAST0 CMB_WIT_LAST1 CMB_WIT_LAST2 CMB_WIT_LAST3 CMB_Cc_MISMATCH CMB_WIT_MISMATCH CMB_ERR PCI_ERR
    omega
  rw [State.mismatchCounted, State.rd_count_same, (s.mismatchShown_work p).regs _ other]

/-- The place registers hold what was written to them. -/
theorem State.rd_mismatchPlaced : (s.mismatchPlaced p).rd CMB_WIT_LAST0 = (p.comb * 2 ^ 16 + p.x) % 2 ^ 32
    ∧ (s.mismatchPlaced p).rd CMB_WIT_LAST1 = p.d % 2 ^ 32 % 2 ^ 32 ∧ (s.mismatchPlaced p).rd CMB_WIT_LAST2 = (diffs p).length % 2 ^ 32
    ∧ (s.mismatchPlaced p).rd CMB_WIT_LAST3 = (((diffs p).headD (0, 0)).1 * 2 ^ 16 + ((diffs p).headD (0, 0)).2) % 2 ^ 32 := by
  simp only [State.mismatchPlaced]
  refine ⟨?_, ?_, ?_, State.rd_wr_same _ _ _⟩
  · rw [State.rd_wr_ne _ _ (by decide), State.rd_wr_ne _ _ (by decide), State.rd_wr_ne _ _ (by decide), State.rd_wr_same]
  · rw [State.rd_wr_ne _ _ (by decide), State.rd_wr_ne _ _ (by decide), State.rd_wr_same]
  · rw [State.rd_wr_ne _ _ (by decide), State.rd_wr_same]

/-- So they do after the mismatch is counted; comb, session and dwell number fit their registers. -/
theorem State.rd_mismatchCounted_place (hc : p.comb < 16) (hx : p.x < 1024) :
    (s.mismatchCounted p).rd CMB_WIT_LAST0 = p.comb * 2 ^ 16 + p.x ∧ (s.mismatchCounted p).rd CMB_WIT_LAST1 = p.d % 2 ^ 32
    ∧ (s.mismatchCounted p).rd CMB_WIT_LAST2 = (diffs p).length % 2 ^ 32
    ∧ (s.mismatchCounted p).rd CMB_WIT_LAST3 = (((diffs p).headD (0, 0)).1 * 2 ^ 16 + ((diffs p).headD (0, 0)).2) % 2 ^ 32 := by
  obtain ⟨comb, dwell, entries, first⟩ := (s.mismatchFlagged p).rd_mismatchPlaced (p := p)
  have kept {a : Nat} (h : a < 0xA10000) : (s.mismatchCounted p).rd a = ((s.mismatchFlagged p).mismatchPlaced p).rd a :=
    State.rd_count_ne _ _ (CMB_ne_SUSPECT _ h)
  refine ⟨?_, ?_, ?_, ?_⟩
  · rw [kept (by decide), comb, Nat.mod_eq_of_lt (by omega)]
  · rw [kept (by decide), dwell, Nat.mod_mod]
  · rw [kept (by decide), entries]
  · rw [kept (by decide), first]

end

end Sys2Proof.Machine
end


section
/-!
PROOFS. What a comparison leaves, and what the end of its tick makes of it (R272 to R276).
-/
namespace Sys2Proof.Machine

theorem State.rd_withCmb (s : State) (c : Cmb) (a : Nat) : State.rd { s with cmb := c } a = s.rd a := rfl

theorem State.cmbMode_withCmb (s t : State) (c : Cmb) (h : c.modes = t.cmb.modes) : State.cmbMode { s with cmb := c } = t.cmbMode :=
  State.cmbMode_congr h

/-- The state after a comparison on p's comb that agreed. -/
def State.agreement (s : State) (p : WitPend) : State := ((s.witTaken p).agreeCounted p).combDefer (.agree p.comb)

/-- The state after one that disagreed. -/
def State.disagreement (s : State) (p : WitPend) : State :=
  { ((s.witTaken p).count (CMB_Cc_WITNESSED p.comb) 1).mismatchCounted p with
    cmb := { (s.witTaken p).cmb with
      dumps := suspectDumps s.cmb.dumps p.x p.d p.comb, todo := s.cmb.todo ++ [.mismatch p.x p.d p.comb] } }

theorem State.mismatch_eq_disagreement (s : State) (p : WitPend) :
    ((s.witTaken p).count (CMB_Cc_WITNESSED p.comb) 1).mismatch p (diffs p) = s.disagreement p := by
  rw [State.mismatch_eq, State.disagreement]
  rfl

section
variable (s : State) (p : WitPend)

/-! ### Agreement -/

/-- The registers an agreement writes. -/
def agreeRegs (p : WitPend) : List Nat := [CMB_Cc_WITNESSED p.comb, CMB_WIT_AGREE]

theorem State.agreeCounted_work : (s.witTaken p).regWork (agreeRegs p) ((s.witTaken p).agreeCounted p) :=
  (State.regWork.refl.wr _ (.head _)).wr _ (.tail _ (.head _))

theorem State.combDefer_eq (e : CombEvent) : s.combDefer e = { s with cmb := { s.cmb with todo := s.cmb.todo ++ [e] } } := rfl

theorem State.rd_combDefer (e : CombEvent) (a : Nat) : (s.combDefer e).rd a = s.rd a := rfl

theorem State.rd_agreement (a : Nat) : (s.agreement p).rd a = ((s.witTaken p).agreeCounted p).rd a := State.rd_combDefer _ _ a

theorem State.agreement_sameRegs : s.sameRegs (s.agreement p) (agreeRegs p) := fun a ha => by
  rw [State.rd_agreement, (s.agreeCounted_work p).regs a ha, State.rd_witTaken]

theorem State.agreement_eq : s.agreement p = { s with
    regs := (s.agreement p).regs, cmb := { (s.witTaken p).cmb with todo := s.cmb.todo ++ [.agree p.comb] } } := by
  obtain ⟨_, counted⟩ := (s.agreeCounted_work p).frame
  rw [State.agreement, counted]
  rfl

theorem CMB_WITNESSED_ne_AGREE (c : Nat) : CMB_Cc_WITNESSED c ≠ CMB_WIT_AGREE := by
  unfold CMB_Cc_WITNESSED CMB_WIT_AGREE
  omega

theorem State.rd_agreement_comb : (s.agreement p).rd (CMB_Cc_WITNESSED p.comb) = (s.rd (CMB_Cc_WITNESSED p.comb) + 1) % 2 ^ 32 := by
  rw [State.rd_agreement, State.agreeCounted, State.rd_count_ne _ _ (CMB_WITNESSED_ne_AGREE _), State.rd_count_same, State.rd_witTaken]

theorem State.rd_agreement_total : (s.agreement p).rd CMB_WIT_AGREE = (s.rd CMB_WIT_AGREE + 1) % 2 ^ 32 := by
  rw [State.rd_agreement, State.agreeCounted, State.rd_count_same, State.rd_count_ne _ _ (CMB_WITNESSED_ne_AGREE _).symm, State.rd_witTaken]

theorem CMB_Cc_STATE_not_mem_agreeRegs (c : Nat) : CMB_Cc_STATE c ∉ agreeRegs p := by
  simp only [agreeRegs, List.mem_cons, List.not_mem_nil, or_false, not_or]
  unfold CMB_Cc_STATE CMB_Cc_WITNESSED CMB_WIT_AGREE
  omega

theorem CMB_Cc_TRANSIENT_not_mem_agreeRegs (c : Nat) : CMB_Cc_TRANSIENT c ∉ agreeRegs p := by
  simp only [agreeRegs, List.mem_cons, List.not_mem_nil, or_false, not_or]
  unfold CMB_Cc_TRANSIENT CMB_Cc_WITNESSED CMB_WIT_AGREE
  omega

theorem State.combEvent_agree (k c : Nat) : s.combEvent k (.agree c) = s.agreed c := rfl

theorem State.agreed_cmbMode (c : Nat) : (s.agreed c).cmbMode = s.cmbMode := State.cmbMode_congr (by rw [State.agreed_cmb])

end

section
variable {s : State} {p : WitPend} (calm : s.cmb.todo = [])
include calm

theorem State.nothingToDo_agreement : (s.agreement p).nothingToDo = { s.agreement p with cmb := (s.witTaken p).cmb } := by
  rw [State.agreement_eq]
  simp only [State.nothingToDo, State.witTaken, calm]

/-- At the end of the tick. -/
theorem State.cmbTick_agreement (witness : s.cmbMode.cw = 0) (k : Nat) :
    (s.agreement p).cmbTick k = State.agreed { s.agreement p with cmb := (s.witTaken p).cmb } p.comb := by
  have todo : (s.agreement p).cmb.todo = [.agree p.comb] := by
    rw [State.agreement_eq]
    simp only [calm, List.nil_append]
  rw [State.cmbTick_of_one todo, State.combEvent_agree, State.nothingToDo_agreement calm]
  rw [State.combEvent_agree, State.agreed_cmbMode, State.nothingToDo_agreement calm]
  exact fun standsIn => absurd (witness.symm.trans standsIn) (by decide)

end

section
variable (s : State) (p : WitPend)

/-! ### Disagreement -/

theorem State.rd_disagreement (a : Nat) :
    (s.disagreement p).rd a = (((s.witTaken p).count (CMB_Cc_WITNESSED p.comb) 1).mismatchCounted p).rd a :=
  State.rd_withCmb _ _ a

theorem State.disagreement_sameRegs : s.sameRegs (s.disagreement p) (CMB_Cc_WITNESSED p.comb :: mismatchRegs p) := fun a ha => by
  have other : a ≠ CMB_Cc_WITNESSED p.comb := List.ne_of_not_mem_cons ha
  rw [State.rd_disagreement, (State.mismatchCounted_work _ p).regs a (List.not_mem_of_not_mem_cons ha), State.rd_count_ne _ _ other,
    State.rd_witTaken]

theorem State.disagreement_cmb : (s.disagreement p).cmb = { (s.witTaken p).cmb with
    dumps := suspectDumps s.cmb.dumps p.x p.d p.comb, todo := s.cmb.todo ++ [.mismatch p.x p.d p.comb] } := rfl

theorem State.disagreement_eq : s.disagreement p = { s with
    regs := (s.disagreement p).regs, pci := (s.disagreement p).pci, out := (s.disagreement p).out
    cmb := { (s.witTaken p).cmb with dumps := (s.disagreement p).cmb.dumps, todo := s.cmb.todo ++ [.mismatch p.x p.d p.comb] } } := by
  obtain ⟨_, _, _, counted⟩ := (((s.witTaken p).count (CMB_Cc_WITNESSED p.comb) 1).mismatchCounted_work p).frame
  rw [State.disagreement, counted]
  rfl

theorem State.combEvent_mismatch (k x d c : Nat) : s.combEvent k (.mismatch x d c) = s.disagreed k x d c := rfl

theorem CMB_Cc_STATE_not_mem_disagreeRegs (c : Nat) : CMB_Cc_STATE c ∉ CMB_Cc_WITNESSED p.comb :: mismatchRegs p := by
  simp only [mismatchRegs, List.mem_cons, List.not_mem_nil, or_false, not_or]
  unfold CMB_Cc_STATE CMB_Cc_WITNESSED CMB_SESx_SUSPECT CMB_WIT_LAST0 CMB_WIT_LAST1 CMB_WIT_LAST2 CMB_WIT_LAST3 CMB_Cc_MISMATCH CMB_WIT_MISMATCH
    CMB_ERR PCI_ERR
  omega

theorem CMB_Cc_WITNESSED_not_mem_mismatchRegs (hc : p.comb < 16) : CMB_Cc_WITNESSED p.comb ∉ mismatchRegs p := by
  simp only [mismatchRegs, List.mem_cons, List.not_mem_nil, or_false, not_or]
  unfold CMB_Cc_WITNESSED CMB_SESx_SUSPECT CMB_WIT_LAST0 CMB_WIT_LAST1 CMB_WIT_LAST2 CMB_WIT_LAST3 CMB_Cc_MISMATCH CMB_WIT_MISMATCH CMB_ERR PCI_ERR
  omega

theorem State.rd_disagreement_comb (hc : p.comb < 16) :
    (s.disagreement p).rd (CMB_Cc_WITNESSED p.comb) = (s.rd (CMB_Cc_WITNESSED p.comb) + 1) % 2 ^ 32 := by
  rw [State.rd_disagreement, (State.mismatchCounted_work _ p).regs _ (CMB_Cc_WITNESSED_not_mem_mismatchRegs p hc), State.rd_count_same,
    State.rd_witTaken]

/-- The tick's end, for the changes it makes: the state with the comparison taken, and nothing else to do. -/
def State.disagreementEnd (s : State) (p : WitPend) : State :=
  { s.disagreement p with cmb := { (s.witTaken p).cmb with dumps := (s.disagreement p).cmb.dumps } }

theorem State.rd_disagreementEnd (a : Nat) : (s.disagreementEnd p).rd a = (s.disagreement p).rd a := State.rd_withCmb _ _ a

theorem State.combState_disagreementEnd (c : Nat) : (s.disagreementEnd p).combState c = s.combState c := by
  rw [State.combState, State.fd, State.rd_disagreementEnd, s.disagreement_sameRegs p _ (CMB_Cc_STATE_not_mem_disagreeRegs p c), State.combState,
    State.fd]

theorem State.cmbMode_disagreementEnd : (s.disagreementEnd p).cmbMode = s.cmbMode :=
  State.cmbMode_withCmb _ s _ rfl

end

section
variable {s : State} {p : WitPend} (calm : s.cmb.todo = [])
include calm

theorem State.nothingToDo_disagreement : (s.disagreement p).nothingToDo = s.disagreementEnd p :=
  congrArg (fun c => { s.disagreement p with cmb := c }) (by simp only [State.disagreement_cmb, State.witTaken, calm])

theorem State.cmbTick_disagreement (witness : s.cmbMode.cw = 0) (hc : p.comb < 16) (k : Nat) :
    (s.disagreement p).cmbTick k = (s.disagreementEnd p).disagreed k p.x p.d p.comb := by
  have todo : (s.disagreement p).cmb.todo = [.mismatch p.x p.d p.comb] := by
    rw [State.disagreement_eq]
    simp only [calm, List.nil_append]
  rw [State.cmbTick_of_one todo, State.combEvent_mismatch, State.nothingToDo_disagreement calm]
  rw [State.combEvent_mismatch, State.nothingToDo_disagreement calm]
  exact (State.disagreed_work ((congrArg _ (s.cmbMode_disagreementEnd p)).trans witness) hc).2

end

end Sys2Proof.Machine
end


section
/-!
PROOFS. The witness comb finds the failing comb (R272 to R276).
-/
namespace Sys2Proof.Machine

/-- The end of the tick of an agreement, for the change it makes: nothing else to do. -/
def State.agreementEnd (s : State) (p : WitPend) : State := { s.agreement p with cmb := (s.witTaken p).cmb }

theorem State.regWork.eq_withCmb {s t : State} {c : Cmb} {l : List Nat} (h : State.regWork { s with cmb := c } l t) :
    t = { s with regs := t.regs, cmb := c } := by
  obtain ⟨_, rfl⟩ := h.frame
  rfl

section
variable (s : State) (p : WitPend)

theorem State.rd_agreementEnd (a : Nat) : (s.agreementEnd p).rd a = (s.agreement p).rd a := State.rd_withCmb _ _ a

theorem State.cmbMode_agreementEnd : (s.agreementEnd p).cmbMode = s.cmbMode := State.cmbMode_withCmb _ s _ rfl

theorem State.combState_agreement (c : Nat) : (s.agreement p).combState c = s.combState c :=
  (s.agreement_sameRegs p).combState (CMB_Cc_STATE_not_mem_agreeRegs p c)

theorem State.combState_agreementEnd (c : Nat) : (s.agreementEnd p).combState c = s.combState c := by
  rw [← s.combState_agreement p, State.combState, State.fd, State.rd_agreementEnd, State.combState, State.fd]

/-- While CW does not witness, a comparison changes no state (R275). -/
theorem State.agreement_idles {s : State} {p : WitPend} (idle : s.cmbMode.cw ≠ 0) (k : Nat) :
    (s.agreement p).combEvent k (.agree p.comb) = s.agreement p := by
  have mode : (s.agreement p).cmbMode = s.cmbMode := State.cmbMode_congr rfl
  exact (State.combEvent_agree _ k _).trans (State.agreed_of_idle fun h => idle (mode ▸ h.2))

theorem State.disagreement_idles {s : State} {p : WitPend} (idle : s.cmbMode.cw ≠ 0) (k : Nat) :
    (s.disagreement p).combEvent k (.mismatch p.x p.d p.comb) = s.disagreement p := by
  have mode : (s.disagreement p).cmbMode = s.cmbMode := State.cmbMode_congr ((congrArg Cmb.modes (s.disagreement_cmb p)).trans rfl)
  exact (State.combEvent_mismatch _ k _ _ _).trans (State.disagreed_of_idle fun h => idle ((congrArg CmbMode.cw mode).symm.trans h))

end

section
variable {s : State} {p : WitPend} (calm : s.cmb.todo = []) (witness : s.cmbMode.cw = 0) (k : Nat)
include calm witness

/-- Agreement on a PENDING comb makes it ACTIVE (Table 10-4). -/
theorem State.agreement_clears (pending : s.combState p.comb = 1) :
    let t := s.agreement p
    let u := t.cmbTick k
    u.combState p.comb = 0 ∧ u.rd (CMB_Cc_TRANSIENT p.comb) = (s.rd (CMB_Cc_TRANSIENT p.comb) + 1) % 2 ^ 32
    ∧ t.sameRegs u [CMB_Cc_STATE p.comb, CMB_Cc_TRANSIENT p.comb] ∧ u = { t with regs := u.regs, cmb := (s.witTaken p).cmb } := by
  intro t u
  have other : CMB_Cc_STATE p.comb ≠ CMB_Cc_TRANSIENT p.comb := by unfold CMB_Cc_STATE CMB_Cc_TRANSIENT; omega
  have made : u = ((s.agreementEnd p).setCombState p.comb 0).count (CMB_Cc_TRANSIENT p.comb) 1 :=
    (State.cmbTick_agreement calm witness k).trans (State.agreed_of_pending ((congrArg _ (s.cmbMode_agreementEnd p)).trans witness)
      ((s.combState_agreementEnd p _).trans pending))
  have work : (s.agreementEnd p).regWork [CMB_Cc_STATE p.comb, CMB_Cc_TRANSIENT p.comb] u :=
    made ▸ (State.regWork.refl.setFd _ _ (.head _)).wr _ (.tail _ (.head _))
  refine ⟨?_, ?_, fun a ha => (work.regs a ha).trans (s.rd_agreementEnd p a), ?_⟩
  · rw [made, State.combState, State.fd, State.rd_count_ne _ _ other]
    exact State.combState_setCombState_same _ _ 0
  · rw [made, State.rd_count_same, State.setCombState, State.rd_setFd_ne _ _ _ other.symm, State.rd_agreementEnd,
      s.agreement_sameRegs p _ (CMB_Cc_TRANSIENT_not_mem_agreeRegs p _)]
  · exact State.regWork.eq_withCmb work

/-- On any other comb it changes nothing. -/
theorem State.agreement_keeps (other : s.combState p.comb ≠ 1) : (s.agreement p).cmbTick k = { s.agreement p with cmb := (s.witTaken p).cmb } :=
  (State.cmbTick_agreement calm witness k).trans (State.agreed_of_idle fun h => other ((s.combState_agreementEnd p _).symm.trans h.1))

end

section
variable {s : State} {p : WitPend} (hc : p.comb < 16) (hx : p.x < 1024)
include hc hx

/-- What a disagreement shows (R272, R275). -/
theorem State.disagreement_shows :
    let t := s.disagreement p
    let f := (diffs p).headD (0, 0)
    t.rd (CMB_Cc_WITNESSED p.comb) = (s.rd (CMB_Cc_WITNESSED p.comb) + 1) % 2 ^ 32
    ∧ t.rd (CMB_Cc_MISMATCH p.comb) = (s.rd (CMB_Cc_MISMATCH p.comb) + 1) % 2 ^ 32
    ∧ t.rd CMB_WIT_MISMATCH = (s.rd CMB_WIT_MISMATCH + 1) % 2 ^ 32 ∧ t.bit CMB_ERR 3 = 1
    ∧ t.rd CMB_WIT_LAST0 = p.comb * 2 ^ 16 + p.x ∧ t.rd CMB_WIT_LAST1 = p.d % 2 ^ 32
    ∧ t.rd CMB_WIT_LAST2 = (diffs p).length % 2 ^ 32 ∧ t.rd CMB_WIT_LAST3 = (f.1 * 2 ^ 16 + f.2) % 2 ^ 32
    ∧ t.rd (CMB_SESx_SUSPECT p.x) = (s.rd (CMB_SESx_SUSPECT p.x) + 1) % 2 ^ 32 := by
  have before {a : Nat} (h : a ≠ CMB_Cc_WITNESSED p.comb) : ((s.witTaken p).count (CMB_Cc_WITNESSED p.comb) 1).rd a = s.rd a :=
    (State.rd_count_ne _ _ h).trans (s.rd_witTaken p a)
  have counter : CMB_Cc_MISMATCH p.comb ≠ CMB_Cc_WITNESSED p.comb := by unfold CMB_Cc_MISMATCH CMB_Cc_WITNESSED; omega
  have total : CMB_WIT_MISMATCH ≠ CMB_Cc_WITNESSED p.comb := by unfold CMB_WIT_MISMATCH CMB_Cc_WITNESSED; omega
  have session : CMB_Cc_WITNESSED p.comb ≠ CMB_SESx_SUSPECT p.x := CMB_ne_SUSPECT _ (by unfold CMB_Cc_WITNESSED; omega)
  obtain ⟨comb, dwell, entries, first⟩ := ((s.witTaken p).count (CMB_Cc_WITNESSED p.comb) 1).rd_mismatchCounted_place hc hx
  refine ⟨s.rd_disagreement_comb p hc, ?_, ?_, ?_, ?_, ?_, ?_, ?_, ?_⟩
  · rw [State.rd_disagreement, State.rd_mismatchCounted_comb _ hc, before counter]
  · rw [State.rd_disagreement, State.rd_mismatchCounted_total, before total]
  · rw [State.bit, State.rd_disagreement]
    exact State.bit_mismatchCounted _
  · rw [State.rd_disagreement, comb]
  · rw [State.rd_disagreement, dwell]
  · rw [State.rd_disagreement, entries]
  · rw [State.rd_disagreement, first]
  · rw [State.rd_disagreement, State.rd_mismatchCounted_session, before session.symm]

end

section
variable {s : State} {p : WitPend} (calm : s.cmb.todo = []) (witness : s.cmbMode.cw = 0) (hc : p.comb < 16) (k : Nat)
include calm witness hc

/-- What the end of its tick leaves alone. -/
theorem State.disagreement_tick_work :
    let t := s.disagreement p
    let u := t.cmbTick k
    t.sameRegs u combRegs ∧ u = { t with regs := u.regs, pci := u.pci, out := u.out
                                         cmb := { (s.witTaken p).cmb with dumps := t.cmb.dumps, modes := u.cmb.modes, rewit := u.cmb.rewit } } := by
  intro t u
  have made : u = (s.disagreementEnd p).disagreed k p.x p.d p.comb := State.cmbTick_disagreement calm witness hc k
  have work : (s.disagreementEnd p).combWork u := made ▸ (State.disagreed_work ((congrArg _ (s.cmbMode_disagreementEnd p)).trans witness) hc).1
  refine ⟨fun a ha => (work.regs a ha).trans (s.rd_disagreementEnd p a), State.combWork.eq work⟩

end

/-- Settles O16: each result's row, and what the end of its tick makes of it. -/
theorem witnessFindsTheFailingComb : Obligations.WitnessFindsTheFailingComb := by
  unfold Obligations.WitnessFindsTheFailingComb
  intro p k s next hc hx left st other f
  refine ⟨fun skipped => ?skips, fun made inconc => ?withholds, fun made sound same => ?agrees, fun made sound differ => ?disagrees⟩
  case skips =>
    exact ⟨_, witnessCompare_skips next skipped, State.rd_count_same _ _ 1, (State.sameRegs_of_regs_eq rfl).wr _ (.head _), rfl⟩
  case withholds =>
    exact ⟨_, witnessCompare_withholds next made inconc, State.rd_count_same _ _ 1, (State.sameRegs_of_regs_eq rfl).wr _ (.head _), rfl⟩
  case agrees =>
    exact ⟨s.agreement p, witnessCompare_agrees next made sound same, s.rd_agreement_comb p, s.rd_agreement_total p, s.agreement_sameRegs p,
      s.agreement_eq p, fun calm witness pending => State.agreement_clears calm witness k pending,
      fun calm witness active => State.agreement_keeps calm witness k active, fun idle => State.agreement_idles idle k⟩
  case disagrees =>
    obtain ⟨compared, mismatches, total, flagged, comb, dwell, entries, first, session⟩ := State.disagreement_shows (s := s) hc hx
    refine ⟨s.disagreement p, (witnessCompare_disagrees next made sound differ).trans (congrArg _ (s.mismatch_eq_disagreement p)), compared,
      mismatches, total, flagged, comb, dwell, entries, first, session, fun D hD hx hd b hb => suspect_of_mem_suspectDumps hD hx hd hb,
      s.disagreement_sameRegs p, s.disagreement_eq p, fun calm witness => ?_, fun idle => State.disagreement_idles idle k⟩
    have mode : (s.disagreementEnd p).cmbMode.cw = 0 := (congrArg _ (s.cmbMode_disagreementEnd p)).trans witness
    have state := s.combState_disagreementEnd p
    have others : (s.disagreementEnd p).otherPending p.comb ↔ other := by simp only [State.otherPending, state, other]
    obtain ⟨regs, frame⟩ := State.disagreement_tick_work calm witness hc k
    refine ⟨fun active alone => ?first, fun pending alone => ?second, fun another => ?fault, regs, frame⟩
    case first =>
      rw [State.cmbTick_disagreement calm witness hc, State.disagreed_of_active mode (mt others.mp alone) ((state _).trans active)]
      exact ⟨State.combState_madePending, (State.cmbMode_madePending _ _ _ _).trans (s.cmbMode_disagreementEnd p), State.witnessed_madePending,
        State.fd_madePending hx⟩
    case second =>
      rw [State.cmbTick_disagreement calm witness hc, State.disagreed_of_pending mode (mt others.mp alone) ((state _).trans pending),
        State.cmbMode_retire mode]
      exact ⟨State.combState_retire mode k hc, State.combState_retire_witness mode k _, State.bit_retire mode k _, mem_addNew _ _, rfl, rfl⟩
    case fault =>
      rw [State.cmbTick_disagreement calm witness hc, State.disagreed_of_other mode (others.mpr another), State.cmbMode_witnessFault,
        s.cmbMode_disagreementEnd p]
      exact ⟨State.combState_witnessFault_witness, rfl, State.bit_witnessFault, fun c => State.combState_witnessFault⟩

end Sys2Proof.Machine
end


section
/-!
PROOFS. A host write to a write-only command register (R498), and the writes that set no message off.
-/
namespace Sys2Proof.Machine

/-- A register that is none of its block's flags and no INT_EN register sends no message (R504). -/
def silent (a : Nat) : Prop := a ≠ GLB_FAULT ∧ flagReg (a / 0x100000) a = false ∧ intEnOf (a / 0x100000) ≠ some a

theorem State.messages_of_silent (s : State) {a : Nat} (h : silent a) : s.messages a = s := by
  obtain ⟨notFault, notFlags, notIntEn⟩ := h
  simp [State.messages, notFault, notFlags, notIntEn]

section
variable {s : State} {a v new : Nat}

/-- A register of read and write access, none of its block's flags. -/
theorem State.hostWrite_of_silent (h : s.hostReaches .rw a v new) (quiet : silent a) :
    ∃ p, s.hostWrite a v = { blockPost a (s.rd a) (v % 2 ^ 32) (s.wr a new) with pass := p } := by
  obtain ⟨p, written⟩ := State.hostWrite_of_reaches h
  exact ⟨p, by rw [written, State.messages_of_silent _ quiet]⟩

/-- A write-only register takes the bits it has for what the write sets off, and then reads 0. -/
theorem State.hostWrite_of_reaches_wo (h : s.hostReaches .wo a v new) (quiet : silent a) :
    ∃ p, s.hostWrite a v = { (blockPost a (s.rd a) (v % 2 ^ 32) (s.wr a new)).wr a 0 with pass := p } := by
  obtain ⟨⟨running, noMsix, noPba, allowed, clocked, open_, r, row, acc, merged, unguarded⟩, free⟩ := h
  have taken : s.hostWrite a v = (s.applyWrite r a (v % 2 ^ 32)).2 := by
    simp [State.hostWrite, State.regWrite, running, noMsix, noPba, row, allowed, clocked, open_, acc]
  have cleared : (r.acc == .wo) = true := by rw [acc]; rfl
  rw [merged] at unguarded free ⊢
  rw [taken]
  simp only [State.applyWrite, unguarded, free, cleared, Bool.false_eq_true, if_false, if_true]
  exact (State.marked_pass _ _).imp fun _ marked => (congrArg (State.messages · a) marked).trans (State.messages_of_silent _ quiet)

/-- What it takes. -/
theorem State.hostReaches.new_wo {r : RegRow} (h : s.hostReaches .wo a v new) (row : rowOf a = some r) : new = Nat.land (v % 2 ^ 32) r.mask := by
  obtain ⟨⟨-, -, -, -, -, -, r', row', acc, merged, -⟩, -⟩ := h
  cases row.symm.trans row'
  rw [merged, RegRow.merge, acc]

end

/-- A write to a register that holds no EN notes no change of it. -/
theorem State.noteEn_of_other (s : State) {a : Nat} (old t : Nat) (h : a % 0x100000 ≠ 0) : s.noteEn a old t = s := by
  simp [State.noteEn, h]

theorem State.noteEn_of_same (s : State) {a old : Nat} (t : Nat) (h : bitOf old 0 = s.bit a 0) : s.noteEn a old t = s := by
  simp [State.noteEn, h]

end Sys2Proof.Machine
end

section
/-!
PROOFS. Combs retired and restored, CW switched off and on (R273, R276, R280, R281).
-/
namespace Sys2Proof.Machine

/-! ### The write -/

theorem silent_CMB_RETIRE_CMD : silent CMB_RETIRE_CMD := ⟨by decide, by decide, by decide⟩

theorem silent_CMB_CTRL : silent CMB_CTRL := ⟨by decide, by decide, by decide⟩

theorem rowOf_CMB_RETIRE_CMD : rowOf CMB_RETIRE_CMD = some ⟨"CMB_RETIRE_CMD", CMB_RETIRE_CMD, 1, 4, 1, 4, .wo, 0, 0x11F, true⟩ := by decide +kernel

theorem rowOf_CMB_CTRL : rowOf CMB_CTRL = some ⟨"CMB_CTRL", CMB_CTRL, 1, 4, 1, 4, .rw, 2, 3, false⟩ := by decide +kernel

theorem blockPost_CMB_RETIRE_CMD (old v : Nat) (s : State) :
    blockPost CMB_RETIRE_CMD old v s = (s.wr CMB_RETIRE_CMD 0).retireCmd (s.rd CMB_RETIRE_CMD) := by
  have post : blockPost CMB_RETIRE_CMD old v s = cmbPost CMB_RETIRE_CMD old (s.noteEn CMB_RETIRE_CMD old s.tick) := rfl
  rw [post, State.noteEn_of_other _ _ _ (by decide)]
  rfl

theorem blockPost_CMB_CTRL {old v : Nat} {s : State} (h : bitOf old 0 = s.bit CMB_CTRL 0) :
    blockPost CMB_CTRL old v s = if bitOf old 1 != s.bit CMB_CTRL 1 then s.combDefer (.witness (s.bit CMB_CTRL 1 == 1)) else s := by
  have post : blockPost CMB_CTRL old v s = cmbPost CMB_CTRL old (s.noteEn CMB_CTRL old s.tick) := rfl
  rw [post, State.noteEn_of_same _ _ h]
  rfl

/-- After a write that arrived: registers and the mark of a seal pass alone are new. -/
def State.written (s : State) (r : List (Nat × BitVec 32)) (p : Seal) : State := { s with regs := r, pass := p }

/-- The same, with change `e` waiting for the end of the tick. -/
def State.waiting (s : State) (r : List (Nat × BitVec 32)) (p : Seal) (e : CombEvent) : State :=
  { s with regs := r, cmb := { s.cmb with todo := [e] }, pass := p }

section
variable {s : State} {r : List (Nat × BitVec 32)} {p : Seal} {a : Nat}

theorem State.cmbMode_written : (s.written r p).cmbMode = s.cmbMode := State.cmbMode_congr rfl

/-- The registers of a state that reads as it does. -/
theorem State.rd_written (u : State) (b : Nat) : (s.written u.regs p).rd b = u.rd b := rfl

theorem State.combState_written (h : s.sameRegs (s.written r p) [a]) (ha : ∀ c, a ≠ CMB_Cc_STATE c) (c : Nat) :
    (s.written r p).combState c = s.combState c := h.combState (by simpa using (ha c).symm)

theorem State.nothingToDo_waiting (calm : s.cmb.todo = []) (e : CombEvent) : (s.waiting r p e).nothingToDo = s.written r p := by
  have same : { s.cmb with todo := [] } = s.cmb := by rw [← calm]
  exact congrArg (fun c => { s.written r p with cmb := c }) same

end

/-! ### CMB_RETIRE_CMD (R281) -/

section
variable {s : State} {c : Nat} (hc : c < 16)
include hc

theorem State.retireCmd_retire (working : s.combState c < 2) : s.retireCmd c = s.combDefer (.retire c) := by
  have comb : c % 32 = c := Nat.mod_eq_of_lt (by omega)
  have action : bitOf c 8 = 0 := by unfold bitOf; omega
  simp [State.retireCmd, comb, action, hc, working]

theorem State.retireCmd_restore (retired : s.combState c = 2) : s.retireCmd (2 ^ 8 + c) = s.combDefer (.restore c) := by
  have comb : (2 ^ 8 + c) % 32 = c := by omega
  have action : bitOf (2 ^ 8 + c) 8 = 1 := by unfold bitOf; omega
  rw [State.retireCmd, comb, action]
  simp [hc, retired]

end

theorem CMB_RETIRE_CMD_ne_STATE (c : Nat) : CMB_RETIRE_CMD ≠ CMB_Cc_STATE c := by
  unfold CMB_RETIRE_CMD CMB_Cc_STATE
  omega

/-- A change deferred after writes of registers. -/
theorem State.waiting_of_combDefer {s u : State} (frame : ∃ r, u = { s with regs := r }) (calm : s.cmb.todo = []) (a : Nat) (e : CombEvent)
    (p : Seal) : { (u.combDefer e).wr a 0 with pass := p } = s.waiting (u.wr a 0).regs p e := by
  obtain ⟨r, rfl⟩ := frame
  rw [State.combDefer_eq, calm]
  rfl

/-- An image the command takes leaves its change to the end of the tick. -/
theorem State.hostWrite_CMB_RETIRE_CMD {s : State} {img new : Nat} {e : CombEvent} (h : s.hostReaches .wo CMB_RETIRE_CMD img new)
    (whole : Nat.land (img % 2 ^ 32) 0x11F % 2 ^ 32 = img) (calm : s.cmb.todo = [])
    (takes : ∀ t : State, (∀ c, t.combState c = s.combState c) → t.retireCmd img = t.combDefer e) :
    ∃ r p, s.hostWrite CMB_RETIRE_CMD img = s.waiting r p e ∧ s.sameRegs (s.written r p) [CMB_RETIRE_CMD]
      ∧ (s.written r p).rd CMB_RETIRE_CMD = 0 := by
  obtain ⟨p, written⟩ := State.hostWrite_of_reaches_wo h silent_CMB_RETIRE_CMD
  have image : (s.wr CMB_RETIRE_CMD new).rd CMB_RETIRE_CMD = img := by
    rw [State.rd_wr_same, h.new_wo rowOf_CMB_RETIRE_CMD]
    exact whole
  have work : s.regWork [CMB_RETIRE_CMD] ((s.wr CMB_RETIRE_CMD new).wr CMB_RETIRE_CMD 0) :=
    (State.regWork.refl.wr _ (.head _)).wr _ (.head _)
  have states (c : Nat) : ((s.wr CMB_RETIRE_CMD new).wr CMB_RETIRE_CMD 0).combState c = s.combState c :=
    work.regs.combState (by simpa using (CMB_RETIRE_CMD_ne_STATE c).symm)
  rw [blockPost_CMB_RETIRE_CMD, image, takes _ states, State.waiting_of_combDefer work.frame calm] at written
  refine ⟨_, p, written, fun b hb => ?_, ?_⟩
  · rw [State.rd_written]
    exact work.regs.wr 0 (.head _) b hb
  · exact (State.rd_written _ _).trans (State.rd_wr_same _ _ 0)

end Sys2Proof.Machine
end


section
/-!
PROOFS. Combs retired and restored, CW switched off and on: what the end of the tick makes of it (R273, R276, R280, R281).
-/
namespace Sys2Proof.Machine

/-! ### The end of the tick -/

section
variable {s : State} {r : List (Nat × BitVec 32)} {p : Seal} (calm : s.cmb.todo = [])
include calm

theorem State.cmbTick_waiting {e : CombEvent} (k : Nat)
    (stays : ((s.written r p).combEvent k e).cmbMode.cw = 1 → ((s.written r p).combEvent k e).cmbMode.retired ≠ []) :
    (s.waiting r p e).cmbTick k = (s.written r p).combEvent k e := by
  rw [State.cmbTick_of_one (e := e) rfl, State.nothingToDo_waiting calm]
  rwa [State.nothingToDo_waiting calm]

theorem State.cmbTick_retire {c k : Nat} (working : (s.written r p).combState c < 2) (witness : (s.written r p).cmbMode.cw = 0) :
    (s.waiting r p (.retire c)).cmbTick k = (s.written r p).retire k c := by
  have event : (s.written r p).combEvent k (.retire c) = (s.written r p).retire k c := if_pos working
  rw [State.cmbTick_waiting calm, event]
  rw [event, State.cmbMode_retire witness]
  exact fun _ => addNew_ne_nil _ _

end

/-! ### Restored (R281) -/

/-- A retired comb returns to the working ones. -/
def State.returned (s : State) (t c : Nat) : State :=
  (s.setCombState c 0).setMode t { s.cmbMode with retired := s.cmbMode.retired.filter (· != c) }

section
variable {s : State} {t c : Nat}

theorem State.restore_of_noStandin (hc : c < 16) (idle : s.cmbMode.cw ≠ 1) : s.restore t c = s.returned t c := by
  rw [State.restore, if_neg (by omega)]
  dsimp only
  split
  · next standsIn _ _ => exact absurd standsIn idle
  · rfl

theorem State.cmbMode_returned : (s.returned t c).cmbMode = { s.cmbMode with retired := s.cmbMode.retired.filter (· != c) } :=
  State.cmbMode_setMode _ _ _

theorem State.combState_returned_same (hc : c < 16) : (s.returned t c).combState c = 0 :=
  (State.combState_setMode _ _ _ hc).trans (State.combState_setCombState_same _ _ _)

theorem State.combState_returned_ne {d : Nat} (hd : d < 16) (other : d ≠ c) : (s.returned t c).combState d = s.combState d :=
  (State.combState_setMode _ _ _ hd).trans (State.combState_setCombState_ne _ _ other)

/-- A new set of states after a change of registers alone. -/
theorem State.setMode_of_regs {u : State} (h : ∃ r, u = { s with regs := r }) (m : CmbMode) :
    u.setMode t m = { s with regs := (u.setMode t m).regs, cmb := { s.cmb with modes := (u.setMode t m).cmb.modes } } := by
  obtain ⟨r, rfl⟩ := h
  rw [State.setMode_eq]

theorem State.returned_eq : s.returned t c = { s with
    regs := (s.returned t c).regs, cmb := { s.cmb with modes := (s.returned t c).cmb.modes } } :=
  State.setMode_of_regs ⟨_, rfl⟩ _

end

theorem State.cmbTick_restore {s : State} {r : List (Nat × BitVec 32)} {p : Seal} (calm : s.cmb.todo = []) {c k : Nat} (hc : c < 16)
    (retired : (s.written r p).combState c = 2) (idle : s.cmbMode.cw ≠ 1) :
    (s.waiting r p (.restore c)).cmbTick k = (s.written r p).returned k c := by
  have event : (s.written r p).combEvent k (.restore c) = (s.written r p).returned k c := by
    rw [← State.restore_of_noStandin hc (State.cmbMode_written.symm ▸ idle)]
    exact if_pos (by simp [retired])
  rw [State.cmbTick_waiting calm, event]
  rw [event, State.cmbMode_returned]
  exact fun standsIn => absurd (State.cmbMode_written (s := s) ▸ standsIn) idle

/-! ### CW's switch (Table 10-5) -/

/-- CW goes OFF. -/
def State.witnessOff (s : State) (t : Nat) : State := s.unpend.setMode t { s.cmbMode with cw := 3, standin := none }

/-- CW that stands in stands in for a RETIRED comb. -/
theorem retired_of_cwBack_standsIn {m : CmbMode} (h : (cwBack m).cw = 1) : (cwBack m).retired ≠ [] := by
  unfold cwBack at h ⊢
  split at h
  · next c low =>
    intro none
    dsimp only at none
    simp [lowestOf, none] at low
  · contradiction

section
variable {s : State} {k : Nat}

theorem State.witnessSwitch_off (on : s.cmbMode.cw ≠ 3) : s.witnessSwitch k false = s.witnessOff k := by
  simp [State.witnessSwitch, on, State.witnessOff]

theorem State.witnessSwitch_on (off : s.cmbMode.cw = 3) : s.witnessSwitch k true = s.setMode k (cwBack s.cmbMode) := by
  simp [State.witnessSwitch, off]

/-- The states in force after the switch. -/
theorem State.cmbMode_witnessSwitch {on : Bool} (turns : on = true ↔ s.cmbMode.cw = 3) :
    (s.witnessSwitch k on).cmbMode = if on then cwBack s.cmbMode else { s.cmbMode with cw := 3, standin := none } := by
  cases on with
  | false =>
    rw [State.witnessSwitch_off (by simpa using turns)]
    exact State.cmbMode_setMode _ _ _
  | true =>
    rw [State.witnessSwitch_on (turns.mp rfl)]
    exact State.cmbMode_setMode _ _ _

theorem State.witnessSwitch_eq {on : Bool} (turns : on = true ↔ s.cmbMode.cw = 3) : s.witnessSwitch k on = { s with
    regs := (s.witnessSwitch k on).regs, cmb := { s.cmb with modes := (s.witnessSwitch k on).cmb.modes } } := by
  cases on with
  | false =>
    rw [State.witnessSwitch_off (by simpa using turns)]
    exact State.setMode_of_regs ⟨_, s.unpend_eq⟩ _
  | true =>
    rw [State.witnessSwitch_on (turns.mp rfl)]
    exact State.setMode_of_regs ⟨_, rfl⟩ _

end

theorem State.cmbTick_witness {s : State} {r : List (Nat × BitVec 32)} {p : Seal} (calm : s.cmb.todo = []) {on : Bool} {k : Nat}
    (turns : on = true ↔ (s.written r p).cmbMode.cw = 3) :
    (s.waiting r p (.witness on)).cmbTick k = (s.written r p).witnessSwitch k on := by
  have event : (s.written r p).combEvent k (.witness on) = (s.written r p).witnessSwitch k on := rfl
  rw [State.cmbTick_waiting calm, event]
  rw [event, State.cmbMode_witnessSwitch turns]
  cases on with
  | false => exact fun standsIn => absurd standsIn (by simp)
  | true => exact retired_of_cwBack_standsIn

end Sys2Proof.Machine
end


section
/-!
PROOFS. RETIRE_COMB, RESTORE_COMB, WITNESS_ENABLE_WRITE and COMB_RETIRE, from the write to the end of the tick (R273, R281).
-/
namespace Sys2Proof.Machine

/-- A host write at an index the part has. -/
theorem hostTo_of {ok : Bool} (h : ok = true) (a v : Nat) (s : State) : hostTo ok a v s = .next (s.hostWrite a v) := by
  rw [hostTo, if_pos h]

theorem State.waiting_eq (s : State) (r : List (Nat × BitVec 32)) (p : Seal) (e : CombEvent) :
    s.waiting r p e = { s with regs := (s.waiting r p e).regs, cmb := { s.cmb with todo := [e] }, pass := (s.waiting r p e).pass } := rfl

theorem CMB_RETIRE_image {c : Nat} (hc : c < 16) :
    Nat.land (c % 2 ^ 32) 0x11F % 2 ^ 32 = c ∧ Nat.land ((2 ^ 8 + c) % 2 ^ 32) 0x11F % 2 ^ 32 = 2 ^ 8 + c := by
  revert c
  decide

section
variable {s : State} {c new : Nat} (hc : c < 16) (calm : s.cmb.todo = [])
include hc calm

theorem State.retireComb_takes (k : Nat) (h : s.hostReaches .wo CMB_RETIRE_CMD c new) (working : s.combState c < 2) (witness : s.cmbMode.cw = 0) :
    Takes (.retireComb c) s (fun t =>
      let u := t.cmbTick k
      (s.sameRegs t [CMB_RETIRE_CMD] ∧ t = { s with regs := t.regs, cmb := { s.cmb with todo := [.retire c] }, pass := t.pass })
      ∧ t.rd CMB_RETIRE_CMD = 0
      ∧ u.combState c = 2 ∧ u.cmbMode = ⟨addNew s.cmbMode.retired c, 1, some c⟩ ∧ u.bit CMB_ERR 4 = 1 ∧ u.combState 16 = 1
      ∧ u = { t with regs := u.regs, cmb := { s.cmb with modes := u.cmb.modes }, pci := u.pci, out := u.out }) := by
  obtain ⟨r, p, written, same, zero⟩ := State.hostWrite_CMB_RETIRE_CMD (e := .retire c) h (CMB_RETIRE_image hc).1 calm
    fun t states => State.retireCmd_retire hc ((states c).symm ▸ working)
  have state := State.combState_written same CMB_RETIRE_CMD_ne_STATE
  have mode : (s.written r p).cmbMode.cw = 0 := State.cmbMode_written.symm ▸ witness
  have ends := State.cmbTick_retire (k := k) calm ((state c).symm ▸ working) mode
  refine ⟨_, (hostTo_of (by simp; omega) _ _ s).trans (congrArg _ written), ?_⟩
  dsimp only
  rw [ends]
  refine ⟨⟨same, s.waiting_eq r p _⟩, zero, State.combState_retire mode k hc, ?_, State.bit_retire mode k c,
    State.combState_retire_witness mode k c, ?_⟩
  · rw [State.cmbMode_retire mode, State.cmbMode_written]
  · exact State.retire_eq mode k c

theorem State.restoreComb_takes (k : Nat) (h : s.hostReaches .wo CMB_RETIRE_CMD (2 ^ 8 + c) new) (retired : s.combState c = 2)
    (idle : s.cmbMode.cw ≠ 1) :
    Takes (.restoreComb c) s (fun t =>
      let u := t.cmbTick k
      (s.sameRegs t [CMB_RETIRE_CMD] ∧ t = { s with regs := t.regs, cmb := { s.cmb with todo := [.restore c] }, pass := t.pass })
      ∧ t.rd CMB_RETIRE_CMD = 0
      ∧ u.combState c = 0 ∧ u.cmbMode = { s.cmbMode with retired := s.cmbMode.retired.filter (· != c) }
      ∧ (∀ d, d < 16 → d ≠ c → u.combState d = s.combState d)
      ∧ u = { t with regs := u.regs, cmb := { s.cmb with modes := u.cmb.modes } }) := by
  obtain ⟨r, p, written, same, zero⟩ := State.hostWrite_CMB_RETIRE_CMD (e := .restore c) h (CMB_RETIRE_image hc).2 calm
    fun t states => State.retireCmd_restore hc ((states c).trans retired)
  have state := State.combState_written same CMB_RETIRE_CMD_ne_STATE
  have ends := State.cmbTick_restore (k := k) calm hc ((state c).trans retired) idle
  refine ⟨_, (hostTo_of (by simp; omega) _ _ s).trans (congrArg _ written), ?_⟩
  dsimp only
  rw [ends]
  refine ⟨⟨same, s.waiting_eq r p _⟩, zero, State.combState_returned_same hc, ?_, fun d hd other => ?_, State.returned_eq⟩
  · rw [State.cmbMode_returned, State.cmbMode_written]
  · rw [State.combState_returned_ne hd other, state]

end

/-! ### CMB_CTRL.WIT_EN -/

/-- The write that switches CW makes of CMB_CTRL what it gives. -/
theorem State.hostReaches.new_CMB_CTRL {s : State} {new b : Nat} (h : s.hostReaches .rw CMB_CTRL (setBits (s.rd CMB_CTRL) 1 1 b) new)
    (small : s.rd CMB_CTRL < 4) : new = setBits (s.rd CMB_CTRL) 1 1 b := by
  obtain ⟨⟨-, -, -, -, -, -, r, row, -, merged, -⟩, -⟩ := h
  cases rowOf_CMB_CTRL.symm.trans row
  have low (n : Nat) : Nat.land n 3 = n % 4 := Nat.and_two_pow_sub_one_eq_mod n 2
  have fits : setBits (s.rd CMB_CTRL) 1 1 b < 4 := by
    simp only [setBits, bitsOf]
    omega
  rw [merged]
  simp only [RegRow.merge, dropBits, low]
  omega

theorem State.witnessEnableWrite_takes {s : State} {on : Bool} {new : Nat} (k : Nat)
    (h : s.hostReaches .rw CMB_CTRL (setBits (s.rd CMB_CTRL) 1 1 (if on then 1 else 0)) new) (small : s.rd CMB_CTRL < 4)
    (changes : s.bit CMB_CTRL 1 = (if on then 0 else 1)) (turns : on = true ↔ s.cmbMode.cw = 3) (calm : s.cmb.todo = []) :
    Takes (.witnessEnableWrite on) s (fun t =>
      let u := t.cmbTick k
      (s.sameRegs t [CMB_CTRL] ∧ t = { s with regs := t.regs, cmb := { s.cmb with todo := [.witness on] }, pass := t.pass })
      ∧ t.bit CMB_CTRL 1 = (if on then 1 else 0) ∧ t.bit CMB_CTRL 0 = s.bit CMB_CTRL 0
      ∧ u.cmbMode = (if on then cwBack s.cmbMode else { s.cmbMode with cw := 3, standin := none })
      ∧ u = { t with regs := u.regs, cmb := { s.cmb with modes := u.cmb.modes } }) := by
  obtain ⟨p, written⟩ := State.hostWrite_of_silent h silent_CMB_CTRL
  obtain rfl := h.new_CMB_CTRL small
  have same : s.sameRegs (s.setBit CMB_CTRL 1 on) [CMB_CTRL] := (State.sameRegs_of_regs_eq rfl).setBit _ _ (.head _)
  have witEn : (s.setBit CMB_CTRL 1 on).bit CMB_CTRL 1 = if on then 1 else 0 := State.bit_setBit_same _ _ _ _ (by decide)
  have en : (s.setBit CMB_CTRL 1 on).bit CMB_CTRL 0 = s.bit CMB_CTRL 0 := State.bit_setBit_ne _ _ _ (by decide) (by decide)
  have set : s.wr CMB_CTRL (setBits (s.rd CMB_CTRL) 1 1 (if on then 1 else 0)) = s.setBit CMB_CTRL 1 on := rfl
  have was : bitOf (s.rd CMB_CTRL) 1 = if on then 0 else 1 := changes
  have defers : (bitOf (s.rd CMB_CTRL) 1 != (s.setBit CMB_CTRL 1 on).bit CMB_CTRL 1) = true
      ∧ ((s.setBit CMB_CTRL 1 on).bit CMB_CTRL 1 == 1) = on := by
    rw [was, witEn]
    cases on <;> decide
  rw [set, blockPost_CMB_CTRL en.symm, defers.1, defers.2, if_pos rfl, State.combDefer_eq, State.setBit_cmb, calm] at written
  have waits : s.hostWrite CMB_CTRL (setBits (s.rd CMB_CTRL) 1 1 (if on then 1 else 0))
      = s.waiting (s.setBit CMB_CTRL 1 on).regs p (.witness on) := written
  have mode : (s.written (s.setBit CMB_CTRL 1 on).regs p).cmbMode = s.cmbMode := State.cmbMode_written
  have ends := State.cmbTick_witness (k := k) (r := (s.setBit CMB_CTRL 1 on).regs) (p := p) calm (mode.symm ▸ turns)
  refine ⟨_, (hostTo_of rfl _ _ s).trans (congrArg _ waits), ?_⟩
  dsimp only
  rw [ends]
  refine ⟨⟨same, s.waiting_eq _ p _⟩, witEn, en, ?_, State.witnessSwitch_eq (mode.symm ▸ turns)⟩
  rw [State.cmbMode_witnessSwitch (mode.symm ▸ turns), mode]

/-! ### COMB_RETIRE -/

theorem combRetire_runs {p : Pkt} {k : Nat} {key : List Byte} {u s : State} (op : pkOp p.bytes = 0x0A01) (h : s.accepts p k key u)
    (whole : (pkParams p.bytes).length = 4) (fits : strayBits 0x11F (beAt (pkParams p.bytes) 0 4) = false) :
    Runs .combRetire s p k key 0 [] (fun t => t = u.retireCmd (beAt (pkParams p.bytes) 0 4)) := by
  refine ⟨_, opRow_executes h op ?_, rfl⟩
  simp [Ctx.b, whole, fits, done]

end Sys2Proof.Machine
end


section
/-!
PROOFS. Worker cores retired and restored by command (R334).
-/
namespace Sys2Proof.Machine

/-! ### Which cores are RETIRED -/

section
variable {s t : State} {p : Nat}

theorem State.coreRetired_setRetired_same (s : State) (p : Nat) (b : Bool) : (s.setRetired p b).coreRetired p = b := by
  rw [State.coreRetired, State.setRetired, State.bit_setBit_same _ _ _ _ (by omega)]
  cases b <;> rfl

theorem State.coreRetired_setRetired_ne (s : State) {p r : Nat} (b : Bool) (h : r ≠ p) : (s.setRetired p b).coreRetired r = s.coreRetired r := by
  rw [State.coreRetired, State.setRetired]
  by_cases word : r / 32 = p / 32
  · rw [word, State.bit_setBit_ne _ _ _ (by omega) (by omega), State.coreRetired, word]
  · rw [State.bit_setBit_other _ _ _ _ (by unfold WRK_PRETIRED; omega), State.coreRetired]

theorem State.sameRegs.coreRetired {l : List Nat} (h : s.sameRegs t l) {r : Nat} (hr : WRK_PRETIRED (r / 32) ∉ l) :
    t.coreRetired r = s.coreRetired r := by
  rw [State.coreRetired, h.bit hr, State.coreRetired]

/-- Setting the same core leaves states alike that were alike. -/
theorem State.coreRetired_setRetired_congr (h : ∀ r, t.coreRetired r = s.coreRetired r) (p : Nat) (b : Bool) (r : Nat) :
    (t.setRetired p b).coreRetired r = (s.setRetired p b).coreRetired r := by
  by_cases core : r = p
  · rw [core, State.coreRetired_setRetired_same, State.coreRetired_setRetired_same]
  · rw [State.coreRetired_setRetired_ne _ _ core, State.coreRetired_setRetired_ne _ _ core, h]

theorem State.freeSpare_congr (cores : ∀ r, t.coreRetired r = s.coreRetired r) (wrk : t.wrk = s.wrk) : t.freeSpare = s.freeSpare := by
  simp only [State.freeSpare, cores, wrk]

theorem WRK_PRETIRED_ne {j a : Nat} (h : a < 0xD00014) : WRK_PRETIRED j ≠ a := by
  unfold WRK_PRETIRED
  omega

theorem WRK_PRETIRED_ne_PCI_ERR {r : Nat} (h : r < 68) : WRK_PRETIRED (r / 32) ≠ PCI_ERR := by
  unfold WRK_PRETIRED PCI_ERR
  omega

end

/-! ### RETIRE and RESTORE -/

/-- Core p is RETIRED, and its worker n is to move to the spare q. -/
def State.coreMoved (s : State) (p n q : Nat) : State :=
  { (s.setRetired p true).flag WRK_ERR 3 with wrk := { s.wrk with moves := s.wrk.moves ++ [(n, q, 0)] } }

/-- Core p is back, with no errors and its worker no longer stopped. -/
def State.coreBack (s : State) (p : Nat) : State :=
  { s.setRetired p false with wrk := { s.wrk with
    errs := spDel s.wrk.errs p, stopped := s.wrk.stopped.filter (fun n => nth s.wrk.phys n 0 != p) } }

theorem State.freeSpare_flag (s : State) (i : Nat) : (s.flag WRK_ERR i).freeSpare = s.freeSpare := by
  have cores (r : Nat) (hr : r ∈ List.range 68) : (s.flag WRK_ERR i).coreRetired r = s.coreRetired r := by
    rw [State.coreRetired, State.bit_flag_ne _ _ _ (WRK_PRETIRED_ne (by decide)) (WRK_PRETIRED_ne_PCI_ERR (List.mem_range.mp hr)),
      State.coreRetired]
  exact List.find?_congr fun r hr => by rw [cores r hr, State.flag_wrk]

theorem State.rd_withWrk (s : State) (w : Wrk) (a : Nat) : State.rd { s with wrk := w } a = s.rd a := rfl

theorem State.rd_coreMoved (s : State) (p n q a : Nat) : (s.coreMoved p n q).rd a = ((s.setRetired p true).flag WRK_ERR 3).rd a :=
  State.rd_withWrk _ _ a

theorem State.coreRetired_coreMoved (s : State) (p n q : Nat) {r : Nat} (hr : r < 68) :
    (s.coreMoved p n q).coreRetired r = (s.setRetired p true).coreRetired r := by
  rw [State.coreRetired, State.bit, State.rd_coreMoved, State.rd_flag_ne _ _ (WRK_PRETIRED_ne (by decide)) (WRK_PRETIRED_ne_PCI_ERR hr),
    State.coreRetired, State.bit]

theorem State.coreRetired_coreBack (s : State) (p r : Nat) : (s.coreBack p).coreRetired r = (s.setRetired p false).coreRetired r := rfl

section
variable {s : State} {p n q : Nat} (hp : p < 68)
include hp

theorem State.retireCoreCmd_retire (sound : s.coreRetired p = false) (used : s.wrk.phys.findIdx? (· == p) = some n)
    (spare : (s.setRetired p true).freeSpare = some q) : s.retireCoreCmd p = s.coreMoved p n q := by
  have core : p % 128 = p := Nat.mod_eq_of_lt (by omega)
  have action : bitOf p 8 = 0 := by unfold bitOf; omega
  have known : ¬ 68 ≤ p := by omega
  have next : ((s.setRetired p true).flag WRK_ERR 3).freeSpare = some q := (State.freeSpare_flag _ 3).trans spare
  simp only [State.retireCoreCmd, core, known, if_false, action, if_true, State.retireCore, sound, decide_false, Bool.or_self,
    Bool.false_eq_true, used, next]
  rw [State.flag_wrk]
  rfl

theorem State.retireCoreCmd_restore (retired : s.coreRetired p = true) : s.retireCoreCmd (2 ^ 8 + p) = s.coreBack p := by
  have core : (2 ^ 8 + p) % 128 = p := by omega
  have action : bitOf (2 ^ 8 + p) 8 = 1 := by unfold bitOf; omega
  have known : ¬ 68 ≤ p := by omega
  simp only [State.retireCoreCmd, core, known, if_false, action, Nat.one_ne_zero, State.restoreCore, retired, Bool.not_true, Bool.false_eq_true]
  rfl

theorem WRK_RETIRE_image : Nat.land (p % 2 ^ 32) 0x17F % 2 ^ 32 = p ∧ Nat.land ((2 ^ 8 + p) % 2 ^ 32) 0x17F % 2 ^ 32 = 2 ^ 8 + p := by
  revert p
  decide

end

theorem silent_WRK_RETIRE_CMD : silent WRK_RETIRE_CMD := ⟨by decide, by decide, by decide⟩

theorem rowOf_WRK_RETIRE_CMD : rowOf WRK_RETIRE_CMD = some ⟨"WRK_RETIRE_CMD", WRK_RETIRE_CMD, 1, 4, 1, 4, .wo, 0, 0x17F, true⟩ := by decide +kernel

theorem blockPost_WRK_RETIRE_CMD (old v : Nat) (s : State) :
    blockPost WRK_RETIRE_CMD old v s = (s.wr WRK_RETIRE_CMD 0).retireCoreCmd (s.rd WRK_RETIRE_CMD) := by
  have post : blockPost WRK_RETIRE_CMD old v s = wrkPost WRK_RETIRE_CMD old (s.noteEn WRK_RETIRE_CMD old s.tick) := rfl
  rw [post, State.noteEn_of_other _ _ _ (by decide)]
  rfl

/-- The command runs over the state but for its own register. -/
theorem State.hostWrite_WRK_RETIRE_CMD {s : State} {img new : Nat} (h : s.hostReaches .wo WRK_RETIRE_CMD img new)
    (whole : Nat.land (img % 2 ^ 32) 0x17F % 2 ^ 32 = img) : ∃ w p, s.regWork [WRK_RETIRE_CMD] w
      ∧ s.hostWrite WRK_RETIRE_CMD img = { (w.retireCoreCmd img).wr WRK_RETIRE_CMD 0 with pass := p } := by
  obtain ⟨p, written⟩ := State.hostWrite_of_reaches_wo h silent_WRK_RETIRE_CMD
  have image : (s.wr WRK_RETIRE_CMD new).rd WRK_RETIRE_CMD = img := by
    rw [State.rd_wr_same, h.new_wo rowOf_WRK_RETIRE_CMD]
    exact whole
  rw [blockPost_WRK_RETIRE_CMD, image] at written
  exact ⟨_, p, (State.regWork.refl.wr _ (.head _)).wr _ (.head _), written⟩

theorem State.regWork.wrk {s w : State} {l : List Nat} (h : s.regWork l w) : w.wrk = s.wrk := by
  obtain ⟨_, rfl⟩ := h.frame
  rfl

theorem State.rd_withPass (s : State) (p : Seal) (a : Nat) : State.rd { s with pass := p } a = s.rd a := rfl

/-- Cores do not see the command's register. -/
theorem State.coreRetired_written (u : State) (v : Nat) (p : Seal) (r : Nat) :
    State.coreRetired { u.wr WRK_RETIRE_CMD v with pass := p } r = u.coreRetired r := by
  rw [State.coreRetired, State.bit, State.rd_withPass, State.rd_wr_ne _ _ (WRK_PRETIRED_ne (by decide)), State.coreRetired, State.bit]

section
variable {s : State} {p new : Nat} (hp : p < 68)
include hp

theorem State.retireCore_takes {n q : Nat} (h : s.hostReaches .wo WRK_RETIRE_CMD p new) (sound : s.coreRetired p = false)
    (used : s.wrk.phys.findIdx? (· == p) = some n) (spare : (s.setRetired p true).freeSpare = some q) :
    Takes (.retireCore p) s (fun t =>
      t.coreRetired p = true ∧ (∀ r, r ≠ p → r < 68 → t.coreRetired r = s.coreRetired r) ∧ t.wrk.moves = s.wrk.moves ++ [(n, q, 0)]
      ∧ t.bit WRK_ERR 3 = 1
      ∧ t = { s with regs := t.regs, wrk := { s.wrk with moves := t.wrk.moves }, pci := t.pci, out := t.out, pass := t.pass }) := by
  obtain ⟨w, pass, work, written⟩ := State.hostWrite_WRK_RETIRE_CMD h (WRK_RETIRE_image hp).1
  have cores (r : Nat) : w.coreRetired r = s.coreRetired r := work.regs.coreRetired (by simpa using WRK_PRETIRED_ne (a := WRK_RETIRE_CMD) (by decide))
  have spare' : (w.setRetired p true).freeSpare = some q := by
    rw [← spare]
    exact State.freeSpare_congr (State.coreRetired_setRetired_congr cores p true) work.wrk
  rw [State.retireCoreCmd_retire hp ((cores p).trans sound) (work.wrk.symm ▸ used) spare'] at written
  refine ⟨_, (hostTo_of (by simp; omega) _ _ s).trans (congrArg _ written), ?_, fun r other hr => ?_, ?_, ?_, ?_⟩
  · rw [State.coreRetired_written, State.coreRetired_coreMoved _ _ _ _ hp, State.coreRetired_setRetired_same]
  · rw [State.coreRetired_written, State.coreRetired_coreMoved _ _ _ _ hr, State.coreRetired_setRetired_ne _ _ other, cores]
  · exact congrArg (·.moves ++ [(n, q, 0)]) work.wrk
  · rw [State.bit, State.rd_withPass, State.rd_wr_ne _ _ (by decide), State.rd_coreMoved]
    exact State.bit_flag_same _ _ (by decide) (by decide)
  · obtain ⟨r, rfl⟩ := work.frame
    rw [State.coreMoved, State.flag_eq]
    rfl

theorem State.restoreCore_takes (h : s.hostReaches .wo WRK_RETIRE_CMD (2 ^ 8 + p) new) (retired : s.coreRetired p = true) :
    Takes (.restoreCore p) s (fun t =>
      t.coreRetired p = false ∧ (∀ r, r ≠ p → r < 68 → t.coreRetired r = s.coreRetired r) ∧ spGet zeroNat t.wrk.errs p = 0
      ∧ t.wrk.stopped = s.wrk.stopped.filter (fun n => nth s.wrk.phys n 0 != p)
      ∧ t = { s with regs := t.regs, wrk := { s.wrk with errs := t.wrk.errs, stopped := t.wrk.stopped }, pass := t.pass }) := by
  obtain ⟨w, pass, work, written⟩ := State.hostWrite_WRK_RETIRE_CMD h (WRK_RETIRE_image hp).2
  have cores (r : Nat) : w.coreRetired r = s.coreRetired r := work.regs.coreRetired (by simpa using WRK_PRETIRED_ne (a := WRK_RETIRE_CMD) (by decide))
  rw [State.retireCoreCmd_restore hp ((cores p).trans retired)] at written
  refine ⟨_, (hostTo_of (by simp; omega) _ _ s).trans (congrArg _ written), ?_, fun r other hr => ?_, spGet_spDel_same _ _ _, ?_, ?_⟩
  · rw [State.coreRetired_written, State.coreRetired_coreBack, State.coreRetired_setRetired_same]
  · rw [State.coreRetired_written, State.coreRetired_coreBack, State.coreRetired_setRetired_ne _ _ other, cores]
  · exact congrArg (fun k : Wrk => k.stopped.filter (fun n => nth k.phys n 0 != p)) work.wrk
  · obtain ⟨r, rfl⟩ := work.frame
    rfl

end

end Sys2Proof.Machine
end


section
/-!
PROOFS. Keepers retired and restored by command, at the next tick boundary (R549, R560).
-/
namespace Sys2Proof.Machine

/-! ### The state of a keeper -/

/-- Field of keeper k's state. -/
def keeperFld (k : Nat) : Fld := if k = 0 then KPR_STATUS_STATE_A else KPR_STATUS_STATE_B

theorem State.keeperState_eq_fd (s : State) (k : Nat) : s.keeperState k = s.fd KPR_STATUS (keeperFld k) := by
  unfold State.keeperState keeperFld
  split <;> rfl

theorem keeperFld_hi (k : Nat) : (keeperFld k).hi < 32 := by
  unfold keeperFld
  split <;> decide

/-- Setting a field leaves the fields of the register apart from it alone. -/
theorem State.fd_setFd_ne (s : State) (a : Nat) {f g : Fld} (v : Nat) (hf : f.hi < 32) (h : g.hi < f.lo ∨ f.hi < g.lo) :
    (s.setFd a f v).fd a g = s.fd a g := by
  rw [State.fd, State.rd_setFd_same _ _ _ _ hf, bitsOf_setBits_ne _ _ _ _ _ _ h, State.fd]

section
variable {s : State} {k v : Nat}

theorem State.keeperState_setKeeper_same (hv : v < 8) : (s.setKeeper k v).keeperState k = v := by
  have wide : (keeperFld k).hi + 1 - (keeperFld k).lo = 3 := by
    unfold keeperFld
    split <;> rfl
  rw [State.keeperState_eq_fd, State.setKeeper]
  refine (State.fd_setFd_same _ _ _ _ (keeperFld_hi k)).trans ?_
  rw [wide]
  exact Nat.mod_eq_of_lt hv

/-- The other keeper keeps its state. -/
theorem State.keeperState_setKeeper_other (hk : k < 2) : (s.setKeeper k v).keeperState (1 - k) = s.keeperState (1 - k) := by
  have apart : (keeperFld (1 - k)).hi < (keeperFld k).lo ∨ (keeperFld k).hi < (keeperFld (1 - k)).lo := by
    revert k
    decide
  rw [State.keeperState_eq_fd, State.keeperState_eq_fd]
  exact State.fd_setFd_ne _ _ _ (keeperFld_hi k) apart

theorem State.keeperState_setClean (n e : Nat) : (s.setClean n).keeperState e = s.keeperState e := by
  have apart : (keeperFld e).hi < KPR_STATUS_CLEAN.lo := by
    unfold keeperFld
    split <;> decide
  rw [State.keeperState_eq_fd, State.keeperState_eq_fd]
  exact State.fd_setFd_ne _ _ _ (by decide) (.inl apart)

end

theorem State.keeperState_congr {s t : State} (h : t.rd KPR_STATUS = s.rd KPR_STATUS) (k : Nat) : t.keeperState k = s.keeperState k := by
  rw [State.keeperState, State.keeperState, h]

/-! ### The move (R549) -/

/-- Keeper k is out of service. -/
def State.keeperOut (s : State) (k : Nat) : State :=
  (((s.setKeeper k 5).setClean 0).modKpr (fun q => { q with dirty := true, planned := false, recWait := false })).flag KPR_ERR 5

section
variable {s : State} {k : Nat}

theorem State.keeperMoved_out (standby : k ≠ s.keeper) (serving : s.keeperState k ≠ 5) (noTakeover : s.kpr.takeAt = none) :
    s.keeperMoved (k, 5) = s.keeperOut k := by
  have kept : (s.keeperOut k).kpr.takeAt.isSome = false := by
    rw [State.keeperOut, State.flag_kpr, State.modKpr, State.setClean_kpr, State.setKeeper_kpr, noTakeover]
    rfl
  have moved : s.keeperMoved (k, 5) = if (s.keeperOut k).kpr.takeAt.isSome then (s.keeperOut k).goOrphan else s.keeperOut k := by
    simp [State.keeperMoved, standby, serving, State.keeperOut]
  rw [moved, kept]
  rfl

theorem State.keeperMoved_back (retired : s.keeperState k = 5) : s.keeperMoved (k, 2) = s.setKeeper k 2 := by
  simp [State.keeperMoved, retired]

theorem State.rd_modKpr (s : State) (f : Kpr → Kpr) (a : Nat) : (s.modKpr f).rd a = s.rd a := rfl

theorem State.keeperState_keeperOut (e : Nat) : (s.keeperOut k).keeperState e = (s.setKeeper k 5).keeperState e := by
  have status : (s.keeperOut k).rd KPR_STATUS = ((s.setKeeper k 5).setClean 0).rd KPR_STATUS := by
    rw [State.keeperOut, State.rd_flag_ne _ _ (by decide) (by decide), State.rd_modKpr]
  rw [State.keeperState_congr status, State.keeperState_setClean]

theorem State.keeperOut_eq : s.keeperOut k = { s with
    regs := (s.keeperOut k).regs, kpr := { s.kpr with dirty := true, planned := false, recWait := false }, pci := (s.keeperOut k).pci
    out := (s.keeperOut k).out } := by
  rw [State.keeperOut, State.flag_eq]
  rfl

end

/-! ### The command -/

theorem silent_KPR_CMD : silent KPR_CMD := ⟨by decide, by decide, by decide⟩

theorem blockPost_KPR_CMD (old v : Nat) (s : State) : blockPost KPR_CMD old v s = s.keeperCmd v := by
  have post : blockPost KPR_CMD old v s = kprPost KPR_CMD v (s.noteEn KPR_CMD old s.tick) := rfl
  rw [post, State.noteEn_of_other _ _ _ (by decide)]
  rfl

theorem State.keeperMove_of_still {s : State} (still : s.kpr.moves = []) (k v : Nat) :
    s.keeperMove k v = { s with kpr := { s.kpr with moves := [(k, v)] } } := by
  rw [State.keeperMove, State.modKpr, still]
  rfl

section
variable {s : State} {k : Nat} (hk : k < 2)
include hk

theorem State.keeperCmd_retire (standby : k ≠ s.keeper) (serving : s.keeperState k ≠ 5) (present : s.keeperState k ≠ 0) :
    s.keeperCmd k = s.keeperMove k 5 := by
  have keeper : k % 2 = k := Nat.mod_eq_of_lt hk
  have action : bitOf k 8 = 0 := by unfold bitOf; omega
  simp [State.keeperCmd, keeper, action, standby, serving, present]

theorem State.keeperCmd_restore (retired : s.keeperState k = 5) : s.keeperCmd (2 ^ 8 + k) = s.keeperMove k 2 := by
  have keeper : (2 ^ 8 + k) % 2 = k := by omega
  have action : bitOf (2 ^ 8 + k) 8 = 1 := by unfold bitOf; omega
  simp only [State.keeperCmd, keeper, action, if_true, retired]

end

/-- Of `s`, with the command's register read as r has it and the mark of a seal pass, the move that waits. -/
def State.moving (s : State) (r : List (Nat × BitVec 32)) (p : Seal) (m : Nat × Nat) : State :=
  { s with regs := r, kpr := { s.kpr with moves := [m] }, pass := p }

/-- A command the keepers take waits for the tick boundary. -/
theorem State.hostWrite_KPR_CMD {s : State} {img new : Nat} {k v : Nat} (h : s.hostReaches .wo KPR_CMD img new) (small : img < 2 ^ 32)
    (still : s.kpr.moves = [])
    (takes : (s.wr KPR_CMD new).keeperCmd img = (s.wr KPR_CMD new).keeperMove k v) :
    ∃ r p, s.hostWrite KPR_CMD img = s.moving r p (k, v) ∧ s.sameRegs (s.written r p) [KPR_CMD] := by
  obtain ⟨p, written⟩ := State.hostWrite_of_reaches_wo h silent_KPR_CMD
  rw [blockPost_KPR_CMD, Nat.mod_eq_of_lt small, takes, State.keeperMove_of_still (by rw [State.wr_kpr, still])] at written
  exact ⟨_, p, written, fun b hb => (State.rd_written ((s.wr KPR_CMD new).wr KPR_CMD 0) b).trans
    (((State.sameRegs_of_regs_eq (l := [KPR_CMD]) rfl).wr new (.head _)).wr 0 (.head _) b hb)⟩

theorem State.keeperMoves_moving {s : State} {r : List (Nat × BitVec 32)} {p : Seal} (still : s.kpr.moves = []) (m : Nat × Nat) :
    (s.moving r p m).keeperMoves = (s.written r p).keeperMoved m := by
  have same : { s.kpr with moves := [] } = s.kpr := by rw [← still]
  exact congrArg (fun q => State.keeperMoved { s.written r p with kpr := q } m) same

theorem State.moving_eq (s : State) (r : List (Nat × BitVec 32)) (p : Seal) (m : Nat × Nat) :
    s.moving r p m = { s with regs := (s.moving r p m).regs, kpr := { s.kpr with moves := [m] }, pass := (s.moving r p m).pass } := rfl

section
variable {s : State} {k new : Nat} (hk : k < 2) (still : s.kpr.moves = [])
include hk still

theorem State.retireKeeper_takes (h : s.hostReaches .wo KPR_CMD k new) (standby : k ≠ s.keeper) (serving : s.keeperState k ≠ 5)
    (present : s.keeperState k ≠ 0) (noTakeover : s.kpr.takeAt = none) :
    Takes (.retireKeeper k) s (fun t =>
      let u := t.keeperMoves
      s.sameRegs t [KPR_CMD] ∧ t = { s with regs := t.regs, kpr := { s.kpr with moves := [(k, 5)] }, pass := t.pass }
      ∧ u.keeperState k = 5 ∧ u.keeperState (1 - k) = s.keeperState (1 - k) ∧ u.bit KPR_ERR 5 = 1
      ∧ u = { t with regs := u.regs, kpr := { s.kpr with dirty := true, planned := false, recWait := false }, pci := u.pci, out := u.out }) := by
  have status : (s.wr KPR_CMD new).rd KPR_STATUS = s.rd KPR_STATUS := State.rd_wr_ne _ _ (by decide)
  have before := State.keeperState_congr status
  obtain ⟨r, p, written, same⟩ := State.hostWrite_KPR_CMD h (by omega) still
    (State.keeperCmd_retire hk (by rwa [State.keeper, State.bit, status]) ((before k).symm ▸ serving) ((before k).symm ▸ present))
  have kept : (s.written r p).rd KPR_STATUS = s.rd KPR_STATUS := same _ (by decide)
  have state := State.keeperState_congr kept
  have ends := (State.keeperMoves_moving (r := r) (p := p) still (k, 5)).trans
    (State.keeperMoved_out (by rwa [State.keeper, State.bit, kept]) ((state k).symm ▸ serving) noTakeover)
  refine ⟨_, (hostTo_of (by simp; omega) _ _ s).trans (congrArg _ written), ?_⟩
  dsimp only
  rw [ends]
  refine ⟨same, s.moving_eq r p _, ?_, ?_, State.bit_flag_same _ _ (by decide) (by decide), State.keeperOut_eq⟩
  · rw [State.keeperState_keeperOut, State.keeperState_setKeeper_same (by decide)]
  · rw [State.keeperState_keeperOut, State.keeperState_setKeeper_other hk, state]

theorem State.restoreKeeper_takes (h : s.hostReaches .wo KPR_CMD (2 ^ 8 + k) new) (retired : s.keeperState k = 5) :
    Takes (.restoreKeeper k) s (fun t =>
      let u := t.keeperMoves
      s.sameRegs t [KPR_CMD] ∧ t = { s with regs := t.regs, kpr := { s.kpr with moves := [(k, 2)] }, pass := t.pass }
      ∧ u.keeperState k = 2 ∧ u.keeperState (1 - k) = s.keeperState (1 - k) ∧ u = { t with regs := u.regs, kpr := s.kpr }) := by
  have before := State.keeperState_congr (State.rd_wr_ne s new (by decide) : (s.wr KPR_CMD new).rd KPR_STATUS = s.rd KPR_STATUS)
  obtain ⟨r, p, written, same⟩ := State.hostWrite_KPR_CMD h (by omega) still (State.keeperCmd_restore hk ((before k).trans retired))
  have state := State.keeperState_congr (same KPR_STATUS (by decide))
  have ends := (State.keeperMoves_moving (r := r) (p := p) still (k, 2)).trans (State.keeperMoved_back ((state k).trans retired))
  refine ⟨_, (hostTo_of (by simp; omega) _ _ s).trans (congrArg _ written), ?_⟩
  dsimp only
  rw [ends]
  refine ⟨same, s.moving_eq r p _, State.keeperState_setKeeper_same (by decide), ?_, rfl⟩
  rw [State.keeperState_setKeeper_other hk, state]

end

end Sys2Proof.Machine
end

section
/-!
PROOFS. The DDR controller enabled (R438), and O40.
-/
namespace Sys2Proof.Machine

theorem silent_DDR_CTRL : silent DDR_CTRL := ⟨by decide, by decide, by decide⟩

/-- Training starts: the rate, the capacity, the state. -/
def State.training (s : State) : State :=
  let t := s.wr DDR_PEAK (128 * (3200 + 400 * (s.rd DDR_CFG % 16)))
  (t.wr DDR_CAP (t.ddrCapacity / 2 ^ 30)).wr DDR_STATUS (2 ^ 30)

theorem State.noteEn_frame (s : State) (a old t : Nat) : ∃ e, s.noteEn a old t = { s with enAt := e } := by
  unfold State.noteEn
  split
  · exact ⟨_, rfl⟩
  · exact ⟨_, rfl⟩

/-- EN is noted, and training starts. -/
theorem blockPost_DDR_CTRL {old v : Nat} {s : State} (was : bitOf old 0 = 0) (is : s.bit DDR_CTRL 0 = 1) :
    ∃ e, blockPost DDR_CTRL old v s = State.training { s with enAt := e } := by
  have post : blockPost DDR_CTRL old v s = ddrPost DDR_CTRL old (s.noteEn DDR_CTRL old s.tick) := rfl
  obtain ⟨e, noted⟩ := s.noteEn_frame DDR_CTRL old s.tick
  have en : State.bit { s with enAt := e } DDR_CTRL 0 = 1 := is
  have starts : ddrPost DDR_CTRL old { s with enAt := e } = State.training { s with enAt := e } := if_pos (by simp [was, en])
  exact ⟨e, by rw [post, noted, starts]⟩

theorem State.training_work (s : State) : s.regWork [DDR_PEAK, DDR_CAP, DDR_STATUS] s.training :=
  ((State.regWork.refl.wr _ (by decide)).wr _ (by decide)).wr _ (by decide)

theorem State.rd_training_peak (s : State) : s.training.rd DDR_PEAK = 128 * (3200 + 400 * (s.rd DDR_CFG % 16)) := by
  dsimp only [State.training]
  rw [State.rd_wr_ne _ _ (by decide), State.rd_wr_ne _ _ (by decide), State.rd_wr_same]
  exact Nat.mod_eq_of_lt (by omega)

theorem State.rd_training_status (s : State) : s.training.rd DDR_STATUS = 2 ^ 30 := State.rd_wr_same _ _ _

theorem State.ddrEnable_takes {s : State} {new : Nat} (h : s.hostReaches .rw DDR_CTRL (enOf (s.rd DDR_CTRL)) new) (off : s.bit DDR_CTRL 0 = 0)
    (on : bitOf new 0 = 1) :
    Takes .ddrEnable s (fun t =>
      t.bit DDR_CTRL 0 = 1 ∧ t.rd DDR_PEAK = 128 * (3200 + 400 * (s.rd DDR_CFG % 16)) ∧ t.rd DDR_STATUS = 2 ^ 30
      ∧ s.sameRegs t [DDR_CTRL, DDR_PEAK, DDR_CAP, DDR_STATUS]
      ∧ t = { s with regs := t.regs, enAt := t.enAt, pass := t.pass }) := by
  obtain ⟨p, written⟩ := State.hostWrite_of_silent h silent_DDR_CTRL
  have en : (s.wr DDR_CTRL new).bit DDR_CTRL 0 = 1 := by
    rw [State.bit, State.rd_wr_same]
    unfold bitOf at on ⊢
    omega
  obtain ⟨e, trained⟩ := blockPost_DDR_CTRL (v := enOf (s.rd DDR_CTRL) % 2 ^ 32) off en
  rw [trained] at written
  have work := State.training_work { s.wr DDR_CTRL new with enAt := e }
  have before (a : Nat) : State.rd { s.wr DDR_CTRL new with enAt := e } a = (s.wr DDR_CTRL new).rd a := rfl
  refine ⟨_, (hostTo_of rfl _ _ s).trans (congrArg _ written), ?_, ?_, ?_, fun a ha => ?_, ?_⟩
  · rw [State.bit, State.rd_withPass, work.regs _ (by decide), before]
    exact en
  · rw [State.rd_withPass, State.rd_training_peak, before, State.rd_wr_ne _ _ (by decide)]
  · rw [State.rd_withPass, State.rd_training_status]
  · rw [State.rd_withPass, work.regs a (List.not_mem_of_not_mem_cons ha), before, State.rd_wr_ne _ _ (List.ne_of_not_mem_cons ha)]
  · obtain ⟨r, frame⟩ := work.frame
    rw [frame]
    rfl

/-- Settles O40: each write, and what the end of the tick or the next tick boundary makes of it. -/
theorem retireAndRestore : Obligations.RetireAndRestore := by
  unfold Obligations.RetireAndRestore
  refine ⟨?retireComb, ?restoreComb, ?witness, ?command, ?retireCore, ?restoreCore, ?retireKeeper, ?restoreKeeper, ?ddr⟩
  case retireComb => exact fun c new k s hc h working witness calm => State.retireComb_takes hc calm k h working witness
  case restoreComb => exact fun c new k s hc h retired idle calm => State.restoreComb_takes hc calm k h retired idle
  case witness => exact fun on new k s h small changes turns calm => State.witnessEnableWrite_takes k h small changes turns calm
  case command => exact fun p k key u s op h whole fits => combRetire_runs op h whole fits
  case retireCore => exact fun p n q new s hp h sound used spare => State.retireCore_takes hp h sound used spare
  case restoreCore => exact fun p new s hp h retired => State.restoreCore_takes hp h retired
  case retireKeeper =>
    exact fun k new s hk h standby serving present noTakeover still => State.retireKeeper_takes hk still h standby serving present noTakeover
  case restoreKeeper => exact fun k new s hk h retired still => State.restoreKeeper_takes hk still h retired
  case ddr => exact fun new s h off on => State.ddrEnable_takes h off on

end Sys2Proof.Machine
end


section
/-!
PROOFS. The product a comb adds into a slot of its dwell store (R252, R254, R256).
-/
namespace Sys2Proof.Machine

/-! ### Cells of a block -/

/-- Sums of cells. -/
def cellAdd (u v : Int × Int) : Int × Int := (u.1 + v.1, u.2 + v.2)

/-- Entry `i * w + j` of rows of length w laid one after the other is entry j of row i. -/
theorem getElem?_flatMap_rows {α β : Type} {f : α → List β} {w : Nat} (width : ∀ a, (f a).length = w) (l : List α) {i j : Nat} (hj : j < w) :
    (l.flatMap f)[i * w + j]? = l[i]?.bind (fun a => (f a)[j]?) := by
  induction l generalizing i with
  | nil => simp
  | cons a rest ih =>
    rw [List.flatMap_cons]
    cases i with
    | zero => simp [List.getElem?_append_left, width, hj]
    | succ i =>
      have skip : (i + 1) * w + j = (f a).length + (i * w + j) := by rw [width, Nat.succ_mul]; omega
      rw [skip, List.getElem?_append_right (Nat.le_add_right _ _), Nat.add_sub_cancel_left, ih, List.getElem?_cons_succ]

theorem nth_zipWith_cellAdd {b v : List (Int × Int)} {i : Nat} (hb : i < b.length) (hv : i < v.length) :
    nth (List.zipWith cellAdd b v) i (0, 0) = cellAdd (nth b i (0, 0)) (nth v i (0, 0)) := by
  simp [nth, List.getD, hb, hv]

/-- The products of 128 row and 128 column samples, row by row. -/
def products (row col : Nat → Int × Int) : List (Int × Int) :=
  ((List.range 128).map row).flatMap (fun r => ((List.range 128).map col).map (cellProd r))

theorem products_length (row col : Nat → Int × Int) : (products row col).length = 16384 := by
  simp [products, List.length_flatMap, Function.comp_def]

theorem nth_products (row col : Nat → Int × Int) {i j : Nat} (hi : i < 128) (hj : j < 128) :
    nth (products row col) (i * 128 + j) (0, 0) = cellProd (row i) (col j) := by
  rw [nth, List.getD, products, getElem?_flatMap_rows (w := 128) (by simp) _ hj]
  simp [hi, hj]

/-! ### The items of a reference tick (R263) -/

/-- A block-spectrum: spectrum, working comb served, block, slot, channel, pair. -/
abbrev CombItem := Nat × Nat × (Nat × Nat × Nat × Nat × Nat)

section
variable (s : State) (g : CtnSes) (cb x : Nat) (it : CombItem)

/-- The corner turn that holds its dwell. -/
def State.itemGrid : CtnSes := (s.ctnFor x (it.1 / g.d)).getD g

/-- The number of the session's inputs in its dwell. -/
def State.itemInputs : Nat := s.numInputs (g.mapsAt (it.1 / g.d)).inmap

/-- Its slot's bank in the dwell store. -/
def itemKey : Nat := dsKey cb it.2.2.2.1 (it.1 / g.d % 2)

/-- The sample of list position p. -/
def State.itemSample (p : Nat) : Int × Int :=
  if p < s.itemInputs g it then s.broodRead (s.itemGrid g x it) x it.2.2.2.2.1 it.1 (nth (s.inputList x (s.itemInputs g it)) p 0) else (0, 0)

/-- What it adds to the bank. -/
def State.itemProducts : List (Int × Int) :=
  products (fun r => s.itemSample g x it (it.2.2.2.2.2.1 * 128 + r)) (fun q => s.itemSample g x it (it.2.2.2.2.2.2 * 128 + q))

/-- Comb cb does it. -/
def State.takeItem : State :=
  (s.addBlock (s.itemGrid g x it) x (itemKey g cb it) it.2.2.2.2.1 it.1 it.2.2.2.2.2.1 it.2.2.2.2.2.2 (s.itemInputs g it)).noteBrood
    (s.itemGrid g x it) x it.1 it.2.1 it.2.2.2.1 it.2.2.2.2.1 it.2.2.2.2.2.1 it.2.2.2.2.2.2 (s.itemInputs g it)

end

/-- Other dwell stores, other marks of uncorrectable records. -/
def State.withStores (s : State) (d : List (Nat × List (Int × Int))) (n : List (Nat × Nat × Nat × Nat × Nat)) : State :=
  { s with cmb := { s.cmb with dstore := d, noted := n } }

section
variable (s : State) (d : List (Nat × List (Int × Int))) (n : List (Nat × Nat × Nat × Nat × Nat))

theorem State.itemProducts_withStores (g : CtnSes) (x : Nat) (it : CombItem) : (s.withStores d n).itemProducts g x it = s.itemProducts g x it := rfl

theorem State.withStores_withStores (d' : List (Nat × List (Int × Int))) (n' : List (Nat × Nat × Nat × Nat × Nat)) :
    (s.withStores d n).withStores d' n' = s.withStores d' n' := rfl

end

/-! ### One item -/

section
variable (s : State) (g : CtnSes) (cb x : Nat) (it : CombItem)

theorem State.addBlock_eq : s.addBlock (s.itemGrid g x it) x (itemKey g cb it) it.2.2.2.2.1 it.1 it.2.2.2.2.2.1 it.2.2.2.2.2.2 (s.itemInputs g it)
    = s.withStores (spPut s.cmb.dstore (itemKey g cb it) (List.zipWith cellAdd (s.dsGet (itemKey g cb it)) (s.itemProducts g x it))) s.cmb.noted :=
  rfl

theorem State.noteBrood_eq (u : State) (c : CtnSes) (n w slot l a b nx : Nat) :
    ∃ marks, u.noteBrood c x n w slot l a b nx = u.withStores u.cmb.dstore marks ∧ (u.ctn.bad = [] → marks = u.cmb.noted) := by
  unfold State.noteBrood
  split
  · exact ⟨u.cmb.noted, rfl, fun _ => rfl⟩
  · next some =>
    dsimp only [State.when]
    split
    · exact ⟨_, rfl, fun none => absurd (by rw [none]; rfl) some⟩
    · exact ⟨u.cmb.noted, rfl, fun _ => rfl⟩

/-- The products are added to its slot's bank; nothing else changes but for the marks of uncorrectable records. -/
theorem State.takeItem_eq : ∃ marks, s.takeItem g cb x it
      = s.withStores (spPut s.cmb.dstore (itemKey g cb it) (List.zipWith cellAdd (s.dsGet (itemKey g cb it)) (s.itemProducts g x it))) marks
    ∧ (s.ctn.bad = [] → marks = s.cmb.noted) := by
  rw [State.takeItem, State.addBlock_eq]
  exact State.noteBrood_eq _ _ _ _ _ _ _ _ _ _

theorem State.dsGet_takeItem (a : Nat) : (s.takeItem g cb x it).dsGet a
    = if itemKey g cb it = a then List.zipWith cellAdd (s.dsGet a) (s.itemProducts g x it) else s.dsGet a := by
  obtain ⟨marks, taken, -⟩ := s.takeItem_eq g cb x it
  rw [taken]
  split
  · next same =>
    subst same
    simp [State.dsGet, State.withStores, find?_spPut_same]
  · next other => simp [State.dsGet, State.withStores, find?_spPut_ne _ _ (Ne.symm other)]

end

/-! ### The items of a list, one after another -/

section
variable (g : CtnSes) (cb x : Nat)

/-- What items add to a bank that reads b. -/
def State.itemsAdded (s : State) (l : List CombItem) (b : List (Int × Int)) : List (Int × Int) :=
  l.foldl (fun b it => List.zipWith cellAdd b (s.itemProducts g x it)) b

/-- The dwell store after the items: a bank no item of which is in the list stays. -/
theorem State.each_takeItem (l : List CombItem) (s : State) : ∃ d marks, s.each l (·.takeItem g cb x ·) = s.withStores d marks
    ∧ (s.ctn.bad = [] → marks = s.cmb.noted)
    ∧ ∀ a, (s.withStores d marks).dsGet a = s.itemsAdded g x (l.filter (fun it => itemKey g cb it == a)) (s.dsGet a) := by
  induction l generalizing s with
  | nil => exact ⟨s.cmb.dstore, s.cmb.noted, rfl, fun _ => rfl, fun _ => rfl⟩
  | cons it rest ih =>
    obtain ⟨marks, taken, sound⟩ := s.takeItem_eq g cb x it
    obtain ⟨d, marks', rest', sound', stores⟩ := ih (s.takeItem g cb x it)
    have bank := s.dsGet_takeItem g cb x it
    rw [taken] at rest' sound' stores bank
    refine ⟨d, marks', ?_, fun none => (sound' none).trans (sound none), fun a => ?_⟩
    · rw [State.each_cons, taken, rest', State.withStores_withStores]
    · rw [← State.withStores_withStores s _ marks, stores, bank]
      by_cases same : itemKey g cb it = a
      · simp [same, State.itemsAdded, State.itemProducts_withStores]
      · simp [same, State.itemsAdded, State.itemProducts_withStores]

/-- One cell of it. -/
theorem State.nth_itemsAdded (s : State) (l : List CombItem) {b : List (Int × Int)} (hb : b.length = 16384) {i j : Nat} (hi : i < 128)
    (hj : j < 128) : nth (s.itemsAdded g x l b) (i * 128 + j) (0, 0) = l.foldl (fun v it =>
      cellAdd v (cellProd (s.itemSample g x it (it.2.2.2.2.2.1 * 128 + i)) (s.itemSample g x it (it.2.2.2.2.2.2 * 128 + j))))
      (nth b (i * 128 + j) (0, 0)) := by
  have inside : i * 128 + j < 16384 := by omega
  induction l generalizing b with
  | nil => rfl
  | cons it rest ih =>
    have length : (s.itemProducts g x it).length = 16384 := products_length _ _
    have cell : nth (List.zipWith cellAdd b (s.itemProducts g x it)) (i * 128 + j) (0, 0) = _ :=
      nth_zipWith_cellAdd (by omega) (by omega)
    rw [State.itemProducts, nth_products _ _ hi hj] at cell
    rw [List.foldl_cons, ← cell]
    exact ih (by simp [hb, length])

end

end Sys2Proof.Machine
end


section
/-!
PROOFS. The work of a reference tick on a comb (R262 to R264, R537): the books of what is done and of the cycles taken, and the part of one session.
-/
namespace Sys2Proof.Machine

/-! ### The books -/

/-- Block-spectra of reference tick k of session x that comb cb has done. -/
def workDone (l : List CmbWork) (x cb k : Nat) : Nat :=
  ((l.find? (fun e => e.x == x && e.comb == cb && e.k == k)).getD ⟨x, cb, k, 0, 0, 0⟩).done

/-- The entry of a session, comb and reference tick is replaced. -/
def workPut (l : List CmbWork) (e : CmbWork) : List CmbWork := e :: l.filter (fun f => !(f.x == e.x && f.comb == e.comb && f.k == e.k))

theorem workDone_workPut_same (l : List CmbWork) (e : CmbWork) : workDone (workPut l e) e.x e.comb e.k = e.done := by
  simp [workDone, workPut]

theorem workDone_workPut_ne (l : List CmbWork) (e : CmbWork) {x cb k : Nat} (other : ¬ (x = e.x ∧ cb = e.comb ∧ k = e.k)) :
    workDone (workPut l e) x cb k = workDone l x cb k := by
  have head : (e.x == x && e.comb == cb && e.k == k) = false := by
    simp only [Bool.and_eq_false_iff, beq_eq_false_iff_ne]
    omega
  rw [workDone, workPut, List.find?_cons, head, List.find?_filter, workDone]
  congr 2
  refine List.find?_congr fun f _ => ?_
  by_cases wanted : (f.x == x && f.comb == cb && f.k == k) = true
  · simp only [Bool.and_eq_true, beq_iff_eq] at wanted
    obtain ⟨⟨rfl, rfl⟩, rfl⟩ := wanted
    have kept : (f.x == e.x && f.comb == e.comb && f.k == e.k) = false := by
      simp only [Bool.and_eq_false_iff, beq_eq_false_iff_ne]
      omega
    simp [kept]
  · simp [wanted]

/-- Cycles that session x has taken of comb cb in tick t. -/
def usedCycles (l : List (Nat × Nat × Nat × Nat)) (t x cb : Nat) : Nat :=
  match l.find? (fun u => u.1 == t && u.2.1 == x && u.2.2.1 == cb) with | some u => u.2.2.2 | none => 0

/-- Their entry is replaced, those of earlier ticks go. -/
def usedPut (l : List (Nat × Nat × Nat × Nat)) (t x cb c : Nat) : List (Nat × Nat × Nat × Nat) :=
  (t, x, cb, c) :: l.filter (fun u => u.1 == t && !(u.2.1 == x && u.2.2.1 == cb))

theorem usedCycles_usedPut (l : List (Nat × Nat × Nat × Nat)) (t x cb c : Nat) : usedCycles (usedPut l t x cb c) t x cb = c := by
  simp [usedCycles, usedPut]

theorem usedCycles_of_unused {l : List (Nat × Nat × Nat × Nat)} {t x cb : Nat} (h : ∀ u ∈ l, ¬ (u.1 = t ∧ u.2.1 = x ∧ u.2.2.1 = cb)) :
    usedCycles l t x cb = 0 := by
  have none : l.find? (fun u => u.1 == t && u.2.1 == x && u.2.2.1 == cb) = none := by
    simpa [and_assoc] using h
  rw [usedCycles, none]

/-- The cycle comb cb has come to in tick t, where it did n items. -/
def busyPut (l : List (Nat × Nat × Nat)) (t cb pos n : Nat) : List (Nat × Nat × Nat) :=
  if n = 0 then l else (t, cb, pos) :: l.filter (fun u => u.1 == t && u.2.1 != cb)

/-- Other books. -/
def State.withBooks (s : State) (w : List CmbWork) (u : List (Nat × Nat × Nat × Nat)) (b : List (Nat × Nat × Nat)) : State :=
  { s with cmb := { s.cmb with work := w, used := u, busy := b } }

/-! ### One session's part -/

/-- The working comb the first of the items serves. -/
def firstServed (l : List CombItem) (cb : Nat) : Nat :=
  match l with
  | it :: _ => it.2.1
  | [] => cb

section
variable (s : State) (x : Nat) (m : CmbSes) (cb k : Nat)

/-- Block-spectra that the grant leaves it (R537). -/
def State.combGrant : Nat :=
  let used := usedCycles s.cmb.used s.tick x cb
  let left := s.combLeft x m cb k
  ((s.combShare x (s.cmbGrid x m) cb (firstServed left cb) (used + left.length * (s.cmbGrid x m).mCycles)).1 - used) / (s.cmbGrid x m).mCycles

/-- The cycle in which the comb starts it (R262). -/
def State.combAt : Nat := if s.sesReplay x || s.begun (k + 2) then s.combPos cb else max (s.combPos cb) (combStart cb)

/-- Block-spectra that the tick has room for. -/
def State.combFit : Nat := (combCycles - s.combAt x cb k) / (s.cmbGrid x m).mCycles

/-- Block-spectra that it takes. -/
def State.combCount : Nat := min (s.combLeft x m cb k).length (min (s.combGrant x m cb k) (s.combFit x m cb k))

/-- The items that it takes, in order. -/
def State.combTakes : List CombItem := (s.combLeft x m cb k).take (s.combCount x m cb k)

/-- It takes them, and the books show it. -/
theorem State.combSession_eq (h : s.cmbOf x = some m) :
    ∃ why cool, s.combSession cb k x = (fun t : State => t.withBooks
        (workPut t.cmb.work ⟨x, cb, k, (s.combDone x cb k).1 + s.combCount x m cb k, why, cool⟩)
        (usedPut t.cmb.used t.tick x cb (usedCycles s.cmb.used s.tick x cb + s.combCount x m cb k * (s.cmbGrid x m).mCycles))
        (busyPut t.cmb.busy t.tick cb (s.combAt x cb k + s.combCount x m cb k * (s.cmbGrid x m).mCycles) (s.combCount x m cb k)))
      (s.each (s.combTakes x m cb k) (·.takeItem (s.cmbGrid x m) cb x ·)) := by
  unfold State.combSession
  rw [h]
  exact ⟨_, _, rfl⟩

end

end Sys2Proof.Machine
end


section
/-!
PROOFS. The tick work of a comb with one live session (R262 to R264, R537).
-/
namespace Sys2Proof.Machine

/-! ### What books leave alone -/

section
variable (s : State) (w : List CmbWork) (u : List (Nat × Nat × Nat × Nat)) (x : Nat) (m : CmbSes) (cb k : Nat)

/-- With other books that say the same of what is done, the same items are left. -/
theorem State.combLeft_withBooks (done : workDone w x cb k = workDone s.cmb.work x cb k) :
    (s.withBooks w u s.cmb.busy).combLeft x m cb k = s.combLeft x m cb k :=
  congrArg ((s.combItems x m cb k).drop ·) done

/-- And the same are taken. -/
theorem State.combCount_withBooks (done : workDone w x cb k = workDone s.cmb.work x cb k)
    (used : usedCycles u s.tick x cb = usedCycles s.cmb.used s.tick x cb) :
    (s.withBooks w u s.cmb.busy).combCount x m cb k = s.combCount x m cb k := by
  have used' : usedCycles (s.withBooks w u s.cmb.busy).cmb.used (s.withBooks w u s.cmb.busy).tick x cb = usedCycles s.cmb.used s.tick x cb := used
  have left := s.combLeft_withBooks w u x m cb k done
  have grant : (s.withBooks w u s.cmb.busy).combGrant x m cb k = s.combGrant x m cb k := by
    rw [State.combGrant, used', left]
    rfl
  rw [State.combCount, left, grant]
  rfl

end

/-! ### The session's grant (R537) -/

theorem CtnSes.mCycles_pos (g : CtnSes) : 0 < g.mCycles := by
  unfold CtnSes.mCycles
  split <;> decide

section
variable {s : State} {x : Nat} {m : CmbSes} {cb k : Nat} (unused : usedCycles s.cmb.used s.tick x cb = 0)
include unused

/-- With no grant listed it may do all. -/
theorem State.combGrant_of_none (free : s.grants = []) : s.combGrant x m cb k = (s.combLeft x m cb k).length := by
  have share (g : CtnSes) (w want : Nat) : (s.combShare x g cb w want).1 = want := by
    simp only [State.combShare, State.granted, free, List.find?_nil]
    split <;> rfl
  rw [State.combGrant]
  simp only [share, unused, Nat.zero_add, Nat.sub_zero]
  exact Nat.mul_div_cancel _ (CtnSes.mCycles_pos _)

/-- With less granted than wanted, a working comb has an equal share, the remainder with the lowest. -/
theorem State.combGrant_of_short {r : Grant} (hc : cb < 16) (listed : s.grants.find? (fun r => r.x == x && r.unit == 0) = some r)
    (short : r.got < r.want) (own : ∀ it ∈ s.combLeft x m cb k, it.2.1 = cb) :
    s.combGrant x m cb k = (r.got / 16 + if cb < r.got % 16 then 1 else 0) / (s.cmbGrid x m).mCycles := by
  have serves : firstServed (s.combLeft x m cb k) cb = cb := by
    unfold firstServed
    split
    · next it _ items => exact own it (items ▸ List.mem_cons_self)
    · rfl
  have notCw : cb ≠ 16 := by omega
  rw [State.combGrant]
  simp only [unused, Nat.sub_zero, serves, State.combShare, notCw, decide_false, Bool.false_and, Bool.false_eq_true, if_false, listed,
    Nat.not_le.mpr short]

end

/-! ### The rounds of a tick -/

section
variable {s : State} {x c k : Nat} (only : s.combOrder = [x]) (live : s.sesReplay x = false)
include only live

theorem State.combLive_of_due (works : s.worksOn 10 k = true) (begun : s.begun (k + 1) = true) (open_ : s.begun (k + 3) = false) :
    s.combLive c k = s.combSession c k x := by
  simp [State.combLive, works, begun, open_, only, live]

/-- A session that is live has no replay work. -/
theorem State.combReplay_of_live : s.combReplay c k = s := by
  have none : s.combOrder.filter s.sesReplay = [] := by simp [only, live]
  simp only [State.combReplay, none]
  exact ite_self _

/-- The round of a reference tick of which nothing is left changes only books, and in them neither what is done nor the cycles taken. -/
theorem State.combLive_of_nothing_left {m : CmbSes} (session : s.cmbOf x = some m) (nothing : s.combLeft x m c k = [])
    (unused : usedCycles s.cmb.used s.tick x c = 0) :
    ∃ w u, s.combLive c k = s.withBooks w u s.cmb.busy ∧ (∀ y cb e, workDone w y cb e = workDone s.cmb.work y cb e)
      ∧ usedCycles u s.tick x c = 0 := by
  by_cases due : s.worksOn 10 k = true ∧ s.begun (k + 1) = true ∧ s.begun (k + 3) = false
  · obtain ⟨works, begun, open_⟩ := due
    have count : s.combCount x m c k = 0 := by simp [State.combCount, nothing]
    obtain ⟨why, cool, session⟩ := s.combSession_eq x m c k session
    rw [State.combLive_of_due only live works begun open_, session, State.combTakes, nothing, count, List.take_nil, State.each_nil]
    refine ⟨_, _, rfl, fun y cb e => ?_, ?_⟩
    · by_cases same : y = x ∧ cb = c ∧ e = k
      · obtain ⟨rfl, rfl, rfl⟩ := same
        exact workDone_workPut_same _ _
      · exact workDone_workPut_ne _ _ same
    · rw [usedCycles_usedPut, unused, Nat.zero_mul]
  · refine ⟨s.cmb.work, s.cmb.used, if_pos ?_, fun _ _ _ => rfl, unused⟩
    simp only [Bool.or_eq_true, Bool.not_eq_true', ← Bool.not_eq_true] at due ⊢
    tauto

end

section
variable {s : State} {x c k : Nat} {m : CmbSes} (only : s.combOrder = [x]) (live : s.sesReplay x = false) (session : s.cmbOf x = some m)
  (unused : usedCycles s.cmb.used s.tick x c = 0)
include only live session unused

/-- What is left of the reference tick before comes first; here nothing is left to be done. -/
theorem State.combEarlier_done (earlier : k = 0 ∨ s.begun (k + 2) = true ∨ s.combLeft x m c (k - 1) = []) :
    ∃ w u, s.when (k != 0) (·.combLive c (k - 1)) = s.withBooks w u s.cmb.busy
      ∧ (∀ y cb e, workDone w y cb e = workDone s.cmb.work y cb e) ∧ usedCycles u s.tick x c = 0 := by
  by_cases first : k = 0
  · exact ⟨s.cmb.work, s.cmb.used, by simp [State.when, first]; rfl, fun _ _ _ => rfl, unused⟩
  · have later : s.when (k != 0) (·.combLive c (k - 1)) = s.combLive c (k - 1) := by simp [State.when, first]
    rw [later]
    rcases earlier with zero | past | nothing
    · exact absurd zero first
    · have idle : s.combLive c (k - 1) = s := by
        have ended : s.begun (k - 1 + 3) = true := by rwa [show k - 1 + 3 = k + 2 by omega]
        simp [State.combLive, ended]
      exact ⟨s.cmb.work, s.cmb.used, idle, fun _ _ _ => rfl, unused⟩
    · exact State.combLive_of_nothing_left only live session nothing unused

end

end Sys2Proof.Machine
end


section
/-!
PROOFS. COMB_TICK_WORK with one live session: what a comb has done in the tick, and what its slots hold (R252 to R264, R537).
-/
namespace Sys2Proof.Machine

/-- The row for a comb the part has, of a reference tick that the combs work on, with no errors met. -/
theorem exec_combTickWork {s : State} {c k : Nat} (hc : c ≤ 16) (works : s.worksOn 10 k = true) (begun : s.begun (k + 1) = true) :
    exec (.combTickWork c k []) s = .next (((s.when (k != 0) (·.combLive c (k - 1))).combLive c k).combReplay c k) := by
  have on : s.blockOn 10 = true := by
    rw [State.worksOn, Bool.and_eq_true] at works
    exact works.1
  have row : exec (.combTickWork c k []) s = execCombTickWork c k [] s := rfl
  have known : ¬ c > 16 := by omega
  rw [row, execCombTickWork, if_neg (by simp [known, on, begun])]
  rfl

section
variable {s : State} {c k x : Nat} {m : CmbSes} (hc : c ≤ 16) (works : s.worksOn 10 k = true) (begun : s.begun (k + 1) = true)
  (open_ : s.begun (k + 3) = false) (session : s.cmbOf x = some m) (only : s.combOrder = [x]) (live : s.sesReplay x = false)
  (earlier : k = 0 ∨ s.begun (k + 2) = true ∨ s.combLeft x m c (k - 1) = []) (unused : usedCycles s.cmb.used s.tick x c = 0)
include hc works begun open_ session only live earlier unused

/-- The comb takes the first of what is left, as many as its grant and the tick have room for; the slots' banks gain the products. -/
theorem State.combTickWork_runs : ∃ w u b d marks, exec (.combTickWork c k []) s = .next ((s.withStores d marks).withBooks w u b)
      ∧ workDone w x c k = workDone s.cmb.work x c k + s.combCount x m c k
      ∧ (∀ y cb e, ¬ (y = x ∧ cb = c ∧ e = k) → workDone w y cb e = workDone s.cmb.work y cb e)
      ∧ (s.ctn.bad = [] → marks = s.cmb.noted)
      ∧ ∀ a, (s.withStores d marks).dsGet a = s.itemsAdded (s.cmbGrid x m) x
          ((s.combTakes x m c k).filter (fun it => itemKey (s.cmbGrid x m) c it == a)) (s.dsGet a) := by
  obtain ⟨w, u, first, done, unused'⟩ := State.combEarlier_done only live session unused earlier
  have count := s.combCount_withBooks w u x m c k (done x c k) (unused'.trans unused.symm)
  have takes : (s.withBooks w u s.cmb.busy).combTakes x m c k = s.combTakes x m c k := by
    rw [State.combTakes, count, s.combLeft_withBooks w u x m c k (done x c k), State.combTakes]
  obtain ⟨why, cool, books⟩ := (s.withBooks w u s.cmb.busy).combSession_eq x m c k session
  obtain ⟨d, marks, taken, sound, stores⟩ := State.each_takeItem ((s.withBooks w u s.cmb.busy).cmbGrid x m) c x
    ((s.withBooks w u s.cmb.busy).combTakes x m c k) (s.withBooks w u s.cmb.busy)
  rw [taken, count] at books
  have round : ∃ e u' b, (s.withBooks w u s.cmb.busy).combSession c k x = (s.withStores d marks).withBooks (workPut w e) u' b
      ∧ e = ⟨x, c, k, workDone w x c k + s.combCount x m c k, why, cool⟩ := ⟨_, _, _, books, rfl⟩
  obtain ⟨e, u', b, round, entry⟩ := round
  have due : (s.withBooks w u s.cmb.busy).combLive c k = (s.withBooks w u s.cmb.busy).combSession c k x :=
    State.combLive_of_due only live works begun open_
  rw [takes] at stores
  refine ⟨workPut w e, u', b, d, marks, ?_, ?_, fun y cb j other => ?_, sound, stores⟩
  · rw [exec_combTickWork hc works begun, first, due, round]
    exact congrArg _ (State.combReplay_of_live only live)
  · rw [entry, ← done]
    exact workDone_workPut_same _ _
  · rw [entry]
    exact (workDone_workPut_ne _ _ other).trans (done y cb j)

end

/-- The tick work of a comb, for what it takes. -/
theorem combTickWork_takes {s : State} {c k x n : Nat} {m : CmbSes} (hc : c ≤ 16) (works : s.worksOn 10 k = true) (begun : s.begun (k + 1) = true)
    (open_ : s.begun (k + 3) = false) (session : s.cmbOf x = some m) (only : s.combOrder = [x]) (live : s.sesReplay x = false)
    (earlier : k = 0 ∨ s.begun (k + 2) = true ∨ s.combLeft x m c (k - 1) = [])
    (unused : usedCycles s.cmb.used s.tick x c = 0) (count : s.combCount x m c k = n) :
    Takes (.combTickWork c k []) s (fun t =>
      (t.combDone x c k).1 = (s.combDone x c k).1 + n
      ∧ (∀ y cb e, ¬ (y = x ∧ cb = c ∧ e = k) → (t.combDone y cb e).1 = (s.combDone y cb e).1)
      ∧ (∀ a i j, i < 128 → j < 128 → (s.dsGet a).length = 16384 →
          nth (t.dsGet a) (i * 128 + j) (0, 0)
            = (((s.combLeft x m c k).take n).filter (fun it => itemKey (s.cmbGrid x m) c it == a)).foldl (fun v it =>
                cellAdd v (cellProd (s.itemSample (s.cmbGrid x m) x it (it.2.2.2.2.2.1 * 128 + i))
                  (s.itemSample (s.cmbGrid x m) x it (it.2.2.2.2.2.2 * 128 + j)))) (nth (s.dsGet a) (i * 128 + j) (0, 0)))
      ∧ (∀ a, (∀ it ∈ (s.combLeft x m c k).take n, itemKey (s.cmbGrid x m) c it ≠ a) → t.dsGet a = s.dsGet a)
      ∧ (s.ctn.bad = [] → t.cmb.noted = s.cmb.noted)
      ∧ t = { s with cmb := { s.cmb with dstore := t.cmb.dstore, work := t.cmb.work, used := t.cmb.used, busy := t.cmb.busy
                                         noted := t.cmb.noted } }) := by
  obtain ⟨w, u, b, d, marks, run, done, others, sound, stores⟩ :=
    State.combTickWork_runs hc works begun open_ session only live earlier unused
  rw [State.combTakes, count] at stores
  rw [count] at done
  have bank (a : Nat) : ((s.withStores d marks).withBooks w u b).dsGet a = (s.withStores d marks).dsGet a := rfl
  refine ⟨_, run, done, others, fun a i j hi hj whole => ?_, fun a other => ?_, sound, rfl⟩
  · rw [bank, stores, State.nth_itemsAdded _ _ _ _ whole hi hj]
  · have none : ((s.combLeft x m c k).take n).filter (fun it => itemKey (s.cmbGrid x m) c it == a) = [] := by
      simpa using other
    rw [bank, stores, none]
    rfl

end Sys2Proof.Machine
end


section
/-!
PROOFS. The dump of a dwell (R266 to R269, R278 to R281): what it carries, the bank it clears, the end of a session's comb work.
-/
namespace Sys2Proof.Machine

/-! ### What a dump carries -/

section
variable (s : State) (x d : Nat) (c : CtnSes)

/-- The number of the session's inputs in the dwell. -/
def State.dumpInputs : Nat := s.numInputs (c.mapsAt d).inmap

/-- The presence codes. -/
def State.dumpCodes : List Nat := (List.range (s.dumpInputs d c)).map (fun i => s.presence x d i)

/-- The list positions whose input is absent. -/
def State.dumpAbsent : List Nat := (List.range (s.dumpInputs d c)).filter (fun p =>
  nth (s.dumpCodes x d c) (nth (s.inputList x (s.dumpInputs d c)) p 0) 0 % 2 == 0)

/-- The dump. -/
def State.dumpOf : Dump := ⟨x, d, s.dumpInputs d c, s.inputList x (s.dumpInputs d c), s.numOwned (c.mapsAt d).map, c, s.dumpCodes x d c,
  (List.range 16).flatMap (fun w => (s.combBlocks x c d w).map (s.dumpBlock x c d w (s.dumpAbsent x d c)))⟩

/-- The slots' banks that it reads. -/
def State.dumpKeys : List Nat := (List.range 17).flatMap (fun cb =>
  (List.range (ceilDiv (s.gx (c.mapsAt d)) 16)).map (fun j => dsKey cb (s.slotBase x + j) (d % 2)))

end

theorem State.mem_dumpKeys (s : State) (x d : Nat) (c : CtnSes) (a : Nat) :
    a ∈ s.dumpKeys x d c ↔ ∃ cb j, cb < 17 ∧ j < ceilDiv (s.gx (c.mapsAt d)) 16 ∧ a = dsKey cb (s.slotBase x + j) (d % 2) := by
  simp only [State.dumpKeys, List.mem_flatMap, List.mem_map, List.mem_range]
  constructor
  · rintro ⟨cb, hcb, j, hj, rfl⟩
    exact ⟨cb, j, hcb, hj, rfl⟩
  · rintro ⟨cb, j, hcb, hj, rfl⟩
    exact ⟨cb, hcb, j, hj, rfl⟩

/-! ### Its blocks -/

/-- Rows or columns of group grp among list positions. -/
def groupOf (l : List Nat) (grp : Nat) : List Nat := (l.filter (fun p => p / 128 == grp)).map (· % 128)

theorem mem_groupOf (l : List Nat) (grp r : Nat) : r ∈ groupOf l grp ↔ r < 128 ∧ grp * 128 + r ∈ l := by
  simp only [groupOf, List.mem_map, List.mem_filter, beq_iff_eq]
  constructor
  · rintro ⟨p, ⟨hp, rfl⟩, rfl⟩
    exact ⟨Nat.mod_lt _ (by decide), by rwa [Nat.div_add_mod' p 128]⟩
  · rintro ⟨small, hp⟩
    exact ⟨_, ⟨hp, by omega⟩, by omega⟩

section
variable (s : State) (x d w : Nat) (c : CtnSes) (out : List Nat) (g : Nat × Nat × Nat × Nat × Nat)

/-- A block's place, and its rows and columns of absent inputs. -/
theorem State.dumpBlock_place : (s.dumpBlock x c d w out g).g = g.1 ∧ (s.dumpBlock x c d w out g).comb = w
    ∧ (s.dumpBlock x c d w out g).slot = g.2.1 ∧ (s.dumpBlock x c d w out g).exRows = groupOf out g.2.2.2.1
    ∧ (s.dumpBlock x c d w out g).exCols = groupOf out g.2.2.2.2 := by
  unfold State.dumpBlock
  split
  · exact ⟨rfl, rfl, rfl, rfl, rfl⟩
  · exact ⟨rfl, rfl, rfl, rfl, rfl⟩

/-- The block of a store that comb cb holds. -/
theorem State.dumpBlock_of_source {cb : Nat} (source : s.sourceComb c d w = some cb) : let b := s.dumpBlock x c d w out g
    b.withheld = false ∧ b.suspect = (cb == w && s.retiredSince c d w)
      ∧ (s.cmb.bad = [] → b.vals = maskCells b.exRows b.exCols (s.dsGet (dsKey cb g.2.1 (d % 2))) ∧ b.uncorr = []) := by
  dsimp only
  simp only [State.dumpBlock, source]
  exact ⟨trivial, trivial, fun sound => by simp [sound]⟩

theorem State.dumpBlock_of_none (source : s.sourceComb c d w = none) : (s.dumpBlock x c d w out g).withheld = true := by
  simp only [State.dumpBlock, source]

end

section
variable {s : State} {d w : Nat} {c : CtnSes}

theorem State.sourceComb_of_working (working : w ∉ (s.modeAt c d).retired) : s.sourceComb c d w = some w := by
  simp [State.sourceComb, working]

theorem State.sourceComb_of_standin (retired : w ∈ (s.modeAt c d).retired) (stands : (s.modeAt c d).cw = 1 ∧ (s.modeAt c d).standin = some w) :
    s.sourceComb c d w = some 16 := by
  simp [State.sourceComb, retired, stands]

theorem State.sourceComb_of_lost (retired : w ∈ (s.modeAt c d).retired)
    (alone : ¬ ((s.modeAt c d).cw = 1 ∧ (s.modeAt c d).standin = some w)) : s.sourceComb c d w = none := by
  simp only [State.sourceComb, List.contains_eq_mem, retired, decide_true, Bool.not_true, Bool.false_eq_true, if_false]
  exact if_neg (by simpa using alone)

theorem State.mem_dumpAbsent (s : State) (x d : Nat) (c : CtnSes) (p : Nat) : p ∈ s.dumpAbsent x d c ↔ p < s.dumpInputs d c
    ∧ nth (s.dumpCodes x d c) (nth (s.inputList x (s.dumpInputs d c)) p 0) 0 % 2 = 0 := by
  simp [State.dumpAbsent]

end

/-- Each slot of a comb has its block in the dump. -/
theorem State.dumpOf_block (s : State) (x d : Nat) (c : CtnSes) {w : Nat} {g : Nat × Nat × Nat × Nat × Nat} (hw : w < 16)
    (hg : g ∈ s.combBlocks x c d w) : let D := s.dumpOf x d c; let md := s.modeAt c d
    ∃ b ∈ D.blocks, b.g = g.1 ∧ b.comb = w ∧ b.slot = g.2.1
      ∧ (∀ r, r ∈ b.exRows ↔ r < 128 ∧ g.2.2.2.1 * 128 + r < D.nx ∧ nth D.codes (nth D.list (g.2.2.2.1 * 128 + r) 0) 0 % 2 = 0)
      ∧ (∀ q, q ∈ b.exCols ↔ q < 128 ∧ g.2.2.2.2 * 128 + q < D.nx ∧ nth D.codes (nth D.list (g.2.2.2.2 * 128 + q) 0) 0 % 2 = 0)
      ∧ (w ∉ md.retired → b.withheld = false ∧ b.suspect = s.retiredSince c d w
          ∧ (s.cmb.bad = [] → b.vals = maskCells b.exRows b.exCols (s.dsGet (dsKey w g.2.1 (d % 2))) ∧ b.uncorr = []))
      ∧ (w ∈ md.retired → md.cw = 1 → md.standin = some w → b.withheld = false ∧ b.suspect = false
          ∧ (s.cmb.bad = [] → b.vals = maskCells b.exRows b.exCols (s.dsGet (dsKey 16 g.2.1 (d % 2)))))
      ∧ (w ∈ md.retired → ¬ (md.cw = 1 ∧ md.standin = some w) → b.withheld = true) := by
  intro D md
  have member : s.dumpBlock x c d w (s.dumpAbsent x d c) g ∈ D.blocks :=
    List.mem_flatMap.mpr ⟨w, List.mem_range.mpr hw, List.mem_map.mpr ⟨g, hg, rfl⟩⟩
  obtain ⟨number, comb, slot, rows, cols⟩ := s.dumpBlock_place x d w c (s.dumpAbsent x d c) g
  refine ⟨_, member, number, comb, slot, fun r => ?rows, fun q => ?cols, fun working => ?working, fun retired cw standin => ?standin,
    fun retired alone => ?lost⟩
  case rows => rw [rows, mem_groupOf, State.mem_dumpAbsent]; rfl
  case cols => rw [cols, mem_groupOf, State.mem_dumpAbsent]; rfl
  case working =>
    obtain ⟨kept, suspect, vals⟩ := s.dumpBlock_of_source x d w c (s.dumpAbsent x d c) g (State.sourceComb_of_working working)
    exact ⟨kept, by rw [suspect]; simp, vals⟩
  case standin =>
    obtain ⟨kept, suspect, vals⟩ := s.dumpBlock_of_source x d w c (s.dumpAbsent x d c) g (State.sourceComb_of_standin retired ⟨cw, standin⟩)
    have notCw : (16 == w) = false := beq_false_of_ne (by omega)
    exact ⟨kept, by rw [suspect, notCw, Bool.false_and], fun sound => (vals sound).1⟩
  case lost => exact s.dumpBlock_of_none x d w c _ g (State.sourceComb_of_lost retired alone)

end Sys2Proof.Machine
end


section
/-!
PROOFS. COMB_DUMP: the bank cleared, the registers, the end of a session's comb work, and O15.
-/
namespace Sys2Proof.Machine

/-! ### Stores and sessions -/

theorem find?_spDel_same {α : Type} (l : List (Nat × α)) (k : Nat) : (spDel l k).find? (·.1 == k) = none := by
  induction l with
  | nil => rfl
  | cons e t ih =>
    obtain ⟨a, w⟩ := e
    rw [spDel]
    split
    · exact ih
    · next other => rw [List.find?_cons_of_neg (by simpa using other), ih]

theorem find?_spDel_ne {α : Type} (l : List (Nat × α)) {k j : Nat} (h : j ≠ k) : (spDel l k).find? (·.1 == j) = l.find? (·.1 == j) := by
  induction l with
  | nil => rfl
  | cons e t ih =>
    obtain ⟨a, w⟩ := e
    rw [spDel]
    split
    · next same => rw [ih, List.find?_cons_of_neg (by simpa [same] using h.symm)]
    · simp only [List.find?_cons, ih]

/-- Banks cleared. -/
def State.withDstore (s : State) (d : List (Nat × List (Int × Int))) : State := { s with cmb := { s.cmb with dstore := d } }

theorem State.dsGet_cleared (s : State) {keys : List Nat} {a : Nat} (h : a ∈ keys) :
    (s.withDstore (s.cmb.dstore.filter (fun b => !keys.contains b.1))).dsGet a = zeroBlock := by
  have none : (s.cmb.dstore.filter (fun b => !keys.contains b.1)).find? (·.1 == a) = none := by
    rw [List.find?_eq_none]
    rintro b hb
    simp only [List.mem_filter, Bool.not_eq_true', List.contains_eq_mem, decide_eq_false_iff_not] at hb
    simp only [beq_iff_eq]
    rintro rfl
    exact hb.2 h
  simp only [State.dsGet, State.withDstore, none]

theorem State.dsGet_kept (s : State) {keys : List Nat} {a : Nat} (h : a ∉ keys) :
    (s.withDstore (s.cmb.dstore.filter (fun b => !keys.contains b.1))).dsGet a = s.dsGet a := by
  have same : (s.cmb.dstore.filter (fun b => !keys.contains b.1)).find? (·.1 == a) = s.cmb.dstore.find? (·.1 == a) := by
    rw [List.find?_filter]
    refine List.find?_congr fun b _ => ?_
    by_cases here : b.1 = a
    · simp [here, h]
    · simp [here]
  simp only [State.dsGet, State.withDstore, same]

/-! ### The dump issued -/

/-- The dump waits to be drained, its bank is clear, and its marks and comparison go their ways. -/
def State.dumpTaken (s : State) (x d : Nat) (c : CtnSes) : State := { s with cmb := { s.cmb with
  dstore := s.cmb.dstore.filter (fun b => !(s.dumpKeys x d c).contains b.1)
  bad := s.cmb.bad.filter (fun b => !(s.dumpKeys x d c).contains b.1)
  seen := s.cmb.seen.filter (fun b => !(s.dumpKeys x d c).contains b.1)
  lost := s.cmb.lost.filter (fun e => !(e.1 == x && e.2.1 == d))
  noted := s.cmb.noted.filter (fun e => !(e.1 == x && e.2.1 == d))
  work := s.cmb.work.filter (fun e => !(s.sesReplay x && e.x == x))
  skip := s.cmb.skip.filter (· != (x, d))
  wit := s.cmb.wit ++ s.witnessOf x c d
  dumps := s.cmb.dumps ++ [s.dumpOf x d c] } }

/-- The session's registers show it. -/
def State.dumpShown (s : State) (x d : Nat) (c : CtnSes) (suspect : Bool) : State :=
  let s := (s.wr (CMB_SESx_DWELL_LO x) (d % 2 ^ 32)).when suspect (·.count (CMB_SESx_SUSPECT x) 1)
  s.setFd (CMB_SESx_STATUS x) ⟨4, 0⟩ (if (s.modeAt c (d + 1)).cw = 0 && !s.sesReplay x then s.witnessed x (d + 1) else 0x1F)

/-- The session goes on, or its comb work has ended. -/
def State.dumpEnded (s : State) (x d : Nat) (c : CtnSes) (m : CmbSes) : State :=
  if m.last = some d then s.combEnd x else s.setCmb x { m with dumped := some d, grid := c }

/-- The dump is issued. -/
def State.dumpIssued (s : State) (x d : Nat) (c : CtnSes) (m : CmbSes) : State :=
  ((s.dumpTaken x d c).dumpShown x d c ((s.dumpOf x d c).blocks.any (·.suspect))).dumpEnded x d c m

section
variable (s : State) (x d : Nat) (c : CtnSes)

theorem State.dumpShown_work (suspect : Bool) : s.regWork [CMB_SESx_DWELL_LO x, CMB_SESx_SUSPECT x, CMB_SESx_STATUS x] (s.dumpShown x d c suspect) := by
  have dwell : s.regWork [CMB_SESx_DWELL_LO x, CMB_SESx_SUSPECT x, CMB_SESx_STATUS x] (s.wr (CMB_SESx_DWELL_LO x) (d % 2 ^ 32)) :=
    State.regWork.refl.wr _ (.head _)
  cases suspect with
  | false => exact dwell.setFd _ _ (.tail _ (.tail _ (.head _)))
  | true => exact (dwell.wr _ (.tail _ (.head _))).setFd _ _ (.tail _ (.tail _ (.head _)))

theorem State.rd_dumpShown_dwell (suspect : Bool) : (s.dumpShown x d c suspect).rd (CMB_SESx_DWELL_LO x) = d % 2 ^ 32 := by
  have status : CMB_SESx_DWELL_LO x ≠ CMB_SESx_STATUS x := by unfold CMB_SESx_DWELL_LO CMB_SESx_STATUS; omega
  have counter : CMB_SESx_DWELL_LO x ≠ CMB_SESx_SUSPECT x := by unfold CMB_SESx_DWELL_LO CMB_SESx_SUSPECT; omega
  have dwell : (s.wr (CMB_SESx_DWELL_LO x) (d % 2 ^ 32)).rd (CMB_SESx_DWELL_LO x) = d % 2 ^ 32 :=
    (State.rd_wr_same _ _ _).trans (Nat.mod_mod _ _)
  rw [State.dumpShown, State.rd_setFd_ne _ _ _ status]
  cases suspect with
  | false => exact dwell
  | true => exact (State.rd_count_ne _ _ counter).trans dwell

end

/-! ### The end of comb work -/

/-- Without session x. -/
def State.withoutCmb (s : State) (x : Nat) : State := { s with cmb := { s.cmb with ses := spDel s.cmb.ses x } }

section
variable {s : State} {x d : Nat} {c : CtnSes} {m : CmbSes}

theorem State.combEnd_of_last (session : s.cmbOf x = some m) (final : m.renew = none) :
    s.combEnd x = ((s.withoutCmb x).wr (CMB_SESx_STATUS x) 0x1F).showLoad := by
  simp only [State.combEnd, session, Option.bind_some, final]
  rfl

/-- The registers that the end of a dump may write. -/
def endedRegs (x : Nat) : List Nat := [CMB_SESx_STATUS x, CMB_LOAD, CMB_PEAK]

theorem State.combEnd_work (session : s.cmbOf x = some m) (final : m.renew = none) : (s.withoutCmb x).regWork (endedRegs x) (s.combEnd x) := by
  rw [State.combEnd_of_last session final]
  have status : (s.withoutCmb x).regWork (endedRegs x) ((s.withoutCmb x).wr (CMB_SESx_STATUS x) 0x1F) := State.regWork.refl.wr _ (.head _)
  exact (status.wr _ (.tail _ (.head _))).wr _ (.tail _ (.tail _ (.head _)))

theorem State.regWork.cmbOf {t : State} {l : List Nat} (h : s.regWork l t) (y : Nat) : t.cmbOf y = s.cmbOf y := by
  obtain ⟨_, rfl⟩ := h.frame
  rfl

theorem State.cmbOf_withoutCmb_same (s : State) (x : Nat) : (s.withoutCmb x).cmbOf x = none :=
  congrArg (Option.map _) (find?_spDel_same s.cmb.ses x)

theorem State.cmbOf_withoutCmb_ne (s : State) {x y : Nat} (h : y ≠ x) : (s.withoutCmb x).cmbOf y = s.cmbOf y :=
  congrArg (Option.map _) (find?_spDel_ne s.cmb.ses h)

theorem State.cmbOf_setCmb_same (s : State) (x : Nat) (m : CmbSes) : (s.setCmb x m).cmbOf x = some m :=
  congrArg (Option.map _) (find?_spPut_same s.cmb.ses x m)

theorem State.cmbOf_setCmb_ne (s : State) {x y : Nat} (m : CmbSes) (h : y ≠ x) : (s.setCmb x m).cmbOf y = s.cmbOf y :=
  congrArg (Option.map _) (find?_spPut_ne s.cmb.ses m h)

section
variable (session : s.cmbOf x = some m) (final : m.renew = none)
include session final

/-- The end of a dump changes sessions and registers alone. -/
theorem State.dumpEnded_work : ∃ r l, s.dumpEnded x d c m = { s with regs := r, cmb := { s.cmb with ses := l } }
    ∧ s.sameRegs (s.dumpEnded x d c m) (endedRegs x) := by
  unfold State.dumpEnded
  split
  · obtain ⟨r, frame⟩ := (State.combEnd_work session final).frame
    exact ⟨r, spDel s.cmb.ses x, frame, (State.combEnd_work session final).regs⟩
  · exact ⟨s.regs, _, rfl, fun _ _ => rfl⟩

theorem State.cmbOf_dumpEnded : (m.last = some d → (s.dumpEnded x d c m).cmbOf x = none)
    ∧ (m.last ≠ some d → (s.dumpEnded x d c m).cmbOf x = some { m with dumped := some d, grid := c })
    ∧ ∀ y, y ≠ x → (s.dumpEnded x d c m).cmbOf y = s.cmbOf y := by
  have work := State.combEnd_work session final
  by_cases last : m.last = some d
  · rw [State.dumpEnded, if_pos last]
    exact ⟨fun _ => (work.cmbOf x).trans (s.cmbOf_withoutCmb_same x), absurd last, fun y other => (work.cmbOf y).trans (s.cmbOf_withoutCmb_ne other)⟩
  · rw [State.dumpEnded, if_neg last]
    exact ⟨fun h => absurd h last, fun _ => s.cmbOf_setCmb_same x _, fun y other => s.cmbOf_setCmb_ne _ other⟩

end

/-! ### COMB_DUMP -/

/-- The deadlines of the dwell's reference ticks have passed already, or are none. -/
theorem State.combJudge_of_judged {k : Nat} (session : s.cmbOf x = some m) (judged : s.sesReplay x = true ∨ k < m.judged) :
    State.combJudge (s, false) x k false = (s, false) := by
  simp only [State.combJudge, session]
  exact if_pos (by simpa using judged)

section
variable (session : s.cmbOf x = some m) (due : s.dumpDue x m d = true) (codes : s.presenceFinal x d = true)
  (judged : s.sesReplay x = true ∨ (s.cmbGrid x m).endTick d + (s.cmbGrid x m).w < m.judged)
include session codes judged

theorem State.combDump_eq : s.combDump x d [] m = (s.dumpIssued x d (s.cmbGrid x m) m, false) := by
  simp only [State.combDump, State.combJudge_of_judged session judged, State.finalise_of_final codes, session, Option.getD_some,
    List.filter_nil, State.each_nil]
  rw [State.dumpIssued, State.dumpEnded]
  split
  · rfl
  · rfl

include due

theorem exec_combDump : exec (.combDump x d []) s = .next (s.dumpIssued x d (s.cmbGrid x m) m) := by
  have row : exec (.combDump x d []) s = execCombDump x d [] s := rfl
  rw [row, execCombDump, session]
  dsimp only
  rw [if_pos due, State.combDump_eq session codes judged]
  rfl

end

end

end Sys2Proof.Machine
end


section
/-!
PROOFS. COMB_DUMP, for what it leaves, and O15.
-/
namespace Sys2Proof.Machine

/-- The session's registers and the load's. -/
def dumpRegs (x : Nat) : List Nat := [CMB_SESx_DWELL_LO x, CMB_SESx_SUSPECT x, CMB_SESx_STATUS x, CMB_LOAD, CMB_PEAK]

theorem CMB_SESx_DWELL_LO_not_mem_endedRegs (x : Nat) : CMB_SESx_DWELL_LO x ∉ endedRegs x := by
  simp only [endedRegs, List.mem_cons, List.not_mem_nil, or_false, not_or]
  unfold CMB_SESx_DWELL_LO CMB_SESx_STATUS CMB_LOAD CMB_PEAK
  omega

section
variable {s : State} {x d : Nat} {c : CtnSes} {m : CmbSes} (session : s.cmbOf x = some m) (final : m.renew = none)
include session final

/-- The dump taken changes, beside registers and sessions, what the model keeps of the dwell. -/
theorem State.dump_frame : ∃ r l, s.dumpIssued x d c m
    = { s.dumpTaken x d c with regs := r, cmb := { (s.dumpTaken x d c).cmb with ses := l } } := by
  have shown := (s.dumpTaken x d c).dumpShown_work x d c ((s.dumpOf x d c).blocks.any (·.suspect))
  obtain ⟨r, l, ended, -⟩ := State.dumpEnded_work (d := d) (c := c) ((shown.cmbOf x).trans session) final
  obtain ⟨r', frame⟩ := shown.frame
  refine ⟨r, l, ended.trans ?_⟩
  rw [frame]

theorem State.dump_regs : s.sameRegs (s.dumpIssued x d c m) (dumpRegs x) := by
  have shown := (s.dumpTaken x d c).dumpShown_work x d c ((s.dumpOf x d c).blocks.any (·.suspect))
  obtain ⟨-, -, -, ended⟩ := State.dumpEnded_work (d := d) (c := c) ((shown.cmbOf x).trans session) final
  have taken : s.sameRegs (s.dumpTaken x d c) (dumpRegs x) := State.sameRegs_of_regs_eq rfl
  exact (taken.trans (shown.regs.mono (by simp [dumpRegs]))).trans (ended.mono (by simp [endedRegs, dumpRegs]))

theorem State.rd_dump_dwell :
    (s.dumpIssued x d c m).rd (CMB_SESx_DWELL_LO x) = d % 2 ^ 32 := by
  have shown := (s.dumpTaken x d c).dumpShown_work x d c ((s.dumpOf x d c).blocks.any (·.suspect))
  obtain ⟨-, -, -, ended⟩ := State.dumpEnded_work (d := d) (c := c) ((shown.cmbOf x).trans session) final
  rw [State.dumpIssued, ended _ (CMB_SESx_DWELL_LO_not_mem_endedRegs x), State.rd_dumpShown_dwell]

theorem State.cmbOf_dump : let t := s.dumpIssued x d c m
    (m.last = some d → t.cmbOf x = none) ∧ (m.last ≠ some d → t.cmbOf x = some { m with dumped := some d, grid := c })
    ∧ ∀ y, y ≠ x → t.cmbOf y = s.cmbOf y := by
  have shown := (s.dumpTaken x d c).dumpShown_work x d c ((s.dumpOf x d c).blocks.any (·.suspect))
  obtain ⟨ends, stays, others⟩ := State.cmbOf_dumpEnded (d := d) (c := c) ((shown.cmbOf x).trans session) final
  exact ⟨ends, stays, fun y other => (others y other).trans (shown.cmbOf y)⟩

/-- Its slots' banks are clear, the others as they were. -/
theorem State.dsGet_dump (a : Nat) : (s.dumpIssued x d c m).dsGet a
    = (s.withDstore (s.cmb.dstore.filter (fun b => !(s.dumpKeys x d c).contains b.1))).dsGet a := by
  obtain ⟨r, l, frame⟩ := State.dump_frame (d := d) (c := c) session final
  rw [frame]
  rfl

end

/-- The grant and the room of the tick, as R262 and R537 give them, are what the comb takes. -/
theorem State.combCount_of_grant {s : State} {c k x n : Nat} {m : CmbSes} (live : s.sesReplay x = false)
    (unused : usedCycles s.cmb.used s.tick x c = 0)
    (grant : let left := s.combLeft x m c k
      let fit := (1000 - (if s.begun (k + 2) then s.combPos c else max (s.combPos c) (200 + 16 * c))) / (s.cmbGrid x m).mCycles
      s.grants = [] ∧ n = min left.length fit
      ∨ c < 16 ∧ ∃ r, s.grants.find? (fun r => r.x == x && r.unit == 0) = some r ∧ r.got < r.want ∧ (∀ it ∈ left, it.2.1 = c)
          ∧ n = min left.length (min ((r.got / 16 + if c < r.got % 16 then 1 else 0) / (s.cmbGrid x m).mCycles) fit)) :
    s.combCount x m c k = n := by
  have fit : s.combFit x m c k
      = (1000 - (if s.begun (k + 2) then s.combPos c else max (s.combPos c) (200 + 16 * c))) / (s.cmbGrid x m).mCycles := by
    rw [State.combFit, State.combAt, live]
    rfl
  rw [State.combCount, fit]
  rcases grant with ⟨free, count⟩ | ⟨hc, r, listed, short, own, count⟩
  · rw [State.combGrant_of_none unused free, count, ← min_assoc, min_self]
  · rw [State.combGrant_of_short unused hc listed short own, count]

/-- Settles O15: the tick work of a comb, and the dump of a dwell. -/
theorem combTakesTheWorkOfATickAndDumpsADwell : Obligations.CombTakesTheWorkOfATickAndDumpsADwell := by
  unfold Obligations.CombTakesTheWorkOfATickAndDumpsADwell
  refine ⟨?work, ?dump⟩
  case work =>
    intro c k x n m s g left dc key nx smp fit hc works begun open_ session only live earlier untouched grant
    have unused := usedCycles_of_unused untouched
    exact combTickWork_takes hc works begun open_ session only live earlier unused (State.combCount_of_grant live unused grant)
  case dump =>
    intro x d m s c maps nx md n own list session due codes judged final _
    obtain ⟨r, l, frame⟩ := State.dump_frame (d := d) (c := c) session final
    obtain ⟨ends, stays, others⟩ := State.cmbOf_dump (d := d) (c := c) session final
    have bank := State.dsGet_dump (d := d) (c := c) session final
    refine ⟨_, exec_combDump session due codes judged, ⟨s.dumpOf x d c, ?dumped, rfl, rfl, rfl, rfl, rfl, rfl, fun w g hw hg => ?block⟩,
      fun a owned => ?cleared, fun a other => ?kept, State.rd_dump_dwell session final, ends, stays, others,
      State.dump_regs session final, ?_⟩
    case dumped => rw [frame]; rfl
    case block => exact s.dumpOf_block x d c hw hg
    case cleared => rw [bank, State.dsGet_cleared _ ((s.mem_dumpKeys x d c a).mpr owned)]
    case kept => rw [bank, State.dsGet_kept _ (mt (s.mem_dumpKeys x d c a).mp other)]
    rw [frame]
    rfl

end Sys2Proof.Machine
end
